-- ==== Sys2Proof/Word.lean ====
section
/-! DEFINITION. The byte type and the sparse-table type every store of the device is made of. -/

namespace Sys2Proof

/-- One byte (R7: every multi-byte value is a little-endian run of these). -/
abbrev Byte := BitVec 8

/-- A sparse table: pairs of a key and a value, keys strictly rising, no pair holding the value that an
unlisted key reads as. -/
abbrev Tab (α : Type) := List (Nat × α)

end Sys2Proof
end

