-- ==== Sys2Proof/Syntax.lean ====
section
/-! DEFINITION. The commands of the block: one constructor for each row of the table of operations and events.
An operand that the environment supplies (a measured power, a symbol error, the outcome of a signature check) is a
field of the command that meets it. -/

namespace Sys2Proof

/-- A part that a reset below whole-device level covers (R411). -/
inductive ResetPart where
  | hearth (h : Fin 1024)
  | cluster (cl : Fin 128)
  | partition (n : Fin 8)
  deriving DecidableEq, Repr

/-- What a SECDED code finds in one word (R80, R240). -/
inductive SramOutcome where
  | clean
  | corrected
  | uncorrectable
  deriving DecidableEq, Repr

/-- Who reads a sector, as UE_LOG records it (R217). -/
inductive ReadSource where
  | demand
  | scrub
  | hob
  deriving DecidableEq, Repr

/-- A read request to a base die: its source, the context slot it is charged to and the HOB_CHAIN it carries. -/
structure HbmReq where
  source : ReadSource
  ctx : Option (Fin 16)
  chain : Fin 256
  deriving DecidableEq, Repr

/-- Who makes a request, by its index (R336), and the requesters whose requests for the same thing arrive in the same cycle (R335). -/
structure Turn where
  who : Fin 1046
  rivals : List (Fin 1046)
  deriving DecidableEq, Repr

/-- The path a dictionary access takes (R359), with what is needed to answer it. -/
inductive Path where
  | host
  | i3c
  | fabric (port : Fin 16) (srcId : Nat)
  deriving DecidableEq, Repr

/-- A temperature sensor of R389. -/
inductive Sensor where
  | region (g : Fin 16)
  | stack (st : Fin 32)
  | stoker (t : Fin 2)
  | port (p : Fin 16)
  deriving DecidableEq, Repr

/-- A unit whose energy R333 divides among context slots. -/
inductive EnergyUnit where
  | region (g : Fin 16)
  | stack (st : Fin 32)
  | stoker (t : Fin 2)
  | port (p : Fin 16)
  | other
  deriving DecidableEq, Repr

/-- A KFP frame in clear: the header fields of R275, the payload bytes and the ash bit of each payload line. -/
structure Frame where
  ftype : Fin 16
  vl : Fin 4
  keyIdx : Fin 2
  last : Bool
  dstId : Nat
  srcId : Nat
  addr : Nat
  linesM1 : Fin 256
  xferTag : Nat
  srcCtx : Fin 16
  attr : Fin 4
  hops : Fin 16
  nbr : Bool
  ext : Nat
  linkSeq : Nat
  payload : List Byte
  ash : List Bool
  deriving DecidableEq, Repr

/-- How a dictionary command arrives: the body of an MCTP message, its type byte first (R364), or an OD_REQ frame at a port (R363). The
command itself is what the bytes spell (R356). -/
inductive Carrier where
  | mctp (msg : List Byte)
  | frame (port : Fin 16) (f : Frame)
  deriving DecidableEq, Repr

/-- A command. Each constructor is one row of the table; its docstring names the rule and what comes about. -/
inductive Instr where
  /-- POWER_ON (R394): RESET_N rises with the standby rail good after turn-on; the Pilot boot ROM starts and samples CLASS_SEL. Operands: the two CLASS_SEL pin voltages in millivolts (R442). -/
  | powerOn (sel0 sel1 : Nat)
  /-- FIRMWARE_VERIFIED (R395): Manifest and image verification ends; the Pilot firmware runs from the active or the other slot, loads P objects, takes the device ID and BRIDGE_ENABLE, or enters RECOVERY. Operands: whether every signature and hash check of slot 0 and of slot 1 passed, and whether the last persistent record passes its check in a mirror. -/
  | firmwareVerified (crypto0 crypto1 : Bool) (persistOk : Bool)
  /-- REGION_PLL_LOCKED (R396): A region's PLL locks at OP4; the fuse map is applied and test round 1 begins. -/
  | regionPllLocked (g : Fin 16)
  /-- TEST_ROUND_END (R396): A 600,000-tick test round of a region ends; results are reconciled and the next round begins. Operands: physical hearths that failed the round with their failing test, and clusters whose cache failed it. -/
  | testRoundEnd (g : Fin 16) (failed : List (Nat × Nat)) (badCaches : List Nat)
  /-- STACK_TRAINING_DONE (R188): A stack's initialisation and training end and STACK_STATE becomes READY or DEGRADED. Operands: channels whose training failed its third attempt. -/
  | stackTrainingDone (st : Fin 32) (failed : List Nat)
  /-- FW_AREA_WRITTEN (R407): The Pilot's broadcast pass of the hearth image into the regions' firmware areas ends. -/
  | fwAreaWritten
  /-- CLUSTER_MULTICAST (R408): Once its area is written and round 1 has ended, a cluster router reads, hashes and writes every chunk into its tested hearths' control stores. Operands: chunks with the number of reads of each that fail the hash. -/
  | clusterMulticast (cl : Fin 128) (fails : List (Nat × Nat))
  /-- CHUNK_PULL (R409): A hearth holding a logical slot that lacks a chunk pulls it through its router; when none is missing it loads and enters the pool. Operands: number of reads of the pulled chunk that fail the hash. -/
  | chunkPull (cl : Fin 128) (fails : Nat)
  /-- PORT_PRESENCE_TIMEOUT (R400): A port that detects no neighbour signal within 500,000 ticks is not counted present for Ready. -/
  | portPresenceTimeout (p : Fin 16)
  /-- DEVICE_READY (R400): In the first tick where every present stack and port has finished training, DEVICE_READY is set and the ready event raised. -/
  | deviceReady
  /-- REGION_FULL_SERVICE (R401): A region in banked service enters full service once the device is Ready, all its hearths are settled and none is FIRING. -/
  | regionFullService (g : Fin 16)
  /-- RESET_N (R411): RESET_N driven low starts a whole-device reset. Operands: the two CLASS_SEL pin voltages in millivolts at the sampling that ends it (R442). -/
  | resetN (sel0 sel1 : Nat)
  /-- WHOLE_RESET (R411): A write of 0x5A5A to WHOLE_RESET starts a whole-device reset. Operands: the value written and the two CLASS_SEL pin voltages in millivolts (R442). -/
  | wholeReset (v sel0 sel1 : Nat)
  /-- PARTITION_RESET (R413): A write of a partition number aborts covered steps, advances generations, drains the partition's stacks into HOLD and brings its regions up again. Operands: the value written. -/
  | partitionReset (n : Nat)
  /-- CLUSTER_RESET (R413): A write of 1 resets a cluster's hearths, router, caches and flues behind the boundary proxy. Operands: the value written. -/
  | clusterReset (cl : Fin 128) (v : Nat)
  /-- HEARTH_RESET (R413): A write of 1 resets one logical hearth behind the boundary proxy, aborting steps that use it. Operands: the value written. -/
  | hearthReset (h : Fin 1024) (v : Nat)
  /-- RESET_DRAIN_TIMEOUT (R413): At tick 500 of a reset drain, unanswered accepted requests receive the absent response and later write data is absorbed as ash. Operands: accepted requests still unanswered at tick 500. -/
  | resetDrainTimeout (part : ResetPart) (unanswered : Nat)
  /-- RESET_TEST_DONE (R414): A hearth's 50,000-tick reset test ends; it loads firmware, or on failure is appended with SOURCE 2 and becomes absent. Operands: number of the failing test, 0 when the test passed. -/
  | resetTestDone (h : Fin 1024) (fail : Nat)
  /-- DEFECT_ADD (R417): A write to DEFECT_ADD appends a hearth or cache defect record with SOURCE 4. Operands: the record written. -/
  | defectAdd (v : Nat)
  /-- LANE_DEFECT_RECORD (R405): A lane marked down that fails its retries for 60 s is recorded with SOURCE 5. -/
  | laneDefectRecord (p : Fin 16) (rx : Bool) (lane : Fin 8)
  /-- FILL_STAGE_READ (R103): The fill stage reads the next table entry into the window, at most one per cycle. Operands: 8-byte scratchpad words, by number, in which the code finds an error when they are read (R80). -/
  | fillStageRead (h : Fin 1024) (sram : List (Nat × SramOutcome))
  /-- LOOP (R103): A LOOP entry is resolved at fill once its waits are met by committed values, beginning its first pass or skipping the body. Operands: 8-byte scratchpad words, by number, in which the code finds an error when they are read (R80). -/
  | loop (h : Fin 1024) (sram : List (Nat × SramOutcome))
  /-- BRANCH (R103): A BRANCH entry is resolved at fill once its waits are met, continuing at TARGET when its comparison holds. Operands: 8-byte scratchpad words, by number, in which the code finds an error when they are read (R80). -/
  | branch (h : Fin 1024) (sram : List (Nat × SramOutcome))
  /-- NOP (R106): A NOP fires, signals and completes in the same cycle. -/
  | nop (h : Fin 1024)
  /-- COUNTER (R100): A COUNTER entry fires and adds its addend to an operand counter, not below zero. -/
  | counter (h : Fin 1024)
  /-- GRATE (R43): A GRATE entry fires and folds its product onto the grates by n-block, m-block and k-block. Operands: feeder stall cycles met while folding (R40), and 8-byte scratchpad words, by number, with the words of the scale-slot table behind them, in which the code finds an error when they are read (R62, R80). -/
  | grate (h : Fin 1024) (stalls : Nat) (sram : List (Nat × SramOutcome))
  /-- FEEDER_READ (R39): A row-feeder queue with 16 or more free entries requests its next 16 elements, retrying each cycle it loses arbitration. Operands: requests that meet this one: bank, port index and, of port 2, row (R37), and 8-byte scratchpad words, by number, in which the code finds an error when they are read (R62, R80). -/
  | feederRead (h : Fin 1024) (row : Fin 32) (rivals : List (Nat × Nat × Nat)) (sram : List (Nat × SramOutcome))
  /-- OUTPUT_DRAIN (R47): A completed accumulator buffer is drained row by row through epilogue, maxima, scaling, conversion and scratchpad write. Operands: elements of the buffer (row times 128 plus column) whose code finds an error, and from 32,768 on words of the scale-slot table (R80). -/
  | outputDrain (h : Fin 1024) (errs : List (Nat × SramOutcome))
  /-- SKIP_CHECK_READ (R121): A check reader reads a block skipped for every grate through port 2 to find its true maximum. Operands: 8-byte scratchpad words, by number, in which the code finds an error when they are read (R62, R80). -/
  | skipCheckRead (h : Fin 1024) (sram : List (Nat × SramOutcome))
  /-- GRATE_ENTRY_COMPLETE (R70): At its last drain a GRATE entry makes its scale and skip checks and completes. -/
  | grateEntryComplete (h : Fin 1024)
  /-- VECTOR (R96): A VECTOR entry fires and runs its operation, with optional row reduction, over its elements. Operands: 8-byte scratchpad words, by number, in which the code finds an error when they are read (R62, R80), and elements whose vector register word meets one. -/
  | vector (h : Fin 1024) (sram regs : List (Nat × SramOutcome))
  /-- STREAM (R140): A STREAM entry fires, reads its descriptor and starts its transfer in a stream place. Operands: 8-byte scratchpad words, by number, in which the code finds an error when they are read (R80). -/
  | stream (h : Fin 1024) (sram : List (Nat × SramOutcome))
  /-- STREAM_LINE (R141): The stream engine translates and moves one far line of a transfer. Operands: what the code finds in the eight words of the scratchpad or slow-tier line read (R80, R240), and failed attempts of its transfers with base dies: stack times 2^30 plus sector, and how many (R174). -/
  | streamLine (h : Fin 1024) (place : Fin 32) (words : List SramOutcome) (crc : List (Nat × Nat))
  /-- STREAM_RESUME (R156): A STREAM_RESUME write with ABORT 0 retranslates the halted line and continues the transfer. -/
  | streamResume (h : Fin 1024) (place : Fin 32)
  /-- STREAM_RESUME_ABORT (R156): A STREAM_RESUME write with ABORT 1 handles the remaining lines natively and completes the transfer. -/
  | streamResumeAbort (h : Fin 1024) (place : Fin 32)
  /-- FLUE_ENTRY_WRITE (R162): A FLUE entry with FOP write is accepted by the flue router as write w, accepted, absorbed or dropped. Operands: 8-byte scratchpad words, by number, in which the code finds an error when they are read (R62, R80), and the other requesters whose requests reach the flue in the same cycle (R162). -/
  | flueEntryWrite (h : Fin 1024) (sram : List (Nat × SramOutcome)) (rivals : List (Fin 1046))
  /-- FLUE_ENTRY_READ (R162): A FLUE entry with FOP read is accepted as read r, copying a filled slot or underrunning. Operands: 8-byte scratchpad words, by number, in which the code finds an error when they are read (R62, R80), and the other requesters whose requests reach the flue in the same cycle (R162). -/
  | flueEntryRead (h : Fin 1024) (sram : List (Nat × SramOutcome)) (rivals : List (Fin 1046))
  /-- FLUE_WRITE_COPY_END (R162): A slot write copy ends; the slot becomes filled and a fill notice is yielded. -/
  | flueWriteCopyEnd (f : Fin 65536) (slot : Fin 256)
  /-- FLUE_READ_COPY_END (R162): A slot read copy ends; the slot becomes empty and a drain notice is yielded, locally or as a NOTICE frame. -/
  | flueReadCopyEnd (f : Fin 65536) (slot : Fin 256)
  /-- STEP_END (R106): A STEP_END fires alone in the window, clears counters, updates scale histories and releases the hearth. Operands: words of the scale-slot table, numbered behind those of the scratchpad, in which the code finds an error (R80). -/
  | stepEnd (h : Fin 1024) (sram : List (Nat × SramOutcome))
  /-- ENTRY_COMPLETE (R112): A VECTOR, STREAM or FLUE entry completes at its last write or transfer end and signals. Operands: the dynamic entry's number. -/
  | entryComplete (h : Fin 1024) (id : Nat)
  /-- ENTRY_RETIRE (R112): A complete entry whose checks and dependencies have settled retires and commits its provisional increments. Operands: the dynamic entry's number. -/
  | entryRetire (h : Fin 1024) (id : Nat)
  /-- BELLOWS_WALK (R115): The bellows walk the dynamic entry sequence up to 512 entries ahead of the fill stage. Operands: 8-byte scratchpad words, by number, in which the code finds an error when they are read (R80). -/
  | bellowsWalk (h : Fin 1024) (sram : List (Nat × SramOutcome))
  /-- BELLOWS_FETCH (R116): At a RUNAHEAD_OK stream whose waits are met, the bellows fetch the transfer into scratchpad or cluster cache. Operands: 8-byte scratchpad words, by number, in which the code finds an error when they are read (R80), and failed attempts of its transfers with base dies: stack times 2^30 plus sector, and how many (R174). -/
  | bellowsFetch (h : Fin 1024) (sram : List (Nat × SramOutcome)) (crc : List (Nat × Nat))
  /-- FIRING_STALL (R114): STALL_LIMIT ticks without progress raise firing-stall and abort the step. Operands: flues whose DRAUGHT_LIMIT ends in the same tick (R169). -/
  | firingStall (h : Fin 1024) (stuck : List (Fin 65536))
  /-- STEP_ABORT (R167): A step abort stops firing, runs out firing entries, withdraws provisional work, clears counters, resets the slot's flues and raises step-aborted. Operands: 0 illegal entry, 1 firing stall, 2 draught, 3 host request (R368). -/
  | stepAbort (c : Fin 16) (cause : Fin 4)
  /-- DRAUGHT_CHECK (R168): A flue full for DRAUGHT_LIMIT ticks is stuck and the watchdog searches for a cycle of waits. -/
  | draughtCheck (f : Fin 65536)
  /-- REMOTE_WRITE (R134): The cluster router accepts a remote write into a region with REMOTE_WR 1 or refuses it whole. Operands: first byte, bytes and ash mark of the write. -/
  | remoteWrite (h : Fin 1024) (off : Nat) (data : List Byte) (ash : Bool)
  /-- ARRIVAL_NOTICE (R135): An arrival notice is applied after its transfer's bytes settle, adding 1 to ARR_CTR of the first byte's region. Operands: scratchpad line of the transfer's first far byte. -/
  | arrivalNotice (h : Fin 1024) (line : Fin 32768)
  /-- FLUE_CFG_WRITE (R158): Any accepted write to FLUE_CFG resets the flue and applies the new configuration. Operands: the value written. -/
  | flueCfgWrite (f : Fin 65536) (v : Nat)
  /-- FLUE_FILL (R166): A FLUE_DOORBELL FILL applies writes that copy nothing to the flue. Operands: who writes the doorbell with the other requesters whose requests reach the flue in the same cycle (R162). -/
  | flueFill (f : Fin 65536) (countM1 : Fin 256) (turn : Turn)
  /-- FLUE_DRAIN (R166): A FLUE_DOORBELL DRAIN applies reads that copy nothing to the flue. Operands: who writes the doorbell with the other requesters whose requests reach the flue in the same cycle (R162). -/
  | flueDrain (f : Fin 65536) (countM1 : Fin 256) (turn : Turn)
  /-- FLUE_RESET (R161): A FLUE_DOORBELL RESET empties every slot and sets PUT and GET to 0. Operands: who writes the doorbell with the other requesters whose requests reach the flue in the same cycle (R162). -/
  | flueReset (f : Fin 65536) (turn : Turn)
  /-- HBM_READ (R193): A base die reads a sector in acceptance order, decodes and classifies it, decrypts it and applies any hob chain. Operands: sector number of the stack, request, symbol errors the stored word has taken since, failed transfer attempts (R174), and whose turn it is. -/
  | hbmRead (st : Fin 32) (sec : Nat) (rq : HbmReq) (errs : List (Nat × Nat)) (crcFails : Nat) (turn : Turn)
  /-- HBM_WRITE (R194): A base die encrypts and stores a sector, or stores an ash sector, merging partial writes. Operands: sector number, bytes, byte mask (empty: the whole sector), ash mark, context slot charged, failed transfer attempts (R174), and whose turn it is. -/
  | hbmWrite (st : Fin 32) (sec : Nat) (data : List Byte) (mask : List Bool) (ash : Bool) (ctx : Option (Fin 16)) (crcFails : Nat) (turn : Turn)
  /-- APERTURE_WRITE (R206): Engine 1 collects a sector written to a checkpoint aperture into its partial buffer, waiting when full. Operands: line of the aperture and its 64 bytes, failed transfer attempts (R174), and whose turn it is. -/
  | apertureWrite (st : Fin 32) (win : Fin 16) (line : Nat) (data : List Byte) (ash : Bool) (crcFails : Nat) (turn : Turn)
  /-- CKPT_AGE_FLUSH (R206): A partial block idle for CKPT_STALE ticks is flushed and stored as an ash block. -/
  | ckptAgeFlush (st : Fin 32) (win : Fin 16) (block : Nat)
  /-- APERTURE_READ (R207): Engine 0 decodes a checkpoint block into IN_FMT for a read of an aperture address. Operands: line of the aperture and request, failed transfer attempts (R174), and whose turn it is. -/
  | apertureRead (st : Fin 32) (win : Fin 16) (line : Nat) (rq : HbmReq) (crcFails : Nat) (turn : Turn)
  /-- FOLD_ADD (R213): Engine 1 reads a sector, adds incoming elements in FP32 or BF16 and writes the sum back. Operands: sector number, format and bytes, failed transfer attempts (R174), and whose turn it is. -/
  | foldAdd (st : Fin 32) (sec : Nat) (bf16 : Bool) (data : List Byte) (ash : Bool) (crcFails : Nat) (turn : Turn)
  /-- SCRUB_READ (R195): The base die reads the next sector of its scrub pass and writes back corrected sectors. Operands: symbol errors the next sector of the pass has taken since. -/
  | scrubRead (st : Fin 32) (errs : List (Nat × Nat))
  /-- PSEUDO_CHANNEL_POWER_DOWN (R181): A pseudo-channel idle for PD_IDLE ticks enters POWER_DOWN. -/
  | pseudoChannelPowerDown (st : Fin 32) (pch : Fin 64)
  /-- PSEUDO_CHANNEL_SELF_REFRESH (R181): A pseudo-channel idle for SR_IDLE ticks enters SELF_REFRESH. -/
  | pseudoChannelSelfRefresh (st : Fin 32) (pch : Fin 64)
  /-- HOLD_ENTER (R183): A draining pseudo-channel whose write tag count reaches zero enters HOLD. -/
  | holdEnter (st : Fin 32) (pch : Fin 64)
  /-- HOLD_DRAIN_TIMEOUT (R183): At tick 500 of a drain, remaining write tags are abandoned into the ash list and the pseudo-channel enters HOLD. -/
  | holdDrainTimeout (st : Fin 32) (pch : Fin 64)
  /-- LATE_WRITE_ABSORBED (R183): Data arriving for an abandoned tag is absorbed and counted, raising late-write-absorbed once per hold. Operands: sector of the abandoned tag. -/
  | lateWriteAbsorbed (st : Fin 32) (sec : Nat)
  /-- HOLD_END (R183): At the end of a hold every ash-list sector, or a whole marked pseudo-channel, is written as ash and requests resume. -/
  | holdEnd (st : Fin 32)
  /-- STACK_POWER_OFF (R185): A write of 0 to STACK_POWER_CTL drains every pseudo-channel into HOLD and then OFF. -/
  | stackPowerOff (st : Fin 32)
  /-- STACK_POWER_ON (R185): A write of 1 to STACK_POWER_CTL initialises every sector as ash and trains the stack. -/
  | stackPowerOn (st : Fin 32)
  /-- RETRAIN_REQUEST (R186): A write of a channel's bit to RETRAIN_REQUEST starts its retraining. Operands: the value written. -/
  | retrainRequest (st : Fin 32) (mask : Nat)
  /-- CHANNEL_RETRAIN_DONE (R186): Lane training ends and the channel's pseudo-channels return to ACTIVE. -/
  | channelRetrainDone (st : Fin 32) (ch : Fin 32)
  /-- CHANNEL_TRAIN_TIMEOUT (R187): Training not complete in 12,500 ticks is retried, and after three failures the channel enters FAILED. -/
  | channelTrainTimeout (st : Fin 32) (ch : Fin 32)
  /-- CKPT_WIN_WRITE (R204): A write to a checkpoint window flushes its partial blocks and then applies the new setting. Operands: the value written. -/
  | ckptWinWrite (st : Fin 32) (win : Fin 16) (v : Nat)
  /-- RUN_JOB (R214): A HOB_DOORBELL RUN_JOB queues a transpose, copy or fill job for engine 1. Operands: the doorbell word (R215). -/
  | runJob (st : Fin 32) (v : Nat)
  /-- ARM_BMAX (R212): A HOB_DOORBELL ARM_BMAX resets a window's records and count and arms it. Operands: the doorbell word. -/
  | armBmax (st : Fin 32) (v : Nat)
  /-- CLOSE_BMAX (R212): A HOB_DOORBELL CLOSE_BMAX writes a window's records out now and disarms it. Operands: the doorbell word. -/
  | closeBmax (st : Fin 32) (v : Nat)
  /-- FLUSH_CKPT (R219): A HOB_DOORBELL FLUSH_CKPT flushes every partial block of a checkpoint window. Operands: the doorbell word. -/
  | flushCkpt (st : Fin 32) (v : Nat)
  /-- HOB_DOORBELL_DONE (R215): Engine 1 finishes a doorbell's work and, with NOTIFY_EN, applies its arrival notice. -/
  | hobDoorbellDone (st : Fin 32)
  /-- HOB_CLOCK_STOP (R374): A base die's hob clocks stop after 500 ticks without work. -/
  | hobClockStop (st : Fin 32)
  /-- UPDATE (R250): A STOKER_DOORBELL UPDATE queues an update of a range of groups. Operands: the doorbell word (R249). -/
  | update (t : Fin 2) (v : Nat)
  /-- NORM (R253): A STOKER_DOORBELL NORM queues a gradient norm of a range of groups. Operands: the doorbell word. -/
  | norm (t : Fin 2) (v : Nat)
  /-- RESET_STATE (R254): A STOKER_DOORBELL RESET_STATE queues a reset of the optimiser state of a range of groups. Operands: the doorbell word. -/
  | resetState (t : Fin 2) (v : Nat)
  /-- GROUP_UPDATE (R256): The Stoker checks headers, updates a group chunk by chunk, advances STEP_COUNT and clears the headers. Operands: the chunk in which the working SRAM meets an uncorrectable error (R257), the slow-tier words, by number, in which the code finds an error (R240), and failed attempts of transfers with base dies: stack times 2^30 plus sector, and how many (R174). -/
  | groupUpdate (t : Fin 2) (sramAt : Option Nat) (errs : List (Nat × SramOutcome)) (crc : List (Nat × Nat))
  /-- PROGRAM_CHUNK_DONE (R266): A vector core returns from the group's program on a chunk, and the Stoker writes its results. Operands: the FP32 weights and state arrays the program returns (R266), the slow-tier words in which the code finds an error, whether the working SRAM meets an uncorrectable error (R257), and failed attempts of transfers with base dies: stack times 2^30 plus sector, and how many (R174). -/
  | programChunkDone (t : Fin 2) (chunk : Nat) (weights : List Nat) (states : List (List Nat)) (errs : List (Nat × SramOutcome)) (sram : Bool) (crc : List (Nat × Nat))
  /-- GROUP_NORM (R253): The Stoker sums (GRAD_SCALE × g)² over a group's gradient into GRAD_SQ_SUM. Operands: the chunk in which the working SRAM meets an uncorrectable error (R253), and failed attempts of transfers with base dies: stack times 2^30 plus sector, and how many (R174). -/
  | groupNorm (t : Fin 2) (sramAt : Option Nat) (crc : List (Nat × Nat))
  /-- GROUP_RESET_STATE (R254): The Stoker zeroes a group's state arrays and factors, sets roots to identity and STEP_COUNT to 0. -/
  | groupResetState (t : Fin 2)
  /-- STOKER_DOORBELL_DONE (R251): When every group of a doorbell is finished and its writes acknowledged, the Stoker sends its notice. -/
  | stokerDoorbellDone (t : Fin 2)
  /-- GROUP_ENABLE (R247): A write setting ENABLE in GROUP_CTL checks the group's settings and ranges and enables it or refuses. Operands: the value written to GROUP_CTL. -/
  | groupEnable (g : Fin 4096) (v : Nat)
  /-- GROUP_STATUS_WRITE (R246): A write of 1s to GROUP_STATUS clears bits, and clearing FALLBACK also zeroes CONSEC_FAILS and forces a root step. Operands: the value written. -/
  | groupStatusWrite (g : Fin 4096) (v : Nat)
  /-- SLOW_TIER_READ (R240): A hearth stream reads slow-tier lines, receiving ash for uncorrectable or poisoned words. Operands: 64-byte line number, what the code finds in its eight words (R240), and the other ports whose requests arrive in the same cycle (R241). -/
  | slowTierRead (h : Fin 1024) (t : Fin 2) (line : Nat) (ctx : Fin 16) (words : List SramOutcome) (rivals : List (Fin 3))
  /-- SLOW_TIER_WRITE (R240): A hearth stream writes slow-tier lines, storing ash lines as poison. Operands: 64-byte line number, bytes and ash mark, and the other ports whose requests arrive in the same cycle (R241). -/
  | slowTierWrite (h : Fin 1024) (t : Fin 2) (line : Nat) (ctx : Fin 16) (data : List Byte) (ash : Bool) (rivals : List (Fin 3))
  /-- STOKER_SLEEP (R242): A Stoker idle for SLEEP_IDLE ticks gates its clock and puts its LPDDR5X into self-refresh. -/
  | stokerSleep (t : Fin 2)
  /-- STOKER_WAKE (R242): A doorbell or slow-tier request wakes a sleeping Stoker in 1,000 ticks. -/
  | stokerWake (t : Fin 2)
  /-- STOKER_READY (R271): A Stoker's LPDDR5X and at least one link train and it becomes READY. Operands: mask of the two links that trained. -/
  | stokerReady (t : Fin 2) (links : Nat)
  /-- STOKER_TRAIN_TIMEOUT (R271): A failed LPDDR5X or link training attempt is retried, and the third failure can put the Stoker in FAILED. Operands: 0 LPDDR5X, 1 and 2 the two links. -/
  | stokerTrainTimeout (t : Fin 2) (part : Fin 3)
  /-- STOKER_SR_SEED_WRITE (R268): A write to a Stoker's SR_SEED restarts its stochastic-rounding sequence. Operands: the value written. -/
  | stokerSrSeedWrite (t : Fin 2) (v : Nat)
  /-- HEARTH_SR_SEED_WRITE (R60): A write to a hearth's SR_SEED restarts its random sequence from the written seed. Operands: the value written. -/
  | hearthSrSeedWrite (h : Fin 1024) (v : Nat)
  /-- WRITE (R282): A WRITE frame writes whole lines at its destination area, or rings doorbell words in the dictionary window. Operands: failed attempts of its transfers with base dies: stack times 2^30 plus sector, and how many (R174). -/
  | write (p : Fin 16) (f : Frame) (crc : List (Nat × Nat))
  /-- WRITE_PARTIAL (R282): A WRITE_PARTIAL frame writes the selected bytes of one line. Operands: failed attempts of its transfers with base dies: stack times 2^30 plus sector, and how many (R174). -/
  | writePartial (p : Fin 16) (f : Frame) (crc : List (Nat × Nat))
  /-- ADD (R282): An ADD frame fold-adds its lines into HBM data space or is refused at an aperture. Operands: failed attempts of its transfers with base dies: stack times 2^30 plus sector, and how many (R174). -/
  | add (p : Fin 16) (f : Frame) (crc : List (Nat × Nat))
  /-- READ_REQ (R282): A READ_REQ frame is served by one or more READ_RESP frames. Operands: 8-byte words of a scratchpad read whose code finds an error (R80), and failed attempts of its transfers with base dies: stack times 2^30 plus sector, and how many (R174). -/
  | readReq (p : Fin 16) (f : Frame) (errs : List (Nat × SramOutcome)) (crc : List (Nat × Nat))
  /-- READ_RESP (R294): A READ_RESP frame delivers read lines, or a status handled as refused, absent or faulting lines. -/
  | readResp (p : Fin 16) (f : Frame)
  /-- NOTICE (R461): A NOTICE frame applies an arrival notice, or with DRAIN set adds 1 to a producer hearth's counter. -/
  | notice (p : Fin 16) (f : Frame)
  /-- FLUE_WRITE (R277): A FLUE_WRITE frame places part of a proxy-forwarded slot write by its sequence stamp. Operands: the other requesters whose requests reach the flue in the same cycle (R162). -/
  | flueWrite (p : Fin 16) (f : Frame) (rivals : List (Fin 1046))
  /-- ACK (R293): An ACK frame acknowledges lines of a transfer or reports their status. -/
  | ack (p : Fin 16) (f : Frame)
  /-- OD_RESP (R363): An OD_RESP frame answers an earlier OD_REQ of this device. -/
  | odResp (p : Fin 16) (f : Frame)
  /-- UNKNOWN_FRAME (R276): A frame of an unknown type, or on a VL other than its own, is discarded and counted. -/
  | unknownFrame (p : Fin 16) (f : Frame)
  /-- CORRUPTED_FRAME (R279): A frame with an uncorrectable codeword or failing tag is discarded with later frames and a replay is requested. Operands: whether the frame failed its GCM tag rather than its FEC. -/
  | corruptedFrame (p : Fin 16) (authFail : Bool)
  /-- FRAME_FORWARD (R290): A frame for another device is decrypted, HOPS incremented, routed and re-encrypted for the next link. -/
  | frameForward (p : Fin 16) (f : Frame)
  /-- FRAME_TRANSMIT (R278): A port transmitter sends the next frame by VL priority when credits allow, keeping it for retry. -/
  | frameTransmit (p : Fin 16)
  /-- CREDIT_RETURN (R278): A LINK_CTL frame returns credits for a VL's receive buffer. Operands: 64-byte credits returned, and the LINK_SEQ below which frames are confirmed (R279). -/
  | creditReturn (p : Fin 16) (vl : Fin 4) (credits : Nat) (confirmed : Nat)
  /-- REPLAY_REQUEST (R279): A LINK_CTL replay request makes the transmitter resend frames unchanged from a LINK_SEQ. Operands: LINK_SEQ of the failed frame. -/
  | replayRequest (p : Fin 16) (seq : Nat)
  /-- KEY_SLOT_CHANGE (R297): A LINK_CTL key slot change moves traffic to the new session key slot. -/
  | keySlotChange (p : Fin 16) (slot : Fin 2)
  /-- FABRIC_TIMEOUT (R295): A line with no ACK or READ_RESP within FABRIC_TIMEOUT ticks is treated as absent. Operands: XFER_TAG of the oldest line still waited for. -/
  | fabricTimeout (tag : Nat)
  /-- CREDIT_STALL (R291): Frames waiting with no credit returning for CREDIT_STALL_LIMIT ticks raise credit-stall. -/
  | creditStall (p : Fin 16) (vl : Fin 4)
  /-- REKEY (R297): After REKEY_INTERVAL seconds or 2^40 frames a port establishes a new session in its other key slot. -/
  | rekey (p : Fin 16)
  /-- SEC_OFFER (R426): An OFFER message delivers the neighbour's random value, device ID and certificates. Operands: the neighbour's OFFER and the outcome of checks 1 and 2 of R426, and the payload lines of its frame. -/
  | secOffer (p : Fin 16) (random devId : Nat) (serial : List Byte) (chainOk linkCertOk : Bool) (lines : Nat)
  /-- SEC_KEY (R426): A KEY message delivers the neighbour's ephemeral key and its identity signature. Operands: the neighbour's KEY and the outcome of check 3, and the payload lines of its frame. -/
  | secKey (p : Fin 16) (ephemeral : Nat) (sigOk : Bool) (lines : Nat)
  /-- SEC_FINISH (R426): A FINISH message completes verification and derives session keys, putting the port UP or REJECTED. Operands: the outcome of check 5, and the payload lines of its frame. -/
  | secFinish (p : Fin 16) (macOk : Bool) (lines : Nat)
  /-- PORT_TRAINED (R446): Lane training of a port ends, exchanging fibre halves where needed, and the port authenticates. Operands: masks of good lanes, the two 64-bit random values, and whether light fell on the transmit half and none on the receive half (R446). -/
  | portTrained (p : Fin 16) (tx rx : Nat) (own other : Nat) (lightOnTx : Bool)
  /-- FIBRE_DARK (R447): A position with no light within 1 ms is dark; its lanes are marked down and fibre-open is raised. Operands: fibre position 1..16. -/
  | fibreDark (p : Fin 16) (position : Nat)
  /-- LANE_DOWN (R301): A lane losing signal or meeting 64 uncorrectable codewords is marked down and the direction narrows or goes DOWN. -/
  | laneDown (p : Fin 16) (rx : Bool) (lane : Fin 8)
  /-- WIDTH_CHANGE_DONE (R302): Both ends finish reconfiguring to a new width and the transmitter replays unconfirmed frames. -/
  | widthChangeDone (p : Fin 16)
  /-- PORT_DOWN_HOLD_EXPIRY (R303): A port still DOWN after PORT_DOWN_HOLD ticks discards its held frames and answers them as unroutable. -/
  | portDownHoldExpiry (p : Fin 16)
  /-- LANE_RETRY (R304): Every LANE_RETRY_INTERVAL ticks a lane that is down is trained again, widening the direction when enough lanes are good. Operands: lanes that train, receive side marked true. -/
  | laneRetry (p : Fin 16) (trained : List (Bool × Nat))
  /-- LANE_IDLE (R305): A port with nothing to send or receive for LANE_IDLE ticks idles its lanes. -/
  | laneIdle (p : Fin 16)
  /-- LANE_WAKE (R305): A frame to send or a wake request wakes idle lanes in 2 µs. -/
  | laneWake (p : Fin 16)
  /-- PORT_ENABLE (R313): A write of 1 to PORT_CTL powers the port and starts its training. -/
  | portEnable (p : Fin 16)
  /-- PORT_DISABLE (R313): A write of 0 to PORT_CTL unpowers the lanes and answers held frames as unroutable. -/
  | portDisable (p : Fin 16)
  /-- ROUTE_IN_GROUP_WRITE (R289): A write to ROUTE_IN_GROUP changes member routes once old queued frames are sent, and recomputes distances. -/
  | routeInGroupWrite (off : Nat) (data : List Byte)
  /-- ROUTE_CROSS_GROUP_WRITE (R287): A write to ROUTE_CROSS_GROUP changes group port masks at once and recomputes distances. -/
  | routeCrossGroupWrite (off : Nat) (data : List Byte)
  /-- DISTANCE_PROBE_TIMEOUT (R300): A probe unanswered within 50,000 ticks records 0xFF in HOP_MAP. -/
  | distanceProbeTimeout (m : Fin 512)
  /-- HOST_WINDOW_STORE (R308): A host store to BAR 2 goes through its host window locally or as a WRITE or OD_REQ frame. Operands: BAR 2 offset and bytes, and failed attempts of its transfers with base dies: stack times 2^30 plus sector, and how many (R174). -/
  | hostWindowStore (off : Nat) (data : List Byte) (crc : List (Nat × Nat))
  /-- HOST_WINDOW_LOAD (R312): A host load from BAR 2 is sent through its host window, held behind earlier stores to other groups. Operands: failed attempts of its transfers with base dies: stack times 2^30 plus sector, and how many (R174). -/
  | hostWindowLoad (off len : Nat) (crc : List (Nat × Nat))
  /-- HOST_LOAD_TIMEOUT (R309): A host load without a fabric answer in 8 ms returns all ones and raises host-access-error. -/
  | hostLoadTimeout (tag : Nat)
  /-- HOST_LINK_UP (R307): The bridge's PCIe link trains and HOST_LINK_STATE reads up. -/
  | hostLinkUp (speed width : Nat)
  /-- HOST_LINK_DOWN (R311): The bridge's host link goes down and outstanding host answers are absorbed. -/
  | hostLinkDown
  /-- PERST (R439): PERST_N resets the bridge's host port. -/
  | perst
  /-- BAR_ACCESS (R361): The bridge serves a PCIe access to BAR 0/1 slot by slot, recording failures in MM_LAST_ERROR. Operands: whether BAR 4/5 rather than BAR 0/1, offset, length and, for a write, the bytes. -/
  | barAccess (table : Bool) (off len : Nat) (data : Option (List Byte))
  /-- LAUNCH (R323): A STEP_DOORBELL LAUNCH adds steps to PENDING_STEPS. -/
  | launch (c : Fin 16) (countM1 : Fin 256)
  /-- ABORT (R323): A STEP_DOORBELL ABORT aborts the slot's running step with cause host request and halts the slot. -/
  | abort (c : Fin 16)
  /-- CANCEL (R323): A STEP_DOORBELL CANCEL sets PENDING_STEPS to 0. -/
  | cancel (c : Fin 16)
  /-- RESUME (R323): A STEP_DOORBELL RESUME takes a HALTED slot to WAITING or IDLE. -/
  | resume (c : Fin 16)
  /-- CTX_ENABLE_WRITE (R316): A write to CTX_ENABLE enables a slot or disables it, cancelling pending steps and clearing a halt. Operands: the value written. -/
  | ctxEnableWrite (c : Fin 16) (v : Nat)
  /-- SCHEDULER_PASS (R330): At the end of each tick the scheduler ranks waiting slots and starts steps on free alternatives or reserves hearths. Operands: hearths whose grates or vector unit went on with work begun earlier, and hearths that the firing duty withheld, in the tick (R232, R382). -/
  | schedulerPass (busy throttled : List Nat)
  /-- HEARTH_START_COMMAND (R324): A hearth receives a start command, discards cache lines, latches L objects and ENTRY_VEC, and begins its part of the step. -/
  | hearthStartCommand (h : Fin 1024)
  /-- SCALE_SLOT_EXCHANGE (R77): A hearth writes its scale-slot table to the outgoing context's save area and reads the incoming one's. Operands: words of the scale-slot table, numbered behind those of the scratchpad, in which the code finds an error (R80), and failed attempts of its transfers with base dies: stack times 2^30 plus sector, and how many (R174). -/
  | scaleSlotExchange (h : Fin 1024) (sram : List (Nat × SramOutcome)) (crc : List (Nat × Nat))
  /-- CLUSTER_RELEASE (R387): A cluster's hearths begin their fill stage after the staggered delay of their release slot. -/
  | clusterRelease (cl : Fin 128)
  /-- STEP_COMPLETE (R325): When every hearth of a placement has ended its part, the step ends as completed or aborted. -/
  | stepComplete (c : Fin 16)
  /-- TLB_INVALIDATE (R322): A write of 1 makes every translation cache drop the slot's entries. Operands: the value written. -/
  | tlbInvalidate (c : Fin 16) (v : Nat)
  /-- TLB_INVALIDATE_DONE (R322): Every cache has dropped the slot's entries and TLB_INVAL_PENDING reads 0. -/
  | tlbInvalidateDone (c : Fin 16)
  /-- ENERGY_ATTRIBUTION (R333): At the end of each 50,000-tick interval the measured energy is divided among slots and the unattributed account. Operands: measured energy of each unit in microjoules. -/
  | energyAttribution (units : List (EnergyUnit × Nat))
  /-- ACCOUNTS_SNAPSHOT (R337): A write of 1 copies every account of the slot into the snapshot objects in one tick. Operands: the value written. -/
  | accountsSnapshot (c : Fin 16) (v : Nat)
  /-- ACCOUNTS_CLEAR (R337): A write of 1 clears the slot's accounts and idle sums. Operands: the value written. -/
  | accountsClear (c : Fin 16) (v : Nat)
  /-- COUNTERS_CLEAR (R80): A write of 1 clears the hearth's arithmetic counters. Operands: the value written. -/
  | countersClear (h : Fin 1024) (v : Nat)
  /-- SEQ_COUNTERS_CLEAR (R127): A write of 1 clears the hearth's sequencer statistics. Operands: the value written. -/
  | seqCountersClear (h : Fin 1024) (v : Nat)
  /-- STREAM_COUNTERS_CLEAR (R170): A write of 1 clears the hearth's stream statistics. Operands: the value written. -/
  | streamCountersClear (h : Fin 1024) (v : Nat)
  /-- IDLE_COUNTERS_CLEAR (R234): A write of 1 clears the hearth's busy and idle counters. Operands: the value written. -/
  | idleCountersClear (h : Fin 1024) (v : Nat)
  /-- HBM_COUNTERS_CLEAR (R217): A write of 1 clears the stack's memory counters. Operands: the value written. -/
  | hbmCountersClear (st : Fin 32) (v : Nat)
  /-- HOB_COUNTERS_CLEAR (R217): A write of 1 clears the stack's hob counters. Operands: the value written. -/
  | hobCountersClear (st : Fin 32) (v : Nat)
  /-- GROUP_COUNTERS_CLEAR (R244): A write of 1 clears the group's failure, skew and skip counters. Operands: the value written. -/
  | groupCountersClear (g : Fin 4096) (v : Nat)
  /-- STOKER_COUNTERS_CLEAR (R270): A write of 1 clears the Stoker's counters. Operands: the value written. -/
  | stokerCountersClear (t : Fin 2) (v : Nat)
  /-- PORT_COUNTERS_CLEAR (R313): A write of 1 clears the port's counters. Operands: the value written. -/
  | portCountersClear (p : Fin 16) (v : Nat)
  /-- FABRIC_COUNTERS_CLEAR (R314): A write of 1 clears the device-global fabric counters. Operands: the value written. -/
  | fabricCountersClear (v : Nat)
  /-- OBJECT_WRITE (R345): A write to an object without a row of its own is checked by type, right and instance state and applied. Operands: object and value written. -/
  | objectWrite (path : Path) (index sub : Nat) (v : Nat)
  /-- OD_READ (R356): A READ command returns a scalar value or bytes of a STRING or DOMAIN. Operands: the message or frame that carries the command. -/
  | odRead (c : Carrier)
  /-- OD_WRITE (R356): A WRITE command writes a scalar, or places bytes into a STRING or DOMAIN. Operands: the message or frame that carries the command. -/
  | odWrite (c : Carrier)
  /-- DESCRIBE (R356): A DESCRIBE command returns an object's DESC_RESULT and DESC_DEFAULT. Operands: the message or frame that carries the command. -/
  | describe (c : Carrier)
  /-- EVENT_READ (R356): An EVENT_READ command returns event records from a sequence number, or NOT_YET. Operands: the message or frame that carries the command. -/
  | eventRead (c : Carrier)
  /-- EVENT_NOTICE (R370): A received EVENT_NOTICE writes a remote-event record into the device's own ring. Operands: the sender's device ID and SEQ. -/
  | eventNotice (src seq : Nat)
  /-- EVENT_OLDEST_SEQ_READ (R369): A read of EVENT_OLDEST_SEQ re-arms the event-overwrite event. -/
  | eventOldestSeqRead (path : Path)
  /-- FETCH_SEQ_WRITE (R370): A write to FETCH_SEQ captures that record into FETCH_W0..W3 and sets FETCH_STATUS. Operands: the value written. -/
  | fetchSeqWrite (v : Nat)
  /-- DP_GO_READ (R360): A DP_GO write of 1 copies bytes of a STRING or DOMAIN into DP_DATA. -/
  | dpGoRead
  /-- DP_GO_WRITE (R360): A DP_GO write of 2 writes DP_DATA bytes into a STRING or DOMAIN. -/
  | dpGoWrite
  /-- DESC_TARGET_WRITE (R360): A write to DESC_TARGET updates DESC_RESULT and DESC_DEFAULT in the same access. Operands: the value written. -/
  | descTargetWrite (v : Nat)
  /-- PERSIST_SAVE (R350): A write of 1 stores the running value of every P object as a record in the ember store. Operands: the value written. -/
  | persistSave (v : Nat)
  /-- PERSIST_RESTORE_DEFAULTS (R351): A write of 1 marks the record so the next whole-device reset loads reset values. Operands: the value written. -/
  | persistRestoreDefaults (v : Nat)
  /-- SET_ENDPOINT_ID (R364): The MCTP Set Endpoint ID control message sets the endpoint's ID. -/
  | setEndpointId (eid : Byte)
  /-- GET_ENDPOINT_ID (R364): The MCTP Get Endpoint ID control message returns the endpoint's ID. -/
  | getEndpointId
  /-- GET_MCTP_VERSION_SUPPORT (R364): The MCTP Get MCTP Version Support control message returns supported versions. Operands: message type asked about. -/
  | getMctpVersionSupport (typ : Byte)
  /-- GET_MESSAGE_TYPE_SUPPORT (R364): The MCTP Get Message Type Support control message returns supported types. -/
  | getMessageTypeSupport
  /-- GET_VENDOR_DEFINED_MESSAGE_SUPPORT (R364): The MCTP Get Vendor Defined Message Support control message returns vendor support. -/
  | getVendorDefinedMessageSupport (selector : Byte)
  /-- ENTDAA (R364): The ENTDAA CCC assigns the I3C target a dynamic address. Operands: the dynamic address the controller assigns. -/
  | entdaa (addr : Fin 128)
  /-- SETDASA (R364): The SETDASA CCC assigns the I3C target a dynamic address from its static address. Operands: the static address named and the dynamic address assigned. -/
  | setdasa (stat addr : Fin 128)
  /-- RSTDAA (R364): The RSTDAA CCC resets the target's dynamic address. -/
  | rstdaa
  /-- ENEC (R364): The ENEC CCC enables the target's in-band interrupts. -/
  | enec
  /-- DISEC (R364): The DISEC CCC disables the target's in-band interrupts. -/
  | disec
  /-- GETPID (R364): The GETPID CCC returns the target's provisioned ID. -/
  | getpid
  /-- GETBCR (R364): The GETBCR CCC returns the bus characteristics register. -/
  | getbcr
  /-- GETDCR (R364): The GETDCR CCC returns the device characteristics register. -/
  | getdcr
  /-- GETMXDS (R364): The GETMXDS CCC returns the maximum data speeds. -/
  | getmxds
  /-- GETSTATUS (R364): The GETSTATUS CCC returns the target's status. -/
  | getstatus
  /-- PILOT_WATCHDOG_EXPIRY (R372): The Pilot watchdog expires and the management core restarts from the ember store. -/
  | pilotWatchdogExpiry
  /-- PILOT_SRAM_ERROR (R372): An uncorrectable Pilot SRAM error returned to the core restarts the core. Operands: whether the code corrected the error (R371). -/
  | pilotSramError (corrected : Bool)
  /-- PILOT_RESTART_DONE (R372): The Pilot restart ends; held events reach the ring, PILOT_RESTARTS increments and pilot-restart is raised, or DEGRADED after three. Operands: whether every signature and hash check of the running image passed (R423). -/
  | pilotRestartDone (crypto : Bool)
  /-- REGION_CLOCK_STOP (R375): A region idle for REGION_IDLE ticks stops its arithmetic clock. -/
  | regionClockStop (g : Fin 16)
  /-- REGION_CLOCK_START (R374): A stopped region's PLL starts and locks at its target point and waiting requests are served. -/
  | regionClockStart (g : Fin 16)
  /-- OP_MOVE_DONE (R377): A region's move to a new operating point completes, and a pending target starts the next move. -/
  | opMoveDone (g : Fin 16)
  /-- PHASE_DOORBELL (R379): A PHASE_DOORBELL write sets the current phase of the masked regions. Operands: the doorbell word. -/
  | phaseDoorbell (v : Nat)
  /-- CONTROL_PERIOD (R381): At the end of each control period the power controller steps ceilings or firing duty, and temperatures are acted on. Operands: mean module, silicon and die power of the period in milliwatts, temperatures in tenths of a degree. -/
  | controlPeriod (moduleMw siliconMw : Nat) (dieMw : List Nat) (temps : List (Sensor × Int))
  /-- DAMPER_N_FALL (R385): A falling edge of DAMPER_N or the internal net stops firing and takes every region to OP0. Operands: whether the internal net, not the pin, fell. -/
  | damperNFall (internal : Bool)
  /-- DAMPER_RELEASE (R386): DAMPER_N high for DAMPER_HOLD ticks lets the controller resume stepping up from OP0. -/
  | damperRelease
  /-- INPUT_LOSS (R452): Input below 42 V for 2 µs asserts the damper net, unpowers the silicon and powers the Pilot down after any store operation. -/
  | inputLoss
  /-- INPUT_RETURN (R452): Input returning while the Pilot runs, held at 45 V for 100 ms, restarts power-on from tick 0. -/
  | inputReturn
  /-- INPUT_LOW (R440): Input entering 42..46 V sets INPUT_STATE LOW, limits power by voltage and raises input-low. Operands: input in millivolts. -/
  | inputLow (mv : Nat)
  /-- INPUT_OVERCURRENT (R440): Input above 85 A for 10 µs asserts the internal damper net. -/
  | inputOvercurrent
  /-- SIDEBAND_PIN_FAULT (R448): A detected sideband pin fault sets SIDEBAND_STATUS, latches SIDEBAND_FAULTS and raises sideband-pin-fault. Operands: bit of SIDEBAND_STATUS, and whether the fault begins or ends. -/
  | sidebandPinFault (pin : Fin 9) (present : Bool)
  /-- PULLDOWN_TEST (R449): Every second the Pilot pulls RESET_N and DAMPER_N down for 1 µs to detect shorts to 3.3 V. Operands: pins that still read high under the pull-down. -/
  | pulldownTest (resetHigh damperHigh : Bool)
  /-- HOLDUP_MEASURE (R451): Every 5,000 ticks the Pilot measures the hold-up bank's usable energy, raising holdup-degraded when low. Operands: usable energy in millijoules, and whether the bank is at full charge. -/
  | holdupMeasure (mj : Nat) (full : Bool)
  /-- STORE_OPERATION_START (R457): The store starts the next queued program or erase on one mirror if the energy check passes, or defers it. Operands: usable energy measured before the operation. -/
  | storeOperationStart (mj : Nat)
  /-- STORE_OPERATION_DONE (R454): A program or erase on a mirror ends, or fails and marks the mirror failed. -/
  | storeOperationDone (ok : Bool)
  /-- STORE_RETRY (R457): A deferred store operation is tried again every 50,000 ticks. Operands: usable energy measured before the operation. -/
  | storeRetry (mj : Nat)
  /-- BEGIN (R424): FW_UPDATE_CTL BEGIN erases the inactive slot and sets it RECEIVING. -/
  | fwBegin
  /-- PROGRAM (R424): FW_UPDATE_CTL PROGRAM programs FW_STAGE into the receiving slot at an offset. Operands: slot offset, bits [20:0] of FW_UPDATE_CTL. -/
  | fwProgram (off : Nat)
  /-- VERIFY (R423): FW_UPDATE_CTL VERIFY verifies the receiving slot as VERIFIED or REJECTED. Operands: outcome of the key, signature and chunk hash checks of R423. -/
  | fwVerify (keyOk sigOk hashOk : Bool)
  /-- ACTIVATE (R424): FW_UPDATE_CTL ACTIVATE appends a slot-select record so the slot runs from the next whole-device reset. -/
  | fwActivate
  /-- FW_UPDATE_ABORT (R424): FW_UPDATE_CTL ABORT empties the slot and clears the pending flag and measurement. -/
  | fwUpdateAbort
  /-- FW_CONFIRM (R425): A write of 1 raises the SECURITY_VERSION counter to the running manifest's level. Operands: the value written. -/
  | fwConfirm (v : Nat)
  /-- BUNDLE_LOAD (R429): A write of a header address unwraps the bundle key and starts in-place decryption of the segments. Operands: header address and the outcome of the key unwrap. -/
  | bundleLoad (addr : Nat) (unwrapOk : Bool)
  /-- BUNDLE_LOADED (R429): Every segment tag passes; a handle is issued, M4 extended and bundle-loaded raised. -/
  | bundleLoaded
  /-- BUNDLE_RELEASE (R431): A write of a handle writes the bundle's segments as ash and frees its handle slot. Operands: the value written. -/
  | bundleRelease (handle : Nat)
  /-- QUOTE_REQ (R433): A write of a nonce to QUOTE_REQ_n takes the quote's values and starts signing. -/
  | quoteReq (n : Fin 4) (nonce : List Byte)
  /-- QUOTE_READY (R434): Signing ends; the quote is readable in QUOTE_n and QUOTE_STATUS_n becomes READY. -/
  | quoteReady (n : Fin 4)
  /-- PROGRAM_FAULTED (R267): A vector core running a chunk executes an illegal instruction, touches memory outside its buffers, or runs past CYCLE_BUDGET cycles; the chunk writes nothing, program-fault is raised and the group is interrupted. -/
  | programFaulted (t : Fin 2) (chunk : Nat)
  /-- BUNDLE_LOAD_FAILURE (R430): A base die finishes decrypting a segment whose GCM tag fails, or a load access meets the absent response; the bundle's segments are written as ash, BUNDLE_RESULT is set and bundle-failed is raised. Operands: 0 a segment's tag, 1 an absent response. -/
  | bundleLoadFailure (cause : Fin 2)
  /-- INPUT_REVERSED (R450): A reversed 54 V input meets the ideal-diode front end, which draws under 1 mA and records the reversal in its non-volatile latch. -/
  | inputReversed
  /-- DAMPER_N_RISE (R386): DAMPER_N, or the internal damper net when an overcurrent ends, returns high and begins the uninterrupted DAMPER_HOLD count. -/
  | damperNRise (internal : Bool)
  /-- INPUT_NORMAL (R440): The 54 V input returns from the 42..46 V low range into its operating range; INPUT_STATE becomes NORMAL and the voltage-based power limit is lifted. Operands: input in millivolts. -/
  | inputNormal (mv : Nat)
  deriving DecidableEq, Repr

end Sys2Proof
end

