-- ==== Sys2Proof/Decode.lean ====
section
/-! DEFINITION. Commands read from words. The table of commands gives no row any bits: the device takes commands as accesses,
frames and pin events, never as encoded words. So no word spells a command. -/

namespace Sys2Proof

/-- The command a word spells by the table's bits: none, since the table gives no row bits. -/
def decodeTableWord (_nbits _w : Nat) : Option Instr := none

end Sys2Proof
end

