-- ==== Sys2Proof/Machine/Ecc.lean ====
section
/-! DEFINITION. The check code of R189: GF(2^8) arithmetic, syndromes of an error pattern, a decoder of bounded distance, and
the ash syndrome of R194. -/

namespace Sys2Proof.Machine

/-- Multiply by α = 0x02 in the field of R189. -/
def gfStep (a : Nat) : Nat := if 256 ≤ 2 * a then Nat.xor (2 * a) 0x11D else 2 * a

/-- Product by shift and add over the low `n` bits of `b`. -/
def gfMulBits : Nat → Nat → Nat → Nat
  | 0, _, _ => 0
  | n + 1, a, b => Nat.xor (if b % 2 = 1 then a else 0) (gfMulBits n (gfStep a) (b / 2))

/-- Product in GF(2^8). -/
def gfMul (a b : Nat) : Nat := gfMulBits 8 a b

/-- Power in GF(2^8). -/
def gfPow (a : Nat) : Nat → Nat
  | 0 => 1
  | n + 1 => gfMul a (gfPow a n)

/-- Inverse in GF(2^8); 0 gives 0. -/
def gfInv (a : Nat) : Nat := gfPow a 254

/-- α^k. -/
def gfAlpha (k : Nat) : Nat := gfPow 2 (k % 255)

/-- Horner evaluation of a polynomial with coefficients from the constant term up. -/
def gfEval (x : Nat) : List Nat → Nat
  | [] => 0
  | c :: cs => Nat.xor c (gfMul x (gfEval x cs))

/-- Sum of two polynomials. -/
def gfAddPoly : List Nat → List Nat → List Nat
  | [], b => b
  | a, [] => a
  | x :: a, y :: b => Nat.xor x y :: gfAddPoly a b

/-- A polynomial times c·x^m. -/
def gfScale (c m : Nat) (p : List Nat) : List Nat := List.replicate m 0 ++ p.map (gfMul c)

/-- Product of two polynomials. -/
def gfMulPoly : List Nat → List Nat → List Nat
  | [], _ => []
  | a :: p, q => gfAddPoly (gfScale a 0 q) (0 :: gfMulPoly p q)

/-- Check symbols c_64..c_71 of the 64 data symbols, highest power first: m(x)·x^8 mod g(x) (R189). -/
def rsCheck (data : List Nat) : List Nat :=
  let g := (List.range 8).foldl (fun p i => gfMulPoly p [gfAlpha i, 1]) [1]
  let low := (g.take 8).reverse
  data.foldl (fun r c =>
    let f := Nat.xor c (r.headD 0)
    gfAddPoly (r.tail ++ [0]) (low.map (gfMul f))) (List.replicate 8 0)

/-- Syndromes S_0..S_7 of an error pattern: pairs of a symbol number and its error (R189). -/
def rsSyndromes (errs : List (Nat × Nat)) : List Nat :=
  (List.range 8).map fun j => errs.foldl (fun s e => Nat.xor s (gfMul e.2 (gfAlpha (j * (71 - e.1))))) 0

/-- XOR of two syndromes. -/
def rsXor (a b : List Nat) : List Nat := List.zipWith Nat.xor a b

/-- Syndrome of the ash sector of R194: data zero, every check byte 0xA5. -/
def ashSyndrome : List Nat := rsSyndromes ((List.range 8).map fun i => (64 + i, 0xA5))

/-- State of the error-locator iteration: locator, previous locator, its length, gap and discrepancy. -/
structure RsIter where
  c : List Nat
  b : List Nat
  l : Nat
  m : Nat
  d : Nat

/-- One round of the error-locator iteration with syndromes `s` at index `n`. -/
def rsRound (s : List Nat) (r : RsIter) (n : Nat) : RsIter :=
  let d := (List.range (r.l + 1)).foldl (fun x i => Nat.xor x (gfMul (r.c.getD i 0) (if i ≤ n then s.getD (n - i) 0 else 0))) 0
  if d = 0 then { r with m := r.m + 1 }
  else
    let c := gfAddPoly r.c (gfScale (gfMul d (gfInv r.d)) r.m r.b)
    if 2 * r.l ≤ n then ⟨c, r.c, n + 1 - r.l, 1, d⟩ else { r with c := c, m := r.m + 1 }

/-- The error pattern of at most `t` symbols with the given syndromes, if there is one (R192). -/
def rsDecode (t : Nat) (s : List Nat) : Option (List (Nat × Nat)) :=
  if s.all (· = 0) then some []
  else
    let r := (List.range 8).foldl (rsRound s) ⟨[1], [1], 0, 1, 1⟩
    let pos := (List.range 72).filter fun i => gfEval (gfAlpha (255 - (71 - i))) r.c = 0
    if t < r.l ∨ pos.length ≠ r.l then none
    else
      let om := (gfMulPoly s r.c).take 8
      let der := ((r.c.drop 1).zipIdx).map fun ci => if ci.2 % 2 = 0 then ci.1 else 0
      let errs := pos.map fun i =>
        let x := gfAlpha (255 - (71 - i))
        (i, gfMul (gfAlpha (71 - i)) (gfMul (gfEval x om) (gfInv (gfEval x der))))
      if rsSyndromes errs = s ∧ errs.all (fun e => decide (e.2 ≠ 0)) then some errs else none

/-- How a base die classifies a sector it reads (R193): clean, ash (with whether symbols were corrected), corrected, or
uncorrectable. `left` is the error pattern that stays in the delivered word. -/
inductive Verdict where
  | clean (left : List (Nat × Nat))
  | ash (fixed : Bool)
  | corrected (left : List (Nat × Nat))
  | bad (left : List (Nat × Nat))
  deriving DecidableEq, Repr

/-- Symbols a mode corrects (R192). -/
def eccRadius : Nat → Nat
  | 0 => 4
  | 1 => 2
  | _ => 0

/-- Two error patterns added, in canonical form. -/
def addErrs (a b : List (Nat × Nat)) : List (Nat × Nat) :=
  b.foldl (fun t e => tset 0 t e.1 (Nat.xor (tget 0 t e.1) (e.2 % 256))) a

/-- The tests of R193, in their order, for a stored word that is or is not the ash sector and carries errors `errs`. -/
def classify (mode : Nat) (isAsh : Bool) (errs : List (Nat × Nat)) : Verdict :=
  if errs.isEmpty then (if isAsh then .ash false else .clean [])
  else
    let s := if isAsh then rsXor (rsSyndromes errs) ashSyndrome else rsSyndromes errs
    let t := eccRadius mode
    if s.all (· = 0) then .clean errs
    else if s = ashSyndrome then .ash false
    else if mode < 2 ∧ (rsDecode t (rsXor s ashSyndrome)).isSome then .ash true
    else if mode < 2 then
      match rsDecode t s with
      | some p => .corrected (addErrs errs p)
      | none => .bad errs
    else .bad errs

end Sys2Proof.Machine
end

