-- ==== Sys2Proof/Config.lean ====
section
/-! DEFINITION. What the spec leaves to the hardware, as constants without a body: no proof can see their values. -/

namespace Sys2Proof.Config

/-- The value of a result the spec leaves open; the first argument says which (log entry 5), the second is the state's
counter of free values. -/
opaque free : Nat → Nat → Nat

/-- The 16-bit draw number `n` of the stochastic-rounding generator started from `seed` (R60, R268). -/
opaque srDraw : (seed n : Nat) → Nat

/-- Units in the last place by which an approximate unit's result lies off the correctly rounded one, by operation and
operand (R50, R202, R258); each use clamps it to the bound the spec sets. -/
opaque ulps : (op x : Nat) → Int

/-- Whether a Stoker takes the FP32 number above x^(−1/p), rather than the one below, where the power is none itself: the spec does not
state its rounding (R262, R264). -/
opaque rootUp : (p x : Nat) → Bool

/-- The number whose 48 bytes are the SHA-384 digest of a byte string (R432). -/
opaque sha384 : List Byte → Nat

/-- What decrypting a damaged sector gives (R193, R196): its tweak, the plaintext stored, and the symbol errors left. -/
opaque garble : (tweak : Nat) → List Byte → List (Nat × Nat) → List Byte

/-- The number whose 48 bytes are the digest of the boot ROM and the fuse configuration (R432). -/
opaque romDigest : (fuses : List Nat) → Nat

/-- The bytes of the persistent record that holds these values (R432, R455). -/
opaque recordBytes : Tab Nat → Tab Byte → List Byte

/-- The number whose 48 bytes are the digest of the device's own leaf certificate (R428). -/
opaque leafDigest : Nat

/-- Session key material (R427) by the two serials, the two ephemeral keys, the two randoms, and label. -/
opaque hkdf : List Nat → Nat → Nat

/-- The identity key's signature (R434) over a byte string. -/
opaque sign : List Byte → List Byte

/-- The plaintext of bundle segment `i` whose ciphertext is given (R428, R429), by the header's bytes. -/
opaque unwrapSegment : (header : List Byte) → (i : Nat) → List Byte → List Byte

/-- AES-256-GCM (R296): the ciphertext of a text under a 256-bit key and a 96-bit nonce. -/
opaque gcmText : (key : Nat) → (nonce text : List Byte) → List Byte

/-- AES-256-GCM (R296): the number whose 16 bytes are the tag, the additional authenticated data given too. -/
opaque gcmTag : (key : Nat) → (nonce aad text : List Byte) → Nat

/-- The number whose 48 bytes are the FINISH of a session exchange (R426), by the material of `hkdf`. -/
opaque finishMac : List Nat → Nat

/-- Records that fit into the slot-select log and into the counter log of a mirror (R453, R455): the spec gives no record size. -/
opaque logRecords : (log : Nat) → Nat

/-- The static address of the I3C target (R364). -/
opaque i3cStatic : Nat

/-- Answers of the I3C target and MCTP endpoint whose contents the spec does not give (R364), by command. -/
opaque mctpAnswer : (command arg : Nat) → List Byte

/-- The port random values and ephemeral keys the device draws (R426), by port and count of free values. -/
opaque portRandom : (port n : Nat) → Nat

end Sys2Proof.Config
end

