-- ==== Sys2Proof/Machine/Numbers.lean ====
section
/-! DEFINITION. Number formats (R52) and exact arithmetic on them: values are decoded to signed dyadic numbers,
combined exactly and rounded once. Raw encodings are natural numbers. -/

namespace Sys2Proof.Machine

/-- Number formats, by the codes of R94. -/
inductive Fmt where
  | fp32 | bf16 | e4m3 | e5m2 | e3m2 | e2m3 | e2m1
  deriving DecidableEq, Repr

/-- Format code of R94; code 7 is reserved. -/
def Fmt.ofCode : Nat → Option Fmt
  | 0 => some .fp32 | 1 => some .bf16 | 2 => some .e4m3 | 3 => some .e5m2
  | 4 => some .e3m2 | 5 => some .e2m3 | 6 => some .e2m1 | _ => none

/-- Bits of an element. -/
def Fmt.width : Fmt → Nat
  | .fp32 => 32 | .bf16 => 16 | .e4m3 => 8 | .e5m2 => 8 | .e3m2 => 6 | .e2m3 => 6 | .e2m1 => 4

/-- Mantissa bits (R52). -/
def Fmt.man : Fmt → Nat
  | .fp32 => 23 | .bf16 => 7 | .e4m3 => 3 | .e5m2 => 2 | .e3m2 => 2 | .e2m3 => 3 | .e2m1 => 1

/-- Exponent bias (R52). -/
def Fmt.bias : Fmt → Nat
  | .fp32 => 127 | .bf16 => 127 | .e4m3 => 7 | .e5m2 => 15 | .e3m2 => 3 | .e2m3 => 1 | .e2m1 => 1

/-- Raw magnitude of the largest finite value (R52). -/
def Fmt.maxRaw : Fmt → Nat
  | .fp32 => 0x7F7FFFFF | .bf16 => 0x7F7F | .e4m3 => 0x7E | .e5m2 => 0x7B | .e3m2 => 0x1F | .e2m3 => 0x1F | .e2m1 => 0x7

/-- FP8 or FP6, the formats with a predicted scale (R54). -/
def Fmt.scaled : Fmt → Bool
  | .e4m3 | .e5m2 | .e3m2 | .e2m3 => true
  | _ => false

/-- Exponent of the last place of the smallest values. -/
def Fmt.qmin (f : Fmt) : Int := 1 - (f.bias : Int) - (f.man : Int)

/-- A decoded number: finite values are ±m × 2^e. -/
inductive FV where
  | nan
  | inf (neg : Bool)
  | fin (neg : Bool) (m : Nat) (e : Int)
  deriving DecidableEq, Repr

/-- Decode a raw element (R52). -/
def Fmt.decode (f : Fmt) (raw : Nat) : FV :=
  let r := raw % 2 ^ f.width
  let neg := r.testBit (f.width - 1)
  let mag := r % 2 ^ (f.width - 1)
  let ex := mag / 2 ^ f.man
  let ma := mag % 2 ^ f.man
  if mag > f.maxRaw then
    match f with
    | .fp32 | .bf16 | .e5m2 => if ma = 0 then .inf neg else .nan
    | _ => .nan
  else if ex = 0 then .fin neg ma f.qmin
  else .fin neg (ma + 2 ^ f.man) (f.qmin + (ex : Int) - 1)

/-- Default NaN of the vector unit (R51). -/
def nan32 : Nat := 0x7FC00000

/-- Raw FP32 infinity. -/
def inf32 (neg : Bool) : Nat := if neg then 0xFF800000 else 0x7F800000

/-- `a × 2^e` as a fraction of naturals. -/
def scale2 (a : Nat) (e : Int) : Nat × Nat :=
  if 0 ≤ e then (a * 2 ^ e.toNat, 1) else (a, 2 ^ (-e).toNat)

/-- ⌊log2(n / d)⌋ for positive n and d. -/
def flog2 (n d : Nat) : Int :=
  let l : Int := (Nat.log2 n : Int) - (Nat.log2 d : Int)
  let (p, q) := scale2 1 l
  if n * q < d * p then l - 1 else l

/-- n / d rounded to the nearest natural, ties to even. -/
def divRne (n d : Nat) : Nat :=
  let q := n / d
  let r := n % d
  if 2 * r < d then q else if d < 2 * r then q + 1 else if q % 2 = 0 then q else q + 1

/-- Exponent of the last place that the positive value n / d takes in format `f`. -/
def Fmt.quantum (f : Fmt) (n d : Nat) : Int := max (flog2 n d - (f.man : Int)) f.qmin

/-- Raw magnitude of the positive value n / d rounded to nearest even, not bounded above. -/
def Fmt.roundMag (f : Fmt) (n d : Nat) : Nat :=
  if n = 0 then 0 else
  let q := f.quantum n d
  let (a, b) := scale2 1 (-q)
  (q - f.qmin).toNat * 2 ^ f.man + divRne (n * a) (d * b)

/-- Raw magnitude of the positive value n / d under stochastic rounding with the 16-bit value r (R59). -/
def Fmt.roundMagSr (f : Fmt) (n d r : Nat) : Nat :=
  if n = 0 then 0 else
  let q := f.quantum n d
  let (a, b) := scale2 1 (16 - q)
  (q - f.qmin).toNat * 2 ^ f.man + (n * a / (d * b) + r % 2 ^ 16) / 2 ^ 16

/-- Put the sign on a raw magnitude. -/
def Fmt.signed (f : Fmt) (neg : Bool) (mag : Nat) : Nat := if neg then mag + 2 ^ (f.width - 1) else mag

/-- FP32 of the value ±n/d, infinite when it overflows (R50, R51). -/
def round32 (neg : Bool) (n d : Nat) : Nat :=
  Fmt.fp32.signed neg (min (Fmt.fp32.roundMag n d) 0x7F800000)

/-- FP32 of the value ±n/d, the largest finite magnitude when it overflows (R57), with whether it did. -/
def round32Sat (neg : Bool) (n d : Nat) : Nat × Bool :=
  let m := Fmt.fp32.roundMag n d
  (Fmt.fp32.signed neg (min m Fmt.fp32.maxRaw), decide (Fmt.fp32.maxRaw < m))

/-- Numerator and denominator of m × 2^e. -/
def frac (m : Nat) (e : Int) : Nat × Nat := scale2 m e

/-- A signed dyadic number m × 2^e. -/
structure Dy where
  m : Int
  e : Int
  deriving DecidableEq, Repr

/-- Exact sum. -/
def Dy.add (a b : Dy) : Dy :=
  let e := min a.e b.e
  ⟨a.m * 2 ^ (a.e - e).toNat + b.m * 2 ^ (b.e - e).toNat, e⟩

/-- Exact product. -/
def Dy.mul (a b : Dy) : Dy := ⟨a.m * b.m, a.e + b.e⟩

/-- The finite value as a dyadic; infinities and NaNs count as zero (R55). -/
def FV.dy : FV → Dy
  | .fin neg m e => ⟨if neg then -(m : Int) else m, e⟩
  | _ => ⟨0, 0⟩

/-- Whether a value is finite. -/
def FV.finite : FV → Bool
  | .fin .. => true
  | _ => false

/-- FP32 of an exact dyadic; `zneg` is the sign of an exact zero. -/
def Dy.round32 (x : Dy) (zneg : Bool) : Nat :=
  if x.m = 0 then Fmt.fp32.signed zneg 0
  else let (n, d) := frac x.m.natAbs x.e; Machine.round32 (decide (x.m < 0)) n d

/-- FP32 of an exact dyadic with saturation (R34, R57), and whether it saturated. -/
def Dy.round32Sat (x : Dy) (zneg : Bool) : Nat × Bool :=
  if x.m = 0 then (Fmt.fp32.signed zneg 0, false)
  else let (n, d) := frac x.m.natAbs x.e; Machine.round32Sat (decide (x.m < 0)) n d

/-- A raw FP32 number decoded. -/
def dec32 (a : Nat) : FV := Fmt.fp32.decode a

/-- Sign bit of a raw FP32 number. -/
def neg32 (a : Nat) : Bool := a.testBit 31

/-- −a (sign bit only). -/
def fneg (a : Nat) : Nat := if neg32 a then a - 2 ^ 31 else a + 2 ^ 31

/-- |a|. -/
def fabs (a : Nat) : Nat := a % 2 ^ 31

/-- a + b in binary32, nearest even (R50, R51). -/
def fadd (a b : Nat) : Nat :=
  match dec32 a, dec32 b with
  | .nan, _ | _, .nan => nan32
  | .inf x, .inf y => if x = y then inf32 x else nan32
  | .inf x, _ => inf32 x
  | _, .inf y => inf32 y
  | x, y => (x.dy.add y.dy).round32 (neg32 a && neg32 b)

/-- a − b. -/
def fsub (a b : Nat) : Nat := fadd a (fneg b)

/-- Whether a decoded number is ±0. -/
def FV.isZero : FV → Bool
  | .fin _ m _ => decide (m = 0)
  | _ => false

/-- a × b. -/
def fmul (a b : Nat) : Nat :=
  let s := xor (neg32 a) (neg32 b)
  match dec32 a, dec32 b with
  | .nan, _ | _, .nan => nan32
  | .inf _, y => if y.isZero then nan32 else inf32 s
  | x, .inf _ => if x.isZero then nan32 else inf32 s
  | x, y => (x.dy.mul y.dy).round32 s

/-- a × b + c with one rounding (R50). -/
def ffma (a b c : Nat) : Nat :=
  let s := xor (neg32 a) (neg32 b)
  match dec32 a, dec32 b, dec32 c with
  | .nan, _, _ | _, .nan, _ | _, _, .nan => nan32
  | .fin n1 m1 e1, .fin n2 m2 e2, .fin n3 m3 e3 =>
    (((FV.fin n1 m1 e1).dy.mul (FV.fin n2 m2 e2).dy).add (FV.fin n3 m3 e3).dy).round32 (s && n3)
  | .fin .., .fin .., .inf z => inf32 z
  | x, y, z =>
    if x.isZero || y.isZero then nan32
    else match z with
      | .inf w => if w = s then inf32 s else nan32
      | _ => inf32 s

/-- Compare two decoded non-NaN numbers with −0 below +0 (R51). -/
def fltTotal (a b : Nat) : Bool :=
  match neg32 a, neg32 b with
  | true, false => true
  | false, true => false
  | false, false => decide (fabs a < fabs b)
  | true, true => decide (fabs b < fabs a)

/-- Whether a raw FP32 number is a NaN. -/
def isNan (a : Nat) : Bool := decide (0x7F800000 < fabs a)

/-- Whether a raw FP32 number is finite. -/
def isFin (a : Nat) : Bool := decide (fabs a < 0x7F800000)

/-- Maximum (R51). -/
def fmax (a b : Nat) : Nat := if isNan a || isNan b then nan32 else if fltTotal a b then b else a

/-- Minimum (R51). -/
def fmin (a b : Nat) : Nat := if isNan a || isNan b then nan32 else if fltTotal b a then b else a

/-- a > b as numbers (−0 = +0); false when either is a NaN. -/
def fgt (a b : Nat) : Bool :=
  !isNan a && !isNan b && !(fabs a = 0 && fabs b = 0) && fltTotal b a

/-- Raw 1.0. -/
def one32 : Nat := 0x3F800000

/-- Integer square root, digit by digit from bit `k`. -/
def isqrtFrom : Nat → Nat → Nat → Nat
  | 0, n, acc => if (acc + 1) * (acc + 1) ≤ n then acc + 1 else acc
  | k + 1, n, acc =>
    let a := acc + 2 ^ (k + 1)
    if a * a ≤ n then isqrtFrom k n a else isqrtFrom k n acc

/-- ⌊√n⌋. -/
def isqrt (n : Nat) : Nat := isqrtFrom (Nat.log2 n / 2 + 1) n 0

/-- √(n/d) as a fraction exact to 2^−64 relative, with a sticky bit so that rounding it once is correct. -/
def sqrtFrac (n d : Nat) : Nat × Nat :=
  let k := 80 + Nat.log2 d
  let x := n * 2 ^ (2 * k) / d
  let s := isqrt x
  (2 * s + (if s * s = x ∧ n * 2 ^ (2 * k) % d = 0 then 0 else 1), 2 ^ (k + 1))

/-- Whether the finite FP32 magnitude `mag` lies within `b` units in the last place of the positive value n / d. -/
def withinUlps (b mag n d : Nat) : Bool :=
  match Fmt.fp32.decode mag with
  | .fin _ m e =>
    let (p, q) := frac m e
    let (u, v) := scale2 b (Fmt.fp32.quantum n d)
    decide ((max (p * d) (n * q) - min (p * d) (n * q)) * v ≤ u * (d * q))
  | _ => false

/-- An FP32 magnitude within `b` units in the last place of the positive value n / d: `mag`, the correctly rounded one, moved by `off`
places where the result keeps the bound, and `mag` itself otherwise. -/
def nudge (b : Nat) (off : Int) (mag n d : Nat) : Nat :=
  let r := ((mag : Int) + max (-(b : Int)) (min (b : Int) off)).toNat
  if withinUlps b r n d then r else mag

/-- Operation numbers under which the approximate units draw their offset. -/
inductive Approx where
  | exp2 | recip | rsqrt | silu | gelu
  deriving DecidableEq, Repr

/-- Number of an approximate operation. -/
def Approx.num : Approx → Nat
  | .exp2 => 0 | .recip => 1 | .rsqrt => 2 | .silu => 3 | .gelu => 4

/-- ±n/d approximated within `b` units in the last place (R50): the correctly rounded value, moved by an offset that nothing fixes but the
bound on the distance from the exact value. -/
def approx (op : Approx) (b x : Nat) (neg : Bool) (n d : Nat) : Nat :=
  let m := Fmt.fp32.roundMag n d
  if m = 0 then Fmt.fp32.signed neg 0
  else if 0x7F800000 ≤ m then inf32 neg
  else Fmt.fp32.signed neg (nudge b (Config.ulps op.num x) m n d)

/-- 1/a within 1 unit in the last place (R50, R51). -/
def frecip (a : Nat) : Nat :=
  match dec32 a with
  | .nan => nan32
  | .inf s => Fmt.fp32.signed s 0
  | .fin s m e => if m = 0 then inf32 s else let (n, d) := frac m e; approx .recip 1 a s d n

/-- 1/√a within 1 unit in the last place (R50, R51). -/
def frsqrt (a : Nat) : Nat :=
  match dec32 a with
  | .nan => nan32
  | .inf s => if s then nan32 else 0
  | .fin s m e =>
    if m = 0 then inf32 s else if s then nan32
    else let (n, d) := frac m e; let (p, q) := sqrtFrac d n; approx .rsqrt 1 a false p q

/-- √a correctly rounded (R258). -/
def fsqrt (a : Nat) : Nat :=
  match dec32 a with
  | .nan => nan32
  | .inf s => if s then nan32 else inf32 false
  | .fin s m e =>
    if m = 0 then a else if s then nan32
    else let (n, d) := frac m e; let (p, q) := sqrtFrac n d; round32 false p q

/-- Fixed-point product over the fraction bits: `k` bits are left, `c` is the current root of two. -/
def exp2Bits : Nat → Nat → Nat → Nat → Nat
  | 0, _, _, acc => acc
  | k + 1, f, c, acc =>
    exp2Bits k f (isqrt (c * 2 ^ 96)) (if f.testBit k then acc * c / 2 ^ 96 else acc)

/-- 2^x for x = ±n/d as a fraction exact to about 2^−60: integer part by shifting, fraction by 64 roots of two. -/
def exp2Frac (neg : Bool) (n d : Nat) : Nat × Nat :=
  let x : Int := (if neg then -(n : Int) else n) * 2 ^ 64 / (d : Int)
  let i : Int := x / 2 ^ 64
  let f : Nat := (x % 2 ^ 64).toNat
  let p := exp2Bits 64 f (isqrt (2 * 2 ^ 192)) (2 ^ 96)
  let (a, b) := scale2 p i
  (a, b * 2 ^ 96)

/-- 2^x for x = ±n/d within 2 units in the last place: +0 below −149, +∞ from 128 (R50, R51); `a` names the operand. -/
def exp2Of (a : Nat) (s : Bool) (n d : Nat) : Nat :=
  if !s && decide (128 * d ≤ n) then inf32 false
  else if s && decide (149 * d < n) then 0
  else let (p, q) := exp2Frac s n d; approx .exp2 2 a false p q

/-- 2^a (R50, R51). -/
def fexp2 (a : Nat) : Nat :=
  match dec32 a with
  | .nan => nan32
  | .inf s => if s then 0 else inf32 false
  | .fin s m e => let (n, d) := frac m e; exp2Of a s n d

/-- 2^(a × b) of the exact product, within 2 units in the last place (R202). -/
def fexp2Mul (a b : Nat) : Nat :=
  match dec32 a, dec32 b with
  | .fin s m e, .fin t k f => let (n, d) := frac (m * k) (e + f); exp2Of (a * 2 ^ 32 + b) (xor s t) n d
  | _, _ => fexp2 (fmul a b)

/-- x ÷ (1 + 2^(y)) for x = a and y = ±n/d: the shape of SILU and of GELU written with an exponential. -/
def divOnePlusExp2 (op : Approx) (a : Nat) (yneg : Bool) (n d : Nat) : Nat :=
  match dec32 a with
  | .fin s m e =>
    if m = 0 then a else
    if !yneg && decide (400 * d ≤ n) then Fmt.fp32.signed s 0
    else
      let (p, q) := if yneg && decide (400 * d ≤ n) then (0, 1) else exp2Frac yneg n d
      let (x, y) := frac m e
      approx op 4 a s (x * q) (y * (p + q))
  | _ => nan32

/-- log2 e as a fraction exact to 60 bits. -/
def log2e : Nat × Nat := (1663327663403466513, 2 ^ 60)

/-- x ÷ (1 + e^−x) within 4 units in the last place (R202). -/
def fsilu (a : Nat) : Nat :=
  match dec32 a with
  | .nan => nan32
  | .inf s => if s then Fmt.fp32.signed true 0 else inf32 false
  | .fin s m e => let (n, d) := frac m e; divOnePlusExp2 .silu a (!s) (n * log2e.1) (d * log2e.2)

/-- 0.5x(1 + tanh(0.7978846(x + 0.044715x³))), that is x ÷ (1 + e^−2u), within 4 units in the last place (R202). -/
def fgelu (a : Nat) : Nat :=
  match dec32 a with
  | .nan => nan32
  | .inf s => if s then Fmt.fp32.signed true 0 else inf32 false
  | .fin s m e =>
    let (n, d) := frac m e
    let un := 2 * 7978846 * (n * d * d * 1000000 + 44715 * n * n * n)
    let ud := 10000000 * (d * d * d * 1000000)
    divOnePlusExp2 .gelu a (!s) (un * log2e.1) (ud * log2e.2)

/-- Outcome of a narrowing conversion: the raw element, whether it saturated (R58), whether it became ash (a NaN). -/
structure Narrow where
  raw : Nat
  sat : Bool
  ash : Bool
  deriving DecidableEq, Repr

/-- Convert the value ±n/d to `f` with saturation decided before rounding (R58); `sr` is a random value (R59). -/
def Fmt.narrow (f : Fmt) (neg : Bool) (n d : Nat) (sr : Option Nat) : Narrow :=
  let big := match f.decode f.maxRaw with
    | .fin _ m e => let (p, q) := frac m e; decide (p * d < n * q)
    | _ => false
  if big then ⟨f.signed neg f.maxRaw, true, false⟩
  else match sr with
    | none => ⟨f.signed neg (f.roundMag n d), false, false⟩
    | some r => ⟨f.signed neg (f.roundMagSr n d r), false, false⟩

/-- Convert a raw FP32 number times 2^e to a narrow format or BF16 (R58, R96): a NaN becomes +0 marked ash. -/
def Fmt.convert (f : Fmt) (a : Nat) (ex : Int) (sr : Option Nat) : Narrow :=
  match dec32 a with
  | .nan => ⟨0, false, true⟩
  | .inf s => ⟨f.signed s f.maxRaw, true, false⟩
  | .fin s m e =>
    let (n, d) := frac m (e + ex)
    f.narrow s n d sr

/-- Convert to `f` on a write: FP32 is copied, anything else narrowed (R58, R96). -/
def Fmt.store (f : Fmt) (a : Nat) (ex : Int) (sr : Option Nat) : Narrow :=
  match f with
  | .fp32 => ⟨a, false, false⟩
  | _ => f.convert a ex sr

/-- An element of format `f` read as FP32 after multiplying by 2^−e (R96); FP32 elements are copied. -/
def Fmt.load (f : Fmt) (raw : Nat) (ex : Int) : Nat :=
  match f with
  | .fp32 => raw
  | _ => match f.decode raw with
    | .nan => nan32
    | .inf s => inf32 s
    | .fin s m e => let (n, d) := frac m (e - ex); round32 s n d

/-- ⌊log2(fmax ÷ p)⌋ for a positive finite FP32 magnitude `p` times 2^k, clamped to −127..127 (R69, R71). -/
def Fmt.scaleExp (f : Fmt) (p : Nat) (k : Int) : Int :=
  match f.decode f.maxRaw, dec32 p with
  | .fin _ m1 e1, .fin _ m2 e2 =>
    let (n1, d1) := frac m1 e1
    let (n2, d2) := frac m2 (e2 + k)
    max (-127) (min 127 (flog2 (n1 * d2) (d1 * n2)))
  | _, _ => -127

/-- Whether an FP32 magnitude times 2^e exceeds the largest finite value of `f` (R70). -/
def Fmt.exceeds (f : Fmt) (p : Nat) (ex : Int) : Bool :=
  match f.decode f.maxRaw, dec32 p with
  | .fin _ m1 e1, .fin _ m2 e2 =>
    let (n1, d1) := frac m1 e1
    let (n2, d2) := frac m2 (e2 + ex)
    decide (n1 * d2 < n2 * d1)
  | _, _ => false

/-- A list of FP32 numbers summed by the fixed pairwise tree of R51 (neighbours first). -/
def pairSum : Nat → List Nat → List Nat
  | 0, l => l
  | k + 1, l => pairSum k (go l)
where
  go : List Nat → List Nat
    | a :: b :: t => fadd a b :: go t
    | l => l

/-- The cross-lane sum of 64 lanes: six levels (R51). -/
def laneSum (l : List Nat) : Nat := (pairSum 6 l).headD 0

/-- The cross-lane maximum (R51). -/
def laneMax : List Nat → Nat
  | [] => 0
  | a :: t => t.foldl fmax a

end Sys2Proof.Machine
end

