-- ==== Sys2Proof/Machine/Objects.lean ====
section
/-! DEFINITION. The object dictionary: one definition for each object the spec lists, and the table of them all. -/

namespace Sys2Proof.Machine

/-- Object types (R341). -/
inductive OType where
  | bool | u8 | u16 | u32 | u64 | i32 | i64 | f32 | bits32 | enum8 | string | domain | handle64
  deriving DecidableEq, Repr

/-- Access rights (R345). -/
inductive Right where
  | const | ro | rw | rwi | wo | rw1c
  deriving DecidableEq, Repr

/-- Instance kinds (R353, R354). -/
inductive Kind where
  | global | die | region | stack | port | cluster | hearth | ctx | stoker | group | flue
  deriving DecidableEq, Repr

/-- How an object's reset value follows from its instance and element. -/
inductive ResetRule where
  | fixed (v : Nat)
  | instPlus1 | instDiv8 | instMod8 | instMod64 | fwArea | portRole
  deriving DecidableEq, Repr

/-- One object of the dictionary: the index of instance 0, the instance kind, the first subindex, how many subindices,
the type, the right, the attributes P, C and L, the reset rule, the size of a STRING or DOMAIN with the byte its reset
contents are filled with, the mask of bits a write can set (R8), and the number of codes an ENUM8 lists. -/
structure ObjDef where
  base : Nat
  kind : Kind
  lo : Nat
  n : Nat
  typ : OType
  right : Right
  attrP : Bool
  attrC : Bool
  attrL : Bool
  reset : ResetRule
  size : Nat
  fill : Nat
  wmask : Nat
  codes : Nat
  deriving DecidableEq, Repr

/-- Distance between the blocks of two neighbouring instances (R353). -/
def Kind.stride : Kind → Nat
  | .global => 0 | .die => 0x100 | .region => 0x100 | .stack => 0x80 | .port => 0x80 | .cluster => 0x20
  | .hearth => 0x40 | .ctx => 0x100 | .stoker => 0x10 | .group => 0x8 | .flue => 0x1

/-- Number of instances (R353). -/
def Kind.count : Kind → Nat
  | .global => 1 | .die => 4 | .region => 16 | .stack => 32 | .port => 16 | .cluster => 128
  | .hearth => 1024 | .ctx => 16 | .stoker => 2 | .group => 4096 | .flue => 65536

/-- First index of instance 0's block (R353); the Stoker blocks begin behind the shared index 0x3_1000 (R270). -/
def Kind.base : Kind → Nat
  | .global => 0 | .die => 0x10000 | .region => 0x11000 | .stack => 0x12000 | .port => 0x13000 | .cluster => 0x14000
  | .hearth => 0x20000 | .ctx => 0x30000 | .stoker => 0x31010 | .group => 0x32000 | .flue => 0x40000

/-- Size in bytes of a value of a scalar type (R341); 0 for STRING and DOMAIN. -/
def OType.bytes : OType → Nat
  | .bool | .u8 | .enum8 => 1
  | .u16 => 2
  | .u32 | .i32 | .f32 | .bits32 => 4
  | .u64 | .i64 | .handle64 => 8
  | .string | .domain => 0

/-- The type code the describe service reports (R341). -/
def OType.code : OType → Nat
  | .bool => 0 | .u8 => 1 | .u16 => 2 | .u32 => 3 | .u64 => 4 | .i32 => 5 | .i64 => 6 | .f32 => 7
  | .bits32 => 8 | .enum8 => 9 | .string => 0xA | .domain => 0xB | .handle64 => 0xC

/-- The right code the describe service reports (R345). -/
def Right.code : Right → Nat
  | .const => 0 | .ro => 1 | .rw => 2 | .rwi => 3 | .wo => 4 | .rw1c => 5

/-- Whether the object is reached by offset and length. -/
def OType.isBlock : OType → Bool
  | .string | .domain => true
  | _ => false

namespace Obj

/-- 10 R355: 0x0:01 VENDOR_NAME, STRING CONST. -/
def VENDOR_NAME : ObjDef :=
  ⟨0x0, .global, 1, 1, .string, .const, false, false, false, .fixed 0, 19, 0, 2 ^ 64 - 1, 256⟩
/-- 10 R355: 0x0:02 ORDERING_NUMBER, STRING CONST. -/
def ORDERING_NUMBER : ObjDef :=
  ⟨0x0, .global, 2, 1, .string, .const, false, false, false, .fixed 0, 7, 0, 2 ^ 64 - 1, 256⟩
/-- 10 R355: 0x0:03 SERIAL_NUMBER, STRING CONST. -/
def SERIAL_NUMBER : ObjDef :=
  ⟨0x0, .global, 3, 1, .string, .const, false, false, false, .fixed 0, 16, 48, 2 ^ 64 - 1, 256⟩
/-- 10 R355: 0x0:04 VENDOR_PEN, U32 CONST. -/
def VENDOR_PEN : ObjDef :=
  ⟨0x0, .global, 4, 1, .u32, .const, false, false, false, .fixed 0, 0, 0, 2 ^ 64 - 1, 256⟩
/-- 10 R355: 0x0:05 OD_VERSION, U16 CONST. -/
def OD_VERSION : ObjDef :=
  ⟨0x0, .global, 5, 1, .u16, .const, false, false, false, .fixed 256, 0, 0, 2 ^ 64 - 1, 256⟩
/-- 10 R355: 0x0:06 FW_VERSION, U32 RO. -/
def FW_VERSION : ObjDef :=
  ⟨0x0, .global, 6, 1, .u32, .ro, false, false, false, .fixed 0, 0, 0, 2 ^ 64 - 1, 256⟩
/-- 10 R355: 0x1:01 BASE_DIE_STEPPING_0..31, U8 CONST. -/
def BASE_DIE_STEPPING : ObjDef :=
  ⟨0x1, .global, 1, 32, .u8, .const, false, false, false, .fixed 0, 0, 0, 2 ^ 64 - 1, 256⟩
/-- 10 R355: 0x2:01 STOKER_STEPPING_0..1, U8 CONST. -/
def STOKER_STEPPING : ObjDef :=
  ⟨0x2, .global, 1, 2, .u8, .const, false, false, false, .fixed 0, 0, 0, 2 ^ 64 - 1, 256⟩
/-- 10 R360: 0x100:01 DP_TARGET, U32 RW. -/
def DP_TARGET : ObjDef :=
  ⟨0x100, .global, 1, 1, .u32, .rw, false, false, false, .fixed 0, 0, 0, 0xfffffff, 256⟩
/-- 10 R360: 0x100:02 DP_OFFSET, U32 RW. -/
def DP_OFFSET : ObjDef :=
  ⟨0x100, .global, 2, 1, .u32, .rw, false, false, false, .fixed 0, 0, 0, 2 ^ 64 - 1, 256⟩
/-- 10 R360: 0x100:03 DP_LENGTH, U16 RW. -/
def DP_LENGTH : ObjDef :=
  ⟨0x100, .global, 3, 1, .u16, .rw, false, false, false, .fixed 0, 0, 0, 2 ^ 64 - 1, 256⟩
/-- 10 R360: 0x100:04 DP_GO, ENUM8 WO. -/
def DP_GO : ObjDef :=
  ⟨0x100, .global, 4, 1, .enum8, .wo, false, false, false, .fixed 0, 0, 0, 2 ^ 64 - 1, 3⟩
/-- 10 R360: 0x100:05 DP_STATUS, U8 RO. -/
def DP_STATUS : ObjDef :=
  ⟨0x100, .global, 5, 1, .u8, .ro, false, false, false, .fixed 0, 0, 0, 2 ^ 64 - 1, 256⟩
/-- 10 R360: 0x100:06 DP_DATA_0..DP_DATA_31, U64 RW. -/
def DP_DATA : ObjDef :=
  ⟨0x100, .global, 6, 32, .u64, .rw, false, false, false, .fixed 0, 0, 0, 2 ^ 64 - 1, 256⟩
/-- 10 R360: 0x101:01 DESC_TARGET, U32 RW. -/
def DESC_TARGET : ObjDef :=
  ⟨0x101, .global, 1, 1, .u32, .rw, false, false, false, .fixed 0, 0, 0, 0xfffffff, 256⟩
/-- 10 R360: 0x101:02 DESC_RESULT, U64 RO. -/
def DESC_RESULT : ObjDef :=
  ⟨0x101, .global, 2, 1, .u64, .ro, false, false, false, .fixed 0, 0, 0, 2 ^ 64 - 1, 256⟩
/-- 10 R360: 0x101:03 DESC_DEFAULT, U64 RO. -/
def DESC_DEFAULT : ObjDef :=
  ⟨0x101, .global, 3, 1, .u64, .ro, false, false, false, .fixed 0, 0, 0, 2 ^ 64 - 1, 256⟩
/-- 10 R360: 0x102:01 PERSIST_SAVE, BOOL WO. -/
def PERSIST_SAVE : ObjDef :=
  ⟨0x102, .global, 1, 1, .bool, .wo, false, false, false, .fixed 0, 0, 0, 2 ^ 64 - 1, 256⟩
/-- 10 R360: 0x102:02 PERSIST_RESTORE_DEFAULTS, BOOL WO. -/
def PERSIST_RESTORE_DEFAULTS : ObjDef :=
  ⟨0x102, .global, 2, 1, .bool, .wo, false, false, false, .fixed 0, 0, 0, 2 ^ 64 - 1, 256⟩
/-- 10 R360: 0x102:03 PERSIST_STATE, ENUM8 RO. -/
def PERSIST_STATE : ObjDef :=
  ⟨0x102, .global, 3, 1, .enum8, .ro, false, false, false, .fixed 0, 0, 0, 2 ^ 64 - 1, 256⟩
/-- 10 R360: 0x102:04 PERSIST_SAVES, U32 RO. -/
def PERSIST_SAVES : ObjDef :=
  ⟨0x102, .global, 4, 1, .u32, .ro, false, false, false, .fixed 0, 0, 0, 2 ^ 64 - 1, 256⟩
/-- 10 R360: 0x102:05 PERSIST_SOURCE, ENUM8 RO. -/
def PERSIST_SOURCE : ObjDef :=
  ⟨0x102, .global, 5, 1, .enum8, .ro, false, false, false, .fixed 0, 0, 0, 2 ^ 64 - 1, 256⟩
/-- 10 R360: 0x103:01 MM_LAST_ERROR, U64 RO. -/
def MM_LAST_ERROR : ObjDef :=
  ⟨0x103, .global, 1, 1, .u64, .ro, false, false, false, .fixed 0, 0, 0, 2 ^ 64 - 1, 256⟩
/-- 10 R360: 0x103:02 MM_ERRORS, U64 RO. -/
def MM_ERRORS : ObjDef :=
  ⟨0x103, .global, 2, 1, .u64, .ro, false, true, false, .fixed 0, 0, 0, 2 ^ 64 - 1, 256⟩
/-- 11 R392: 0x1000:01 COOLING_CLASS, ENUM8 RO. -/
def COOLING_CLASS : ObjDef :=
  ⟨0x1000, .global, 1, 1, .enum8, .ro, false, false, false, .fixed 0, 0, 0, 2 ^ 64 - 1, 256⟩
/-- 11 R392: 0x1000:02 STRAP_CODE, U8 RO. -/
def STRAP_CODE : ObjDef :=
  ⟨0x1000, .global, 2, 1, .u8, .ro, false, false, false, .fixed 0, 0, 0, 2 ^ 64 - 1, 256⟩
/-- 11 R392: 0x1000:03 ENVELOPE_W, U16 RO. -/
def ENVELOPE_W : ObjDef :=
  ⟨0x1000, .global, 3, 1, .u16, .ro, false, false, false, .fixed 0, 0, 0, 2 ^ 64 - 1, 256⟩
/-- 11 R392: 0x1000:04 POWER_CAP_W, U16 RW. -/
def POWER_CAP_W : ObjDef :=
  ⟨0x1000, .global, 4, 1, .u16, .rw, true, false, false, .fixed 0, 0, 0, 2 ^ 64 - 1, 256⟩
/-- 11 R392: 0x1000:05 POWER_STATUS, BITS32 RO. -/
def POWER_STATUS : ObjDef :=
  ⟨0x1000, .global, 5, 1, .bits32, .ro, false, false, false, .fixed 0, 0, 0, 0x7f, 256⟩
/-- 11 R392: 0x1000:06 FIRING_DUTY, U8 RO. -/
def FIRING_DUTY : ObjDef :=
  ⟨0x1000, .global, 6, 1, .u8, .ro, false, false, false, .fixed 16, 0, 0, 2 ^ 64 - 1, 256⟩
/-- 11 R392: 0x1000:07 POWER_EVENT_ENABLE, BITS32 RW. -/
def POWER_EVENT_ENABLE : ObjDef :=
  ⟨0x1000, .global, 7, 1, .bits32, .rw, false, false, false, .fixed 63, 0, 0, 0x3f, 256⟩
/-- 11 R392: 0x1000:08 CONTROL_PERIOD, U32 CONST. -/
def CONTROL_PERIOD : ObjDef :=
  ⟨0x1000, .global, 8, 1, .u32, .const, false, false, false, .fixed 500, 0, 0, 2 ^ 64 - 1, 256⟩
/-- 11 R392: 0x1001:01 MODULE_POWER_MW, U32 RO. -/
def MODULE_POWER_MW : ObjDef :=
  ⟨0x1001, .global, 1, 1, .u32, .ro, false, true, false, .fixed 0, 0, 0, 2 ^ 64 - 1, 256⟩
/-- 11 R392: 0x1001:02 SILICON_POWER_MW, U32 RO. -/
def SILICON_POWER_MW : ObjDef :=
  ⟨0x1001, .global, 2, 1, .u32, .ro, false, true, false, .fixed 0, 0, 0, 2 ^ 64 - 1, 256⟩
/-- 11 R392: 0x1001:03 MODULE_ENERGY_MJ, U64 RO. -/
def MODULE_ENERGY_MJ : ObjDef :=
  ⟨0x1001, .global, 3, 1, .u64, .ro, false, true, false, .fixed 0, 0, 0, 2 ^ 64 - 1, 256⟩
/-- 11 R392: 0x1001:04 SILICON_ENERGY_MJ, U64 RO. -/
def SILICON_ENERGY_MJ : ObjDef :=
  ⟨0x1001, .global, 4, 1, .u64, .ro, false, true, false, .fixed 0, 0, 0, 2 ^ 64 - 1, 256⟩
/-- 11 R392: 0x1002:01 PHASE_DOORBELL, U64 WO. -/
def PHASE_DOORBELL : ObjDef :=
  ⟨0x1002, .global, 1, 1, .u64, .wo, false, false, false, .fixed 0, 0, 0, 2 ^ 64 - 1, 256⟩
/-- 11 R392: 0x1002:02 DAMPER_HOLD, U32 RW. -/
def DAMPER_HOLD : ObjDef :=
  ⟨0x1002, .global, 2, 1, .u32, .rw, true, false, false, .fixed 5000, 0, 0, 2 ^ 64 - 1, 256⟩
/-- 11 R392: 0x1002:03 DAMPER_ASSERTIONS, U32 RO. -/
def DAMPER_ASSERTIONS : ObjDef :=
  ⟨0x1002, .global, 3, 1, .u32, .ro, false, true, false, .fixed 0, 0, 0, 2 ^ 64 - 1, 256⟩
/-- 11 R392: 0x1002:04 RELEASE_STAGGER_EN, BOOL RW. -/
def RELEASE_STAGGER_EN : ObjDef :=
  ⟨0x1002, .global, 4, 1, .bool, .rw, true, false, false, .fixed 1, 0, 0, 2 ^ 64 - 1, 256⟩
/-- 11 R392: 0x1002:05 REGION_IDLE, U32 RW. -/
def REGION_IDLE : ObjDef :=
  ⟨0x1002, .global, 5, 1, .u32, .rw, true, false, false, .fixed 2500, 0, 0, 2 ^ 64 - 1, 256⟩
/-- 11 R392: 0x1003:01 STACK_TEMP_0..STACK_TEMP_31, I32 RO. -/
def STACK_TEMP : ObjDef :=
  ⟨0x1003, .global, 1, 32, .i32, .ro, false, false, false, .fixed 0, 0, 0, 2 ^ 64 - 1, 256⟩
/-- 11 R392: 0x1004:01 STOKER_TEMP_0..STOKER_TEMP_1, I32 RO. -/
def STOKER_TEMP : ObjDef :=
  ⟨0x1004, .global, 1, 2, .i32, .ro, false, false, false, .fixed 0, 0, 0, 2 ^ 64 - 1, 256⟩
/-- 11 R392: 0x1004:03 PORT_TEMP_0..PORT_TEMP_15, I32 RO. -/
def PORT_TEMP : ObjDef :=
  ⟨0x1004, .global, 3, 16, .i32, .ro, false, false, false, .fixed 0, 0, 0, 2 ^ 64 - 1, 256⟩
/-- 11 R392: 0x1005:01 PILOT_STATE, ENUM8 RO. -/
def PILOT_STATE : ObjDef :=
  ⟨0x1005, .global, 1, 1, .enum8, .ro, false, false, false, .fixed 0, 0, 0, 2 ^ 64 - 1, 256⟩
/-- 11 R392: 0x1005:02 PILOT_RESTARTS, U32 RO. -/
def PILOT_RESTARTS : ObjDef :=
  ⟨0x1005, .global, 2, 1, .u32, .ro, false, false, false, .fixed 0, 0, 0, 2 ^ 64 - 1, 256⟩
/-- 11 R392: 0x1005:03 PILOT_SRAM_CORRECTED, U32 RO. -/
def PILOT_SRAM_CORRECTED : ObjDef :=
  ⟨0x1005, .global, 3, 1, .u32, .ro, false, false, false, .fixed 0, 0, 0, 2 ^ 64 - 1, 256⟩
/-- 11 R392: 0x1005:04 TICK_COUNT, U64 RO. -/
def TICK_COUNT : ObjDef :=
  ⟨0x1005, .global, 4, 1, .u64, .ro, false, false, false, .fixed 0, 0, 0, 2 ^ 64 - 1, 256⟩
/-- 11 R392: 0x1005:05 PILOT_WDT_LIMIT, U32 CONST. -/
def PILOT_WDT_LIMIT : ObjDef :=
  ⟨0x1005, .global, 5, 1, .u32, .const, false, false, false, .fixed 50000, 0, 0, 2 ^ 64 - 1, 256⟩
/-- 12 R417: 0x2000:01 BOOT_STATE, ENUM8 RO. -/
def BOOT_STATE : ObjDef :=
  ⟨0x2000, .global, 1, 1, .enum8, .ro, false, false, false, .fixed 0, 0, 0, 2 ^ 64 - 1, 256⟩
/-- 12 R417: 0x2000:02 DEVICE_READY, BOOL RO. -/
def DEVICE_READY : ObjDef :=
  ⟨0x2000, .global, 2, 1, .bool, .ro, false, false, false, .fixed 0, 0, 0, 2 ^ 64 - 1, 256⟩
/-- 12 R417: 0x2000:03 READY_TICK, U64 RO. -/
def READY_TICK : ObjDef :=
  ⟨0x2000, .global, 3, 1, .u64, .ro, false, false, false, .fixed 0, 0, 0, 2 ^ 64 - 1, 256⟩
/-- 12 R417: 0x2000:04 POOL_HEARTHS, U16 RO. -/
def POOL_HEARTHS : ObjDef :=
  ⟨0x2000, .global, 4, 1, .u16, .ro, false, false, false, .fixed 0, 0, 0, 2 ^ 64 - 1, 256⟩
/-- 12 R417: 0x2000:05 TESTING_HEARTHS, U16 RO. -/
def TESTING_HEARTHS : ObjDef :=
  ⟨0x2000, .global, 5, 1, .u16, .ro, false, false, false, .fixed 1024, 0, 0, 2 ^ 64 - 1, 256⟩
/-- 12 R417: 0x2000:06 ABSENT_HEARTHS, U16 RO. -/
def ABSENT_HEARTHS : ObjDef :=
  ⟨0x2000, .global, 6, 1, .u16, .ro, false, false, false, .fixed 0, 0, 0, 2 ^ 64 - 1, 256⟩
/-- 12 R417: 0x2000:07 BOOT_COUNT, U32 RO. -/
def BOOT_COUNT : ObjDef :=
  ⟨0x2000, .global, 7, 1, .u32, .ro, false, false, false, .fixed 0, 0, 0, 2 ^ 64 - 1, 256⟩
/-- 12 R417: 0x2000:08 BRINGUP_EVENT_ENABLE, BITS32 RW. -/
def BRINGUP_EVENT_ENABLE : ObjDef :=
  ⟨0x2000, .global, 8, 1, .bits32, .rw, false, false, false, .fixed 127, 0, 0, 0x7f, 256⟩
/-- 12 R417: 0x2000:09 WHOLE_RESET, U16 WO. -/
def WHOLE_RESET : ObjDef :=
  ⟨0x2000, .global, 9, 1, .u16, .wo, false, false, false, .fixed 0, 0, 0, 2 ^ 64 - 1, 256⟩
/-- 12 R417: 0x2000:0A PARTITION_RESET, U8 WO. -/
def PARTITION_RESET : ObjDef :=
  ⟨0x2000, .global, 10, 1, .u8, .wo, false, false, false, .fixed 0, 0, 0, 2 ^ 64 - 1, 256⟩
/-- 12 R417: 0x2000:0B RESET_ABSORBED, U64 RO. -/
def RESET_ABSORBED : ObjDef :=
  ⟨0x2000, .global, 11, 1, .u64, .ro, false, true, false, .fixed 0, 0, 0, 2 ^ 64 - 1, 256⟩
/-- 12 R417: 0x2000:0C RESET_DRAIN_ANSWERED, U64 RO. -/
def RESET_DRAIN_ANSWERED : ObjDef :=
  ⟨0x2000, .global, 12, 1, .u64, .ro, false, true, false, .fixed 0, 0, 0, 2 ^ 64 - 1, 256⟩
/-- 12 R417: 0x2000:0D FW_FAILED_HEARTHS, U16 RO. -/
def FW_FAILED_HEARTHS : ObjDef :=
  ⟨0x2000, .global, 13, 1, .u16, .ro, false, false, false, .fixed 0, 0, 0, 2 ^ 64 - 1, 256⟩
/-- 12 R417: 0x2100:01 DEFECT_COUNT, U16 RO. -/
def DEFECT_COUNT : ObjDef :=
  ⟨0x2100, .global, 1, 1, .u16, .ro, false, false, false, .fixed 0, 0, 0, 2 ^ 64 - 1, 256⟩
/-- 12 R417: 0x2100:02 DEFECT_LIST, DOMAIN RO. -/
def DEFECT_LIST : ObjDef :=
  ⟨0x2100, .global, 2, 1, .domain, .ro, false, false, false, .fixed 0, 32768, 0, 2 ^ 64 - 1, 256⟩
/-- 12 R417: 0x2100:03 DEFECT_ADD, U64 WO. -/
def DEFECT_ADD : ObjDef :=
  ⟨0x2100, .global, 3, 1, .u64, .wo, false, false, false, .fixed 0, 0, 0, 2 ^ 64 - 1, 256⟩
/-- 12 R417: 0x2100:04 DEFECT_STATUS, BITS32 RO. -/
def DEFECT_STATUS : ObjDef :=
  ⟨0x2100, .global, 4, 1, .bits32, .ro, false, false, false, .fixed 0, 0, 0, 0x3, 256⟩
/-- 12 R417: 0x2100:05 FUSE_ONLY_MAP, DOMAIN RO. -/
def FUSE_ONLY_MAP : ObjDef :=
  ⟨0x2100, .global, 5, 1, .domain, .ro, false, false, false, .fixed 0, 144, 0, 2 ^ 64 - 1, 256⟩
/-- 12 R417: 0x2100:06 LIST_ONLY_MAP, DOMAIN RO. -/
def LIST_ONLY_MAP : ObjDef :=
  ⟨0x2100, .global, 6, 1, .domain, .ro, false, false, false, .fixed 0, 144, 0, 2 ^ 64 - 1, 256⟩
/-- 12 R417: 0x2200:01 HEARTH_FW_VERSION, U32 RO. -/
def HEARTH_FW_VERSION : ObjDef :=
  ⟨0x2200, .global, 1, 1, .u32, .ro, false, false, false, .fixed 0, 0, 0, 2 ^ 64 - 1, 256⟩
/-- 12 R417: 0x2200:02 HEARTH_FW_CHUNKS, U8 RO. -/
def HEARTH_FW_CHUNKS : ObjDef :=
  ⟨0x2200, .global, 2, 1, .u8, .ro, false, false, false, .fixed 0, 0, 0, 2 ^ 64 - 1, 256⟩
/-- 12 R417: 0x2200:03 FW_HASH_FAILURES, U32 RO. -/
def FW_HASH_FAILURES : ObjDef :=
  ⟨0x2200, .global, 3, 1, .u32, .ro, false, true, false, .fixed 0, 0, 0, 2 ^ 64 - 1, 256⟩
/-- 14 R459: 0x2800:01 INPUT_VOLTAGE_MV, U32 RO. -/
def INPUT_VOLTAGE_MV : ObjDef :=
  ⟨0x2800, .global, 1, 1, .u32, .ro, false, false, false, .fixed 0, 0, 0, 2 ^ 64 - 1, 256⟩
/-- 14 R459: 0x2800:02 INPUT_STATE, ENUM8 RO. -/
def INPUT_STATE : ObjDef :=
  ⟨0x2800, .global, 2, 1, .enum8, .ro, false, false, false, .fixed 0, 0, 0, 2 ^ 64 - 1, 256⟩
/-- 14 R459: 0x2800:03 SIDEBAND_STATUS, BITS32 RO. -/
def SIDEBAND_STATUS : ObjDef :=
  ⟨0x2800, .global, 3, 1, .bits32, .ro, false, false, false, .fixed 0, 0, 0, 0x1ff, 256⟩
/-- 14 R459: 0x2800:04 SIDEBAND_FAULTS, BITS32 RW1C. -/
def SIDEBAND_FAULTS : ObjDef :=
  ⟨0x2800, .global, 4, 1, .bits32, .rw1c, false, false, false, .fixed 0, 0, 0, 0x1ff, 256⟩
/-- 14 R459: 0x2800:05 MODULE_EVENT_ENABLE, BITS32 RW. -/
def MODULE_EVENT_ENABLE : ObjDef :=
  ⟨0x2800, .global, 5, 1, .bits32, .rw, false, false, false, .fixed 1023, 0, 0, 0x3ff, 256⟩
/-- 14 R459: 0x2800:06 LAST_SHUTDOWN, ENUM8 RO. -/
def LAST_SHUTDOWN : ObjDef :=
  ⟨0x2800, .global, 6, 1, .enum8, .ro, false, false, false, .fixed 0, 0, 0, 2 ^ 64 - 1, 256⟩
/-- 14 R459: 0x2801:01 HOLDUP_ENERGY_MJ, U32 RO. -/
def HOLDUP_ENERGY_MJ : ObjDef :=
  ⟨0x2801, .global, 1, 1, .u32, .ro, false, false, false, .fixed 0, 0, 0, 2 ^ 64 - 1, 256⟩
/-- 14 R459: 0x2801:02 HOLDUP_CAPACITY_MJ, U32 RO. -/
def HOLDUP_CAPACITY_MJ : ObjDef :=
  ⟨0x2801, .global, 2, 1, .u32, .ro, false, false, false, .fixed 0, 0, 0, 2 ^ 64 - 1, 256⟩
/-- 14 R459: 0x2801:03 HOLDUP_STATUS, BITS32 RO. -/
def HOLDUP_STATUS : ObjDef :=
  ⟨0x2801, .global, 3, 1, .bits32, .ro, false, false, false, .fixed 0, 0, 0, 0x3, 256⟩
/-- 14 R459: 0x2802:01 FIBRE_STATE_0..FIBRE_STATE_15, U32 RO. -/
def FIBRE_STATE : ObjDef :=
  ⟨0x2802, .global, 1, 16, .u32, .ro, false, false, false, .fixed 0, 0, 0, 2 ^ 64 - 1, 256⟩
/-- 14 R459: 0x2803:01 STORE_STATE, ENUM8 RO. -/
def STORE_STATE : ObjDef :=
  ⟨0x2803, .global, 1, 1, .enum8, .ro, false, false, false, .fixed 0, 0, 0, 2 ^ 64 - 1, 256⟩
/-- 14 R459: 0x2803:02 STORE_MIRROR_STATE, U8 RO. -/
def STORE_MIRROR_STATE : ObjDef :=
  ⟨0x2803, .global, 2, 1, .u8, .ro, false, false, false, .fixed 3, 0, 0, 2 ^ 64 - 1, 256⟩
/-- 14 R459: 0x2803:03 STORE_QUEUED, U16 RO. -/
def STORE_QUEUED : ObjDef :=
  ⟨0x2803, .global, 3, 1, .u16, .ro, false, false, false, .fixed 0, 0, 0, 2 ^ 64 - 1, 256⟩
/-- 14 R459: 0x2803:04 STORE_DEFERRALS, U32 RO. -/
def STORE_DEFERRALS : ObjDef :=
  ⟨0x2803, .global, 4, 1, .u32, .ro, false, false, false, .fixed 0, 0, 0, 2 ^ 64 - 1, 256⟩
/-- 14 R459: 0x2803:05 STORE_REPAIRS, U32 RO. -/
def STORE_REPAIRS : ObjDef :=
  ⟨0x2803, .global, 5, 1, .u32, .ro, false, false, false, .fixed 0, 0, 0, 2 ^ 64 - 1, 256⟩
/-- 13 R438: 0x3000:01 IDENTITY_CERT_CHAIN, DOMAIN CONST. -/
def IDENTITY_CERT_CHAIN : ObjDef :=
  ⟨0x3000, .global, 1, 1, .domain, .const, false, false, false, .fixed 0, 8192, 0, 2 ^ 64 - 1, 256⟩
/-- 13 R438: 0x3000:02 LINK_CERT, DOMAIN CONST. -/
def LINK_CERT : ObjDef :=
  ⟨0x3000, .global, 2, 1, .domain, .const, false, false, false, .fixed 0, 2048, 0, 2 ^ 64 - 1, 256⟩
/-- 13 R438: 0x3000:03 ROOT_KEY_DIGEST, DOMAIN CONST. -/
def ROOT_KEY_DIGEST : ObjDef :=
  ⟨0x3000, .global, 3, 1, .domain, .const, false, false, false, .fixed 0, 48, 0, 2 ^ 64 - 1, 256⟩
/-- 13 R438: 0x3000:04 FW_KEY_DIGESTS, DOMAIN CONST. -/
def FW_KEY_DIGESTS : ObjDef :=
  ⟨0x3000, .global, 4, 1, .domain, .const, false, false, false, .fixed 0, 96, 0, 2 ^ 64 - 1, 256⟩
/-- 13 R438: 0x3000:05 FW_KEY_REVOKED, U8 RO. -/
def FW_KEY_REVOKED : ObjDef :=
  ⟨0x3000, .global, 5, 1, .u8, .ro, false, false, false, .fixed 0, 0, 0, 2 ^ 64 - 1, 256⟩
/-- 13 R438: 0x3000:06 SECURITY_VERSION, U32 RO. -/
def SECURITY_VERSION : ObjDef :=
  ⟨0x3000, .global, 6, 1, .u32, .ro, false, false, false, .fixed 0, 0, 0, 2 ^ 64 - 1, 256⟩
/-- 13 R438: 0x3000:07 SECURITY_EVENT_ENABLE, BITS32 RW. -/
def SECURITY_EVENT_ENABLE : ObjDef :=
  ⟨0x3000, .global, 7, 1, .bits32, .rw, false, false, false, .fixed 15, 0, 0, 0xf, 256⟩
/-- 13 R438: 0x3000:08 CONFIDENTIAL_REQUEST, BOOL RW. -/
def CONFIDENTIAL_REQUEST : ObjDef :=
  ⟨0x3000, .global, 8, 1, .bool, .rw, true, false, false, .fixed 0, 0, 0, 2 ^ 64 - 1, 256⟩
/-- 13 R438: 0x3000:09 CONFIDENTIAL_ACTIVE, BOOL RO. -/
def CONFIDENTIAL_ACTIVE : ObjDef :=
  ⟨0x3000, .global, 9, 1, .bool, .ro, false, false, false, .fixed 0, 0, 0, 2 ^ 64 - 1, 256⟩
/-- 13 R438: 0x3001:01 FW_ACTIVE_SLOT, U8 RO. -/
def FW_ACTIVE_SLOT : ObjDef :=
  ⟨0x3001, .global, 1, 1, .u8, .ro, false, false, false, .fixed 0, 0, 0, 2 ^ 64 - 1, 256⟩
/-- 13 R438: 0x3001:02 FW_SLOT_STATE_0..1, ENUM8 RO. -/
def FW_SLOT_STATE : ObjDef :=
  ⟨0x3001, .global, 2, 2, .enum8, .ro, false, false, false, .fixed 0, 0, 0, 2 ^ 64 - 1, 256⟩
/-- 13 R438: 0x3001:04 FW_UPDATE_CTL, U64 WO. -/
def FW_UPDATE_CTL : ObjDef :=
  ⟨0x3001, .global, 4, 1, .u64, .wo, false, false, false, .fixed 0, 0, 0, 2 ^ 64 - 1, 256⟩
/-- 13 R438: 0x3001:05 FW_STAGE, DOMAIN RW. -/
def FW_STAGE : ObjDef :=
  ⟨0x3001, .global, 5, 1, .domain, .rw, false, false, false, .fixed 0, 131072, 0, 2 ^ 64 - 1, 256⟩
/-- 13 R438: 0x3001:06 FW_UPDATE_STATE, ENUM8 RO. -/
def FW_UPDATE_STATE : ObjDef :=
  ⟨0x3001, .global, 6, 1, .enum8, .ro, false, false, false, .fixed 0, 0, 0, 2 ^ 64 - 1, 256⟩
/-- 13 R438: 0x3001:07 FW_REJECT_REASON, U8 RO. -/
def FW_REJECT_REASON : ObjDef :=
  ⟨0x3001, .global, 7, 1, .u8, .ro, false, false, false, .fixed 0, 0, 0, 2 ^ 64 - 1, 256⟩
/-- 13 R438: 0x3001:08 FW_CONFIRM, BOOL WO. -/
def FW_CONFIRM : ObjDef :=
  ⟨0x3001, .global, 8, 1, .bool, .wo, false, false, false, .fixed 0, 0, 0, 2 ^ 64 - 1, 256⟩
/-- 13 R438: 0x3001:09 PENDING_MEASUREMENT, DOMAIN RO. -/
def PENDING_MEASUREMENT : ObjDef :=
  ⟨0x3001, .global, 9, 1, .domain, .ro, false, false, false, .fixed 0, 48, 0, 2 ^ 64 - 1, 256⟩
/-- 13 R438: 0x3002:01 MEAS_REGISTERS, DOMAIN RO. -/
def MEAS_REGISTERS : ObjDef :=
  ⟨0x3002, .global, 1, 1, .domain, .ro, false, false, false, .fixed 0, 240, 0, 2 ^ 64 - 1, 256⟩
/-- 13 R438: 0x3002:02 MEAS_EXTENDS, U32 RO. -/
def MEAS_EXTENDS : ObjDef :=
  ⟨0x3002, .global, 2, 1, .u32, .ro, false, false, false, .fixed 0, 0, 0, 2 ^ 64 - 1, 256⟩
/-- 13 R438: 0x3002:03 QUOTE_REQ_0..3, DOMAIN WO. -/
def QUOTE_REQ : ObjDef :=
  ⟨0x3002, .global, 3, 4, .domain, .wo, false, false, false, .fixed 0, 32, 0, 2 ^ 64 - 1, 256⟩
/-- 13 R438: 0x3002:07 QUOTE_0..3, DOMAIN RO. -/
def QUOTE : ObjDef :=
  ⟨0x3002, .global, 7, 4, .domain, .ro, false, false, false, .fixed 0, 624, 0, 2 ^ 64 - 1, 256⟩
/-- 13 R438: 0x3002:0B QUOTE_STATUS_0..3, ENUM8 RO. -/
def QUOTE_STATUS : ObjDef :=
  ⟨0x3002, .global, 11, 4, .enum8, .ro, false, false, false, .fixed 0, 0, 0, 2 ^ 64 - 1, 256⟩
/-- 13 R438: 0x3003:01 BUNDLE_LOAD, U64 WO. -/
def BUNDLE_LOAD : ObjDef :=
  ⟨0x3003, .global, 1, 1, .u64, .wo, false, false, false, .fixed 0, 0, 0, 2 ^ 64 - 1, 256⟩
/-- 13 R438: 0x3003:02 BUNDLE_STATE, ENUM8 RO. -/
def BUNDLE_STATE : ObjDef :=
  ⟨0x3003, .global, 2, 1, .enum8, .ro, false, false, false, .fixed 0, 0, 0, 2 ^ 64 - 1, 256⟩
/-- 13 R438: 0x3003:03 BUNDLE_RESULT, U8 RO. -/
def BUNDLE_RESULT : ObjDef :=
  ⟨0x3003, .global, 3, 1, .u8, .ro, false, false, false, .fixed 0, 0, 0, 2 ^ 64 - 1, 256⟩
/-- 13 R438: 0x3003:04 BUNDLE_LAST_HANDLE, HANDLE64 RO. -/
def BUNDLE_LAST_HANDLE : ObjDef :=
  ⟨0x3003, .global, 4, 1, .handle64, .ro, false, false, false, .fixed 0, 0, 0, 2 ^ 64 - 1, 256⟩
/-- 13 R438: 0x3003:05 BUNDLE_RELEASE, HANDLE64 WO. -/
def BUNDLE_RELEASE : ObjDef :=
  ⟨0x3003, .global, 5, 1, .handle64, .wo, false, false, false, .fixed 0, 0, 0, 2 ^ 64 - 1, 256⟩
/-- 13 R438: 0x3003:06 BUNDLE_HANDLE_0..15, HANDLE64 RO. -/
def BUNDLE_HANDLE : ObjDef :=
  ⟨0x3003, .global, 6, 16, .handle64, .ro, false, false, false, .fixed 0, 0, 0, 2 ^ 64 - 1, 256⟩
/-- 08 R314: 0x4000:01 DEVICE_ID, U32 RW. -/
def DEVICE_ID : ObjDef :=
  ⟨0x4000, .global, 1, 1, .u32, .rw, true, false, false, .fixed 0, 0, 0, 0x800fffff, 256⟩
/-- 08 R314: 0x4000:02 DEVICE_ID_ACTIVE, U32 RO. -/
def DEVICE_ID_ACTIVE : ObjDef :=
  ⟨0x4000, .global, 2, 1, .u32, .ro, false, false, false, .fixed 0, 0, 0, 2 ^ 64 - 1, 256⟩
/-- 08 R314: 0x4000:03 BRIDGE_ENABLE, BOOL RW. -/
def BRIDGE_ENABLE : ObjDef :=
  ⟨0x4000, .global, 3, 1, .bool, .rw, true, false, false, .fixed 0, 0, 0, 2 ^ 64 - 1, 256⟩
/-- 08 R314: 0x4000:04 BRIDGE_ID, U32 RW. -/
def BRIDGE_ID : ObjDef :=
  ⟨0x4000, .global, 4, 1, .u32, .rw, true, false, false, .fixed 0, 0, 0, 0x800fffff, 256⟩
/-- 08 R314: 0x4000:05 ROUTE_IN_GROUP, DOMAIN RW. -/
def ROUTE_IN_GROUP : ObjDef :=
  ⟨0x4000, .global, 5, 1, .domain, .rw, true, false, false, .fixed 0, 512, 255, 2 ^ 64 - 1, 256⟩
/-- 08 R314: 0x4000:06 ROUTE_CROSS_GROUP, DOMAIN RW. -/
def ROUTE_CROSS_GROUP : ObjDef :=
  ⟨0x4000, .global, 6, 1, .domain, .rw, true, false, false, .fixed 0, 4096, 0, 2 ^ 64 - 1, 256⟩
/-- 08 R314: 0x4000:07 REKEY_INTERVAL, U32 RW. -/
def REKEY_INTERVAL : ObjDef :=
  ⟨0x4000, .global, 7, 1, .u32, .rw, true, false, false, .fixed 3600, 0, 0, 2 ^ 64 - 1, 256⟩
/-- 08 R314: 0x4000:08 PORT_DOWN_HOLD, U32 RW. -/
def PORT_DOWN_HOLD : ObjDef :=
  ⟨0x4000, .global, 8, 1, .u32, .rw, true, false, false, .fixed 25000, 0, 0, 2 ^ 64 - 1, 256⟩
/-- 08 R314: 0x4000:09 CREDIT_STALL_LIMIT, U32 RW. -/
def CREDIT_STALL_LIMIT : ObjDef :=
  ⟨0x4000, .global, 9, 1, .u32, .rw, false, false, false, .fixed 50000, 0, 0, 2 ^ 64 - 1, 256⟩
/-- 08 R314: 0x4000:0A FABRIC_TIMEOUT, U32 RW. -/
def FABRIC_TIMEOUT : ObjDef :=
  ⟨0x4000, .global, 10, 1, .u32, .rw, true, false, false, .fixed 500000, 0, 0, 2 ^ 64 - 1, 256⟩
/-- 08 R314: 0x4000:0B FABRIC_EVENT_ENABLE, BITS32 RW. -/
def FABRIC_EVENT_ENABLE : ObjDef :=
  ⟨0x4000, .global, 11, 1, .bits32, .rw, false, false, false, .fixed 3, 0, 0, 0x3, 256⟩
/-- 08 R314: 0x4001:01 DISTANCE_MAP, DOMAIN RO. -/
def DISTANCE_MAP : ObjDef :=
  ⟨0x4001, .global, 1, 1, .domain, .ro, false, false, false, .fixed 0, 128, 0, 2 ^ 64 - 1, 256⟩
/-- 08 R314: 0x4001:02 HOP_MAP, DOMAIN RO. -/
def HOP_MAP : ObjDef :=
  ⟨0x4001, .global, 2, 1, .domain, .ro, false, false, false, .fixed 0, 512, 255, 2 ^ 64 - 1, 256⟩
/-- 08 R314: 0x4001:03 FRAMES_UNROUTABLE, U64 RO. -/
def FRAMES_UNROUTABLE : ObjDef :=
  ⟨0x4001, .global, 3, 1, .u64, .ro, false, true, false, .fixed 0, 0, 0, 2 ^ 64 - 1, 256⟩
/-- 08 R314: 0x4001:04 FABRIC_TIMEOUTS, U64 RO. -/
def FABRIC_TIMEOUTS : ObjDef :=
  ⟨0x4001, .global, 4, 1, .u64, .ro, false, true, false, .fixed 0, 0, 0, 2 ^ 64 - 1, 256⟩
/-- 08 R314: 0x4001:05 LATE_ANSWERS, U64 RO. -/
def LATE_ANSWERS : ObjDef :=
  ⟨0x4001, .global, 5, 1, .u64, .ro, false, true, false, .fixed 0, 0, 0, 2 ^ 64 - 1, 256⟩
/-- 08 R314: 0x4001:06 HOST_ERRORS, U64 RO. -/
def HOST_ERRORS : ObjDef :=
  ⟨0x4001, .global, 6, 1, .u64, .ro, false, true, false, .fixed 0, 0, 0, 2 ^ 64 - 1, 256⟩
/-- 08 R314: 0x4001:07 FABRIC_COUNTERS_CLEAR, BOOL WO. -/
def FABRIC_COUNTERS_CLEAR : ObjDef :=
  ⟨0x4001, .global, 7, 1, .bool, .wo, false, false, false, .fixed 0, 0, 0, 2 ^ 64 - 1, 256⟩
/-- 08 R314: 0x4002:01 HOST_LINK_STATE, ENUM8 RO. -/
def HOST_LINK_STATE : ObjDef :=
  ⟨0x4002, .global, 1, 1, .enum8, .ro, false, false, false, .fixed 0, 0, 0, 2 ^ 64 - 1, 256⟩
/-- 08 R314: 0x4002:02 HOST_LINK_SPEED, U8 RO. -/
def HOST_LINK_SPEED : ObjDef :=
  ⟨0x4002, .global, 2, 1, .u8, .ro, false, false, false, .fixed 0, 0, 0, 2 ^ 64 - 1, 256⟩
/-- 08 R314: 0x4002:03 HOST_LINK_WIDTH, U8 RO. -/
def HOST_LINK_WIDTH : ObjDef :=
  ⟨0x4002, .global, 3, 1, .u8, .ro, false, false, false, .fixed 0, 0, 0, 2 ^ 64 - 1, 256⟩
/-- 08 R314: 0x4003:01 HOST_WINDOW_0..HOST_WINDOW_63, U64 RW. -/
def HOST_WINDOW : ObjDef :=
  ⟨0x4003, .global, 1, 64, .u64, .rw, false, false, false, .fixed 0, 0, 0, 0xffffffffc0000001, 256⟩
/-- 10 R370: 0x5000:01 EVENT_NEXT_SEQ, U32 RO. -/
def EVENT_NEXT_SEQ : ObjDef :=
  ⟨0x5000, .global, 1, 1, .u32, .ro, false, false, false, .fixed 0, 0, 0, 2 ^ 64 - 1, 256⟩
/-- 10 R370: 0x5000:02 EVENT_OLDEST_SEQ, U32 RO. -/
def EVENT_OLDEST_SEQ : ObjDef :=
  ⟨0x5000, .global, 2, 1, .u32, .ro, false, false, false, .fixed 0, 0, 0, 2 ^ 64 - 1, 256⟩
/-- 10 R370: 0x5000:03 EVENTS_OVERWRITTEN, U64 RO. -/
def EVENTS_OVERWRITTEN : ObjDef :=
  ⟨0x5000, .global, 3, 1, .u64, .ro, false, false, false, .fixed 0, 0, 0, 2 ^ 64 - 1, 256⟩
/-- 10 R370: 0x5000:04 EVENT_SUBSCRIBER, U32 RW. -/
def EVENT_SUBSCRIBER : ObjDef :=
  ⟨0x5000, .global, 4, 1, .u32, .rw, true, false, false, .fixed 0, 0, 0, 0x800fffff, 256⟩
/-- 10 R370: 0x5000:05 EVENT_VECTOR_MAP, DOMAIN RW. -/
def EVENT_VECTOR_MAP : ObjDef :=
  ⟨0x5000, .global, 5, 1, .domain, .rw, true, false, false, .fixed 0, 64, 0, 2 ^ 64 - 1, 256⟩
/-- 10 R370: 0x5000:06 IBI_ENABLE, BOOL RW. -/
def IBI_ENABLE : ObjDef :=
  ⟨0x5000, .global, 6, 1, .bool, .rw, true, false, false, .fixed 0, 0, 0, 2 ^ 64 - 1, 256⟩
/-- 10 R370: 0x5001:01 FETCH_SEQ, U32 RW. -/
def FETCH_SEQ : ObjDef :=
  ⟨0x5001, .global, 1, 1, .u32, .rw, false, false, false, .fixed 0, 0, 0, 2 ^ 64 - 1, 256⟩
/-- 10 R370: 0x5001:02 FETCH_W0..FETCH_W3, U64 RO. -/
def FETCH_W : ObjDef :=
  ⟨0x5001, .global, 2, 4, .u64, .ro, false, false, false, .fixed 0, 0, 0, 2 ^ 64 - 1, 256⟩
/-- 10 R370: 0x5001:06 FETCH_STATUS, ENUM8 RO. -/
def FETCH_STATUS : ObjDef :=
  ⟨0x5001, .global, 6, 1, .enum8, .ro, false, false, false, .fixed 0, 0, 0, 2 ^ 64 - 1, 256⟩
/-- 04 R172: 0x5400:01 DRAUGHT_LIMIT, U32 RW. -/
def DRAUGHT_LIMIT : ObjDef :=
  ⟨0x5400, .global, 1, 1, .u32, .rw, true, false, false, .fixed 50000, 0, 0, 2 ^ 64 - 1, 256⟩
/-- 04 R172: 0x5400:02 DRAUGHT_EVENTS, U32 RO. -/
def DRAUGHT_EVENTS : ObjDef :=
  ⟨0x5400, .global, 2, 1, .u32, .ro, false, true, false, .fixed 0, 0, 0, 2 ^ 64 - 1, 256⟩
/-- 04 R172: 0x5400:03 DRAUGHT_LENGTH, U8 RO. -/
def DRAUGHT_LENGTH : ObjDef :=
  ⟨0x5400, .global, 3, 1, .u8, .ro, false, false, false, .fixed 0, 0, 0, 2 ^ 64 - 1, 256⟩
/-- 04 R172: 0x5400:04 DRAUGHT_FLUE_0..DRAUGHT_FLUE_7, U16 RO. -/
def DRAUGHT_FLUE : ObjDef :=
  ⟨0x5400, .global, 4, 8, .u16, .ro, false, false, false, .fixed 0, 0, 0, 2 ^ 64 - 1, 256⟩
/-- 09 R338: 0x5500:01 RESERVED_BY, U8 RO. -/
def RESERVED_BY : ObjDef :=
  ⟨0x5500, .global, 1, 1, .u8, .ro, false, false, false, .fixed 255, 0, 0, 2 ^ 64 - 1, 256⟩
/-- 09 R338: 0x5500:02 ENERGY_UNATTRIBUTED_MJ, U64 RO. -/
def ENERGY_UNATTRIBUTED_MJ : ObjDef :=
  ⟨0x5500, .global, 2, 1, .u64, .ro, false, true, false, .fixed 0, 0, 0, 2 ^ 64 - 1, 256⟩
/-- 09 R338: 0x5500:03 ATTRIBUTION_INTERVAL, U32 CONST. -/
def ATTRIBUTION_INTERVAL : ObjDef :=
  ⟨0x5500, .global, 3, 1, .u32, .const, false, false, false, .fixed 50000, 0, 0, 2 ^ 64 - 1, 256⟩
/-- 10 R355: 0x10000:01 DIE_STEPPING, U8 CONST. -/
def DIE_STEPPING : ObjDef :=
  ⟨0x10000, .die, 1, 1, .u8, .const, false, false, false, .fixed 0, 0, 0, 2 ^ 64 - 1, 256⟩
/-- 11 R393: 0x10010:01 REGION_TEMP_0..REGION_TEMP_3, I32 RO. -/
def REGION_TEMP : ObjDef :=
  ⟨0x10010, .die, 1, 4, .i32, .ro, false, false, false, .fixed 0, 0, 0, 2 ^ 64 - 1, 256⟩
/-- 11 R393: 0x10010:05 DIE_POWER_MW, U32 RO. -/
def DIE_POWER_MW : ObjDef :=
  ⟨0x10010, .die, 5, 1, .u32, .ro, false, true, false, .fixed 0, 0, 0, 2 ^ 64 - 1, 256⟩
/-- 12 R418: 0x10040:01 REGION_PARTITION_0..3, U8 RWI. -/
def REGION_PARTITION : ObjDef :=
  ⟨0x10040, .die, 1, 4, .u8, .rwi, true, false, false, .fixed 255, 0, 0, 2 ^ 64 - 1, 256⟩
/-- 12 R418: 0x11000:01 REGION_STATE, ENUM8 RO. -/
def REGION_STATE : ObjDef :=
  ⟨0x11000, .region, 1, 1, .enum8, .ro, false, false, false, .fixed 0, 0, 0, 2 ^ 64 - 1, 256⟩
/-- 12 R418: 0x11000:02 FW_AREA_PA, U64 RWI. -/
def FW_AREA_PA : ObjDef :=
  ⟨0x11000, .region, 2, 1, .u64, .rwi, true, false, false, .fwArea, 0, 0, 2 ^ 64 - 1, 256⟩
/-- 12 R418: 0x11000:03 FW_AREA_STATE, ENUM8 RO. -/
def FW_AREA_STATE : ObjDef :=
  ⟨0x11000, .region, 3, 1, .enum8, .ro, false, false, false, .fixed 0, 0, 0, 2 ^ 64 - 1, 256⟩
/-- 12 R418: 0x11000:04 TEST_ROUND, U8 RO. -/
def TEST_ROUND : ObjDef :=
  ⟨0x11000, .region, 4, 1, .u8, .ro, false, false, false, .fixed 0, 0, 0, 2 ^ 64 - 1, 256⟩
/-- 12 R418: 0x11000:05 REGION_UP_TICK, U64 RO. -/
def REGION_UP_TICK : ObjDef :=
  ⟨0x11000, .region, 5, 1, .u64, .ro, false, false, false, .fixed 0, 0, 0, 2 ^ 64 - 1, 256⟩
/-- 05 R216: 0x11010:01 HBM_SEG_MODE, U64 RWI. -/
def HBM_SEG_MODE : ObjDef :=
  ⟨0x11010, .region, 1, 1, .u64, .rwi, true, false, false, .fixed 0, 0, 0, 2 ^ 64 - 1, 256⟩
/-- 11 R393: 0x11020:01 REGION_OP, U8 RO. -/
def REGION_OP : ObjDef :=
  ⟨0x11020, .region, 1, 1, .u8, .ro, false, false, false, .fixed 0, 0, 0, 2 ^ 64 - 1, 256⟩
/-- 11 R393: 0x11020:02 CLOCK_STATE, ENUM8 RO. -/
def CLOCK_STATE : ObjDef :=
  ⟨0x11020, .region, 2, 1, .enum8, .ro, false, false, false, .fixed 0, 0, 0, 2 ^ 64 - 1, 256⟩
/-- 11 R393: 0x11020:03 OP_LIMIT, U8 RW. -/
def OP_LIMIT : ObjDef :=
  ⟨0x11020, .region, 3, 1, .u8, .rw, true, false, false, .fixed 15, 0, 0, 2 ^ 64 - 1, 256⟩
/-- 11 R393: 0x11020:04 POWER_CEILING, U8 RO. -/
def POWER_CEILING : ObjDef :=
  ⟨0x11020, .region, 4, 1, .u8, .ro, false, false, false, .fixed 15, 0, 0, 2 ^ 64 - 1, 256⟩
/-- 11 R393: 0x11020:05 THERMAL_CEILING, U8 RO. -/
def THERMAL_CEILING : ObjDef :=
  ⟨0x11020, .region, 5, 1, .u8, .ro, false, false, false, .fixed 15, 0, 0, 2 ^ 64 - 1, 256⟩
/-- 11 R393: 0x11020:06 CURRENT_PHASE, ENUM8 RO. -/
def CURRENT_PHASE : ObjDef :=
  ⟨0x11020, .region, 6, 1, .enum8, .ro, false, false, false, .fixed 0, 0, 0, 2 ^ 64 - 1, 256⟩
/-- 11 R393: 0x11020:07 PHASE_AT_START, ENUM8 RW. -/
def PHASE_AT_START : ObjDef :=
  ⟨0x11020, .region, 7, 1, .enum8, .rw, true, false, false, .fixed 0, 0, 0, 2 ^ 64 - 1, 5⟩
/-- 11 R393: 0x11020:08 OP_MOVES, U64 RO. -/
def OP_MOVES : ObjDef :=
  ⟨0x11020, .region, 8, 1, .u64, .ro, false, true, false, .fixed 0, 0, 0, 2 ^ 64 - 1, 256⟩
/-- 11 R393: 0x11020:09 REGION_ENERGY_UJ, U64 RO. -/
def REGION_ENERGY_UJ : ObjDef :=
  ⟨0x11020, .region, 9, 1, .u64, .ro, false, true, false, .fixed 0, 0, 0, 2 ^ 64 - 1, 256⟩
/-- 11 R393: 0x11021:01 PHASE_OP_0..PHASE_OP_4, U8 RW. -/
def PHASE_OP : ObjDef :=
  ⟨0x11021, .region, 1, 5, .u8, .rw, true, false, false, .fixed 15, 0, 0, 2 ^ 64 - 1, 256⟩
/-- 05 R217: 0x12000:01 STACK_STATE, ENUM8 RO. -/
def STACK_STATE : ObjDef :=
  ⟨0x12000, .stack, 1, 1, .enum8, .ro, false, false, false, .fixed 0, 0, 0, 2 ^ 64 - 1, 256⟩
/-- 05 R217: 0x12000:02 STACK_POWER_CTL, ENUM8 RW. -/
def STACK_POWER_CTL : ObjDef :=
  ⟨0x12000, .stack, 2, 1, .enum8, .rw, false, false, false, .fixed 1, 0, 0, 2 ^ 64 - 1, 2⟩
/-- 05 R217: 0x12000:03 ECC_MODE, ENUM8 RWI. -/
def ECC_MODE : ObjDef :=
  ⟨0x12000, .stack, 3, 1, .enum8, .rwi, true, false, false, .fixed 0, 0, 0, 2 ^ 64 - 1, 3⟩
/-- 05 R217: 0x12000:04 PD_IDLE, U32 RW. -/
def PD_IDLE : ObjDef :=
  ⟨0x12000, .stack, 4, 1, .u32, .rw, false, false, false, .fixed 5, 0, 0, 2 ^ 64 - 1, 256⟩
/-- 05 R217: 0x12000:05 SR_IDLE, U32 RW. -/
def SR_IDLE : ObjDef :=
  ⟨0x12000, .stack, 5, 1, .u32, .rw, false, false, false, .fixed 2500, 0, 0, 2 ^ 64 - 1, 256⟩
/-- 05 R217: 0x12000:06 SCRUB_INTERVAL, U32 RW. -/
def SCRUB_INTERVAL : ObjDef :=
  ⟨0x12000, .stack, 6, 1, .u32, .rw, true, false, false, .fixed 86400, 0, 0, 2 ^ 64 - 1, 256⟩
/-- 05 R217: 0x12000:07 CE_EVENT_THRESHOLD, U32 RW. -/
def CE_EVENT_THRESHOLD : ObjDef :=
  ⟨0x12000, .stack, 7, 1, .u32, .rw, false, false, false, .fixed 1024, 0, 0, 2 ^ 64 - 1, 256⟩
/-- 05 R217: 0x12000:08 CKPT_STALE, U32 RW. -/
def CKPT_STALE : ObjDef :=
  ⟨0x12000, .stack, 8, 1, .u32, .rw, false, false, false, .fixed 5000, 0, 0, 2 ^ 64 - 1, 256⟩
/-- 05 R217: 0x12000:09 HBM_EVENT_ENABLE, BITS32 RW. -/
def HBM_EVENT_ENABLE : ObjDef :=
  ⟨0x12000, .stack, 9, 1, .bits32, .rw, false, false, false, .fixed 127, 0, 0, 0x7f, 256⟩
/-- 05 R217: 0x12001:01 CHANNEL_STATE_0..CHANNEL_STATE_31, U8 RO. -/
def CHANNEL_STATE : ObjDef :=
  ⟨0x12001, .stack, 1, 32, .u8, .ro, false, false, false, .fixed 0, 0, 0, 2 ^ 64 - 1, 256⟩
/-- 05 R217: 0x12001:21 RETRAIN_REQUEST, BITS32 WO. -/
def RETRAIN_REQUEST : ObjDef :=
  ⟨0x12001, .stack, 33, 1, .bits32, .wo, false, false, false, .fixed 0, 0, 0, 2 ^ 64 - 1, 256⟩
/-- 05 R217: 0x12002:01 SECTORS_CORRECTED, U64 RO. -/
def SECTORS_CORRECTED : ObjDef :=
  ⟨0x12002, .stack, 1, 1, .u64, .ro, false, true, false, .fixed 0, 0, 0, 2 ^ 64 - 1, 256⟩
/-- 05 R217: 0x12002:02 SECTORS_UNCORRECTABLE, U64 RO. -/
def SECTORS_UNCORRECTABLE : ObjDef :=
  ⟨0x12002, .stack, 2, 1, .u64, .ro, false, true, false, .fixed 0, 0, 0, 2 ^ 64 - 1, 256⟩
/-- 05 R217: 0x12002:03 ASH_SECTORS_READ, U64 RO. -/
def ASH_SECTORS_READ : ObjDef :=
  ⟨0x12002, .stack, 3, 1, .u64, .ro, false, true, false, .fixed 0, 0, 0, 2 ^ 64 - 1, 256⟩
/-- 05 R217: 0x12002:04 CRC_REPLAYS, U64 RO. -/
def CRC_REPLAYS : ObjDef :=
  ⟨0x12002, .stack, 4, 1, .u64, .ro, false, true, false, .fixed 0, 0, 0, 2 ^ 64 - 1, 256⟩
/-- 05 R217: 0x12002:05 RETRAINS, U32 RO. -/
def RETRAINS : ObjDef :=
  ⟨0x12002, .stack, 5, 1, .u32, .ro, false, true, false, .fixed 0, 0, 0, 2 ^ 64 - 1, 256⟩
/-- 05 R217: 0x12002:06 RETRAIN_FAILURES, U32 RO. -/
def RETRAIN_FAILURES : ObjDef :=
  ⟨0x12002, .stack, 6, 1, .u32, .ro, false, true, false, .fixed 0, 0, 0, 2 ^ 64 - 1, 256⟩
/-- 05 R217: 0x12002:07 LATE_WRITES_ABSORBED, U64 RO. -/
def LATE_WRITES_ABSORBED : ObjDef :=
  ⟨0x12002, .stack, 7, 1, .u64, .ro, false, true, false, .fixed 0, 0, 0, 2 ^ 64 - 1, 256⟩
/-- 05 R217: 0x12002:08 ASH_LIST_OVERFLOWS, U32 RO. -/
def ASH_LIST_OVERFLOWS : ObjDef :=
  ⟨0x12002, .stack, 8, 1, .u32, .ro, false, true, false, .fixed 0, 0, 0, 2 ^ 64 - 1, 256⟩
/-- 05 R217: 0x12002:09 TAG_FULL_CYCLES, U64 RO. -/
def TAG_FULL_CYCLES : ObjDef :=
  ⟨0x12002, .stack, 9, 1, .u64, .ro, false, true, false, .fixed 0, 0, 0, 2 ^ 64 - 1, 256⟩
/-- 05 R217: 0x12002:0A SCRUB_PASSES, U32 RO. -/
def SCRUB_PASSES : ObjDef :=
  ⟨0x12002, .stack, 10, 1, .u32, .ro, false, true, false, .fixed 0, 0, 0, 2 ^ 64 - 1, 256⟩
/-- 05 R217: 0x12002:0B HBM_COUNTERS_CLEAR, BOOL WO. -/
def HBM_COUNTERS_CLEAR : ObjDef :=
  ⟨0x12002, .stack, 11, 1, .bool, .wo, false, false, false, .fixed 0, 0, 0, 2 ^ 64 - 1, 256⟩
/-- 05 R217: 0x12003:01 UE_LOG_0..UE_LOG_7, U64 RO. -/
def UE_LOG : ObjDef :=
  ⟨0x12003, .stack, 1, 8, .u64, .ro, false, false, false, .fixed 0, 0, 0, 2 ^ 64 - 1, 256⟩
/-- 05 R217: 0x12004:01 CKPT_WIN_0..CKPT_WIN_15, U64 RW. -/
def CKPT_WIN : ObjDef :=
  ⟨0x12004, .stack, 1, 16, .u64, .rw, false, false, false, .fixed 0, 0, 0, 0xfffffffffffffff8, 256⟩
/-- 05 R217: 0x12005:01 BMAX_WIN_0A..BMAX_WIN_7B, U64 RW. -/
def BMAX_WIN : ObjDef :=
  ⟨0x12005, .stack, 1, 16, .u64, .rw, false, false, false, .fixed 0, 0, 0, 2 ^ 64 - 1, 256⟩
/-- 05 R217: 0x12006:01 HOB_DOORBELL, U64 WO. -/
def HOB_DOORBELL : ObjDef :=
  ⟨0x12006, .stack, 1, 1, .u64, .wo, false, false, false, .fixed 0, 0, 0, 2 ^ 64 - 1, 256⟩
/-- 05 R217: 0x12006:02 JOB_QUEUE_DEPTH, U8 RO. -/
def JOB_QUEUE_DEPTH : ObjDef :=
  ⟨0x12006, .stack, 2, 1, .u8, .ro, false, false, false, .fixed 0, 0, 0, 2 ^ 64 - 1, 256⟩
/-- 05 R217: 0x12007:01 HOB_TABLE_0, DOMAIN RW. -/
def HOB_TABLE_0 : ObjDef :=
  ⟨0x12007, .stack, 1, 1, .domain, .rw, false, false, false, .fixed 0, 4096, 0, 2 ^ 64 - 1, 256⟩
/-- 05 R217: 0x12007:02 HOB_TABLE_1, DOMAIN RW. -/
def HOB_TABLE_1 : ObjDef :=
  ⟨0x12007, .stack, 2, 1, .domain, .rw, false, false, false, .fixed 0, 4096, 0, 2 ^ 64 - 1, 256⟩
/-- 05 R217: 0x12008:01 CHAIN_ELEMENTS, U64 RO. -/
def CHAIN_ELEMENTS : ObjDef :=
  ⟨0x12008, .stack, 1, 1, .u64, .ro, false, true, false, .fixed 0, 0, 0, 2 ^ 64 - 1, 256⟩
/-- 05 R217: 0x12008:02 ROW_RELOADS, U64 RO. -/
def ROW_RELOADS : ObjDef :=
  ⟨0x12008, .stack, 2, 1, .u64, .ro, false, true, false, .fixed 0, 0, 0, 2 ^ 64 - 1, 256⟩
/-- 05 R217: 0x12008:03 HOB_MISUSE, U64 RO. -/
def HOB_MISUSE : ObjDef :=
  ⟨0x12008, .stack, 3, 1, .u64, .ro, false, true, false, .fixed 0, 0, 0, 2 ^ 64 - 1, 256⟩
/-- 05 R217: 0x12008:04 FOLD_ADD_SECTORS, U64 RO. -/
def FOLD_ADD_SECTORS : ObjDef :=
  ⟨0x12008, .stack, 4, 1, .u64, .ro, false, true, false, .fixed 0, 0, 0, 2 ^ 64 - 1, 256⟩
/-- 05 R217: 0x12008:05 CKPT_BLOCKS_WRITTEN, U64 RO. -/
def CKPT_BLOCKS_WRITTEN : ObjDef :=
  ⟨0x12008, .stack, 5, 1, .u64, .ro, false, true, false, .fixed 0, 0, 0, 2 ^ 64 - 1, 256⟩
/-- 05 R217: 0x12008:06 CKPT_BLOCKS_ASH, U64 RO. -/
def CKPT_BLOCKS_ASH : ObjDef :=
  ⟨0x12008, .stack, 6, 1, .u64, .ro, false, true, false, .fixed 0, 0, 0, 2 ^ 64 - 1, 256⟩
/-- 05 R217: 0x12008:07 CKPT_AGE_FLUSHES, U64 RO. -/
def CKPT_AGE_FLUSHES : ObjDef :=
  ⟨0x12008, .stack, 7, 1, .u64, .ro, false, true, false, .fixed 0, 0, 0, 2 ^ 64 - 1, 256⟩
/-- 05 R217: 0x12008:08 JOBS_DONE, U64 RO. -/
def JOBS_DONE : ObjDef :=
  ⟨0x12008, .stack, 8, 1, .u64, .ro, false, true, false, .fixed 0, 0, 0, 2 ^ 64 - 1, 256⟩
/-- 05 R217: 0x12008:09 HOB_COUNTERS_CLEAR, BOOL WO. -/
def HOB_COUNTERS_CLEAR : ObjDef :=
  ⟨0x12008, .stack, 9, 1, .bool, .wo, false, false, false, .fixed 0, 0, 0, 2 ^ 64 - 1, 256⟩
/-- 08 R313: 0x13000:01 PORT_STATE, ENUM8 RO. -/
def PORT_STATE : ObjDef :=
  ⟨0x13000, .port, 1, 1, .enum8, .ro, false, false, false, .fixed 1, 0, 0, 2 ^ 64 - 1, 256⟩
/-- 08 R313: 0x13000:02 PORT_CTL, ENUM8 RW. -/
def PORT_CTL : ObjDef :=
  ⟨0x13000, .port, 2, 1, .enum8, .rw, true, false, false, .fixed 1, 0, 0, 2 ^ 64 - 1, 2⟩
/-- 08 R313: 0x13000:03 PORT_ROLE, ENUM8 RWI. -/
def PORT_ROLE : ObjDef :=
  ⟨0x13000, .port, 3, 1, .enum8, .rwi, true, false, false, .portRole, 0, 0, 2 ^ 64 - 1, 2⟩
/-- 08 R313: 0x13000:04 TX_LANES, U8 RO. -/
def TX_LANES : ObjDef :=
  ⟨0x13000, .port, 4, 1, .u8, .ro, false, false, false, .fixed 0, 0, 0, 2 ^ 64 - 1, 256⟩
/-- 08 R313: 0x13000:05 RX_LANES, U8 RO. -/
def RX_LANES : ObjDef :=
  ⟨0x13000, .port, 5, 1, .u8, .ro, false, false, false, .fixed 0, 0, 0, 2 ^ 64 - 1, 256⟩
/-- 08 R313: 0x13000:06 LANES_DOWN, U16 RO. -/
def LANES_DOWN : ObjDef :=
  ⟨0x13000, .port, 6, 1, .u16, .ro, false, false, false, .fixed 0, 0, 0, 2 ^ 64 - 1, 256⟩
/-- 08 R313: 0x13000:07 NEIGHBOUR_ID, U32 RO. -/
def NEIGHBOUR_ID : ObjDef :=
  ⟨0x13000, .port, 7, 1, .u32, .ro, false, false, false, .fixed 0, 0, 0, 2 ^ 64 - 1, 256⟩
/-- 08 R313: 0x13000:08 LANE_IDLE, U32 RW. -/
def LANE_IDLE : ObjDef :=
  ⟨0x13000, .port, 8, 1, .u32, .rw, false, false, false, .fixed 5000, 0, 0, 2 ^ 64 - 1, 256⟩
/-- 08 R313: 0x13000:09 LANE_RETRY_INTERVAL, U32 RW. -/
def LANE_RETRY_INTERVAL : ObjDef :=
  ⟨0x13000, .port, 9, 1, .u32, .rw, false, false, false, .fixed 50000, 0, 0, 2 ^ 64 - 1, 256⟩
/-- 08 R313: 0x13000:0A PORT_EVENT_ENABLE, BITS32 RW. -/
def PORT_EVENT_ENABLE : ObjDef :=
  ⟨0x13000, .port, 10, 1, .bits32, .rw, false, false, false, .fixed 15, 0, 0, 0xf, 256⟩
/-- 08 R313: 0x13001:01 FRAMES_TX, U64 RO. -/
def FRAMES_TX : ObjDef :=
  ⟨0x13001, .port, 1, 1, .u64, .ro, false, true, false, .fixed 0, 0, 0, 2 ^ 64 - 1, 256⟩
/-- 08 R313: 0x13001:02 FRAMES_RX, U64 RO. -/
def FRAMES_RX : ObjDef :=
  ⟨0x13001, .port, 2, 1, .u64, .ro, false, true, false, .fixed 0, 0, 0, 2 ^ 64 - 1, 256⟩
/-- 08 R313: 0x13001:03 PAYLOAD_BYTES_TX, U64 RO. -/
def PAYLOAD_BYTES_TX : ObjDef :=
  ⟨0x13001, .port, 3, 1, .u64, .ro, false, true, false, .fixed 0, 0, 0, 2 ^ 64 - 1, 256⟩
/-- 08 R313: 0x13001:04 PAYLOAD_BYTES_RX, U64 RO. -/
def PAYLOAD_BYTES_RX : ObjDef :=
  ⟨0x13001, .port, 4, 1, .u64, .ro, false, true, false, .fixed 0, 0, 0, 2 ^ 64 - 1, 256⟩
/-- 08 R313: 0x13001:05 RETRIES, U64 RO. -/
def RETRIES : ObjDef :=
  ⟨0x13001, .port, 5, 1, .u64, .ro, false, true, false, .fixed 0, 0, 0, 2 ^ 64 - 1, 256⟩
/-- 08 R313: 0x13001:06 AUTH_FAILURES, U64 RO. -/
def AUTH_FAILURES : ObjDef :=
  ⟨0x13001, .port, 6, 1, .u64, .ro, false, true, false, .fixed 0, 0, 0, 2 ^ 64 - 1, 256⟩
/-- 08 R313: 0x13001:07 NARROWINGS, U32 RO. -/
def NARROWINGS : ObjDef :=
  ⟨0x13001, .port, 7, 1, .u32, .ro, false, true, false, .fixed 0, 0, 0, 2 ^ 64 - 1, 256⟩
/-- 08 R313: 0x13001:08 REKEYS, U32 RO. -/
def REKEYS : ObjDef :=
  ⟨0x13001, .port, 8, 1, .u32, .ro, false, true, false, .fixed 0, 0, 0, 2 ^ 64 - 1, 256⟩
/-- 08 R313: 0x13001:09 FRAMES_DROPPED, U64 RO. -/
def FRAMES_DROPPED : ObjDef :=
  ⟨0x13001, .port, 9, 1, .u64, .ro, false, true, false, .fixed 0, 0, 0, 2 ^ 64 - 1, 256⟩
/-- 08 R313: 0x13001:0A CREDIT_STALLS, U32 RO. -/
def CREDIT_STALLS : ObjDef :=
  ⟨0x13001, .port, 10, 1, .u32, .ro, false, true, false, .fixed 0, 0, 0, 2 ^ 64 - 1, 256⟩
/-- 08 R313: 0x13001:0B PORT_COUNTERS_CLEAR, BOOL WO. -/
def PORT_COUNTERS_CLEAR : ObjDef :=
  ⟨0x13001, .port, 11, 1, .bool, .wo, false, false, false, .fixed 0, 0, 0, 2 ^ 64 - 1, 256⟩
/-- 08 R313: 0x13002:01 LANE_STATE_0..LANE_STATE_7, U8 RO. -/
def LANE_STATE : ObjDef :=
  ⟨0x13002, .port, 1, 8, .u8, .ro, false, false, false, .fixed 0, 0, 0, 2 ^ 64 - 1, 256⟩
/-- 12 R418: 0x14000:01 SLOT_MAP, U32 RO. -/
def SLOT_MAP : ObjDef :=
  ⟨0x14000, .cluster, 1, 1, .u32, .ro, false, false, false, .fixed 4294967295, 0, 0, 2 ^ 64 - 1, 256⟩
/-- 12 R418: 0x14000:02 PHYS_STATUS, U32 RO. -/
def PHYS_STATUS : ObjDef :=
  ⟨0x14000, .cluster, 2, 1, .u32, .ro, false, false, false, .fixed 0, 0, 0, 2 ^ 64 - 1, 256⟩
/-- 12 R418: 0x14000:03 CACHE_STATE, ENUM8 RO. -/
def CACHE_STATE : ObjDef :=
  ⟨0x14000, .cluster, 3, 1, .enum8, .ro, false, false, false, .fixed 0, 0, 0, 2 ^ 64 - 1, 256⟩
/-- 12 R418: 0x14000:04 MULTICAST_DONE, BOOL RO. -/
def MULTICAST_DONE : ObjDef :=
  ⟨0x14000, .cluster, 4, 1, .bool, .ro, false, false, false, .fixed 0, 0, 0, 2 ^ 64 - 1, 256⟩
/-- 12 R418: 0x14000:05 CLUSTER_RESET, BOOL WO. -/
def CLUSTER_RESET : ObjDef :=
  ⟨0x14000, .cluster, 5, 1, .bool, .wo, false, false, false, .fixed 0, 0, 0, 2 ^ 64 - 1, 256⟩
/-- 12 R418: 0x14000:06 MISSED_CHUNK_FETCHES, U32 RO. -/
def MISSED_CHUNK_FETCHES : ObjDef :=
  ⟨0x14000, .cluster, 6, 1, .u32, .ro, false, true, false, .fixed 0, 0, 0, 2 ^ 64 - 1, 256⟩
/-- 11 R393: 0x14010:01 RELEASE_SLOT, U8 CONST. -/
def RELEASE_SLOT : ObjDef :=
  ⟨0x14010, .cluster, 1, 1, .u8, .const, false, false, false, .instMod64, 0, 0, 2 ^ 64 - 1, 256⟩
/-- 11 R393: 0x14010:02 GATED_HEARTHS, U8 RO. -/
def GATED_HEARTHS : ObjDef :=
  ⟨0x14010, .cluster, 2, 1, .u8, .ro, false, false, false, .fixed 9, 0, 0, 2 ^ 64 - 1, 256⟩
/-- 10 R355: 0x20000:01 GLOBAL_CLUSTER, U8 CONST. -/
def GLOBAL_CLUSTER : ObjDef :=
  ⟨0x20000, .hearth, 1, 1, .u8, .const, false, false, false, .instDiv8, 0, 0, 2 ^ 64 - 1, 256⟩
/-- 10 R355: 0x20000:02 LOGICAL_SLOT, U8 CONST. -/
def LOGICAL_SLOT : ObjDef :=
  ⟨0x20000, .hearth, 2, 1, .u8, .const, false, false, false, .instMod8, 0, 0, 2 ^ 64 - 1, 256⟩
/-- 10 R355: 0x20000:03 PHYSICAL_HEARTH, U16 RO. -/
def PHYSICAL_HEARTH : ObjDef :=
  ⟨0x20000, .hearth, 3, 1, .u16, .ro, false, false, false, .fixed 65535, 0, 0, 2 ^ 64 - 1, 256⟩
/-- 10 R355: 0x20000:04 RUNNING_CTX, U8 RO. -/
def RUNNING_CTX : ObjDef :=
  ⟨0x20000, .hearth, 4, 1, .u8, .ro, false, false, false, .fixed 255, 0, 0, 2 ^ 64 - 1, 256⟩
/-- 10 R355: 0x20000:05 HEARTH_STATE, ENUM8 RO. -/
def HEARTH_STATE : ObjDef :=
  ⟨0x20000, .hearth, 5, 1, .enum8, .ro, false, false, false, .fixed 0, 0, 0, 2 ^ 64 - 1, 256⟩
/-- 10 R355: 0x20000:06 HEARTH_SERVICE, ENUM8 RO. -/
def HEARTH_SERVICE : ObjDef :=
  ⟨0x20000, .hearth, 6, 1, .enum8, .ro, false, false, false, .fixed 0, 0, 0, 2 ^ 64 - 1, 256⟩
/-- 12 R418: 0x20001:01 TEST_RESULT, U32 RO. -/
def TEST_RESULT : ObjDef :=
  ⟨0x20001, .hearth, 1, 1, .u32, .ro, false, false, false, .fixed 0, 0, 0, 2 ^ 64 - 1, 256⟩
/-- 12 R418: 0x20001:02 FW_STATE, ENUM8 RO. -/
def FW_STATE : ObjDef :=
  ⟨0x20001, .hearth, 2, 1, .enum8, .ro, false, false, false, .fixed 0, 0, 0, 2 ^ 64 - 1, 256⟩
/-- 12 R418: 0x20001:03 FW_CHUNKS_MISSING, U32 RO. -/
def FW_CHUNKS_MISSING : ObjDef :=
  ⟨0x20001, .hearth, 3, 1, .u32, .ro, false, false, false, .fixed 16777215, 0, 0, 2 ^ 64 - 1, 256⟩
/-- 12 R418: 0x20001:04 HEARTH_RESET, BOOL WO. -/
def HEARTH_RESET : ObjDef :=
  ⟨0x20001, .hearth, 4, 1, .bool, .wo, false, false, false, .fixed 0, 0, 0, 2 ^ 64 - 1, 256⟩
/-- 12 R418: 0x20001:05 RESET_GENERATION, U8 RO. -/
def RESET_GENERATION : ObjDef :=
  ⟨0x20001, .hearth, 5, 1, .u8, .ro, false, false, false, .fixed 0, 0, 0, 2 ^ 64 - 1, 256⟩
/-- 02 R80: 0x20008:01 REPLAY_BUDGET, U16 RW. -/
def REPLAY_BUDGET : ObjDef :=
  ⟨0x20008, .hearth, 1, 1, .u16, .rw, false, false, true, .fixed 32, 0, 0, 2 ^ 64 - 1, 256⟩
/-- 02 R80: 0x20008:02 SR_SEED, U64 RW. -/
def HEARTH_SR_SEED : ObjDef :=
  ⟨0x20008, .hearth, 2, 1, .u64, .rw, false, false, false, .instPlus1, 0, 0, 2 ^ 64 - 1, 256⟩
/-- 02 R80: 0x20008:03 ARITH_EVENT_ENABLE, BITS32 RW. -/
def ARITH_EVENT_ENABLE : ObjDef :=
  ⟨0x20008, .hearth, 3, 1, .bits32, .rw, false, false, false, .fixed 31, 0, 0, 0x1f, 256⟩
/-- 02 R80: 0x20009:01 ACC_SATURATIONS, U64 RO. -/
def ACC_SATURATIONS : ObjDef :=
  ⟨0x20009, .hearth, 1, 1, .u64, .ro, false, true, false, .fixed 0, 0, 0, 2 ^ 64 - 1, 256⟩
/-- 02 R80: 0x20009:02 CONVERT_SATURATIONS, U64 RO. -/
def CONVERT_SATURATIONS : ObjDef :=
  ⟨0x20009, .hearth, 2, 1, .u64, .ro, false, true, false, .fixed 0, 0, 0, 2 ^ 64 - 1, 256⟩
/-- 02 R80: 0x20009:03 NONFINITE_INPUTS, U64 RO. -/
def NONFINITE_INPUTS : ObjDef :=
  ⟨0x20009, .hearth, 3, 1, .u64, .ro, false, true, false, .fixed 0, 0, 0, 2 ^ 64 - 1, 256⟩
/-- 02 R80: 0x20009:04 ASH_LINES_WRITTEN, U64 RO. -/
def ASH_LINES_WRITTEN : ObjDef :=
  ⟨0x20009, .hearth, 4, 1, .u64, .ro, false, true, false, .fixed 0, 0, 0, 2 ^ 64 - 1, 256⟩
/-- 02 R80: 0x20009:05 SCALE_CHECK_FAILS, U64 RO. -/
def SCALE_CHECK_FAILS : ObjDef :=
  ⟨0x20009, .hearth, 5, 1, .u64, .ro, false, true, false, .fixed 0, 0, 0, 2 ^ 64 - 1, 256⟩
/-- 02 R80: 0x20009:06 SCALE_REPLAYS, U64 RO. -/
def SCALE_REPLAYS : ObjDef :=
  ⟨0x20009, .hearth, 6, 1, .u64, .ro, false, true, false, .fixed 0, 0, 0, 2 ^ 64 - 1, 256⟩
/-- 02 R80: 0x20009:07 SCALE_SATURATED_ENTRIES, U64 RO. -/
def SCALE_SATURATED_ENTRIES : ObjDef :=
  ⟨0x20009, .hearth, 7, 1, .u64, .ro, false, true, false, .fixed 0, 0, 0, 2 ^ 64 - 1, 256⟩
/-- 02 R80: 0x20009:08 FEEDER_STALL_CYCLES, U64 RO. -/
def FEEDER_STALL_CYCLES : ObjDef :=
  ⟨0x20009, .hearth, 8, 1, .u64, .ro, false, true, false, .fixed 0, 0, 0, 2 ^ 64 - 1, 256⟩
/-- 02 R80: 0x20009:09 FEEDER_READ_RETRIES, U64 RO. -/
def FEEDER_READ_RETRIES : ObjDef :=
  ⟨0x20009, .hearth, 9, 1, .u64, .ro, false, true, false, .fixed 0, 0, 0, 2 ^ 64 - 1, 256⟩
/-- 02 R80: 0x20009:0A SRAM_CORRECTED, U64 RO. -/
def SRAM_CORRECTED : ObjDef :=
  ⟨0x20009, .hearth, 10, 1, .u64, .ro, false, true, false, .fixed 0, 0, 0, 2 ^ 64 - 1, 256⟩
/-- 02 R80: 0x20009:0B SRAM_UNCORRECTED, U64 RO. -/
def SRAM_UNCORRECTED : ObjDef :=
  ⟨0x20009, .hearth, 11, 1, .u64, .ro, false, true, false, .fixed 0, 0, 0, 2 ^ 64 - 1, 256⟩
/-- 02 R80: 0x20009:0C COUNTERS_CLEAR, BOOL WO. -/
def COUNTERS_CLEAR : ObjDef :=
  ⟨0x20009, .hearth, 12, 1, .bool, .wo, false, false, false, .fixed 0, 0, 0, 2 ^ 64 - 1, 256⟩
/-- 02 R80: 0x2000a:01 SCALE_SLOT_0..SCALE_SLOT_127, U64 RWI. -/
def SCALE_SLOT : ObjDef :=
  ⟨0x2000a, .hearth, 1, 128, .u64, .rwi, false, false, false, .fixed 0, 0, 0, 0xfffe00, 256⟩
/-- 03 R127: 0x20010:01 TABLE_BASE, U32 RWI. -/
def TABLE_BASE : ObjDef :=
  ⟨0x20010, .hearth, 1, 1, .u32, .rwi, false, false, false, .fixed 0, 0, 0, 2 ^ 64 - 1, 256⟩
/-- 03 R127: 0x20010:02 TABLE_ENTRIES, U16 RWI. -/
def TABLE_ENTRIES : ObjDef :=
  ⟨0x20010, .hearth, 2, 1, .u16, .rwi, false, false, false, .fixed 0, 0, 0, 2 ^ 64 - 1, 256⟩
/-- 03 R127: 0x20010:03 ENTRY_POINT, U16 RW. -/
def ENTRY_POINT : ObjDef :=
  ⟨0x20010, .hearth, 3, 1, .u16, .rw, false, false, true, .fixed 0, 0, 0, 2 ^ 64 - 1, 256⟩
/-- 03 R127: 0x20010:04 TAG_TABLE_BASE, U32 RWI. -/
def TAG_TABLE_BASE : ObjDef :=
  ⟨0x20010, .hearth, 4, 1, .u32, .rwi, false, false, false, .fixed 0, 0, 0, 2 ^ 64 - 1, 256⟩
/-- 03 R127: 0x20010:05 STALL_LIMIT, U32 RW. -/
def STALL_LIMIT : ObjDef :=
  ⟨0x20010, .hearth, 5, 1, .u32, .rw, false, false, true, .fixed 50000, 0, 0, 2 ^ 64 - 1, 256⟩
/-- 03 R127: 0x20010:06 SEQ_EVENT_ENABLE, BITS32 RW. -/
def SEQ_EVENT_ENABLE : ObjDef :=
  ⟨0x20010, .hearth, 6, 1, .bits32, .rw, false, false, false, .fixed 15, 0, 0, 0xf, 256⟩
/-- 03 R127: 0x20011:01 WINDOW_OCCUPANCY, U8 RO. -/
def WINDOW_OCCUPANCY : ObjDef :=
  ⟨0x20011, .hearth, 1, 1, .u8, .ro, false, true, false, .fixed 0, 0, 0, 2 ^ 64 - 1, 256⟩
/-- 03 R127: 0x20011:02 PROVISIONAL_OCCUPANCY, U8 RO. -/
def PROVISIONAL_OCCUPANCY : ObjDef :=
  ⟨0x20011, .hearth, 2, 1, .u8, .ro, false, true, false, .fixed 0, 0, 0, 2 ^ 64 - 1, 256⟩
/-- 03 R127: 0x20011:03 OLDEST_ENTRY, U16 RO. -/
def OLDEST_ENTRY : ObjDef :=
  ⟨0x20011, .hearth, 3, 1, .u16, .ro, false, true, false, .fixed 0, 0, 0, 2 ^ 64 - 1, 256⟩
/-- 03 R127: 0x20011:04 LOOP_INDICES, U64 RO. -/
def LOOP_INDICES : ObjDef :=
  ⟨0x20011, .hearth, 4, 1, .u64, .ro, false, true, false, .fixed 0, 0, 0, 2 ^ 64 - 1, 256⟩
/-- 03 R127: 0x20012:01 COUNTER_0..COUNTER_63, U32 RO. -/
def COUNTER : ObjDef :=
  ⟨0x20012, .hearth, 1, 64, .u32, .ro, false, true, false, .fixed 0, 0, 0, 2 ^ 64 - 1, 256⟩
/-- 03 R127: 0x20013:01 ENTRIES_FIRED, U64 RO. -/
def ENTRIES_FIRED : ObjDef :=
  ⟨0x20013, .hearth, 1, 1, .u64, .ro, false, true, false, .fixed 0, 0, 0, 2 ^ 64 - 1, 256⟩
/-- 03 R127: 0x20013:02 ENTRIES_RETIRED, U64 RO. -/
def ENTRIES_RETIRED : ObjDef :=
  ⟨0x20013, .hearth, 2, 1, .u64, .ro, false, true, false, .fixed 0, 0, 0, 2 ^ 64 - 1, 256⟩
/-- 03 R127: 0x20013:03 BLOCK_PRODUCTS_SKIPPED, U64 RO. -/
def BLOCK_PRODUCTS_SKIPPED : ObjDef :=
  ⟨0x20013, .hearth, 3, 1, .u64, .ro, false, true, false, .fixed 0, 0, 0, 2 ^ 64 - 1, 256⟩
/-- 03 R127: 0x20013:04 SKIP_CHECK_FAILS, U64 RO. -/
def SKIP_CHECK_FAILS : ObjDef :=
  ⟨0x20013, .hearth, 4, 1, .u64, .ro, false, true, false, .fixed 0, 0, 0, 2 ^ 64 - 1, 256⟩
/-- 03 R127: 0x20013:05 SKIP_REPLAYS, U64 RO. -/
def SKIP_REPLAYS : ObjDef :=
  ⟨0x20013, .hearth, 5, 1, .u64, .ro, false, true, false, .fixed 0, 0, 0, 2 ^ 64 - 1, 256⟩
/-- 03 R127: 0x20013:06 SKIP_UNREPLAYED_ENTRIES, U64 RO. -/
def SKIP_UNREPLAYED_ENTRIES : ObjDef :=
  ⟨0x20013, .hearth, 6, 1, .u64, .ro, false, true, false, .fixed 0, 0, 0, 2 ^ 64 - 1, 256⟩
/-- 03 R127: 0x20013:07 DEPENDENT_REEXECUTIONS, U64 RO. -/
def DEPENDENT_REEXECUTIONS : ObjDef :=
  ⟨0x20013, .hearth, 7, 1, .u64, .ro, false, true, false, .fixed 0, 0, 0, 2 ^ 64 - 1, 256⟩
/-- 03 R127: 0x20013:08 EGRESS_HOLD_CYCLES, U64 RO. -/
def EGRESS_HOLD_CYCLES : ObjDef :=
  ⟨0x20013, .hearth, 8, 1, .u64, .ro, false, true, false, .fixed 0, 0, 0, 2 ^ 64 - 1, 256⟩
/-- 03 R127: 0x20013:09 RUNAHEAD_BYTES, U64 RO. -/
def RUNAHEAD_BYTES : ObjDef :=
  ⟨0x20013, .hearth, 9, 1, .u64, .ro, false, true, false, .fixed 0, 0, 0, 2 ^ 64 - 1, 256⟩
/-- 03 R127: 0x20013:0A RUNAHEAD_DROPS, U64 RO. -/
def HEARTH_RUNAHEAD_DROPS : ObjDef :=
  ⟨0x20013, .hearth, 10, 1, .u64, .ro, false, true, false, .fixed 0, 0, 0, 2 ^ 64 - 1, 256⟩
/-- 03 R127: 0x20013:0B SEQ_COUNTERS_CLEAR, BOOL WO. -/
def SEQ_COUNTERS_CLEAR : ObjDef :=
  ⟨0x20013, .hearth, 11, 1, .bool, .wo, false, false, false, .fixed 0, 0, 0, 2 ^ 64 - 1, 256⟩
/-- 04 R170: 0x20018:01 DESC_TABLE_BASE, U32 RWI. -/
def DESC_TABLE_BASE : ObjDef :=
  ⟨0x20018, .hearth, 1, 1, .u32, .rwi, false, false, false, .fixed 0, 0, 0, 2 ^ 64 - 1, 256⟩
/-- 04 R170: 0x20018:02 STREAM_EVENT_ENABLE, BITS32 RW. -/
def STREAM_EVENT_ENABLE : ObjDef :=
  ⟨0x20018, .hearth, 2, 1, .bits32, .rw, false, false, false, .fixed 127, 0, 0, 0x7f, 256⟩
/-- 04 R170: 0x20018:03 STREAM_RESUME, U64 WO. -/
def STREAM_RESUME : ObjDef :=
  ⟨0x20018, .hearth, 3, 1, .u64, .wo, false, false, false, .fixed 0, 0, 0, 2 ^ 64 - 1, 256⟩
/-- 04 R170: 0x20018:04 HALTED_STREAMS, BITS32 RO. -/
def HALTED_STREAMS : ObjDef :=
  ⟨0x20018, .hearth, 4, 1, .bits32, .ro, false, false, false, .fixed 0, 0, 0, 2 ^ 64 - 1, 256⟩
/-- 04 R170: 0x20019:01 REGION_0..REGION_15, U64 RWI. -/
def REGION : ObjDef :=
  ⟨0x20019, .hearth, 1, 16, .u64, .rwi, false, false, false, .fixed 0, 0, 0, 0xfffffffffffe0000, 256⟩
/-- 04 R170: 0x2001a:01 HALT_ADDRESS_0..HALT_ADDRESS_31, U64 RO. -/
def HALT_ADDRESS : ObjDef :=
  ⟨0x2001a, .hearth, 1, 32, .u64, .ro, false, false, false, .fixed 0, 0, 0, 2 ^ 64 - 1, 256⟩
/-- 04 R170: 0x2001b:01 STREAM_BYTES_IN, U64 RO. -/
def STREAM_BYTES_IN : ObjDef :=
  ⟨0x2001b, .hearth, 1, 1, .u64, .ro, false, true, false, .fixed 0, 0, 0, 2 ^ 64 - 1, 256⟩
/-- 04 R170: 0x2001b:02 STREAM_BYTES_OUT, U64 RO. -/
def STREAM_BYTES_OUT : ObjDef :=
  ⟨0x2001b, .hearth, 2, 1, .u64, .ro, false, true, false, .fixed 0, 0, 0, 2 ^ 64 - 1, 256⟩
/-- 04 R170: 0x2001b:03 STREAM_FAULT_LINES, U64 RO. -/
def STREAM_FAULT_LINES : ObjDef :=
  ⟨0x2001b, .hearth, 3, 1, .u64, .ro, false, true, false, .fixed 0, 0, 0, 2 ^ 64 - 1, 256⟩
/-- 04 R170: 0x2001b:04 REMOTE_WRITES_REFUSED, U64 RO. -/
def REMOTE_WRITES_REFUSED : ObjDef :=
  ⟨0x2001b, .hearth, 4, 1, .u64, .ro, false, true, false, .fixed 0, 0, 0, 2 ^ 64 - 1, 256⟩
/-- 04 R170: 0x2001b:05 ARRIVAL_NOTICES, U64 RO. -/
def ARRIVAL_NOTICES : ObjDef :=
  ⟨0x2001b, .hearth, 5, 1, .u64, .ro, false, true, false, .fixed 0, 0, 0, 2 ^ 64 - 1, 256⟩
/-- 04 R170: 0x2001b:06 REARM_FORCED_DRAINS, U64 RO. -/
def REARM_FORCED_DRAINS : ObjDef :=
  ⟨0x2001b, .hearth, 6, 1, .u64, .ro, false, true, false, .fixed 0, 0, 0, 2 ^ 64 - 1, 256⟩
/-- 04 R170: 0x2001b:07 DRAIN_HOLD_CYCLES, U64 RO. -/
def DRAIN_HOLD_CYCLES : ObjDef :=
  ⟨0x2001b, .hearth, 7, 1, .u64, .ro, false, true, false, .fixed 0, 0, 0, 2 ^ 64 - 1, 256⟩
/-- 04 R170: 0x2001b:08 STREAM_COUNTERS_CLEAR, BOOL WO. -/
def STREAM_COUNTERS_CLEAR : ObjDef :=
  ⟨0x2001b, .hearth, 8, 1, .bool, .wo, false, false, false, .fixed 0, 0, 0, 2 ^ 64 - 1, 256⟩
/-- 06 R234: 0x20020:01 BUSY_TICKS, U64 RO. -/
def HEARTH_BUSY_TICKS : ObjDef :=
  ⟨0x20020, .hearth, 1, 1, .u64, .ro, false, true, false, .fixed 0, 0, 0, 2 ^ 64 - 1, 256⟩
/-- 06 R234: 0x20020:02 IDLE_NO_STEP, U64 RO. -/
def IDLE_NO_STEP : ObjDef :=
  ⟨0x20020, .hearth, 2, 1, .u64, .ro, false, true, false, .fixed 0, 0, 0, 2 ^ 64 - 1, 256⟩
/-- 06 R234: 0x20020:03 IDLE_HOST, U64 RO. -/
def HEARTH_IDLE_HOST : ObjDef :=
  ⟨0x20020, .hearth, 3, 1, .u64, .ro, false, true, false, .fixed 0, 0, 0, 2 ^ 64 - 1, 256⟩
/-- 06 R234: 0x20020:04 IDLE_THROTTLED, U64 RO. -/
def HEARTH_IDLE_THROTTLED : ObjDef :=
  ⟨0x20020, .hearth, 4, 1, .u64, .ro, false, true, false, .fixed 0, 0, 0, 2 ^ 64 - 1, 256⟩
/-- 06 R234: 0x20020:05 IDLE_PEER, U64 RO. -/
def HEARTH_IDLE_PEER : ObjDef :=
  ⟨0x20020, .hearth, 5, 1, .u64, .ro, false, true, false, .fixed 0, 0, 0, 2 ^ 64 - 1, 256⟩
/-- 06 R234: 0x20020:06 IDLE_FLUE, U64 RO. -/
def HEARTH_IDLE_FLUE : ObjDef :=
  ⟨0x20020, .hearth, 6, 1, .u64, .ro, false, true, false, .fixed 0, 0, 0, 2 ^ 64 - 1, 256⟩
/-- 06 R234: 0x20020:07 IDLE_MEMORY, U64 RO. -/
def HEARTH_IDLE_MEMORY : ObjDef :=
  ⟨0x20020, .hearth, 7, 1, .u64, .ro, false, true, false, .fixed 0, 0, 0, 2 ^ 64 - 1, 256⟩
/-- 06 R234: 0x20020:08 IDLE_COUNTERS_CLEAR, BOOL WO. -/
def IDLE_COUNTERS_CLEAR : ObjDef :=
  ⟨0x20020, .hearth, 8, 1, .bool, .wo, false, false, false, .fixed 0, 0, 0, 2 ^ 64 - 1, 256⟩
/-- 06 R234: 0x20021:01 CAUSE_MAP_LO, U64 RW. -/
def CAUSE_MAP_LO : ObjDef :=
  ⟨0x20021, .hearth, 1, 1, .u64, .rw, false, false, true, .fixed 0, 0, 0, 2 ^ 64 - 1, 256⟩
/-- 06 R234: 0x20021:02 CAUSE_MAP_HI, U64 RW. -/
def CAUSE_MAP_HI : ObjDef :=
  ⟨0x20021, .hearth, 2, 1, .u64, .rw, false, false, true, .fixed 0, 0, 0, 2 ^ 64 - 1, 256⟩
/-- 06 R231: 0x20022:01 WEIGHT_READ_MODE, ENUM8 RW. -/
def WEIGHT_READ_MODE : ObjDef :=
  ⟨0x20022, .hearth, 1, 1, .enum8, .rw, false, false, true, .fixed 0, 0, 0, 2 ^ 64 - 1, 256⟩
/-- 06 R231: 0x20022:02 RECOVERY_REPLAY, BOOL RW. -/
def RECOVERY_REPLAY : ObjDef :=
  ⟨0x20022, .hearth, 2, 1, .bool, .rw, false, false, true, .fixed 0, 0, 0, 2 ^ 64 - 1, 256⟩
/-- 06 R231: 0x20022:03 TRAINING_EVENT_ENABLE, BITS32 RW. -/
def TRAINING_EVENT_ENABLE : ObjDef :=
  ⟨0x20022, .hearth, 3, 1, .bits32, .rw, false, false, false, .fixed 1, 0, 0, 0x1, 256⟩
/-- 09 R337: 0x30000:01 CTX_ENABLE, BOOL RW. -/
def CTX_ENABLE : ObjDef :=
  ⟨0x30000, .ctx, 1, 1, .bool, .rw, false, false, false, .fixed 0, 0, 0, 2 ^ 64 - 1, 256⟩
/-- 09 R337: 0x30000:02 CTX_STATE, ENUM8 RO. -/
def CTX_STATE : ObjDef :=
  ⟨0x30000, .ctx, 2, 1, .enum8, .ro, false, false, false, .fixed 0, 0, 0, 2 ^ 64 - 1, 256⟩
/-- 09 R337: 0x30000:03 TRANS_ROOT, U64 RWI. -/
def TRANS_ROOT : ObjDef :=
  ⟨0x30000, .ctx, 3, 1, .u64, .rwi, false, false, false, .fixed 0, 0, 0, 2 ^ 64 - 1, 256⟩
/-- 09 R337: 0x30000:04 PRIORITY, U8 RW. -/
def PRIORITY : ObjDef :=
  ⟨0x30000, .ctx, 4, 1, .u8, .rw, false, false, false, .fixed 0, 0, 0, 2 ^ 64 - 1, 256⟩
/-- 09 R337: 0x30000:05 SCALE_SAVE_VA, U64 RWI. -/
def SCALE_SAVE_VA : ObjDef :=
  ⟨0x30000, .ctx, 5, 1, .u64, .rwi, false, false, false, .fixed 0, 0, 0, 2 ^ 64 - 1, 256⟩
/-- 09 R337: 0x30000:06 ENTRY_VEC, U32 RWI. -/
def ENTRY_VEC : ObjDef :=
  ⟨0x30000, .ctx, 6, 1, .u32, .rwi, false, false, true, .fixed 0, 0, 0, 0x801fffff, 256⟩
/-- 09 R337: 0x30000:07 AFFINITY_WAIT, U32 RW. -/
def AFFINITY_WAIT : ObjDef :=
  ⟨0x30000, .ctx, 7, 1, .u32, .rw, false, false, false, .fixed 0, 0, 0, 2 ^ 64 - 1, 256⟩
/-- 09 R337: 0x30000:08 STEP_DOORBELL, U64 WO. -/
def STEP_DOORBELL : ObjDef :=
  ⟨0x30000, .ctx, 8, 1, .u64, .wo, false, false, false, .fixed 0, 0, 0, 2 ^ 64 - 1, 256⟩
/-- 09 R337: 0x30000:09 PENDING_STEPS, U8 RO. -/
def PENDING_STEPS : ObjDef :=
  ⟨0x30000, .ctx, 9, 1, .u8, .ro, false, false, false, .fixed 0, 0, 0, 2 ^ 64 - 1, 256⟩
/-- 09 R337: 0x30000:0A STEP_NOTIFY, U64 RW. -/
def STEP_NOTIFY : ObjDef :=
  ⟨0x30000, .ctx, 10, 1, .u64, .rw, false, false, false, .fixed 0, 0, 0, 0xffffffc00, 256⟩
/-- 09 R337: 0x30000:0B CTX_EVENT_ENABLE, BITS32 RW. -/
def CTX_EVENT_ENABLE : ObjDef :=
  ⟨0x30000, .ctx, 11, 1, .bits32, .rw, false, false, false, .fixed 15, 0, 0, 0xf, 256⟩
/-- 09 R337: 0x30000:0C LAST_PLACEMENT, U8 RO. -/
def LAST_PLACEMENT : ObjDef :=
  ⟨0x30000, .ctx, 12, 1, .u8, .ro, false, false, false, .fixed 255, 0, 0, 2 ^ 64 - 1, 256⟩
/-- 09 R337: 0x30000:0D TLB_INVALIDATE, BOOL WO. -/
def TLB_INVALIDATE : ObjDef :=
  ⟨0x30000, .ctx, 13, 1, .bool, .wo, false, false, false, .fixed 0, 0, 0, 2 ^ 64 - 1, 256⟩
/-- 09 R337: 0x30000:0E TLB_INVAL_PENDING, BOOL RO. -/
def TLB_INVAL_PENDING : ObjDef :=
  ⟨0x30000, .ctx, 14, 1, .bool, .ro, false, false, false, .fixed 0, 0, 0, 2 ^ 64 - 1, 256⟩
/-- 09 R337: 0x30001:01 PLACEMENT_0..PLACEMENT_3, DOMAIN RWI. -/
def PLACEMENT : ObjDef :=
  ⟨0x30001, .ctx, 1, 4, .domain, .rwi, false, false, false, .fixed 0, 128, 0, 2 ^ 64 - 1, 256⟩
/-- 09 R337: 0x30002:01 GRATE_CYCLES, U64 RO. -/
def GRATE_CYCLES : ObjDef :=
  ⟨0x30002, .ctx, 1, 1, .u64, .ro, false, true, false, .fixed 0, 0, 0, 2 ^ 64 - 1, 256⟩
/-- 09 R337: 0x30002:02 VECTOR_CYCLES, U64 RO. -/
def VECTOR_CYCLES : ObjDef :=
  ⟨0x30002, .ctx, 2, 1, .u64, .ro, false, true, false, .fixed 0, 0, 0, 2 ^ 64 - 1, 256⟩
/-- 09 R337: 0x30002:03 HBM_BYTES, U64 RO. -/
def HBM_BYTES : ObjDef :=
  ⟨0x30002, .ctx, 3, 1, .u64, .ro, false, true, false, .fixed 0, 0, 0, 2 ^ 64 - 1, 256⟩
/-- 09 R337: 0x30002:04 SLOW_BYTES, U64 RO. -/
def CTX_SLOW_BYTES : ObjDef :=
  ⟨0x30002, .ctx, 4, 1, .u64, .ro, false, true, false, .fixed 0, 0, 0, 2 ^ 64 - 1, 256⟩
/-- 09 R337: 0x30002:05 FABRIC_BYTES, U64 RO. -/
def FABRIC_BYTES : ObjDef :=
  ⟨0x30002, .ctx, 5, 1, .u64, .ro, false, true, false, .fixed 0, 0, 0, 2 ^ 64 - 1, 256⟩
/-- 09 R337: 0x30002:06 CACHE_BYTES, U64 RO. -/
def CACHE_BYTES : ObjDef :=
  ⟨0x30002, .ctx, 6, 1, .u64, .ro, false, true, false, .fixed 0, 0, 0, 2 ^ 64 - 1, 256⟩
/-- 09 R337: 0x30002:07 ENERGY_MJ, U64 RO. -/
def ENERGY_MJ : ObjDef :=
  ⟨0x30002, .ctx, 7, 1, .u64, .ro, false, true, false, .fixed 0, 0, 0, 2 ^ 64 - 1, 256⟩
/-- 09 R337: 0x30002:08 RUNAHEAD_DROPS, U64 RO. -/
def CTX_RUNAHEAD_DROPS : ObjDef :=
  ⟨0x30002, .ctx, 8, 1, .u64, .ro, false, true, false, .fixed 0, 0, 0, 2 ^ 64 - 1, 256⟩
/-- 09 R337: 0x30002:09 PAGE_FAULTS, U64 RO. -/
def PAGE_FAULTS : ObjDef :=
  ⟨0x30002, .ctx, 9, 1, .u64, .ro, false, true, false, .fixed 0, 0, 0, 2 ^ 64 - 1, 256⟩
/-- 09 R337: 0x30002:0A STEPS_COMPLETED, U64 RO. -/
def STEPS_COMPLETED : ObjDef :=
  ⟨0x30002, .ctx, 10, 1, .u64, .ro, false, false, false, .fixed 0, 0, 0, 2 ^ 64 - 1, 256⟩
/-- 09 R337: 0x30002:0B STEPS_ABORTED, U64 RO. -/
def STEPS_ABORTED : ObjDef :=
  ⟨0x30002, .ctx, 11, 1, .u64, .ro, false, false, false, .fixed 0, 0, 0, 2 ^ 64 - 1, 256⟩
/-- 09 R337: 0x30002:0C ACCOUNTS_CLEAR, BOOL WO. -/
def ACCOUNTS_CLEAR : ObjDef :=
  ⟨0x30002, .ctx, 12, 1, .bool, .wo, false, false, false, .fixed 0, 0, 0, 2 ^ 64 - 1, 256⟩
/-- 09 R337: 0x30002:0D ACCOUNTS_SNAPSHOT, BOOL WO. -/
def ACCOUNTS_SNAPSHOT : ObjDef :=
  ⟨0x30002, .ctx, 13, 1, .bool, .wo, false, false, false, .fixed 0, 0, 0, 2 ^ 64 - 1, 256⟩
/-- 09 R337: 0x30003:01 BUSY_TICKS, U64 RO. -/
def CTX_BUSY_TICKS : ObjDef :=
  ⟨0x30003, .ctx, 1, 1, .u64, .ro, false, true, false, .fixed 0, 0, 0, 2 ^ 64 - 1, 256⟩
/-- 09 R337: 0x30003:02 IDLE_HOST, U64 RO. -/
def CTX_IDLE_HOST : ObjDef :=
  ⟨0x30003, .ctx, 2, 1, .u64, .ro, false, true, false, .fixed 0, 0, 0, 2 ^ 64 - 1, 256⟩
/-- 09 R337: 0x30003:03 IDLE_THROTTLED, U64 RO. -/
def CTX_IDLE_THROTTLED : ObjDef :=
  ⟨0x30003, .ctx, 3, 1, .u64, .ro, false, true, false, .fixed 0, 0, 0, 2 ^ 64 - 1, 256⟩
/-- 09 R337: 0x30003:04 IDLE_PEER, U64 RO. -/
def CTX_IDLE_PEER : ObjDef :=
  ⟨0x30003, .ctx, 4, 1, .u64, .ro, false, true, false, .fixed 0, 0, 0, 2 ^ 64 - 1, 256⟩
/-- 09 R337: 0x30003:05 IDLE_FLUE, U64 RO. -/
def CTX_IDLE_FLUE : ObjDef :=
  ⟨0x30003, .ctx, 5, 1, .u64, .ro, false, true, false, .fixed 0, 0, 0, 2 ^ 64 - 1, 256⟩
/-- 09 R337: 0x30003:06 IDLE_MEMORY, U64 RO. -/
def CTX_IDLE_MEMORY : ObjDef :=
  ⟨0x30003, .ctx, 6, 1, .u64, .ro, false, true, false, .fixed 0, 0, 0, 2 ^ 64 - 1, 256⟩
/-- 09 R337: 0x30004:01 SNAP_0..SNAP_16, U64 RO. -/
def SNAP : ObjDef :=
  ⟨0x30004, .ctx, 1, 17, .u64, .ro, false, true, false, .fixed 0, 0, 0, 2 ^ 64 - 1, 256⟩
/-- 09 R337: 0x30004:12 SNAP_TICK, U64 RO. -/
def SNAP_TICK : ObjDef :=
  ⟨0x30004, .ctx, 18, 1, .u64, .ro, false, false, false, .fixed 0, 0, 0, 2 ^ 64 - 1, 256⟩
/-- 07 R270: 0x31000:01 STOKER_EVENT_ENABLE, BITS32 RW. -/
def STOKER_EVENT_ENABLE : ObjDef :=
  ⟨0x31000, .global, 1, 1, .bits32, .rw, false, false, false, .fixed 511, 0, 0, 0x1ff, 256⟩
/-- 07 R270: 0x31010:01 STOKER_STATE, ENUM8 RO. -/
def STOKER_STATE : ObjDef :=
  ⟨0x31010, .stoker, 1, 1, .enum8, .ro, false, false, false, .fixed 0, 0, 0, 2 ^ 64 - 1, 256⟩
/-- 07 R270: 0x31010:02 STOKER_DOORBELL, U64 WO. -/
def STOKER_DOORBELL : ObjDef :=
  ⟨0x31010, .stoker, 2, 1, .u64, .wo, false, false, false, .fixed 0, 0, 0, 2 ^ 64 - 1, 256⟩
/-- 07 R270: 0x31010:03 DOORBELL_QUEUE_DEPTH, U8 RO. -/
def DOORBELL_QUEUE_DEPTH : ObjDef :=
  ⟨0x31010, .stoker, 3, 1, .u8, .ro, false, false, false, .fixed 0, 0, 0, 2 ^ 64 - 1, 256⟩
/-- 07 R270: 0x31010:04 SR_SEED, U64 RW. -/
def STOKER_SR_SEED : ObjDef :=
  ⟨0x31010, .stoker, 4, 1, .u64, .rw, false, false, false, .instPlus1, 0, 0, 2 ^ 64 - 1, 256⟩
/-- 07 R270: 0x31010:05 SLEEP_IDLE, U32 RW. -/
def SLEEP_IDLE : ObjDef :=
  ⟨0x31010, .stoker, 5, 1, .u32, .rw, false, false, false, .fixed 50000, 0, 0, 2 ^ 64 - 1, 256⟩
/-- 07 R270: 0x31010:06 CURRENT_GROUP, U16 RO. -/
def CURRENT_GROUP : ObjDef :=
  ⟨0x31010, .stoker, 6, 1, .u16, .ro, false, false, false, .fixed 65535, 0, 0, 2 ^ 64 - 1, 256⟩
/-- 07 R270: 0x31011:01 ELEMENTS_UPDATED, U64 RO. -/
def ELEMENTS_UPDATED : ObjDef :=
  ⟨0x31011, .stoker, 1, 1, .u64, .ro, false, true, false, .fixed 0, 0, 0, 2 ^ 64 - 1, 256⟩
/-- 07 R270: 0x31011:02 ROOTS_COMPUTED, U64 RO. -/
def ROOTS_COMPUTED : ObjDef :=
  ⟨0x31011, .stoker, 2, 1, .u64, .ro, false, true, false, .fixed 0, 0, 0, 2 ^ 64 - 1, 256⟩
/-- 07 R270: 0x31011:03 NEWTON_ITERATIONS, U64 RO. -/
def NEWTON_ITERATIONS : ObjDef :=
  ⟨0x31011, .stoker, 3, 1, .u64, .ro, false, true, false, .fixed 0, 0, 0, 2 ^ 64 - 1, 256⟩
/-- 07 R270: 0x31011:04 SLOW_CORRECTED, U64 RO. -/
def SLOW_CORRECTED : ObjDef :=
  ⟨0x31011, .stoker, 4, 1, .u64, .ro, false, true, false, .fixed 0, 0, 0, 2 ^ 64 - 1, 256⟩
/-- 07 R270: 0x31011:05 SLOW_UNCORRECTABLE, U64 RO. -/
def SLOW_UNCORRECTABLE : ObjDef :=
  ⟨0x31011, .stoker, 5, 1, .u64, .ro, false, true, false, .fixed 0, 0, 0, 2 ^ 64 - 1, 256⟩
/-- 07 R270: 0x31011:06 SLOW_BYTES, U64 RO. -/
def STOKER_SLOW_BYTES : ObjDef :=
  ⟨0x31011, .stoker, 6, 1, .u64, .ro, false, true, false, .fixed 0, 0, 0, 2 ^ 64 - 1, 256⟩
/-- 07 R270: 0x31011:07 STOKER_HBM_BYTES, U64 RO. -/
def STOKER_HBM_BYTES : ObjDef :=
  ⟨0x31011, .stoker, 7, 1, .u64, .ro, false, true, false, .fixed 0, 0, 0, 2 ^ 64 - 1, 256⟩
/-- 07 R270: 0x31011:08 STOKER_COUNTERS_CLEAR, BOOL WO. -/
def STOKER_COUNTERS_CLEAR : ObjDef :=
  ⟨0x31011, .stoker, 8, 1, .bool, .wo, false, false, false, .fixed 0, 0, 0, 2 ^ 64 - 1, 256⟩
/-- 07 R244: 0x32000:01 GROUP_CTL, U64 RWI. -/
def GROUP_CTL : ObjDef :=
  ⟨0x32000, .group, 1, 1, .u64, .rwi, false, false, false, .fixed 0, 0, 0, 0xffffc00000000000, 256⟩
/-- 07 R244: 0x32000:02 N_ELEMENTS, U64 RWI. -/
def N_ELEMENTS : ObjDef :=
  ⟨0x32000, .group, 2, 1, .u64, .rwi, false, false, false, .fixed 0, 0, 0, 2 ^ 64 - 1, 256⟩
/-- 07 R244: 0x32000:03 HIGH_PA, U64 RWI. -/
def HIGH_PA : ObjDef :=
  ⟨0x32000, .group, 3, 1, .u64, .rwi, false, false, false, .fixed 0, 0, 0, 2 ^ 64 - 1, 256⟩
/-- 07 R244: 0x32000:04 GRAD_PA, U64 RWI. -/
def GRAD_PA : ObjDef :=
  ⟨0x32000, .group, 4, 1, .u64, .rwi, false, false, false, .fixed 0, 0, 0, 2 ^ 64 - 1, 256⟩
/-- 07 R244: 0x32000:05 HDR_PA, U64 RWI. -/
def HDR_PA : ObjDef :=
  ⟨0x32000, .group, 5, 1, .u64, .rwi, false, false, false, .fixed 0, 0, 0, 2 ^ 64 - 1, 256⟩
/-- 07 R244: 0x32000:06 LOW_TA, U64 RWI. -/
def LOW_TA : ObjDef :=
  ⟨0x32000, .group, 6, 1, .u64, .rwi, false, false, false, .fixed 0, 0, 0, 2 ^ 64 - 1, 256⟩
/-- 07 R244: 0x32000:07 STATE_TA, U64 RWI. -/
def STATE_TA : ObjDef :=
  ⟨0x32000, .group, 7, 1, .u64, .rwi, false, false, false, .fixed 0, 0, 0, 2 ^ 64 - 1, 256⟩
/-- 07 R244: 0x32001:01 LR, F32 RW. -/
def LR : ObjDef :=
  ⟨0x32001, .group, 1, 1, .f32, .rw, false, false, true, .fixed 0, 0, 0, 2 ^ 64 - 1, 256⟩
/-- 07 R244: 0x32001:02 BETA1, F32 RW. -/
def BETA1 : ObjDef :=
  ⟨0x32001, .group, 2, 1, .f32, .rw, false, false, true, .fixed 1063675494, 0, 0, 2 ^ 64 - 1, 256⟩
/-- 07 R244: 0x32001:03 BETA2, F32 RW. -/
def BETA2 : ObjDef :=
  ⟨0x32001, .group, 3, 1, .f32, .rw, false, false, true, .fixed 1065336439, 0, 0, 2 ^ 64 - 1, 256⟩
/-- 07 R244: 0x32001:04 EPS, F32 RW. -/
def EPS : ObjDef :=
  ⟨0x32001, .group, 4, 1, .f32, .rw, false, false, true, .fixed 841731191, 0, 0, 2 ^ 64 - 1, 256⟩
/-- 07 R244: 0x32001:05 WEIGHT_DECAY, F32 RW. -/
def WEIGHT_DECAY : ObjDef :=
  ⟨0x32001, .group, 5, 1, .f32, .rw, false, false, true, .fixed 0, 0, 0, 2 ^ 64 - 1, 256⟩
/-- 07 R244: 0x32001:06 GRAD_SCALE, F32 RW. -/
def GRAD_SCALE : ObjDef :=
  ⟨0x32001, .group, 6, 1, .f32, .rw, false, false, true, .fixed 1065353216, 0, 0, 2 ^ 64 - 1, 256⟩
/-- 07 R244: 0x32002:01 MAT_ROWS, U32 RWI. -/
def MAT_ROWS : ObjDef :=
  ⟨0x32002, .group, 1, 1, .u32, .rwi, false, false, false, .fixed 0, 0, 0, 2 ^ 64 - 1, 256⟩
/-- 07 R244: 0x32002:02 MAT_COLS, U32 RWI. -/
def MAT_COLS : ObjDef :=
  ⟨0x32002, .group, 2, 1, .u32, .rwi, false, false, false, .fixed 0, 0, 0, 2 ^ 64 - 1, 256⟩
/-- 07 R244: 0x32002:03 BLOCK, U16 RWI. -/
def BLOCK : ObjDef :=
  ⟨0x32002, .group, 3, 1, .u16, .rwi, false, false, false, .fixed 0, 0, 0, 2 ^ 64 - 1, 256⟩
/-- 07 R244: 0x32002:04 ROOT_P, U8 RWI. -/
def ROOT_P : ObjDef :=
  ⟨0x32002, .group, 4, 1, .u8, .rwi, false, false, false, .fixed 4, 0, 0, 2 ^ 64 - 1, 256⟩
/-- 07 R244: 0x32002:05 ROOT_INTERVAL, U32 RW. -/
def ROOT_INTERVAL : ObjDef :=
  ⟨0x32002, .group, 5, 1, .u32, .rw, false, false, true, .fixed 100, 0, 0, 2 ^ 64 - 1, 256⟩
/-- 07 R244: 0x32002:06 FACTOR_BETA, F32 RW. -/
def FACTOR_BETA : ObjDef :=
  ⟨0x32002, .group, 6, 1, .f32, .rw, false, false, true, .fixed 1064514355, 0, 0, 2 ^ 64 - 1, 256⟩
/-- 07 R244: 0x32002:07 DAMPING, F32 RW. -/
def DAMPING : ObjDef :=
  ⟨0x32002, .group, 7, 1, .f32, .rw, false, false, true, .fixed 953267991, 0, 0, 2 ^ 64 - 1, 256⟩
/-- 07 R244: 0x32002:08 DAMP_FLOOR, F32 RW. -/
def DAMP_FLOOR : ObjDef :=
  ⟨0x32002, .group, 8, 1, .f32, .rw, false, false, true, .fixed 869711765, 0, 0, 2 ^ 64 - 1, 256⟩
/-- 07 R244: 0x32002:09 NEWTON_TOL, F32 RW. -/
def NEWTON_TOL : ObjDef :=
  ⟨0x32002, .group, 9, 1, .f32, .rw, false, false, true, .fixed 981668463, 0, 0, 2 ^ 64 - 1, 256⟩
/-- 07 R244: 0x32002:0A FAIL_LIMIT, U8 RW. -/
def FAIL_LIMIT : ObjDef :=
  ⟨0x32002, .group, 10, 1, .u8, .rw, false, false, true, .fixed 4, 0, 0, 2 ^ 64 - 1, 256⟩
/-- 07 R244: 0x32002:0B PRECOND_TA, U64 RWI. -/
def PRECOND_TA : ObjDef :=
  ⟨0x32002, .group, 11, 1, .u64, .rwi, false, false, false, .fixed 0, 0, 0, 2 ^ 64 - 1, 256⟩
/-- 07 R244: 0x32003:01 PROGRAM_TA, U64 RWI. -/
def PROGRAM_TA : ObjDef :=
  ⟨0x32003, .group, 1, 1, .u64, .rwi, false, false, false, .fixed 0, 0, 0, 2 ^ 64 - 1, 256⟩
/-- 07 R244: 0x32003:02 PROGRAM_BYTES, U32 RWI. -/
def PROGRAM_BYTES : ObjDef :=
  ⟨0x32003, .group, 2, 1, .u32, .rwi, false, false, false, .fixed 0, 0, 0, 2 ^ 64 - 1, 256⟩
/-- 07 R244: 0x32003:03 VEC_STATES, U8 RWI. -/
def VEC_STATES : ObjDef :=
  ⟨0x32003, .group, 3, 1, .u8, .rwi, false, false, false, .fixed 0, 0, 0, 2 ^ 64 - 1, 256⟩
/-- 07 R244: 0x32003:04 CYCLE_BUDGET, U32 RW. -/
def CYCLE_BUDGET : ObjDef :=
  ⟨0x32003, .group, 4, 1, .u32, .rw, false, false, true, .fixed 16384, 0, 0, 2 ^ 64 - 1, 256⟩
/-- 07 R244: 0x32003:05 ARG_0..ARG_7, U32 RW. -/
def ARG : ObjDef :=
  ⟨0x32003, .group, 5, 8, .u32, .rw, false, false, true, .fixed 0, 0, 0, 2 ^ 64 - 1, 256⟩
/-- 07 R244: 0x32004:01 STEP_COUNT, U64 RWI. -/
def STEP_COUNT : ObjDef :=
  ⟨0x32004, .group, 1, 1, .u64, .rwi, false, false, false, .fixed 0, 0, 0, 2 ^ 64 - 1, 256⟩
/-- 07 R244: 0x32004:02 GROUP_STATUS, BITS32 RW1C. -/
def GROUP_STATUS : ObjDef :=
  ⟨0x32004, .group, 2, 1, .bits32, .rw1c, false, false, false, .fixed 0, 0, 0, 0x7, 256⟩
/-- 07 R244: 0x32004:03 LAST_STAMP, U64 RO. -/
def LAST_STAMP : ObjDef :=
  ⟨0x32004, .group, 3, 1, .u64, .ro, false, false, false, .fixed 0, 0, 0, 2 ^ 64 - 1, 256⟩
/-- 07 R244: 0x32004:04 ROOT_FAILURES, U32 RO. -/
def ROOT_FAILURES : ObjDef :=
  ⟨0x32004, .group, 4, 1, .u32, .ro, false, true, false, .fixed 0, 0, 0, 2 ^ 64 - 1, 256⟩
/-- 07 R244: 0x32004:05 STEP_SKEWS, U32 RO. -/
def STEP_SKEWS : ObjDef :=
  ⟨0x32004, .group, 5, 1, .u32, .ro, false, true, false, .fixed 0, 0, 0, 2 ^ 64 - 1, 256⟩
/-- 07 R244: 0x32004:06 SKIPPED_ELEMENTS, U64 RO. -/
def SKIPPED_ELEMENTS : ObjDef :=
  ⟨0x32004, .group, 6, 1, .u64, .ro, false, true, false, .fixed 0, 0, 0, 2 ^ 64 - 1, 256⟩
/-- 07 R244: 0x32004:07 GRAD_SQ_SUM, F32 RO. -/
def GRAD_SQ_SUM : ObjDef :=
  ⟨0x32004, .group, 7, 1, .f32, .ro, false, false, false, .fixed 0, 0, 0, 2 ^ 64 - 1, 256⟩
/-- 07 R244: 0x32004:08 GROUP_COUNTERS_CLEAR, BOOL WO. -/
def GROUP_COUNTERS_CLEAR : ObjDef :=
  ⟨0x32004, .group, 8, 1, .bool, .wo, false, false, false, .fixed 0, 0, 0, 2 ^ 64 - 1, 256⟩
/-- 04 R171: 0x40000:01 FLUE_CFG, U64 RWI. -/
def FLUE_CFG : ObjDef :=
  ⟨0x40000, .flue, 1, 1, .u64, .rwi, false, false, false, .fixed 0, 0, 0, 0xffffffffffffff80, 256⟩
/-- 04 R171: 0x40000:02 FLUE_PEER, U64 RWI. -/
def FLUE_PEER : ObjDef :=
  ⟨0x40000, .flue, 2, 1, .u64, .rwi, false, false, false, .fixed 0, 0, 0, 0xffffffffffffffff, 256⟩
/-- 04 R171: 0x40000:03 FLUE_STATUS, U64 RO. -/
def FLUE_STATUS : ObjDef :=
  ⟨0x40000, .flue, 3, 1, .u64, .ro, false, false, false, .fixed 0, 0, 0, 2 ^ 64 - 1, 256⟩
/-- 04 R171: 0x40000:04 FLUE_DOORBELL, U64 WO. -/
def FLUE_DOORBELL : ObjDef :=
  ⟨0x40000, .flue, 4, 1, .u64, .wo, false, false, false, .fixed 0, 0, 0, 2 ^ 64 - 1, 256⟩
/-- 04 R171: 0x40000:05 FLUE_SLOT_SELECT, U8 RW. -/
def FLUE_SLOT_SELECT : ObjDef :=
  ⟨0x40000, .flue, 5, 1, .u8, .rw, false, false, false, .fixed 0, 0, 0, 2 ^ 64 - 1, 256⟩
/-- 04 R171: 0x40000:06 FLUE_SLOT_STATE, U8 RO. -/
def FLUE_SLOT_STATE : ObjDef :=
  ⟨0x40000, .flue, 6, 1, .u8, .ro, false, false, false, .fixed 8, 0, 0, 2 ^ 64 - 1, 256⟩
/-- 04 R171: 0x40000:07 FLUE_UNDERRUNS, U32 RO. -/
def FLUE_UNDERRUNS : ObjDef :=
  ⟨0x40000, .flue, 7, 1, .u32, .ro, false, true, false, .fixed 0, 0, 0, 2 ^ 64 - 1, 256⟩
/-- 04 R171: 0x40000:08 FLUE_BREACHES, U32 RO. -/
def FLUE_BREACHES : ObjDef :=
  ⟨0x40000, .flue, 8, 1, .u32, .ro, false, true, false, .fixed 0, 0, 0, 2 ^ 64 - 1, 256⟩
/-- 04 R171: 0x40000:09 FLUE_ABSORBED, U32 RO. -/
def FLUE_ABSORBED : ObjDef :=
  ⟨0x40000, .flue, 9, 1, .u32, .ro, false, true, false, .fixed 0, 0, 0, 2 ^ 64 - 1, 256⟩

end Obj

/-- Part 0 of the table of objects. -/
def objTable0 : List ObjDef :=
  [Obj.VENDOR_NAME, Obj.ORDERING_NUMBER, Obj.SERIAL_NUMBER, Obj.VENDOR_PEN, Obj.OD_VERSION, Obj.FW_VERSION, Obj.BASE_DIE_STEPPING, Obj.STOKER_STEPPING, Obj.DP_TARGET, Obj.DP_OFFSET, Obj.DP_LENGTH, Obj.DP_GO, Obj.DP_STATUS, Obj.DP_DATA, Obj.DESC_TARGET, Obj.DESC_RESULT, Obj.DESC_DEFAULT, Obj.PERSIST_SAVE, Obj.PERSIST_RESTORE_DEFAULTS, Obj.PERSIST_STATE, Obj.PERSIST_SAVES, Obj.PERSIST_SOURCE, Obj.MM_LAST_ERROR, Obj.MM_ERRORS, Obj.COOLING_CLASS, Obj.STRAP_CODE, Obj.ENVELOPE_W, Obj.POWER_CAP_W, Obj.POWER_STATUS, Obj.FIRING_DUTY, Obj.POWER_EVENT_ENABLE, Obj.CONTROL_PERIOD, Obj.MODULE_POWER_MW, Obj.SILICON_POWER_MW, Obj.MODULE_ENERGY_MJ, Obj.SILICON_ENERGY_MJ, Obj.PHASE_DOORBELL, Obj.DAMPER_HOLD, Obj.DAMPER_ASSERTIONS, Obj.RELEASE_STAGGER_EN]

/-- Part 1 of the table of objects. -/
def objTable1 : List ObjDef :=
  [Obj.REGION_IDLE, Obj.STACK_TEMP, Obj.STOKER_TEMP, Obj.PORT_TEMP, Obj.PILOT_STATE, Obj.PILOT_RESTARTS, Obj.PILOT_SRAM_CORRECTED, Obj.TICK_COUNT, Obj.PILOT_WDT_LIMIT, Obj.BOOT_STATE, Obj.DEVICE_READY, Obj.READY_TICK, Obj.POOL_HEARTHS, Obj.TESTING_HEARTHS, Obj.ABSENT_HEARTHS, Obj.BOOT_COUNT, Obj.BRINGUP_EVENT_ENABLE, Obj.WHOLE_RESET, Obj.PARTITION_RESET, Obj.RESET_ABSORBED, Obj.RESET_DRAIN_ANSWERED, Obj.FW_FAILED_HEARTHS, Obj.DEFECT_COUNT, Obj.DEFECT_LIST, Obj.DEFECT_ADD, Obj.DEFECT_STATUS, Obj.FUSE_ONLY_MAP, Obj.LIST_ONLY_MAP, Obj.HEARTH_FW_VERSION, Obj.HEARTH_FW_CHUNKS, Obj.FW_HASH_FAILURES, Obj.INPUT_VOLTAGE_MV, Obj.INPUT_STATE, Obj.SIDEBAND_STATUS, Obj.SIDEBAND_FAULTS, Obj.MODULE_EVENT_ENABLE, Obj.LAST_SHUTDOWN, Obj.HOLDUP_ENERGY_MJ, Obj.HOLDUP_CAPACITY_MJ, Obj.HOLDUP_STATUS]

/-- Part 2 of the table of objects. -/
def objTable2 : List ObjDef :=
  [Obj.FIBRE_STATE, Obj.STORE_STATE, Obj.STORE_MIRROR_STATE, Obj.STORE_QUEUED, Obj.STORE_DEFERRALS, Obj.STORE_REPAIRS, Obj.IDENTITY_CERT_CHAIN, Obj.LINK_CERT, Obj.ROOT_KEY_DIGEST, Obj.FW_KEY_DIGESTS, Obj.FW_KEY_REVOKED, Obj.SECURITY_VERSION, Obj.SECURITY_EVENT_ENABLE, Obj.CONFIDENTIAL_REQUEST, Obj.CONFIDENTIAL_ACTIVE, Obj.FW_ACTIVE_SLOT, Obj.FW_SLOT_STATE, Obj.FW_UPDATE_CTL, Obj.FW_STAGE, Obj.FW_UPDATE_STATE, Obj.FW_REJECT_REASON, Obj.FW_CONFIRM, Obj.PENDING_MEASUREMENT, Obj.MEAS_REGISTERS, Obj.MEAS_EXTENDS, Obj.QUOTE_REQ, Obj.QUOTE, Obj.QUOTE_STATUS, Obj.BUNDLE_LOAD, Obj.BUNDLE_STATE, Obj.BUNDLE_RESULT, Obj.BUNDLE_LAST_HANDLE, Obj.BUNDLE_RELEASE, Obj.BUNDLE_HANDLE, Obj.DEVICE_ID, Obj.DEVICE_ID_ACTIVE, Obj.BRIDGE_ENABLE, Obj.BRIDGE_ID, Obj.ROUTE_IN_GROUP, Obj.ROUTE_CROSS_GROUP]

/-- Part 3 of the table of objects. -/
def objTable3 : List ObjDef :=
  [Obj.REKEY_INTERVAL, Obj.PORT_DOWN_HOLD, Obj.CREDIT_STALL_LIMIT, Obj.FABRIC_TIMEOUT, Obj.FABRIC_EVENT_ENABLE, Obj.DISTANCE_MAP, Obj.HOP_MAP, Obj.FRAMES_UNROUTABLE, Obj.FABRIC_TIMEOUTS, Obj.LATE_ANSWERS, Obj.HOST_ERRORS, Obj.FABRIC_COUNTERS_CLEAR, Obj.HOST_LINK_STATE, Obj.HOST_LINK_SPEED, Obj.HOST_LINK_WIDTH, Obj.HOST_WINDOW, Obj.EVENT_NEXT_SEQ, Obj.EVENT_OLDEST_SEQ, Obj.EVENTS_OVERWRITTEN, Obj.EVENT_SUBSCRIBER, Obj.EVENT_VECTOR_MAP, Obj.IBI_ENABLE, Obj.FETCH_SEQ, Obj.FETCH_W, Obj.FETCH_STATUS, Obj.DRAUGHT_LIMIT, Obj.DRAUGHT_EVENTS, Obj.DRAUGHT_LENGTH, Obj.DRAUGHT_FLUE, Obj.RESERVED_BY, Obj.ENERGY_UNATTRIBUTED_MJ, Obj.ATTRIBUTION_INTERVAL, Obj.DIE_STEPPING, Obj.REGION_TEMP, Obj.DIE_POWER_MW, Obj.REGION_PARTITION, Obj.REGION_STATE, Obj.FW_AREA_PA, Obj.FW_AREA_STATE, Obj.TEST_ROUND]

/-- Part 4 of the table of objects. -/
def objTable4 : List ObjDef :=
  [Obj.REGION_UP_TICK, Obj.HBM_SEG_MODE, Obj.REGION_OP, Obj.CLOCK_STATE, Obj.OP_LIMIT, Obj.POWER_CEILING, Obj.THERMAL_CEILING, Obj.CURRENT_PHASE, Obj.PHASE_AT_START, Obj.OP_MOVES, Obj.REGION_ENERGY_UJ, Obj.PHASE_OP, Obj.STACK_STATE, Obj.STACK_POWER_CTL, Obj.ECC_MODE, Obj.PD_IDLE, Obj.SR_IDLE, Obj.SCRUB_INTERVAL, Obj.CE_EVENT_THRESHOLD, Obj.CKPT_STALE, Obj.HBM_EVENT_ENABLE, Obj.CHANNEL_STATE, Obj.RETRAIN_REQUEST, Obj.SECTORS_CORRECTED, Obj.SECTORS_UNCORRECTABLE, Obj.ASH_SECTORS_READ, Obj.CRC_REPLAYS, Obj.RETRAINS, Obj.RETRAIN_FAILURES, Obj.LATE_WRITES_ABSORBED, Obj.ASH_LIST_OVERFLOWS, Obj.TAG_FULL_CYCLES, Obj.SCRUB_PASSES, Obj.HBM_COUNTERS_CLEAR, Obj.UE_LOG, Obj.CKPT_WIN, Obj.BMAX_WIN, Obj.HOB_DOORBELL, Obj.JOB_QUEUE_DEPTH, Obj.HOB_TABLE_0]

/-- Part 5 of the table of objects. -/
def objTable5 : List ObjDef :=
  [Obj.HOB_TABLE_1, Obj.CHAIN_ELEMENTS, Obj.ROW_RELOADS, Obj.HOB_MISUSE, Obj.FOLD_ADD_SECTORS, Obj.CKPT_BLOCKS_WRITTEN, Obj.CKPT_BLOCKS_ASH, Obj.CKPT_AGE_FLUSHES, Obj.JOBS_DONE, Obj.HOB_COUNTERS_CLEAR, Obj.PORT_STATE, Obj.PORT_CTL, Obj.PORT_ROLE, Obj.TX_LANES, Obj.RX_LANES, Obj.LANES_DOWN, Obj.NEIGHBOUR_ID, Obj.LANE_IDLE, Obj.LANE_RETRY_INTERVAL, Obj.PORT_EVENT_ENABLE, Obj.FRAMES_TX, Obj.FRAMES_RX, Obj.PAYLOAD_BYTES_TX, Obj.PAYLOAD_BYTES_RX, Obj.RETRIES, Obj.AUTH_FAILURES, Obj.NARROWINGS, Obj.REKEYS, Obj.FRAMES_DROPPED, Obj.CREDIT_STALLS, Obj.PORT_COUNTERS_CLEAR, Obj.LANE_STATE, Obj.SLOT_MAP, Obj.PHYS_STATUS, Obj.CACHE_STATE, Obj.MULTICAST_DONE, Obj.CLUSTER_RESET, Obj.MISSED_CHUNK_FETCHES, Obj.RELEASE_SLOT, Obj.GATED_HEARTHS]

/-- Part 6 of the table of objects. -/
def objTable6 : List ObjDef :=
  [Obj.GLOBAL_CLUSTER, Obj.LOGICAL_SLOT, Obj.PHYSICAL_HEARTH, Obj.RUNNING_CTX, Obj.HEARTH_STATE, Obj.HEARTH_SERVICE, Obj.TEST_RESULT, Obj.FW_STATE, Obj.FW_CHUNKS_MISSING, Obj.HEARTH_RESET, Obj.RESET_GENERATION, Obj.REPLAY_BUDGET, Obj.HEARTH_SR_SEED, Obj.ARITH_EVENT_ENABLE, Obj.ACC_SATURATIONS, Obj.CONVERT_SATURATIONS, Obj.NONFINITE_INPUTS, Obj.ASH_LINES_WRITTEN, Obj.SCALE_CHECK_FAILS, Obj.SCALE_REPLAYS, Obj.SCALE_SATURATED_ENTRIES, Obj.FEEDER_STALL_CYCLES, Obj.FEEDER_READ_RETRIES, Obj.SRAM_CORRECTED, Obj.SRAM_UNCORRECTED, Obj.COUNTERS_CLEAR, Obj.SCALE_SLOT, Obj.TABLE_BASE, Obj.TABLE_ENTRIES, Obj.ENTRY_POINT, Obj.TAG_TABLE_BASE, Obj.STALL_LIMIT, Obj.SEQ_EVENT_ENABLE, Obj.WINDOW_OCCUPANCY, Obj.PROVISIONAL_OCCUPANCY, Obj.OLDEST_ENTRY, Obj.LOOP_INDICES, Obj.COUNTER, Obj.ENTRIES_FIRED, Obj.ENTRIES_RETIRED]

/-- Part 7 of the table of objects. -/
def objTable7 : List ObjDef :=
  [Obj.BLOCK_PRODUCTS_SKIPPED, Obj.SKIP_CHECK_FAILS, Obj.SKIP_REPLAYS, Obj.SKIP_UNREPLAYED_ENTRIES, Obj.DEPENDENT_REEXECUTIONS, Obj.EGRESS_HOLD_CYCLES, Obj.RUNAHEAD_BYTES, Obj.HEARTH_RUNAHEAD_DROPS, Obj.SEQ_COUNTERS_CLEAR, Obj.DESC_TABLE_BASE, Obj.STREAM_EVENT_ENABLE, Obj.STREAM_RESUME, Obj.HALTED_STREAMS, Obj.REGION, Obj.HALT_ADDRESS, Obj.STREAM_BYTES_IN, Obj.STREAM_BYTES_OUT, Obj.STREAM_FAULT_LINES, Obj.REMOTE_WRITES_REFUSED, Obj.ARRIVAL_NOTICES, Obj.REARM_FORCED_DRAINS, Obj.DRAIN_HOLD_CYCLES, Obj.STREAM_COUNTERS_CLEAR, Obj.HEARTH_BUSY_TICKS, Obj.IDLE_NO_STEP, Obj.HEARTH_IDLE_HOST, Obj.HEARTH_IDLE_THROTTLED, Obj.HEARTH_IDLE_PEER, Obj.HEARTH_IDLE_FLUE, Obj.HEARTH_IDLE_MEMORY, Obj.IDLE_COUNTERS_CLEAR, Obj.CAUSE_MAP_LO, Obj.CAUSE_MAP_HI, Obj.WEIGHT_READ_MODE, Obj.RECOVERY_REPLAY, Obj.TRAINING_EVENT_ENABLE, Obj.CTX_ENABLE, Obj.CTX_STATE, Obj.TRANS_ROOT, Obj.PRIORITY]

/-- Part 8 of the table of objects. -/
def objTable8 : List ObjDef :=
  [Obj.SCALE_SAVE_VA, Obj.ENTRY_VEC, Obj.AFFINITY_WAIT, Obj.STEP_DOORBELL, Obj.PENDING_STEPS, Obj.STEP_NOTIFY, Obj.CTX_EVENT_ENABLE, Obj.LAST_PLACEMENT, Obj.TLB_INVALIDATE, Obj.TLB_INVAL_PENDING, Obj.PLACEMENT, Obj.GRATE_CYCLES, Obj.VECTOR_CYCLES, Obj.HBM_BYTES, Obj.CTX_SLOW_BYTES, Obj.FABRIC_BYTES, Obj.CACHE_BYTES, Obj.ENERGY_MJ, Obj.CTX_RUNAHEAD_DROPS, Obj.PAGE_FAULTS, Obj.STEPS_COMPLETED, Obj.STEPS_ABORTED, Obj.ACCOUNTS_CLEAR, Obj.ACCOUNTS_SNAPSHOT, Obj.CTX_BUSY_TICKS, Obj.CTX_IDLE_HOST, Obj.CTX_IDLE_THROTTLED, Obj.CTX_IDLE_PEER, Obj.CTX_IDLE_FLUE, Obj.CTX_IDLE_MEMORY, Obj.SNAP, Obj.SNAP_TICK, Obj.STOKER_EVENT_ENABLE, Obj.STOKER_STATE, Obj.STOKER_DOORBELL, Obj.DOORBELL_QUEUE_DEPTH, Obj.STOKER_SR_SEED, Obj.SLEEP_IDLE, Obj.CURRENT_GROUP, Obj.ELEMENTS_UPDATED]

/-- Part 9 of the table of objects. -/
def objTable9 : List ObjDef :=
  [Obj.ROOTS_COMPUTED, Obj.NEWTON_ITERATIONS, Obj.SLOW_CORRECTED, Obj.SLOW_UNCORRECTABLE, Obj.STOKER_SLOW_BYTES, Obj.STOKER_HBM_BYTES, Obj.STOKER_COUNTERS_CLEAR, Obj.GROUP_CTL, Obj.N_ELEMENTS, Obj.HIGH_PA, Obj.GRAD_PA, Obj.HDR_PA, Obj.LOW_TA, Obj.STATE_TA, Obj.LR, Obj.BETA1, Obj.BETA2, Obj.EPS, Obj.WEIGHT_DECAY, Obj.GRAD_SCALE, Obj.MAT_ROWS, Obj.MAT_COLS, Obj.BLOCK, Obj.ROOT_P, Obj.ROOT_INTERVAL, Obj.FACTOR_BETA, Obj.DAMPING, Obj.DAMP_FLOOR, Obj.NEWTON_TOL, Obj.FAIL_LIMIT, Obj.PRECOND_TA, Obj.PROGRAM_TA, Obj.PROGRAM_BYTES, Obj.VEC_STATES, Obj.CYCLE_BUDGET, Obj.ARG, Obj.STEP_COUNT, Obj.GROUP_STATUS, Obj.LAST_STAMP, Obj.ROOT_FAILURES]

/-- Part 10 of the table of objects. -/
def objTable10 : List ObjDef :=
  [Obj.STEP_SKEWS, Obj.SKIPPED_ELEMENTS, Obj.GRAD_SQ_SUM, Obj.GROUP_COUNTERS_CLEAR, Obj.FLUE_CFG, Obj.FLUE_PEER, Obj.FLUE_STATUS, Obj.FLUE_DOORBELL, Obj.FLUE_SLOT_SELECT, Obj.FLUE_SLOT_STATE, Obj.FLUE_UNDERRUNS, Obj.FLUE_BREACHES, Obj.FLUE_ABSORBED]

/-- Every object of the dictionary but the subindices 0 of R339. -/
def objTable : List ObjDef :=
  objTable0 ++ objTable1 ++ objTable2 ++ objTable3 ++ objTable4 ++ objTable5 ++ objTable6 ++ objTable7 ++ objTable8 ++ objTable9 ++ objTable10

end Sys2Proof.Machine
end

