-- ==== Sys2Proof/Machine/State.lean ====
section
/-! DEFINITION. Everything the spec gives the device to hold, as plain data, and the state after reset. The values of
dictionary objects live in `Dev.od` and `Dev.dom` unless another field is their home, in which case reads compute them. -/

namespace Sys2Proof.Machine

/-! ### Memory contents -/

/-- A 64-byte line with its ash bit (R61). -/
structure Line where
  bytes : List Byte
  ash : Bool
  deriving DecidableEq, Repr

/-- A sector as a base die stores it: plaintext, whether it is an ash sector (R194), and the symbol errors that the
stored codeword carries (symbol number and the value XORed into it). -/
structure Sector where
  data : List Byte
  ash : Bool
  errs : List (Nat × Nat)
  deriving DecidableEq, Repr

/-- The ash sector of R194, which is what initialisation leaves everywhere (R185). -/
def Sector.ashSector : Sector := ⟨List.replicate 64 0, true, []⟩

/-- A 64-byte line of a slow tier and the mask of its words stored as poison (R240). -/
structure SlowLine where
  data : List Byte
  poison : Nat
  deriving DecidableEq, Repr

/-- A slow-tier line nothing has written: zeros, no poison. -/
def SlowLine.fresh : SlowLine := ⟨List.replicate 64 0, 0⟩

/-! ### Hearths -/

/-- A scale slot (R68): the fields of its state word and its history, newest first. -/
structure ScaleSlot where
  stepMax : Nat
  curExp : Int
  initExp : Int
  margin : Nat
  curValid : Bool
  used : Bool
  replayed : Bool
  ashSeen : Bool
  hist : List Nat
  deriving DecidableEq, Repr

/-- The fresh slot of R68. -/
def ScaleSlot.fresh : ScaleSlot := ⟨0, 0, 0, 0, false, false, false, false, []⟩

/-- States of a dynamic entry (R105). -/
inductive EState where
  | waiting | firing | complete | retired
  deriving DecidableEq, Repr

/-- A loop body being passed through: its level, first and last entry, and the passes left after the current one (R103). -/
structure LoopFrame where
  level : Nat
  first : Nat
  last : Nat
  left : Nat
  deriving DecidableEq, Repr

/-- A position in the dynamic entry sequence: the next table index, the bodies it lies in (innermost first), the loop
values I and T, the counts N of R103, and how many dynamic entries have been passed. -/
structure Walk where
  pos : Nat
  loops : List LoopFrame
  i : Tab Nat
  t : Tab Nat
  n : Tab Nat
  ordinal : Nat
  deriving DecidableEq, Repr

/-- The position at the start of a step with entry point `e`. -/
def Walk.start (e : Nat) : Walk := ⟨e, [], [], [], [], 0⟩

/-- A dynamic entry in the window: its number, table index, the 256 bits read, the captured loop values, its state,
provisional slot, the entries of its dependency mask, provisional increments, stream place, whether it runs again after a failed
check, with the exponent of R71, the scale tag word (byte address, value) its retirement writes (R66), its read and write ranges as it
fired (R108), and the ranges it has written provisionally and not yet retired (R126). -/
structure WEntry where
  id : Nat
  idx : Nat
  raw : Nat
  i : Tab Nat
  t : Tab Nat
  ordinal : Nat
  st : EState
  slot : Option Nat
  mask : List Nat
  inc : Tab Int
  place : Option Nat
  replay : Bool
  replayExp : Option Int
  tagWord : Option (Nat × Nat)
  ranges : List (Nat × Nat) × List (Nat × Nat)
  prov : List (Nat × Nat)
  deriving DecidableEq, Repr

/-- A complete accumulator buffer: the dynamic entry it belongs to, its (n-block, m-block) pair and its FP32 elements with
ash marks, row after row. -/
structure AccBuf where
  id : Nat
  nb : Nat
  mb : Nat
  vals : List (Nat × Bool)
  deriving DecidableEq, Repr

/-- A GRATE entry on the grates: its dynamic entry, the output exponent in use, the sum of its operands' exponents, the block products skipped (row block, k-block,
column block), blocks skipped for every grate and not yet check-read (n-block, row block, k-block), pairs folded and
drained, whether a skip was found wrong, the entry maximum, whether any output element was ash, and the exponent that the scale check
at the last drain corrected to, where it failed (R71). -/
structure GrateJob where
  id : Nat
  exp : Int
  ein : Int
  skips : List (Nat × Nat × Nat)
  checks : List (Nat × Nat × Nat)
  folded : Nat
  drained : Nat
  wrongSkip : Bool
  maxMag : Nat
  ashSeen : Bool
  failed : Option Int
  deriving DecidableEq, Repr

/-- A flue operation a stream place is waiting for: the flue and whether it is a write. -/
structure FlueOp where
  flue : Nat
  write : Bool
  deriving DecidableEq, Repr

/-- A stream place in use (R137): the dynamic entry, the context slot, the descriptor copy with its index, the scratchpad line
and far byte the transfer starts at, the next line to move, lines sent and not yet answered (with their address at the
destination), the tag of its frames, lines the bellows delivered, whether it is held under R147, the line it is halted at
(R154), whether the rest is handled natively (R156), pages already reported (R153), the place the first far byte lies in
(device and local address) when it was reached, whether it is carried under acknowledgement (R148), and the FLUE operation
if it is one, with whether the operation is done; and its number in the hearth's firing order, with whether it has started (R137). -/
structure Transfer where
  id : Nat
  ctx : Nat
  desc : Nat
  descIdx : Nat
  line0 : Nat
  far : Nat
  next : Nat
  waiting : List (Nat × Nat)
  tag : Option Nat
  ahead : List Nat
  held : Bool
  halted : Option Nat
  nativeRest : Bool
  faultPages : List Nat
  first : Option (Nat × Nat)
  forced : Bool
  flue : Option FlueOp
  done : Bool
  order : Nat
  started : Bool
  deriving DecidableEq, Repr

/-- A step running on a hearth: its context slot, whether its table is empty, and the values latched at its start (R324). -/
structure StepRun where
  ctx : Nat
  empty : Bool
  budget : Nat
  stallLimit : Nat
  transposed : Bool
  causeLo : Nat
  causeHi : Nat
  needExchange : Bool
  released : Bool
  stopped : Bool
  aborting : Bool
  deriving DecidableEq, Repr

/-- Lines of a run-ahead fetch asked of another device and not yet answered (R117): the tag of the frames, the entry's number in the
dynamic sequence, the context slot, the descriptor, its first far byte and scratchpad line, the lines with their addresses there, and
whether they fill the cluster cache alone (R116, R118). -/
structure Ahead where
  tag : Nat
  ordinal : Nat
  ctx : Nat
  desc : Nat
  far : Nat
  line0 : Nat
  lines : List (Nat × Nat)
  cacheOnly : Bool
  deriving DecidableEq, Repr

/-- Lines of a stream that the bellows have delivered (R117): the entry's number in the dynamic sequence, the descriptor, the first far
byte and scratchpad line they were fetched for, and the lines. -/
structure Blown where
  ordinal : Nat
  desc : Nat
  far : Nat
  line0 : Nat
  lines : List Nat
  deriving DecidableEq, Repr

/-- The bellows: where they have walked to, the branches passed and not yet resolved by the fill stage (number in the dynamic
sequence, whether taken, whether LIKELY was followed, R115), the lines of streams delivered ahead, and those in flight (R117). -/
structure Bellows where
  walk : Walk
  branches : List (Nat × Bool × Bool)
  delivered : List Blown
  inflight : List Ahead
  deriving DecidableEq, Repr

/-- The bellows before a step. -/
def Bellows.fresh : Bellows := ⟨Walk.start 0, [], [], []⟩

/-- A scale-slot exchange with lines on another device (R77, R78): the tag of its frames, lines written and read and not yet
answered with their addresses there, lines read (none: affected), whether the outgoing area was affected, and the lines begun, of
288: 144 written, then 144 read. -/
structure Exchange where
  tag : Nat
  next : Nat
  writes : List (Nat × Nat)
  reads : List (Nat × Nat)
  got : List (Nat × Option Line)
  badOut : Bool
  deriving DecidableEq, Repr

/-- One logical hearth's own state. `feedHalf` holds, by row, the lines granted of a feeder read that needs more than one (R39), by bank
`bankPtr` the port and `rowPtr` the row feeder that the rotation favours (R37), `slotBad` the 64-bit words of the scale-slot table that
hold an uncorrectable error (R80), `nextFire` the number of the next transfer in firing order (R137). -/
structure Hearth where
  scr : Tab Byte
  ash : Tab Bool
  run : Option StepRun
  lastCtx : Option Nat
  walk : Walk
  window : List WEntry
  nextId : Nat
  counters : Tab Nat
  places : Tab (Option Transfer)
  epochs : Tab (Option Nat)
  slots : Tab ScaleSlot
  jobs : List GrateJob
  bufs : List AccBuf
  feeders : Tab (List (Nat × Bool))
  feederPos : Tab Nat
  planes : Tab (List (Nat × Bool))
  vregs : Tab Nat
  feedHalf : Tab (List (Nat × Line))
  bankPtr : Tab Nat
  rowPtr : Tab Nat
  srDraws : Nat
  bellows : Bellows
  once : List Nat
  cstore : Tab (List Byte)
  exch : Option Exchange
  slotBad : List Nat
  nextFire : Nat
  deriving DecidableEq, Repr

/-- A hearth after a whole-device reset. -/
def Hearth.fresh : Hearth :=
  { scr := [], ash := [], run := none, lastCtx := none, walk := Walk.start 0, window := [], nextId := 0, counters := [],
    places := [], epochs := [], slots := [], jobs := [], bufs := [], feeders := [], feederPos := [], planes := [],
    vregs := [], feedHalf := [], bankPtr := [], rowPtr := [], srDraws := 0, bellows := Bellows.fresh, once := [], cstore := [],
    exch := none, slotBad := [], nextFire := 0 }

/-! ### Clusters, flues -/

/-- A cached leaf (R321): context slot, virtual page, 1 GiB rather than 2 MiB, and the leaf entry. -/
structure TlbEntry where
  ctx : Nat
  vpage : Nat
  big : Bool
  leaf : Nat
  deriving DecidableEq, Repr

/-- A cluster router with its cache (R151), translation cache (R321) and the pointer of its chunk pulls (R409). -/
structure Cluster where
  tlb : List TlbEntry
  cache : List (Nat × Nat × Line)
  pullPtr : Nat
  deriving DecidableEq, Repr

/-- A cluster router after reset. -/
def Cluster.fresh : Cluster := ⟨[], [], 0⟩

/-- States of a flue slot (R162). -/
inductive FState where
  | empty | filled | draining
  deriving DecidableEq, Repr

/-- A flue slot (R160). -/
structure FSlot where
  st : FState
  ash : Bool
  doneLap : Bool
  pending : Bool
  deriving DecidableEq, Repr

/-- A slot after a flue reset (R161). -/
def FSlot.fresh : FSlot := ⟨.empty, false, true, false⟩

/-- A slot copy in progress: its slot, whether a write, whether a flue reset has overtaken it, who asked (hearth and stream
place), the scratchpad line written to, the lines read at its start, and FLUE_CFG and FLUE_PEER as they stood then (R161). The copy of
a proxied write is its `FArrival`. -/
structure FCopy where
  slot : Nat
  write : Bool
  stale : Bool
  hearth : Nat
  place : Nat
  line : Nat
  data : List Line
  cfg : Nat
  peer : Nat
  deriving DecidableEq, Repr

/-- A proxied slot write whose first frame has arrived (R277): the device and stamp it came with, its slot, the buffer's line
when accepted, whether a flue reset has overtaken it, lines still to come, the acknowledgement owed (tag, address, lines)
once its last frame has arrived, and FLUE_CFG as it stood at its first frame (R161). -/
structure FArrival where
  src : Nat
  stamp : Nat
  slot : Nat
  buf : Option Nat
  stale : Bool
  left : Nat
  ack : Option Frame
  cfg : Nat
  deriving DecidableEq, Repr

/-- A flue: full counts of writes and reads since its reset (of a proxy, the stamps it has given), its slots, copies in
progress, proxied writes, and whether a step abort's reset waits for them. -/
structure Flue where
  put : Nat
  get : Nat
  slots : Tab FSlot
  copies : List FCopy
  arrivals : List FArrival
  due : Bool
  deriving DecidableEq, Repr

/-- A flue after reset (R161). -/
def Flue.fresh : Flue := ⟨0, 0, [], [], [], false⟩

/-! ### Memory stacks -/

/-- Pseudo-channel power states (R181). -/
inductive Pch where
  | active | powerDown | selfRefresh | retrain | hold | failed | off
  deriving DecidableEq, Repr

/-- A request to a stack that waits with its tag, for a retraining channel (R186) or for the partial buffer (R206), or at the region
boundary (R25, R179): its sector, of an aperture request the checkpoint window and aperture line, whether it writes, of a fold-add
whether it is BF16, its bytes, of a read its source and the table entries of the chain it carries as it was accepted (R200), and its
failed transfer attempts (R174). -/
structure HbmWait where
  sec : Nat
  win : Option (Nat × Nat)
  write : Bool
  fold : Option Bool
  data : List Byte
  mask : List Bool
  ash : Bool
  ctx : Option Nat
  source : ReadSource
  chain : List Nat
  crc : Nat
  deriving DecidableEq, Repr

/-- A partial checkpoint block (R206): its input lines by number, with ash marks. -/
structure PartBlock where
  lines : Tab (Option Line)
  deriving DecidableEq, Repr

/-- An armed block-maximum window (R212): records by number, the whole tensor's record, sectors counted, and the doorbell
word whose notice is sent at the write-out. -/
structure Bmax where
  records : Tab Nat
  whole : Nat
  count : Nat
  word : Nat
  deriving DecidableEq, Repr

/-- A row or vector slot of engine 0 (R209): what it was loaded from, the sector ranges it was loaded from, and its FP32 values with ash
marks. -/
structure HobSlot where
  key : List Nat
  ranges : List (Nat × Nat)
  vals : List (Nat × Bool)
  deriving DecidableEq, Repr

/-- One stack with its controller and base die: pseudo-channel states, waiting requests, requests at the region boundary, the hold's
drain, whether it ends in OFF, the number of the last hold, the ash list, pseudo-channels whose list overflowed, abandoned sectors with
the hold that abandoned them, the holds that have reported a late write, whether this hold has reported an overflow, the channel
retraining with those queued and their attempts, ticks of CRC mismatches, temperatures at training,
corrections since the last threshold event, partial blocks, armed windows, queued doorbells, row and vector slots, whether the hob
clocks run, the scrub position, context slots whose misuse was reported, and FAILED channels to be trained again. -/
structure Stack where
  pch : Tab Pch
  waiting : List HbmWait
  boundary : List HbmWait
  draining : Bool
  powerOff : Bool
  holdNo : Nat
  ashList : List Nat
  overflow : List Nat
  abandoned : List (Nat × Nat)
  lateRaised : List Nat
  overflowRaised : Bool
  retraining : Option Nat
  retrainQueue : List Nat
  attempts : Tab Nat
  crcTicks : Tab (List Nat)
  trainTemp : Tab Int
  correctedSince : Nat
  partials : Tab (Option PartBlock)
  bmax : Tab (Option Bmax)
  doorbells : List Nat
  rowSlots : List HobSlot
  vecSlots : List HobSlot
  hobClock : Bool
  scrubNext : Nat
  misused : List Nat
  failedRetry : Bool
  deriving DecidableEq, Repr

/-- A stack before its initialisation. -/
def Stack.fresh : Stack :=
  { pch := [], waiting := [], boundary := [], draining := false, powerOff := false, holdNo := 0, ashList := [], overflow := [],
    abandoned := [], lateRaised := [], overflowRaised := false, retraining := none, retrainQueue := [],
    attempts := [], crcTicks := [], trainTemp := [], correctedSince := 0, partials := [], bmax := [], doorbells := [],
    rowSlots := [], vecSlots := [], hobClock := false, scrubNext := 0, misused := [], failedRetry := false }

/-! ### Stokers -/

/-- An element in a vector core's local memory (R266): its weight, scaled gradient and states in FP32, and whether it is skipped and so
given as zeros. -/
structure CoreElem where
  w : Nat
  g : Nat
  states : List Nat
  skip : Bool
  deriving DecidableEq, Repr

/-- An update of a vector-code group in progress (R266): the group, t, chunks not yet dealt to a core, by core the chunk it runs with what
its local memory was given, skipped elements so far, the latched values of the group's L objects in the order of its block, and the
bytes of the gradient headers read at its start (R255). -/
structure CodeRun where
  group : Nat
  t : Nat
  left : List Nat
  cores : Tab (Option (Nat × List CoreElem))
  skipped : Nat
  latched : List Nat
  headers : List (List Byte)
  deriving DecidableEq, Repr

/-- A slow-tier request of a hearth that waits (R239, R242): its line, whether it writes, its bytes, ash mark and slot, and of a read what
the code finds in the line's words. -/
structure SlowWait where
  line : Nat
  write : Bool
  data : List Byte
  ash : Bool
  ctx : Nat
  words : List SramOutcome
  deriving DecidableEq, Repr

/-- One Stoker: queued doorbell words, slow-tier requests that wait in arrival order, of which the first 4,096 hold the slow-tier tags (R239),
the doorbell taken with the groups left, a vector-code run, stochastic-rounding
draws since the seed, failed training attempts (LPDDR5X, link 0, link 1) and whether it runs at half rate. -/
structure Stoker where
  queue : List Nat
  waiting : List SlowWait
  taken : Option (Nat × List Nat)
  code : Option CodeRun
  srDraws : Nat
  attempts : Tab Nat
  half : Bool
  forced : List Nat
  deriving DecidableEq, Repr

/-- A Stoker after reset. -/
def Stoker.fresh : Stoker := ⟨[], [], none, none, 0, [], false, []⟩

/-! ### Fabric and host -/

/-- A session key slot (R296, R427): key and salt (36 bytes) of each direction, the receiving one until it is discarded, and frames
sent under it. -/
structure Session where
  tx : Nat
  rx : Option Nat
  frames : Nat
  deriving DecidableEq, Repr

/-- The neighbour's OFFER (R426): its random value, device ID and leaf serial number. -/
structure Offer where
  random : Nat
  devId : Nat
  serial : List Byte
  deriving DecidableEq, Repr

/-- A frame in a port's receive buffer (R278): what the code finds in scratchpad words it reads, failed transfer attempts of its accesses
(R174), its lines already served with the gravest of their statuses, and the lines already read with theirs. -/
structure RxFrame where
  frame : Frame
  errs : List (Nat × SramOutcome)
  crc : List (Nat × Nat)
  next : Nat
  status : Nat
  got : List (Nat × Line)
  deriving DecidableEq, Repr

/-- One link port: good lanes of each direction; credits, VL pointer and retry buffer; LINK_SEQ counters and the LINK_SEQ a replay was
asked from; its sessions and the slots in use; the exchange of R426 (own random value and ephemeral key, the neighbour's OFFER and
ephemeral key, whether it is a rekey); ticks of tag failures; a change of width; a thermal throttle; a detected neighbour; the frames in its
receive buffers in arrival order and the credits given back to the neighbour by VL (R278); the lanes marked down (R301). -/
structure Port where
  txGood : Nat
  rxGood : Nat
  credits : Tab Nat
  vlPtr : Nat
  retry : List Frame
  seqTx : Nat
  seqRx : Nat
  replayFrom : Option Nat
  keySlots : Tab (Option Session)
  keyTx : Nat
  keyRx : Nat
  ownRandom : Nat
  ownEphemeral : Nat
  offer : Option Offer
  ephemeral : Option Nat
  rekeying : Bool
  authTicks : List Nat
  changing : Bool
  throttled : Bool
  present : Bool
  rx : List RxFrame
  returned : Tab Nat
  marked : List (Bool × Nat)
  deriving DecidableEq, Repr

/-- A port after reset. -/
def Port.fresh : Port :=
  { txGood := 0, rxGood := 0, credits := [], vlPtr := 0, retry := [], seqTx := 0, seqRx := 0, replayFrom := none,
    keySlots := [], keyTx := 0, keyRx := 0, ownRandom := 0, ownEphemeral := 0, offer := none, ephemeral := none,
    rekeying := false, authTicks := [], changing := false, throttled := false, present := true, rx := [], returned := [], marked := [] }

/-- What an answer from the fabric is awaited for: lines of a hearth's transfer, a proxied flue write, a host load (its destination and
first line, the first byte and how many it takes of the lines, and the lines answered so far), a host load already answered with all
ones (its destination and the lines still to come), a host request that a link loss has overtaken (R311: its destination, whether a store,
the answers still to come), a host store, a distance probe, the lines of a transfer that completed
at hand-over, with its number in the firing order (R147), lines of a run-ahead fetch (R117), lines of a scale-slot exchange (R77), or something a reset has overtaken (R413). -/
inductive Await where
  | xfer (h place : Nat)
  | flue (h place : Nat)
  | hostLoad (dst addr off len : Nat) (got : List (Nat × List Byte))
  | hostLate (dst left : Nat)
  | hostLost (dst : Nat) (store : Bool) (left : Nat)
  | hostStore (dst : Nat)
  | probe (m : Nat)
  | handed (h desc epoch left order : Nat)
  | ahead (h : Nat)
  | scale (h : Nat)
  | stale (h : Nat)
  deriving DecidableEq, Repr

/-- A host request not yet sent: a load held until earlier stores to the same device are acknowledged, or a request behind it (R312). -/
structure HeldReq where
  frame : Frame
  what : Await
  deriving DecidableEq, Repr

/-- Frames queued at the ports (with the port chosen), awaited answers by tag, and route changes not yet in force (R289). -/
structure Net where
  queue : List (Nat × Frame)
  awaits : Tab (Option Await)
  nextTag : Nat
  newRoutes : Tab (Option Nat)
  routePtr : Nat
  unroutableTick : Option Nat
  deriving DecidableEq, Repr

/-- A host access through a window to the bridge's own device that has to wait: its first byte, the bytes of a store, the bytes asked of a
load, how many of its lines are served, and what the load has got (none: a line was not served). -/
structure LocalReq where
  addr : Nat
  data : Option (List Byte)
  len : Nat
  next : Nat
  got : Option (List Byte)
  crc : List (Nat × Nat)
  deriving DecidableEq, Repr

/-- The bridge's host side: requests held, MSI-X vectors raised, the writes issued to host memory (address, bytes, mask; an empty
mask means every byte), accesses to the bridge's own device that wait, the bytes of the MSI-X table and the vectors pending (R307, R369). -/
structure HostSide where
  held : List HeldReq
  msix : List Nat
  writes : List (Nat × List Byte × List Bool)
  waits : List LocalReq
  table : Tab Byte
  pba : List Nat
  deriving DecidableEq, Repr

/-- The bridge's host side after reset. -/
def HostSide.fresh : HostSide := ⟨[], [], [], [], [], []⟩

/-- The I3C target and MCTP endpoint (R364): dynamic address, in-band interrupts enabled by ENEC, one outstanding with
its data byte (R369), the endpoint ID, and the last command message answered. -/
structure I3c where
  addr : Option Nat
  ibi : Bool
  ibiPending : Bool
  ibiByte : Nat
  eid : Nat
  resp : List Byte
  deriving DecidableEq, Repr

/-- A request that waits in the queue of its path (R365): a command with its header and data, an access to BAR 0/1 or to the bridge's own
dictionary window through a host window, with its slots served and what they read (R361), or a write of a scalar by number. -/
inductive PathReq where
  | cmd (path : Path) (hdr : Nat) (data : List Byte)
  | bar (off len : Nat) (data : Option (List Byte)) (next : Nat) (got : List Byte)
  | object (path : Path) (index sub v : Nat)
  deriving DecidableEq, Repr

/-- What the last access or command answered: an R357 status, a value and bytes. -/
structure Reply where
  status : Nat
  value : Nat
  bytes : List Byte
  deriving DecidableEq, Repr

/-! ### Events, contexts, power, resets, store -/

/-- An event record (R366). -/
structure EventRec where
  code : Nat
  source : Nat
  ctx : Option Nat
  seq : Nat
  detailHi : Nat
  tick : Nat
  detail : Nat
  deriving DecidableEq, Repr

/-- The event ring, oldest first, and the arming of event-overwrite (R369). -/
structure Events where
  ring : List EventRec
  overwriteArmed : Bool
  deriving DecidableEq, Repr

/-- The step a context slot is running: the alternative, its hearths, those that have ended their part, the cause of an abort. -/
structure CtxRun where
  alt : Nat
  hearths : List Nat
  ended : List Nat
  aborted : Option Nat
  deriving DecidableEq, Repr

/-- A context slot: its running step, the tick since which its next step has been startable (R329), whether it is halted, and the cause
of an abort whose event waits for the reset of the slot's flues (R167). -/
structure Ctx where
  run : Option CtxRun
  since : Nat
  halted : Bool
  abortDue : Option Nat
  deriving DecidableEq, Repr

/-- A context slot after reset. -/
def Ctx.fresh : Ctx := ⟨none, 0, false, none⟩

/-- The power controller, DAMPER_N and thermal state (R381 to R391): consecutive periods below the margin, periods over the limit
at D 1, periods at or below the limit; the DAMPER_N pin and the internal net (true: high); the tick of the rise whose DAMPER_HOLD
runs; a critical temperature holds; a trip has removed power; per region the consecutive cool periods; the throttled Stokers; the sensors above
their throttle thresholds, and the tick of the last thermal-throttle event; the thermal-alert pins (true: asserted, R439); the regions that start
at OP0 when next woken (R385); the input voltage; the last periods' readings (module, silicon, four dies, newest
first), the sums of the running confidential interval with its periods; energies in units of 10 nJ; per region the point of
the move in progress; and whether the input is lost and the Pilot runs on the hold-up bank,
and has returned since (R452). -/
structure Power where
  under : Nat
  overAtFloor : Nat
  okPeriods : Nat
  pin : Bool
  net : Bool
  rise : Option Nat
  critical : Bool
  tripped : Bool
  cool : Tab Nat
  hotStokers : List Nat
  hot : List Sensor
  throttleTick : Option Nat
  thermAlert : Bool
  thermTrip : Bool
  clamped : List Nat
  inputMv : Nat
  past : List (List Nat)
  ivalSum : List Nat
  ivalPeriods : Nat
  energyMod : Nat
  energySil : Nat
  dest : Tab Nat
  onBank : Bool
  inputBack : Bool
  deriving DecidableEq, Repr

/-- The power controller after reset. -/
def Power.fresh : Power :=
  { under := 0, overAtFloor := 0, okPeriods := 0, pin := true, net := true, rise := none, critical := false, tripped := false,
    cool := [], hotStokers := [], hot := [], throttleTick := none, thermAlert := false, thermTrip := false, clamped := [], inputMv := 54000, past := [], ivalSum := [], ivalPeriods := 0,
    energyMod := 0, energySil := 0, dest := [], onBank := false, inputBack := false }

/-- A reset in progress (R413): its part, whether its drain has ended, and the hearths still under reset test. -/
structure ResetRun where
  part : ResetPart
  drained : Bool
  testing : List Nat
  deriving DecidableEq, Repr

/-- The management core (R372): restarting, the ticks of its restarts, events held during a restart and events lost. -/
structure Pilot where
  restarting : Bool
  restarts : List Nat
  held : List EventRec
  lost : Nat
  deriving DecidableEq, Repr

/-- What a store operation is for (R453 to R458). A repair names the item it copies: 0 defect record, 1 boot count, 2 security
version, 3 slot select, 4 persistent record, 5 slot bytes, with its value, slot, area or place. A save's operations carry its number. A
compaction erases a log, 0 the slot-select log and 1 the counter log, and programs its current values (R455). -/
inductive StoreJob where
  | defect (v : Nat)
  | bootCount (n : Nat)
  | secVersion (v : Nat)
  | slotSelect (slot : Nat)
  | persistErase (area seq : Nat)
  | persist (area seq : Nat)
  | slotErase (slot block : Nat)
  | slotProgram (slot off : Nat) (data : List Byte)
  | repair (kind arg : Nat)
  | logErase (log : Nat)
  | logFirst (log : Nat)
  deriving DecidableEq, Repr

/-- A queued operation on one mirror. -/
structure StoreOp where
  job : StoreJob
  mirror : Nat
  deferred : Bool
  deriving DecidableEq, Repr

/-- The store's queue, the operation in progress, the number of the last PERSIST_SAVE, and whether a P object has been written
since it. -/
structure StoreQ where
  queue : List StoreOp
  running : Option StoreOp
  saveSeq : Nat
  touched : Bool
  deriving DecidableEq, Repr

/-- A loaded or loading bundle: its handle, header address, what its load extends M4 with, and its segments (stack, first sector,
sectors). -/
structure Bundle where
  handle : Nat
  header : Nat
  ext : List Byte
  segs : List (Nat × Nat × Nat)
  deriving DecidableEq, Repr

/-- Bundles loaded by handle slot, the one loading, the next handle, and segments to be written as ash when a hold ends. -/
structure Bundles where
  loaded : Tab (Option Bundle)
  loading : Option Bundle
  nextHandle : Nat
  owedAsh : List (Nat × Nat × Nat)
  deriving DecidableEq, Repr

/-- A request to a hearth that waits at the boundary of its region for the clock (R25, R374): a remote write, an arrival notice, an
increment of an operand counter. -/
inductive EdgeReq where
  | write (h off : Nat) (data : List Byte) (ash : Bool)
  | notice (h line : Nat)
  | counter (h c : Nat)
  deriving DecidableEq, Repr

/-- Everything a whole-device reset returns to its reset value, with the memories it may keep. `od` and `dom` are the stored values of
the dictionary, `coarse` those of `od` at the last boundary of R352, `saveOd` and `saveDom` what the running save writes (R350). Beside them stand
the physical hearths tested in their region's bring-up (R396), the FW_AREA_PA in force for each region (R418), the pending flag of R424 and the quotes being signed (R433); the
requests at region boundaries (R25), the rotating pointers of stacks, flues, Stokers and the dictionary server (R335), while a
command runs the failed transfer attempts that its accesses to sectors meet (R174), the requests queued on the three paths of the
dictionary by number (0 fabric, 1 I3C, 2 memory-mapped, R365), the stacks and, from 32 on, the ports that have left training (R400), and of the tick
so far the hearths whose data path worked and the regions whose clock was stopped for a move or the damper (R232). -/
structure Dev where
  tick : Nat
  od : Tab Nat
  dom : Tab Byte
  hearths : Tab Hearth
  clusters : Tab Cluster
  flues : Tab Flue
  hbm : Tab Sector
  slow : Tab SlowLine
  stks : Tab Stack
  stokers : Tab Stoker
  ports : Tab Port
  net : Net
  host : HostSide
  i3c : I3c
  reply : Reply
  events : Events
  ctxs : Tab Ctx
  schedPtr : Tab Nat
  attrib : Tab Nat
  power : Power
  resets : List ResetRun
  pilot : Pilot
  store : StoreQ
  bundles : Bundles
  testSeen : List Nat
  fwAreas : Tab Nat
  saveOd : Tab Nat
  saveDom : Tab Byte
  coarse : Tab Nat
  fwPending : Bool
  quotes : Tab (List Byte)
  edge : Tab (List EdgeReq)
  arb : Tab Nat
  crc : List (Nat × Nat)
  paths : Tab (List PathReq)
  trained : List Nat
  worked : List Nat
  clockHeld : List Nat
  free : Nat
  deriving DecidableEq, Repr

/-- The device part right after a whole-device reset, its memories empty. -/
def Dev.fresh : Dev :=
  { tick := 0, od := [], dom := [], hearths := [], clusters := [], flues := [], hbm := [], slow := [], stks := [],
    stokers := [], ports := [], net := ⟨[], [], 0, [], 0, none⟩, host := HostSide.fresh, i3c := ⟨none, false, false, 0, 0, []⟩,
    reply := ⟨0, 0, []⟩, events := ⟨[], true⟩, ctxs := [], schedPtr := [], attrib := [], power := Power.fresh,
    resets := [], pilot := ⟨false, [], [], 0⟩, store := ⟨[], none, 0, false⟩, bundles := ⟨[], none, 1, []⟩, testSeen := [], fwAreas := [],
    saveOd := [], saveDom := [], coarse := [], fwPending := false, quotes := [], edge := [], arb := [], crc := [],
    paths := [], trained := [], worked := [], clockHeld := [], free := 0 }

/-- What the module keeps across a whole-device reset: the sampled strap code, strap faults and class; the ember store's
records, the area of the last complete persistent record and the mirrors that hold a record in an area, and the items valid in one mirror alone (kind, argument, the mirror that lacks it); what the last
power-on ended in; the reversal latch; whether HBM was kept (R412); the manufacturing fuses of hearths and of cluster caches; and the records
in each log of each mirror (twice the log's number plus the mirror, R455). -/
structure Vault where
  strapCode : Nat
  strapFaults : Nat
  coolingClass : Nat
  defects : List Nat
  bootCount : Nat
  secVersion : Nat
  activeSlot : Nat
  slotBytes : Tab Byte
  slotState : Tab Nat
  persistOd : Tab Nat
  persistDom : Tab Byte
  persistValid : Bool
  persistDefaults : Bool
  persistArea : Nat
  persistMirrors : List (Nat × Nat)
  confidential : Bool
  lastShutdown : Nat
  reversed : Bool
  kept : Bool
  halfDone : List (Nat × Nat × Nat)
  fuseBad : List Nat
  fuseCache : List Nat
  logs : Tab Nat
  deriving DecidableEq, Repr

/-- Bytes of the manifest of firmware slot 0 as shipped (R422), those other than zero: the magic, FORMAT 1, FW_VERSION 1.0.0, 64
pilot chunks and 24 hearth chunks (log entry 22). -/
def shippedManifest : Tab Byte := [(0, 0x4B), (1, 0x5A), (2, 0x46), (3, 0x4D), (4, 1), (11, 1), (16, 64), (18, 24)]

/-- The vault of a module as shipped, before its first power-on. -/
def Vault.shipped : Vault :=
  { strapCode := 0, strapFaults := 0, coolingClass := 1, defects := [], bootCount := 0, secVersion := 0, activeSlot := 0,
    slotBytes := shippedManifest, slotState := [(0, 4)], persistOd := [], persistDom := [], persistValid := false,
    persistDefaults := false, persistArea := 1, persistMirrors := [], confidential := false, lastShutdown := 0, reversed := false, kept := false,
    halfDone := [], fuseBad := [], fuseCache := [], logs := [] }

/-- Why the machine stops with a fault. -/
inductive Fault where
  /-- Raised by no command of this model: every command of the table answers a next state. Safe. -/
  | none_
  deriving DecidableEq, Repr

/-- Why a command has no meaning. -/
inductive Refusal where
  /-- Raised by an arm of exec whose command has no meaning yet. Safe: nothing follows from it. -/
  | notModelled (mnemonic : String)
  deriving DecidableEq, Repr

/-- The whole state: commands waiting, first in first out; what survives a reset; the device. -/
structure State where
  pending : List Instr
  vault : Vault
  dev : Dev
  deriving DecidableEq, Repr

/-- The machine right after reset: no command waiting, a module as shipped, every object at its reset value. POWER_CAP_W, element
0x0_1000:04, holds the envelope, 1,600 W while no class is sampled (R384). -/
def State.reset : State := ⟨[], Vault.shipped, { Dev.fresh with od := [(0x1000 * 256 + 4, 1601)] }⟩

end Sys2Proof.Machine
end

