-- ==== Sys2Proof/Machine/Flags.lean ====
section
/-! DEFINITION. Events (R366 to R368): each event's group and bit, the object that enables it, and the record it writes. -/

namespace Sys2Proof.Machine

/-- An event of R367: its group and its bit in the group's enable object. -/
structure Ev where
  group : Nat
  bit : Nat
  deriving DecidableEq, Repr

/-- The CODE of R366. -/
def Ev.code (e : Ev) : Nat := e.group * 256 + e.bit

/-- The object whose bit enables the events of a group (R367). -/
def evEnable : Nat → Option ObjDef
  | 0x01 => some Obj.ARITH_EVENT_ENABLE
  | 0x02 => some Obj.SEQ_EVENT_ENABLE
  | 0x03 => some Obj.STREAM_EVENT_ENABLE
  | 0x04 => some Obj.TRAINING_EVENT_ENABLE
  | 0x08 => some Obj.HBM_EVENT_ENABLE
  | 0x0C => some Obj.PORT_EVENT_ENABLE
  | 0x10 => some Obj.CTX_EVENT_ENABLE
  | 0x14 => some Obj.STOKER_EVENT_ENABLE
  | 0x18 => some Obj.FABRIC_EVENT_ENABLE
  | 0x20 => some Obj.POWER_EVENT_ENABLE
  | 0x21 => some Obj.BRINGUP_EVENT_ENABLE
  | 0x22 => some Obj.SECURITY_EVENT_ENABLE
  | 0x23 => some Obj.MODULE_EVENT_ENABLE
  | _ => none

namespace Event

/-- R80 ash-produced. -/
def ashProduced : Ev := ⟨1, 0⟩
/-- R80 scale-saturated. -/
def scaleSaturated : Ev := ⟨1, 1⟩
/-- R80 accumulator saturation. -/
def accSaturation : Ev := ⟨1, 2⟩
/-- R80 uncorrectable hearth SRAM error. -/
def sramUncorrectable : Ev := ⟨1, 3⟩
/-- R78 scale-save-fault. -/
def scaleSaveFault : Ev := ⟨1, 4⟩
/-- R127 illegal-entry. -/
def illegalEntry : Ev := ⟨2, 0⟩
/-- R114 firing-stall. -/
def firingStall : Ev := ⟨2, 1⟩
/-- R123 skip-unreplayed. -/
def skipUnreplayed : Ev := ⟨2, 2⟩
/-- R119 run-ahead-drop. -/
def runAheadDrop : Ev := ⟨2, 3⟩
/-- R153 page-fault. -/
def pageFault : Ev := ⟨3, 0⟩
/-- R154 stream-halt. -/
def streamHalt : Ev := ⟨3, 1⟩
/-- R170 re-arm-forced-drain. -/
def rearmForced : Ev := ⟨3, 2⟩
/-- R134 remote-write-refused. -/
def remoteRefused : Ev := ⟨3, 3⟩
/-- R163 slot-underrun. -/
def slotUnderrun : Ev := ⟨3, 4⟩
/-- R162 schedule-breach. -/
def scheduleBreach : Ev := ⟨3, 5⟩
/-- R170 flue-misuse. -/
def flueMisuse : Ev := ⟨3, 6⟩
/-- R231 transposed-path-refused. -/
def transposedRefused : Ev := ⟨4, 0⟩
/-- R192 corrected-threshold. -/
def correctedThreshold : Ev := ⟨8, 0⟩
/-- R193 uncorrectable. -/
def uncorrectable : Ev := ⟨8, 1⟩
/-- R186 retrain. -/
def retrain : Ev := ⟨8, 2⟩
/-- R187 channel-failed. -/
def channelFailed : Ev := ⟨8, 3⟩
/-- R183 late-write-absorbed. -/
def lateWrite : Ev := ⟨8, 4⟩
/-- R183 ash-list-overflow. -/
def ashListOverflow : Ev := ⟨8, 5⟩
/-- R217 hob-misuse. -/
def hobMisuse : Ev := ⟨8, 6⟩
/-- R302 narrowed. -/
def narrowed : Ev := ⟨0xC, 0⟩
/-- R303 port-down. -/
def portDown : Ev := ⟨0xC, 1⟩
/-- R299 port-rejected. -/
def portRejected : Ev := ⟨0xC, 2⟩
/-- R291 credit-stall. -/
def creditStall : Ev := ⟨0xC, 3⟩
/-- R325 step-complete. -/
def stepComplete : Ev := ⟨0x10, 0⟩
/-- R167 step-aborted. -/
def stepAborted : Ev := ⟨0x10, 1⟩
/-- R328 placement-failed. -/
def placementFailed : Ev := ⟨0x10, 2⟩
/-- R320 translation-error. -/
def translationError : Ev := ⟨0x10, 3⟩
/-- R262 root-failure. -/
def rootFailure : Ev := ⟨0x14, 0⟩
/-- R263 fallback-entered. -/
def fallbackEntered : Ev := ⟨0x14, 1⟩
/-- R256 step-skew. -/
def stepSkew : Ev := ⟨0x14, 2⟩
/-- R257 elements-skipped. -/
def elementsSkipped : Ev := ⟨0x14, 3⟩
/-- R257 group-inconsistent. -/
def groupInconsistent : Ev := ⟨0x14, 4⟩
/-- R267 program-fault. -/
def programFault : Ev := ⟨0x14, 5⟩
/-- R247 group-overlap. -/
def groupOverlap : Ev := ⟨0x14, 6⟩
/-- R240 slow-tier-uncorrectable. -/
def slowUncorrectable : Ev := ⟨0x14, 7⟩
/-- R271 stoker-failed. -/
def stokerFailed : Ev := ⟨0x14, 8⟩
/-- R288 unroutable. -/
def unroutable : Ev := ⟨0x18, 0⟩
/-- R309 host-access-error. -/
def hostAccessError : Ev := ⟨0x18, 1⟩
/-- R385 damper-asserted. -/
def damperAsserted : Ev := ⟨0x20, 0⟩
/-- R383 cap-unattainable. -/
def capUnattainable : Ev := ⟨0x20, 1⟩
/-- R390 thermal-throttle. -/
def thermalThrottle : Ev := ⟨0x20, 2⟩
/-- R390 thermal-critical. -/
def thermalCritical : Ev := ⟨0x20, 3⟩
/-- R390 thermal-trip. -/
def thermalTrip : Ev := ⟨0x20, 4⟩
/-- R372 pilot-restart. -/
def pilotRestart : Ev := ⟨0x20, 5⟩
/-- R400 ready. -/
def ready : Ev := ⟨0x21, 0⟩
/-- R401 region-full-service. -/
def regionFullService : Ev := ⟨0x21, 1⟩
/-- R404 defect-added. -/
def defectAdded : Ev := ⟨0x21, 2⟩
/-- R404 defect-list-full. -/
def defectListFull : Ev := ⟨0x21, 3⟩
/-- R410 firmware-hash-failure. -/
def fwHashFailure : Ev := ⟨0x21, 4⟩
/-- R410 firmware-failed. -/
def fwFailed : Ev := ⟨0x21, 5⟩
/-- R415 reset-complete. -/
def resetComplete : Ev := ⟨0x21, 6⟩
/-- R424 firmware-update-done. -/
def fwUpdateDone : Ev := ⟨0x22, 0⟩
/-- R424 firmware-rejected. -/
def fwRejected : Ev := ⟨0x22, 1⟩
/-- R429 bundle-loaded. -/
def bundleLoaded : Ev := ⟨0x22, 2⟩
/-- R430 bundle-failed. -/
def bundleFailed : Ev := ⟨0x22, 3⟩
/-- R450 reversed-input. -/
def reversedInput : Ev := ⟨0x23, 0⟩
/-- R448 sideband-pin-fault. -/
def sidebandFault : Ev := ⟨0x23, 1⟩
/-- R442 strap-fault. -/
def strapFault : Ev := ⟨0x23, 2⟩
/-- R446 fibres-swapped. -/
def fibresSwapped : Ev := ⟨0x23, 3⟩
/-- R447 fibre-open. -/
def fibreOpen : Ev := ⟨0x23, 4⟩
/-- R451 holdup-degraded. -/
def holdupDegraded : Ev := ⟨0x23, 5⟩
/-- R457 store-deferred. -/
def storeDeferred : Ev := ⟨0x23, 6⟩
/-- R455 mirror-repaired. -/
def mirrorRepaired : Ev := ⟨0x23, 7⟩
/-- R454 store-mirror-failed. -/
def storeMirrorFailed : Ev := ⟨0x23, 8⟩
/-- R440 input-low. -/
def inputLow : Ev := ⟨0x23, 9⟩
/-- R169 draught. -/
def draught : Ev := ⟨0x30, 0⟩
/-- R3 invalid-strap. -/
def invalidStrap : Ev := ⟨0x30, 1⟩
/-- R351 persist-defaults. -/
def persistDefaults : Ev := ⟨0x30, 2⟩
/-- R361 dictionary-error. -/
def dictionaryError : Ev := ⟨0x30, 3⟩
/-- R369 event-overwrite. -/
def eventOverwrite : Ev := ⟨0x30, 4⟩
/-- R370 remote event. -/
def remote : Ev := ⟨0x3F, 0⟩

end Event

/-- The 256-bit record of R366. -/
def EventRec.toNat (r : EventRec) : Nat :=
  r.detail % 2 ^ 64 + (r.tick % 2 ^ 64) * 2 ^ 64 + (r.detailHi % 2 ^ 32) * 2 ^ 128 + (r.seq % 2 ^ 32) * 2 ^ 160 +
  (match r.ctx with | none => 0 | some c => 2 ^ 215 + (c % 16) * 2 ^ 216) + (r.source % 2 ^ 20) * 2 ^ 220 +
  (r.code % 2 ^ 16) * 2 ^ 240

end Sys2Proof.Machine
end

