-- ==== Sys2Proof/Machine/Ops.lean ====
section
/-! DEFINITION. The named operations over the state that every family uses: object values, units, frames to a port, events,
scratchpad lines. -/

namespace Sys2Proof.Machine

/-- The next state of a command that acts on the device alone. -/
def State.onDev (s : State) (f : Dev → Dev) : Host.Outcome State Fault Refusal := .next { s with dev := f s.dev }

/-! ### Values of objects -/

/-- Key of element `e` of instance `i` in `Dev.od`: index × 256 + subindex (R354). -/
def ObjDef.key (o : ObjDef) (i e : Nat) : Nat := (o.base + o.kind.stride * i) * 256 + o.lo + e

/-- Reset value of element `e` of instance `i`. -/
def ObjDef.resetVal (o : ObjDef) (i _e : Nat) : Nat :=
  match o.reset with
  | .fixed v => v
  | .instPlus1 => i + 1
  | .instDiv8 => i / 8
  | .instMod8 => i % 8
  | .instMod64 => i % 64
  | .fwArea => i * 0x2000000000 + 0x1FFFFA0000
  | .portRole => if i % 4 = 3 then 1 else 0

/-- Bytes of a string given as characters. -/
def asciiBytes (s : List Char) : List Byte := s.map fun c => BitVec.ofNat 8 c.toNat

/-- Reset contents of byte `k` of a STRING or DOMAIN. -/
def ObjDef.resetByte (o : ObjDef) (k : Nat) : Byte :=
  if o = Obj.VENDOR_NAME then (asciiBytes "Kazxel Microsystems".toList).getD k 0
  else if o = Obj.ORDERING_NUMBER then (asciiBytes "TZN3-M1".toList).getD k 0
  else BitVec.ofNat 8 o.fill

/-- The stored value of an object's element. `Dev.od` holds value + 1 where the value is not the reset value. -/
def Dev.get (d : Dev) (o : ObjDef) (i : Nat := 0) (e : Nat := 0) : Nat :=
  match tget 0 d.od (o.key i e) with
  | 0 => o.resetVal i e
  | v + 1 => v

/-- Bits a value of the object's type has (R341). -/
def ObjDef.bitsOf (o : ObjDef) : Nat := if o.typ = .bool then 1 else 8 * o.typ.bytes

/-- Store a value, cut to the object's size. -/
def Dev.put (d : Dev) (o : ObjDef) (v : Nat) (i : Nat := 0) (e : Nat := 0) : Dev :=
  let w := v % 2 ^ o.bitsOf
  { d with od := tset 0 d.od (o.key i e) (if w = o.resetVal i e then 0 else w + 1) }

/-- Add to a counter object. -/
def Dev.bump (d : Dev) (o : ObjDef) (i : Nat := 0) (n : Nat := 1) (e : Nat := 0) : Dev :=
  if n = 0 then d else d.put o (d.get o i e + n) i e

/-- Set or clear one bit of an object. -/
def Dev.putBit (d : Dev) (o : ObjDef) (b : Nat) (v : Bool) (i : Nat := 0) : Dev := d.put o (setBit (d.get o i) b v) i

/-- Zero a list of objects of one instance (the clearing objects). -/
def Dev.zero (d : Dev) (os : List ObjDef) (i : Nat := 0) : Dev :=
  os.foldl (fun d o => (List.range o.n).foldl (fun d e => d.put o 0 i e) d) d

/-- Address in `Dev.dom` of byte `k` of a STRING or DOMAIN. -/
def ObjDef.domKey (o : ObjDef) (i e k : Nat) : Nat := o.key i e * 2 ^ 18 + k

/-- Byte `k` of a STRING or DOMAIN; `Dev.dom` holds the difference from the reset contents. -/
def Dev.domByte (d : Dev) (o : ObjDef) (k : Nat) (i : Nat := 0) (e : Nat := 0) : Byte :=
  tget 0 d.dom (o.domKey i e k) ^^^ o.resetByte k

/-- `n` bytes of a STRING or DOMAIN from byte `k`. -/
def Dev.domRead (d : Dev) (o : ObjDef) (k n : Nat) (i : Nat := 0) (e : Nat := 0) : List Byte :=
  (List.range n).map fun j => d.domByte o (k + j) i e

/-- Write bytes of a STRING or DOMAIN from byte `k`. -/
def Dev.domWrite (d : Dev) (o : ObjDef) (k : Nat) (bs : List Byte) (i : Nat := 0) (e : Nat := 0) : Dev :=
  { d with dom := (bs.zipIdx).foldl (fun m bj => tset 0 m (o.domKey i e (k + bj.2)) (bj.1 ^^^ o.resetByte (k + bj.2))) d.dom }

/-- Set what the last access answered. -/
def Dev.answer (d : Dev) (status : Nat) (value : Nat := 0) (bytes : List Byte := []) : Dev := { d with reply := ⟨status, value, bytes⟩ }

/-- A path's queue of 64 requests is full (R365). -/
def Dev.pathFull (d : Dev) (n : Nat) : Bool := decide (64 ≤ (tget [] d.paths n).length)

/-- An access to an object, by the memory-mapped path: SERVER_BUSY until the Pilot firmware runs (R395) and while the path's queue is full
(R365), otherwise `f`. -/
def Dev.gated (d : Dev) (f : Dev → Dev) : Dev := if d.get Obj.BOOT_STATE < 2 ∨ d.pathFull 2 then d.answer 7 else f d

/-- An access that the management core serves: also SERVER_BUSY while it restarts (R372). -/
def Dev.gatedPilot (d : Dev) (f : Dev → Dev) : Dev := d.gated fun d => if d.pilot.restarting then d.answer 7 else f d

/-! ### Units -/

/-- Hearth `h`. -/
def Dev.hearth (d : Dev) (h : Nat) : Hearth := tget Hearth.fresh d.hearths h
/-- Replace hearth `h`. -/
def Dev.setHearth (d : Dev) (h : Nat) (x : Hearth) : Dev := { d with hearths := tset Hearth.fresh d.hearths h x }
/-- Change hearth `h`. -/
def Dev.modHearth (d : Dev) (h : Nat) (f : Hearth → Hearth) : Dev := d.setHearth h (f (d.hearth h))
/-- Cluster `c`. -/
def Dev.cluster (d : Dev) (c : Nat) : Cluster := tget Cluster.fresh d.clusters c
/-- Replace cluster `c`. -/
def Dev.setCluster (d : Dev) (c : Nat) (x : Cluster) : Dev := { d with clusters := tset Cluster.fresh d.clusters c x }
/-- Flue `f`. -/
def Dev.flue (d : Dev) (f : Nat) : Flue := tget Flue.fresh d.flues f
/-- Replace flue `f`. -/
def Dev.setFlue (d : Dev) (f : Nat) (x : Flue) : Dev := { d with flues := tset Flue.fresh d.flues f x }
/-- Stack `s`. -/
def Dev.stack (d : Dev) (s : Nat) : Stack := tget Stack.fresh d.stks s
/-- Replace stack `s`. -/
def Dev.setStack (d : Dev) (s : Nat) (x : Stack) : Dev := { d with stks := tset Stack.fresh d.stks s x }
/-- Change stack `s`. -/
def Dev.modStack (d : Dev) (s : Nat) (f : Stack → Stack) : Dev := d.setStack s (f (d.stack s))
/-- Stoker `t`. -/
def Dev.stoker (d : Dev) (t : Nat) : Stoker := tget Stoker.fresh d.stokers t
/-- Replace Stoker `t`. -/
def Dev.setStoker (d : Dev) (t : Nat) (x : Stoker) : Dev := { d with stokers := tset Stoker.fresh d.stokers t x }
/-- Change Stoker `t`. -/
def Dev.modStoker (d : Dev) (t : Nat) (f : Stoker → Stoker) : Dev := d.setStoker t (f (d.stoker t))
/-- Port `p`. -/
def Dev.port (d : Dev) (p : Nat) : Port := tget Port.fresh d.ports p
/-- Replace port `p`. -/
def Dev.setPort (d : Dev) (p : Nat) (x : Port) : Dev := { d with ports := tset Port.fresh d.ports p x }
/-- Change port `p`. -/
def Dev.modPort (d : Dev) (p : Nat) (f : Port → Port) : Dev := d.setPort p (f (d.port p))
/-- Context slot `c`. -/
def Dev.ctx (d : Dev) (c : Nat) : Ctx := tget Ctx.fresh d.ctxs c
/-- Replace context slot `c`. -/
def Dev.setCtx (d : Dev) (c : Nat) (x : Ctx) : Dev := { d with ctxs := tset Ctx.fresh d.ctxs c x }
/-- Change the frames and awaited answers. -/
def Dev.modNet (d : Dev) (f : Net → Net) : Dev := { d with net := f d.net }

/-- A value nothing fixes: free value number `tag` (log entry 5), fresh each time. -/
def Dev.draw (d : Dev) (tag : Nat) : Nat × Dev := (Config.free tag d.free, { d with free := d.free + 1 })

/-- Logical hearths of a cluster, a region, a die (R13). -/
def hearthsOfCluster (c : Nat) : List Nat := (List.range 8).map (8 * c + ·)
/-- Logical hearths of a region. -/
def hearthsOfRegion (g : Nat) : List Nat := (List.range 64).map (64 * g + ·)
/-- Clusters of a region. -/
def clustersOfRegion (g : Nat) : List Nat := (List.range 8).map (8 * g + ·)

/-- HEARTH_STATE codes (R355). -/
def hAbsent : Nat := 0
/-- HEARTH_STATE TESTING. -/
def hTesting : Nat := 1
/-- HEARTH_STATE IDLE. -/
def hIdle : Nat := 2
/-- HEARTH_STATE FIRING. -/
def hFiring : Nat := 3
/-- HEARTH_STATE RESETTING. -/
def hResetting : Nat := 4

/-- State of a logical hearth (R355). -/
def Dev.hState (d : Dev) (h : Nat) : Nat := d.get Obj.HEARTH_STATE h

/-- A logical hearth that its region's tests left absent (R17). -/
def Dev.hearthAbsent (d : Dev) (h : Nat) : Bool := d.hState h = hAbsent && decide (2 ≤ d.get Obj.REGION_STATE (h / 64))

/-- An access other than a read of an RO or CONST object starts the clock of its sleeping region (R365). -/
def Dev.wakeRegion (d : Dev) (g : Nat) : Dev :=
  let s := d.get Obj.REGION_STATE g
  if d.get Obj.CLOCK_STATE g = 0 ∧ (s = 3 ∨ s = 4) ∧ !d.power.tripped then d.put Obj.CLOCK_STATE 1 g else d

/-- The region clock runs: a request that finds it stopped, starting or moving waits at the region boundary (R25, R374). -/
def Dev.clockOn (d : Dev) (g : Nat) : Bool := d.get Obj.CLOCK_STATE g = 2

/-- A reset of a part that holds hearth `h` has drained (R413). -/
def Dev.hearthDrained (d : Dev) (h : Nat) : Bool :=
  d.resets.any fun r => r.drained && match r.part with
    | .hearth x => decide (x.val = h)
    | .cluster c => decide (c.val = h / 8)
    | .partition n => decide (d.get Obj.REGION_PARTITION (h / 64 / 4) (h / 64 % 4) = n.val)

/-- A region in banked or full service. -/
def Dev.inService (d : Dev) (g : Nat) : Bool := d.get Obj.REGION_STATE g = 3 || d.get Obj.REGION_STATE g = 4

/-- An access to an object of a region in service waits for its clock (R365); before its service an access does not start the clock. -/
def Dev.regionWaits (d : Dev) (g : Nat) : Bool := d.inService g && !d.power.tripped && !d.clockOn g

/-! ### The paths of the dictionary (R359, R365) -/

/-- Number of a path's queue. -/
def pathNo : Path → Nat
  | .fabric .. => 0
  | .i3c => 1
  | .host => 2

/-- Requester index of a path (R336, R359). -/
def pathWho : Path → Nat
  | .fabric p _ => 1024 + p.val
  | .i3c => 1045
  | .host => 1044

/-- The path a request came by. -/
def PathReq.path : PathReq → Path
  | .cmd p .. => p
  | .bar .. => .host
  | .object p .. => p

/-- The objects a request is for, each as index times 256 plus subindex. -/
def PathReq.objects : PathReq → List Nat
  | .cmd _ hdr _ => [bits hdr 239 212]
  | .bar off len _ next _ => (List.range ((off % 8 + len + 7) / 8 - next)).map (off / 8 + next + ·)
  | .object _ index sub _ => [index * 256 + sub]

/-- A request of the same requester for an object of `r` waits already, which `r` must not pass (R359). -/
def Dev.pathHeld (d : Dev) (r : PathReq) : Bool :=
  (tget [] d.paths (pathNo r.path)).any fun q => decide (pathWho q.path = pathWho r.path) && q.objects.any r.objects.contains

/-- An accepted request joins its path's queue, and the clocks it needs start (R365). -/
def Dev.queuePath (d : Dev) (gs : List Nat) (r : PathReq) : Dev :=
  let d := gs.foldl Dev.wakeRegion d
  { d with paths := tset [] d.paths (pathNo r.path) (tget [] d.paths (pathNo r.path) ++ [r]) }

/-- An accepted request that needs the clocks of `gs` has to wait: for one of them, or behind an earlier request of its requester for the
same object (R359, R365). -/
def Dev.mustWait (d : Dev) (gs : List Nat) (r : PathReq) : Bool := gs.any d.regionWaits || d.pathHeld r

/-- A write of `v` to element `e` of an object of instance `i` in region `g`, given by a command of its own: until the clock runs it waits
in the memory-mapped path's queue (R365, DESIGN CHOICE, log entry 51). -/
def Dev.inRegion (d : Dev) (g : Nat) (o : ObjDef) (i e v : Nat) (f : Dev → Dev) : Dev :=
  let r : PathReq := .object .host (o.key i e / 256) (o.key i e % 256) v
  if d.mustWait [g] r then d.queuePath [g] r else f d

/-- A write of `v` to element `e` of an object of hearth `h`: refused while the hearth is absent (R354). -/
def Dev.gatedHearth (d : Dev) (h : Nat) (o : ObjDef) (e v : Nat) (f : Dev → Dev) : Dev :=
  d.gated fun d => if d.hearthAbsent h then d.answer 3 else d.inRegion (h / 64) o h e v f

/-- A write to an object of Stoker `t`, refused while the Stoker is OFF or FAILED (R354). -/
def Dev.gatedStoker (d : Dev) (t : Nat) (f : Dev → Dev) : Dev :=
  d.gated fun d => let s := d.get Obj.STOKER_STATE t; if s = 0 ∨ s = 4 then d.answer 3 else f d

/-- Base index of the instance block an event names (R366). -/
def blockOf (k : Kind) (i : Nat) : Nat := k.base + k.stride * i

/-- The rotating order of R335: the requesting index that wins with the pointer at `p` among `n`. -/
def rotPick (n p : Nat) (req : List Nat) : Option Nat :=
  ((List.range n).map fun i => (p + i) % n).find? fun i => req.contains i

/-- Resources that keep a rotating pointer in `Dev.arb`: a flue. -/
def arbFlue (f : Nat) : Nat := f
/-- A stack's pointer. -/
def arbStack (st : Nat) : Nat := 65536 + st
/-- A slow tier's pointer. -/
def arbStoker (t : Nat) : Nat := 65568 + t
/-- The pointer of the dictionary server's paths (R359). -/
def arbPaths : Nat := 65570

/-- One cycle of a resource shared by `n` requesters that grants one of `me` and its rivals: the pointer moves past the winner; whether
`me` won (R335). -/
def Dev.grantTo (d : Dev) (res n me : Nat) (rivals : List Nat) : Dev × Bool :=
  match rotPick n (tget 0 d.arb res) (me :: rivals) with
  | some w => ({ d with arb := tset 0 d.arb res ((w + 1) % n) }, w = me)
  | none => (d, false)

/-- Requesters of R336. -/
def requesters : Nat := 1046
/-- Index of the inbound side of port `p`. -/
def whoPort (p : Nat) : Nat := 1024 + p
/-- Index of Stoker `t`. -/
def whoStoker (t : Nat) : Nat := 1040 + t
/-- Index of the host bridge. -/
def whoBridge : Nat := 1044
/-- Index of the Pilot. -/
def whoPilot : Nat := 1045

/-- Let `f` run with the failed transfer attempts `c` that the accesses of a command meet (R174). -/
def Dev.withCrc (d : Dev) (c : List (Nat × Nat)) (f : Dev → Dev) : Dev := { f { d with crc := c } with crc := [] }

/-- A hearth's data path works in this tick (R232). -/
def Dev.work (d : Dev) (h : Nat) : Dev := if d.worked.contains h then d else { d with worked := h :: d.worked }

/-- A stack, or with 32 + p a port, has left training for the first time since the reset (R400). -/
def Dev.hasTrained (d : Dev) (u : Nat) : Dev := if d.trained.contains u then d else { d with trained := u :: d.trained }

/-! ### Frames -/

/-- A frame with the fields most frames leave at zero. -/
def Frame.plain (ftype vl : Nat) (dst src addr linesM1 tag : Nat) : Frame :=
  { ftype := Fin.ofNat 16 ftype, vl := Fin.ofNat 4 vl, keyIdx := 0, last := true, dstId := dst, srcId := src, addr := addr,
    linesM1 := Fin.ofNat 256 linesM1, xferTag := tag, srcCtx := 0, attr := 0, hops := 0, nbr := false, ext := 0, linkSeq := 0,
    payload := [], ash := [] }

/-- The device ID in force (R284). -/
def Dev.ownId (d : Dev) : Option Nat :=
  let v := d.get Obj.DEVICE_ID_ACTIVE
  if bit v 31 then some (v % 2 ^ 20) else none

/-- PORT_STATE UP or IDLE: the port has a session and carries frames (R313). -/
def Dev.portUp (d : Dev) (p : Nat) : Bool := d.get Obj.PORT_STATE p = 4 || d.get Obj.PORT_STATE p = 5

/-- Where a frame goes. -/
inductive Route where
  | self | port (p : Nat) | waits | unreachable
  deriving DecidableEq, Repr

/-- Credits of 64 bytes a port has left on a VL (R278). -/
def Dev.creditsOf (d : Dev) (p vl : Nat) : Nat := tget (if vl < 2 then 16384 else 512) (d.port p).credits vl

/-- Port of a cross-group frame (R287): the one of the mask with most free credits, ties by rotation. A port that is down
is passed over while another of the mask is up (R303). -/
def Dev.crossPort (d : Dev) (mask vl : Nat) : Option Nat :=
  let all := (List.range 16).filter fun p => bit mask p
  let up := all.filter fun p => d.portUp p
  let cand := if up.isEmpty then all else up
  let best := cand.foldl (fun m p => max m (d.creditsOf p vl)) 0
  rotPick 16 d.net.routePtr (cand.filter fun p => d.creditsOf p vl = best)

/-- The route of a frame for device `dst` on a VL (R284, R286, R287, R289). -/
def Dev.route (d : Dev) (dst vl : Nat) : Route :=
  match d.ownId with
  | none => .unreachable
  | some own =>
    if dst = own then .self
    else if dst / 512 = own / 512 then
      let m := dst % 512
      if (tget none d.net.newRoutes m).isSome then .waits
      else
        let p := (d.domByte Obj.ROUTE_IN_GROUP m).toNat
        if p < 16 then .port p else .unreachable
    else
      let g := dst / 512
      let mask := leNat (d.domRead Obj.ROUTE_CROSS_GROUP (2 * g) 2)
      match d.crossPort mask vl with
      | some p => .port p
      | none => .unreachable

/-- Queue number of frames for a member whose route change is not yet in force (R289). -/
def waitQueue : Nat := 16

/-- Put a frame at the end of a port's queue. -/
def Dev.enqueueAt (d : Dev) (p : Nat) (f : Frame) : Dev := d.modNet fun n => { n with queue := n.queue ++ [(p, f)] }

/-- Queue a frame on its route; a cross-group choice moves the rotating pointer. `none`: it has no route, its port is DISABLED (R313,
log entry 23), or it is for the device itself. -/
def Dev.trySend (d : Dev) (f : Frame) : Option Dev :=
  match d.route f.dstId f.vl.val with
  | .self | .unreachable => none
  | .waits => some (d.enqueueAt waitQueue f)
  | .port p =>
    if d.get Obj.PORT_STATE p = 0 then none
    else
    let d := d.enqueueAt p f
    some (if (d.ownId.getD 0) / 512 = f.dstId / 512 then d else d.modNet fun n => { n with routePtr := (p + 1) % 16 })

/-! ### Events -/

/-- The word of the MSI-X table that holds a vector's mask bit; a byte of the table, every vector masked at reset (PRESUMED, log entry 51:
PCIe's own layout). -/
def vectorControl (k : Nat) : Bool := k % 16 = 12

/-- A byte of the MSI-X table. -/
def HostSide.tableByte (x : HostSide) (k : Nat) : Byte := tget (if vectorControl k then 1 else 0) x.table k

/-- Write a byte of the MSI-X table. -/
def HostSide.putTable (x : HostSide) (k : Nat) (b : Byte) : HostSide :=
  { x with table := tset (if vectorControl k then 1 else 0) x.table k b }

/-- Whether a vector is masked. -/
def HostSide.masked (x : HostSide) (v : Nat) : Bool := (x.tableByte (16 * v + 12)).toNat % 2 = 1

/-- Raise a vector: a masked one becomes pending (R369). -/
def HostSide.vector (x : HostSide) (v : Nat) : HostSide :=
  if x.masked v then { x with pba := (v :: x.pba).dedup } else { x with msix := x.msix ++ [v] }

/-- The host vector of event group `g` is raised, where the map gives it one of the 64 (R307, R369). -/
def Dev.hostVector (d : Dev) (g : Nat) : Dev :=
  let vec := (d.domByte Obj.EVENT_VECTOR_MAP g).toNat
  if d.get Obj.HOST_LINK_STATE ≠ 0 ∧ g < 64 ∧ vec < 64 then { d with host := d.host.vector vec } else d

/-- The in-band interrupt of event group `g` becomes pending, unless one already is (R369). -/
def Dev.inBand (d : Dev) (g : Nat) : Dev :=
  if d.get Obj.IBI_ENABLE = 1 ∧ d.i3c.ibi ∧ !d.i3c.ibiPending then
    { d with i3c := { d.i3c with ibiPending := true, ibiByte := g } } else d

/-- The record as it enters the ring, with its sequence number. -/
def Dev.numbered (d : Dev) (r : EventRec) : EventRec := { r with seq := d.get Obj.EVENT_NEXT_SEQ }

/-- The ring with the record appended, the oldest dropped where it is full (R369). -/
def Dev.ringWith (d : Dev) (r : EventRec) : List EventRec :=
  (if 4096 ≤ d.events.ring.length then d.events.ring.tail else d.events.ring) ++ [d.numbered r]

/-- The record is in the ring and the sequence numbers say so. -/
def Dev.appendRing (d : Dev) (r : EventRec) : Dev :=
  let ring := d.ringWith r
  (({ d with events := { d.events with ring := ring } }).put Obj.EVENT_NEXT_SEQ (d.get Obj.EVENT_NEXT_SEQ + 1)).put Obj.EVENT_OLDEST_SEQ
    ((ring.headD r).seq)

/-- Append a record to the ring (R369) with its sequence number, dropping and counting the oldest when full, and deliver it to the host
vector and the in-band interrupt. -/
def Dev.pushOne (d : Dev) (r : EventRec) : Dev × EventRec :=
  let full := decide (4096 ≤ d.events.ring.length)
  let d' := d.appendRing r
  let d' := if full then d'.bump Obj.EVENTS_OVERWRITTEN else d'
  ((d'.hostVector (r.code / 256)).inBand (r.code / 256), d.numbered r)

/-- A record for an event of the device with nothing but its code. -/
def Dev.plainRec (d : Dev) (e : Ev) (source detail : Nat) : EventRec := ⟨e.code, source, none, 0, 0, d.tick, detail⟩

/-- No event-overwrite record until EVENT_OLDEST_SEQ is read (R369). -/
def Dev.disarm (d : Dev) : Dev := { d with events := { d.events with overwriteArmed := false } }

/-- Append a record and, at the first overwrite since EVENT_OLDEST_SEQ was read, the event-overwrite record (R369); the
records written are answered. -/
def Dev.push (d : Dev) (r : EventRec) : Dev × List EventRec :=
  let due := decide (4096 ≤ d.events.ring.length) && d.events.overwriteArmed
  let (d, r) := d.pushOne r
  if due then
    let (d, o) := d.disarm.pushOne (d.plainRec Event.eventOverwrite 0 0)
    (d, [r, o])
  else (d, [r])

/-- Whether an unroutable frame now is the first in 50,000 ticks (R288). -/
def Dev.unroutableDue (d : Dev) : Bool :=
  match d.net.unroutableTick with
  | none => true
  | some t => decide (t + 50000 ≤ d.tick)

/-- The command header of R356 as 32 bytes. -/
def odHeader (op status index sub reqId off len : Nat) : List Byte :=
  leBytes 32 ((len % 2 ^ 16) * 2 ^ 144 + (off % 2 ^ 32) * 2 ^ 160 + (reqId % 2 ^ 16) * 2 ^ 192 + (sub % 2 ^ 8) * 2 ^ 212 +
    (index % 2 ^ 20) * 2 ^ 220 + (status % 2 ^ 8) * 2 ^ 240 + (op % 2 ^ 8) * 2 ^ 248)

/-- The notice of an event record to the subscriber (R369). Where it has no route it is counted as unroutable, and the
unroutable event it may raise has no route either (R288). -/
def Dev.eventNotice (d : Dev) (r : EventRec) : Dev :=
  let s := d.get Obj.EVENT_SUBSCRIBER
  match d.ownId with
  | none => d
  | some own =>
    let dst := s % 2 ^ 20
    if !bit s 31 || dst = own then d
    else
      let f := { Frame.plain 9 2 dst own 0 0 0 with payload := odHeader 6 0 0 0 0 0 32 ++ leBytes 32 r.toNat, ash := [false] }
      match d.trySend f with
      | some d => d
      | none =>
        let due := d.unroutableDue
        let d := d.bump Obj.FRAMES_UNROUTABLE
        if due then
          let d := d.modNet fun n => { n with unroutableTick := some d.tick }
          if bit (d.get Obj.FABRIC_EVENT_ENABLE) 0 then
            ((d.push (d.plainRec Event.unroutable 0 dst)).1).bump Obj.FRAMES_UNROUTABLE
          else d
        else d

/-- Write a record and deliver it; during a Pilot restart up to 64 are held, and more are lost and counted (R372). -/
def Dev.record (d : Dev) (r : EventRec) : Dev :=
  if d.pilot.restarting then
    if d.pilot.held.length < 64 then { d with pilot := { d.pilot with held := d.pilot.held ++ [r] } }
    else { d with pilot := { d.pilot with lost := d.pilot.lost + 1 } }
  else
    let (d, l) := d.push r
    l.foldl Dev.eventNotice d

/-- Whether an event of unit `(k, i)` is enabled (R367). -/
def Dev.eventOn (d : Dev) (e : Ev) (k : Kind) (i : Nat) : Bool :=
  match evEnable e.group with
  | none => true
  | some o => bit (d.get o (if o.kind = k then i else 0)) e.bit

/-- Raise an event of unit `(k, i)` unless its enable bit is 0 (R367, R369). -/
def Dev.raise (d : Dev) (e : Ev) (k : Kind) (i : Nat) (ctx : Option Nat := none) (detail : Nat := 0) (hi : Nat := 0) : Dev :=
  if d.eventOn e k i then d.record ⟨e.code, blockOf k i, ctx, 0, hi, d.tick, detail⟩ else d

/-- Count a frame that has no route and raise the unroutable event at the first in 50,000 ticks (R288). -/
def Dev.countUnroutable (d : Dev) (dst : Nat) : Dev :=
  let due := d.unroutableDue
  let d := d.bump Obj.FRAMES_UNROUTABLE
  if due then (d.modNet fun n => { n with unroutableTick := some d.tick }).raise Event.unroutable .global 0 none dst else d

/-- Whether R288 discards a frame of this type without answer when it has no route: NOTICE, OD_RESP, READ_RESP, ACK. -/
def Frame.unanswered (f : Frame) : Bool := f.ftype = 6 || f.ftype = 9 || f.ftype = 5 || f.ftype = 0xB

/-- Queue an answer or a notice; with no route it is discarded and counted. -/
def Dev.sendAnswer (d : Dev) (f : Frame) : Dev :=
  match d.trySend f with
  | some d => d
  | none => if d.ownId = some f.dstId || d.ownId = none then d else d.countUnroutable f.dstId

/-- Queue a frame to the neighbour of a port (R284). -/
def Dev.sendNbr (d : Dev) (p : Nat) (f : Frame) : Dev := d.enqueueAt p { f with nbr := true }

end Sys2Proof.Machine
end

