-- ==== Sys2Proof/Machine/Scratch.lean ====
section
/-! DEFINITION. Scratchpad lines with their ash bits, regions, remote writes, arrival notices, operand counters. -/

namespace Sys2Proof.Machine

/-- Bytes of a scratchpad (R12). -/
def scrBytes : Nat := 2097152

/-- Whether the boundary of a logical hearth is open: it is IDLE or FIRING (R17, R413). -/
def Dev.hearthOpen (d : Dev) (h : Nat) : Bool := d.hState h = hIdle || d.hState h = hFiring

/-- Context slot of the step running on a hearth. -/
def Dev.hearthCtx (d : Dev) (h : Nat) : Option Nat := (d.hearth h).run.map (·.ctx)

/-- Raise an event of hearth `h` at its first occurrence in the step, or between two steps (R80). -/
def Dev.raiseOnce (d : Dev) (h key : Nat) (e : Ev) (detail : Nat := 0) : Dev :=
  if (d.hearth h).once.contains key then d
  else (d.modHearth h fun x => { x with once := key :: x.once }).raise e .hearth h (d.hearthCtx h) detail

/-- Numbers under which a hearth remembers the events raised once. -/
inductive Once where
  | ash | scaleSat | accSat | sram | skip | refused | rearm | drop | saveFault | transposed
  deriving DecidableEq, Repr

/-- Number of a once-event. -/
def Once.num : Once → Nat
  | .ash => 0 | .scaleSat => 1 | .accSat => 2 | .sram => 3 | .skip => 4 | .refused => 5 | .rearm => 6 | .drop => 7
  | .saveFault => 8 | .transposed => 9

/-- A line of the scratchpad (line numbers modulo 32,768). -/
def Hearth.line (x : Hearth) (l : Nat) : Line :=
  let l := l % 32768
  ⟨readCells 0 x.scr (64 * l) 64, tget false x.ash l⟩

/-- Write a whole line with its ash bit (R61). -/
def Hearth.setLine (x : Hearth) (l : Nat) (v : Line) : Hearth :=
  let l := l % 32768
  { x with scr := writeCells 0 x.scr (64 * l) (fit 0 64 v.bytes), ash := tset false x.ash l v.ash }

/-- Byte `a` of the scratchpad. DESIGN CHOICE (log entry 46): the bytes of a table entry, tag record or handle that would lie past the
last byte are those from the first on, since the spec says nothing of them (R83, R89). -/
def Hearth.byte (x : Hearth) (a : Nat) : Byte := tget 0 x.scr (a % scrBytes)

/-- A little-endian number of `n` bytes at `a`. -/
def Hearth.num (x : Hearth) (a n : Nat) : Nat := leNat ((List.range n).map fun i => x.byte (a + i))

/-- Whether any of the lines touched by `n` bytes from `a` has its ash bit set. -/
def Hearth.ashAt (x : Hearth) (a n : Nat) : Bool :=
  (List.range ((a + n - 1) / 64 + 1 - a / 64)).any fun i => tget false x.ash ((a / 64 + i) % 32768)

/-- Write bytes that cover part of lines: the ash mark is ORed into each line's bit (R61). -/
def Hearth.setPart (x : Hearth) (a : Nat) (bs : List Byte) (ash : Bool) : Hearth :=
  let scr := (bs.zipIdx).foldl (fun m b => tset 0 m ((a + b.2) % scrBytes) b.1) x.scr
  let ls := if bs.isEmpty then [] else (List.range ((a + bs.length - 1) / 64 + 1 - a / 64)).map fun i => (a / 64 + i) % 32768
  { x with scr := scr, ash := if ash then ls.foldl (fun m l => tset false m l true) x.ash else x.ash }

/-- Count a line a hearth's own agent wrote with the ash bit set, and raise ash-produced at the first of the step (R65). -/
def Dev.countAshLine (d : Dev) (h : Nat) (n : Nat := 1) : Dev :=
  if n = 0 then d else (d.bump Obj.ASH_LINES_WRITTEN h n).raiseOnce h Once.ash.num Event.ashProduced

/-- A whole line written by an agent of the hearth itself (R65). -/
def Dev.ownLine (d : Dev) (h l : Nat) (v : Line) : Dev :=
  let d := d.modHearth h fun x => x.setLine l v
  if v.ash then d.countAshLine h else d

/-- Write a run of bytes; `mark` says which of the lines touched, counted from the first, receives an ash element. A whole line
takes the mark, a part ORs it in (R61). Answers how many of the lines are left with the ash bit set. DESIGN CHOICE (log entry 47): a
write without an ash element into part of a line that is ash already is counted as a line written with the ash bit set (R65). -/
def Hearth.writeRun (x : Hearth) (off : Nat) (bs : List Byte) (mark : Nat → Bool) : Hearth × Nat :=
  if bs.isEmpty then (x, 0)
  else
    let scr := (bs.zipIdx).foldl (fun m b => tset 0 m ((off + b.2) % scrBytes) b.1) x.scr
    let l0 := off / 64
    let n := (off + bs.length - 1) / 64 + 1 - l0
    let new := (List.range n).map fun j =>
      let whole := decide (off ≤ 64 * (l0 + j)) && decide (64 * (l0 + j) + 64 ≤ off + bs.length)
      ((l0 + j) % 32768, mark j || (!whole && tget false x.ash ((l0 + j) % 32768)))
    ({ x with scr := scr, ash := new.foldl (fun m e => tset false m e.1 e.2) x.ash }, (new.filter (·.2)).length)

/-- A run written by the hearth's own agents (R65). -/
def Dev.ownRun (d : Dev) (h off : Nat) (bs : List Byte) (mark : Nat → Bool) : Dev :=
  let (x, n) := (d.hearth h).writeRun off bs mark
  (d.setHearth h x).countAshLine h n

/-- Accesses, by `access` of a word's number, in whose words the code finds `o`. -/
def accessesWith (access : Nat → Nat) (o : SramOutcome) (errs : List (Nat × SramOutcome)) : Nat :=
  (((errs.filter (·.2 = o)).map fun e => access e.1).dedup).length

/-- Count errors that a code finds in words by number, one for each access that finds such an error; `access` says which words one
access reads (R80). -/
def Dev.countSram (d : Dev) (h : Nat) (access : Nat → Nat) (errs : List (Nat × SramOutcome)) : Dev :=
  let u := accessesWith access .uncorrectable errs
  let d := (d.bump Obj.SRAM_CORRECTED h (accessesWith access .corrected errs)).bump Obj.SRAM_UNCORRECTED h u
  if u = 0 then d else d.raiseOnce h Once.sram.num Event.sramUncorrectable

/-- A read meets what the code finds in 8-byte words of the scratchpad, by number: an uncorrectable word is rewritten with its bits as
read, free values (22), and its line's ash bit is set (R62, R80). One access reads within one line (R36). -/
def Dev.meetSram (d : Dev) (h : Nat) (errs : List (Nat × SramOutcome)) : Dev :=
  let d := d.countSram h (· / 8) errs
  (errs.filter (·.2 = .uncorrectable)).foldl (fun d e =>
    let bs := (List.range 8).map fun i => BitVec.ofNat 8 (Config.free 22 (d.free + i))
    { d.modHearth h fun x => x.setPart (8 * e.1 % scrBytes) bs true with free := d.free + 8 }) d

/-- A fetch of `n` bytes from byte `a` meets what the code finds in the scratchpad words it reads. -/
def Dev.fetchSram (d : Dev) (h a n : Nat) (errs : List (Nat × SramOutcome)) : Dev :=
  d.meetSram h (errs.filter fun w => (List.range ((a + n - 1) / 8 + 1 - a / 8)).any fun i => w.1 = (a / 8 + i) % (scrBytes / 8))

/-! ### Words of the scale-slot table (R31, R68, R80) -/

/-- Operands that list words in error number the words of the scale-slot table behind those of the scratchpad: 128 state words, then
eight words of history for each slot. -/
def slotWord0 : Nat := scrBytes / 8

/-- The slot that word `k` of the scale-slot table belongs to. -/
def slotOfWord (k : Nat) : Nat := if k < 128 then k else (k - 128) / 8

/-- The words of slot `n`: its state word and its history. -/
def wordsOfSlot (n : Nat) : List Nat := n :: (List.range 8).map (128 + 8 * n + ·)

/-- Slot `n` of a hearth. -/
def Hearth.slot (x : Hearth) (n : Nat) : ScaleSlot := tget ScaleSlot.fresh x.slots n

/-- Change a scale slot: its state word is written, and with `hist` its history too, with fresh check codes. -/
def Hearth.writeSlot (x : Hearth) (n : Nat) (hist : Bool) (f : ScaleSlot → ScaleSlot) : Hearth :=
  { x with slots := tmod ScaleSlot.fresh x.slots n f,
           slotBad := x.slotBad.filter fun k => !(decide (k = n) || (hist && decide (slotOfWord k = n))) }

/-- A slot's state word (R68). -/
def ScaleSlot.word (s : ScaleSlot) : Nat :=
  s.stepMax % 2 ^ 32 * 2 ^ 32 + ofSigned 8 s.curExp * 2 ^ 24 + ofSigned 8 s.initExp * 2 ^ 16 + s.hist.length % 32 * 2 ^ 11 +
    s.margin % 4 * 2 ^ 9 + (if s.curValid then 2 ^ 8 else 0) + (if s.used then 2 ^ 7 else 0) + (if s.replayed then 2 ^ 6 else 0) +
    (if s.ashSeen then 2 ^ 5 else 0)

/-- The slot a state word and its history entries stand for; a HIST_COUNT above 16 is taken as 16 (R78). -/
def ScaleSlot.ofWord (w : Nat) (hist : List Nat) : ScaleSlot :=
  ⟨bits w 63 32, toSigned 8 (bits w 31 24), toSigned 8 (bits w 23 16), bits w 10 9, bit w 8, bit w 7, bit w 6, bit w 5,
   (fit 0 (min 16 (bits w 15 11)) hist)⟩

/-- Word `k` of the table holds `v`, the bits that stand in an uncorrectable word. -/
def Hearth.spoilSlot (x : Hearth) (k v : Nat) : Hearth :=
  let n := slotOfWord k
  let s := x.slot n
  let j := 2 * ((k - 128) % 8)
  let s' := if k < 128 then ScaleSlot.ofWord v s.hist
    else { s with hist := (s.hist.set j (v % 2 ^ 32)).set (j + 1) (v / 2 ^ 32 % 2 ^ 32) }
  { x with slots := tset ScaleSlot.fresh x.slots n s', slotBad := (k :: x.slotBad).dedup }

/-- A read of words `ks` of the scale-slot table meets what the code finds: a word found uncorrectable holds free bits (27) and is not
rewritten, so that each read that finds it counts again until it is written (R80). -/
def Dev.meetSlots (d : Dev) (h : Nat) (ks : List Nat) (errs : List (Nat × SramOutcome)) : Dev :=
  let new := (errs.filter fun e => decide (slotWord0 ≤ e.1) && ks.contains (e.1 - slotWord0)).map fun e => (e.1 - slotWord0, e.2)
  let old := (d.hearth h).slotBad.filter ks.contains
  let d := d.countSram h id ((new.filter fun e => !old.contains e.1) ++ old.map fun k => (k, .uncorrectable))
  (new.filter fun e => e.2 = .uncorrectable && !old.contains e.1).foldl (fun d e =>
    { d.modHearth h fun x => x.spoilSlot e.1 (Config.free 27 d.free % 2 ^ 64) with free := d.free + 1 }) d

/-! ### Regions (R129) -/

/-- First line of a region word. -/
def regBase (w : Nat) : Nat := bits w 63 49
/-- One past the last line of a region word. -/
def regEnd (w : Nat) : Nat := regBase w + bits w 48 34 + 1
/-- KIND of a region word. -/
def regKind (w : Nat) : Nat := bits w 33 31
/-- The region holding a line: its descriptor. -/
def Dev.regionAt (d : Dev) (h line : Nat) : Option Nat :=
  ((List.range 16).map fun n => d.get Obj.REGION h n).find? fun w =>
    decide (regKind w ≠ 0) && decide (regBase w ≤ line) && decide (line < regEnd w)

/-- Whether a remote write of lines `l1`..`l2` is admitted: all in one region whose REMOTE_WR is 1 (R134). -/
def Dev.remoteOk (d : Dev) (h l1 l2 : Nat) : Bool :=
  match d.regionAt h l1 with
  | some w => decide (l2 < regEnd w) && bit w 24
  | none => false

/-- Count a refused remote write and report the first of the step or gap (R134). -/
def Dev.remoteRefuse (d : Dev) (h : Nat) : Dev :=
  (d.bump Obj.REMOTE_WRITES_REFUSED h).raiseOnce h Once.refused.num Event.remoteRefused

/-- What an access to a scratchpad answers. -/
inductive Answer where
  | done | refused | absent | invalid
  deriving DecidableEq, Repr

/-- ATTR status of an answer (R275). -/
def Answer.code : Answer → Nat
  | .done => 0 | .refused => 1 | .absent => 2 | .invalid => 3

/-- A remote write of bytes into a scratchpad: accepted, refused whole, or answered absent (R134, R17). -/
def Dev.remoteWrite (d : Dev) (h off : Nat) (bs : List Byte) (ash : Bool) : Dev × Answer :=
  if !d.hearthOpen h then (d, .absent)
  else if bs.isEmpty then (d, .done)
  else if d.remoteOk h (off / 64) ((off + bs.length - 1) / 64) then
    if off % 64 = 0 ∧ bs.length = 64 then (d.modHearth h fun x => x.setLine (off / 64) ⟨bs, ash⟩, .done)
    else (d.modHearth h fun x => x.setPart off bs ash, .done)
  else (d.remoteRefuse h, .refused)

/-! ### Operand counters (R98 to R102) -/

/-- Committed value of an operand counter. -/
def Hearth.counter (x : Hearth) (c : Nat) : Nat := tget 0 x.counters c

/-- Add a signed amount to a committed value: never below zero, wrapping at 2^32 (R100). -/
def Hearth.addCounter (x : Hearth) (c : Nat) (a : Int) : Hearth :=
  let v : Int := (x.counter c : Int) + a
  { x with counters := tset 0 x.counters c (if v < 0 then 0 else v.toNat % 2 ^ 32) }

/-- The provisional increments of a counter by entries other than `id`, together (R98). -/
def Hearth.provisional (x : Hearth) (c id : Nat) : List Int :=
  (x.window.filter fun e => e.id ≠ id).map fun e => tget 0 e.inc c

/-- Visible value: committed plus every provisional increment (R98). DESIGN CHOICE (log entry 46): where provisional increments of
COUNTER entries with a negative ADD take the sum below zero it is 0. -/
def Hearth.visible (x : Hearth) (c : Nat) : Nat :=
  (((x.window.foldl (fun v e => v + tget 0 e.inc c) (x.counter c : Int)) : Int)).toNat % 2 ^ 32

/-- A notice that meets a hearth in a reset is absorbed and counted; one that meets an absent hearth is absorbed (R413). -/
def Dev.absorbNotice (d : Dev) (h : Nat) : Dev :=
  if d.hState h = hResetting then d.bump Obj.RESET_ABSORBED else d

/-- A request to a hearth waits at the boundary of its region, whose clock it starts (R25, R374). -/
def Dev.toEdge (d : Dev) (h : Nat) (r : EdgeReq) : Dev :=
  let d := d.wakeRegion (h / 64)
  { d with edge := tset [] d.edge (h / 64) (tget [] d.edge (h / 64) ++ [r]) }

/-- Add a committed increment to a hearth's counter for a fill or drain notice (R163, R461). -/
def Dev.counterNow (d : Dev) (h c : Nat) : Dev :=
  if d.hearthOpen h then d.modHearth h fun x => x.addCounter c 1 else d.absorbNotice h

/-- A fill or drain notice reaches a hearth, whose region's clock must run. -/
def Dev.noticeCounter (d : Dev) (h c : Nat) : Dev :=
  if d.hearthOpen h && !d.clockOn (h / 64) then d.toEdge h (.counter h c) else d.counterNow h c

/-- Apply an arrival notice for the first far byte in `line` (R135). -/
def Dev.arrivalNow (d : Dev) (h line : Nat) : Dev :=
  if d.hearthOpen h then
    let d := d.bump Obj.ARRIVAL_NOTICES h
    match d.regionAt h line with
    | some w => if bit w 23 then d.modHearth h fun x => x.addCounter (bits w 22 17) 1 else d
    | none => d
  else d.absorbNotice h

/-- An arrival notice reaches a hearth, whose region's clock must run. -/
def Dev.arrival (d : Dev) (h line : Nat) : Dev :=
  if d.hearthOpen h && !d.clockOn (h / 64) then d.toEdge h (.notice h line) else d.arrivalNow h line

/-- Carry out a request that waited at a region boundary. -/
def Dev.edgeNow (d : Dev) : EdgeReq → Dev
  | .write h off bs ash => let (d, a) := d.remoteWrite h off bs ash; d.answer a.code
  | .notice h line => d.arrivalNow h line
  | .counter h c => d.counterNow h c

/-- Carry out what waits at a region boundary for its hearths, in arrival order (R25). -/
def Dev.serveEdge (d : Dev) (g : Nat) : Dev :=
  (tget [] d.edge g).foldl Dev.edgeNow { d with edge := tset [] d.edge g [] }

end Sys2Proof.Machine
end

