-- ==== Sys2Proof/Machine/HbmOps.lean ====
section
/-! DEFINITION. Memory stacks: address decoding (R175 to R177), reading and writing sectors (R193, R194), pseudo-channel states
(R181), retraining (R186), accounting of bytes, block-maximum windows (R212). -/

namespace Sys2Proof.Machine

/-! ### Addresses -/

/-- Key of a sector of a stack in `Dev.hbm`. -/
def hbmKey (st sec : Nat) : Nat := st * 2 ^ 30 + sec % 2 ^ 30

/-- What stack `st` stores in a sector. -/
def Dev.sector (d : Dev) (st sec : Nat) : Sector := tget Sector.ashSector d.hbm (hbmKey st sec)

/-- Replace a stored sector. -/
def Dev.setSector (d : Dev) (st sec : Nat) (s : Sector) : Dev := { d with hbm := tset Sector.ashSector d.hbm (hbmKey st sec) s }

/-- Channel of a sector: CHSEL XOR SA[26:22] (R177). -/
def chanOfSec (sec : Nat) : Nat := Nat.xor (bits (64 * sec) 12 8) (bits (64 * sec) 26 22)

/-- Pseudo-channel 0..63 of a sector. -/
def pchOfSec (sec : Nat) : Nat := 2 * chanOfSec sec + bits (64 * sec) 13 13

/-- Stack and sector of a data address (R175, R176). -/
def Dev.decodePA (d : Dev) (pa : Nat) : Nat × Nat :=
  let g := bits pa 40 37
  let j := bits pa 36 31
  if bit (d.get Obj.HBM_SEG_MODE g) j then (2 * g + bits pa 30 30, (j * 2 ^ 30 + bits pa 29 0) / 64)
  else (2 * g + Nat.xor (bits pa 8 8) (bits pa 23 23), (bits pa 36 9 * 256 + bits pa 7 0) / 64)

/-- Data address of byte 0 of a stack's sector, the inverse of `decodePA`. -/
def Dev.paOf (d : Dev) (st sec : Nat) : Nat :=
  let g := st / 2
  let sa := 64 * sec
  let j := bits sa 35 30
  if bit (d.get Obj.HBM_SEG_MODE g) j then g * 2 ^ 37 + j * 2 ^ 31 + (st % 2) * 2 ^ 30 + bits sa 29 0
  else g * 2 ^ 37 + bits sa 35 8 * 2 ^ 9 + Nat.xor (st % 2) (bits sa 22 22) * 2 ^ 8 + bits sa 7 0

/-- Physical address of a line of a checkpoint aperture (R175). -/
def aperPA (st win line : Nat) : Nat := 2 ^ 41 + st * 2 ^ 36 + win * 2 ^ 32 + 64 * line

/-! ### Accounts -/

/-- Numbers of units in the activity counts of R333. -/
def unitRegion (g : Nat) : Nat := g
/-- Unit number of a stack. -/
def unitStack (st : Nat) : Nat := 16 + st
/-- Unit number of a Stoker. -/
def unitStoker (t : Nat) : Nat := 48 + t
/-- Unit number of a port. -/
def unitPort (p : Nat) : Nat := 50 + p

/-- Key of the payload bytes through a port that belong to no slot. -/
def uncharged (p : Nat) : Nat := 3000 + p

/-- Add to a slot's activity on a unit in the running attribution interval. -/
def Dev.noteUnit (d : Dev) (unit c n : Nat) : Dev := { d with attrib := tmod 0 d.attrib (unit * 16 + c) (· + n) }

/-- Charge HBM bytes to a context slot (R332, R333). -/
def Dev.chargeHbm (d : Dev) (c : Option Nat) (st n : Nat) : Dev :=
  match c with
  | none => d
  | some c => (d.bump Obj.HBM_BYTES c n).noteUnit (unitStack st) c n

/-- Charge slow-tier bytes to a context slot (R332). -/
def Dev.chargeSlow (d : Dev) (c : Option Nat) (n : Nat) : Dev :=
  match c with
  | none => d
  | some c => d.bump Obj.CTX_SLOW_BYTES c n

/-- Bytes a Stoker moves for a slot's groups: its activity in R333. -/
def Dev.noteStoker (d : Dev) (t c n : Nat) : Dev := d.noteUnit (unitStoker t) c n

/-! ### Reading a sector (R193) -/

/-- The tweak of a sector (R196): SA[35:6] in bits 29 to 0, the stack in bits 34 to 30. -/
def xtsTweak (st sec : Nat) : Nat := st * 2 ^ 30 + sec % 2 ^ 30

/-- Bytes delivered when the decoder leaves errors in the word: a 16-byte cipher block that is undamaged decrypts to what was stored;
of a damaged one, as of the check pattern of an ash sector taken for data, nothing but the key fixes the decryption (R196). -/
def leftBytes (st sec : Nat) (s : Sector) (left : List (Nat × Nat)) : List Byte :=
  let plain := fit 0 64 s.data
  let wild := fit 0 64 (Config.garble (xtsTweak st sec) s.data left)
  (List.range 64).map fun j => if !s.ash && left.all (fun e => decide (e.1 / 16 ≠ j / 16)) then plain.getD j 0 else wild.getD j 0

/-- A line of zeros marked ash. -/
def Line.zerosAsh : Line := ⟨List.replicate 64 0, true⟩

/-- The verdict on a stored sector under the stack's ECC_MODE. -/
def Dev.verdict (d : Dev) (st sec : Nat) : Verdict :=
  let s := d.sector st sec
  classify (d.get Obj.ECC_MODE st) s.ash s.errs

/-- State of a pseudo-channel. -/
def Dev.pch (d : Dev) (st p : Nat) : Pch := tget Pch.off (d.stack st).pch p

/-- Whether a sector lies in a FAILED pseudo-channel: it reads as zeros marked ash and absorbs writes (R187). -/
def Dev.secFailed (d : Dev) (st sec : Nat) : Bool := d.pch st (pchOfSec sec) = .failed

/-- What a read of a sector delivers. -/
def Dev.peek (d : Dev) (st sec : Nat) : Line :=
  let s := d.sector st sec
  if d.secFailed st sec then Line.zerosAsh else
  match d.verdict st sec with
  | .clean l | .corrected l => ⟨leftBytes st sec s l, false⟩
  | .ash _ => Line.zerosAsh
  | .bad l => ⟨leftBytes st sec s l, true⟩

/-- Code of a read's source in UE_LOG (R217). -/
def srcCode : ReadSource → Nat
  | .demand => 0 | .scrub => 1 | .hob => 2

/-- Log and report an uncorrectable sector (R193, R217). -/
def Dev.logBad (d : Dev) (st sec : Nat) (src : ReadSource) : Dev :=
  let d := d.bump Obj.SECTORS_UNCORRECTABLE st
  let old := (List.range 7).map fun i => d.get Obj.UE_LOG st i
  let d := d.put Obj.UE_LOG (2 ^ 63 + srcCode src * 2 ^ 61 + 64 * sec) st 0
  let d := (old.zipIdx).foldl (fun d vi => d.put Obj.UE_LOG vi.1 st (vi.2 + 1)) d
  d.raise Event.uncorrectable .stack st none (64 * sec)

/-- Count a corrected sector and report every CE_EVENT_THRESHOLD of them (R193). -/
def Dev.countCorrected (d : Dev) (st : Nat) : Dev :=
  let d := d.bump Obj.SECTORS_CORRECTED st
  let n := (d.stack st).correctedSince + 1
  let t := d.get Obj.CE_EVENT_THRESHOLD st
  if 0 < t ∧ t ≤ n then (d.modStack st fun x => { x with correctedSince := 0 }).raise Event.correctedThreshold .stack st
  else d.modStack st fun x => { x with correctedSince := n }

/-- Read a sector with all that R193 counts, reports and writes back. -/
def Dev.readSec (d : Dev) (st sec : Nat) (src : ReadSource) : Dev × Line :=
  let l := d.peek st sec
  let s := d.sector st sec
  if d.secFailed st sec then (d, l) else
  match d.verdict st sec with
  | .clean _ => (d, l)
  | .ash fixed =>
    let d := d.bump Obj.ASH_SECTORS_READ st
    (if fixed then (d.countCorrected st).setSector st sec Sector.ashSector else d, l)
  | .corrected left => ((d.countCorrected st).setSector st sec { s with errs := left }, l)
  | .bad _ => (d.logBad st sec src, l)

/-- Read several sectors for their counts and reports alone. -/
def Dev.touch (d : Dev) (st : Nat) (secs : List Nat) (src : ReadSource) : Dev :=
  secs.foldl (fun d s => (d.readSec st s src).1) d

/-! ### Writing a sector (R194) -/

/-- Whether a slot's ranges hold a sector. -/
def rangesHold (r : List (Nat × Nat)) (sec : Nat) : Bool := r.any fun p => decide (p.1 ≤ sec) && decide (sec < p.1 + p.2)

/-- Store a sector, an ash sector when the data carries a mark, and drop the row and vector slots it lies in (R194, R209); a FAILED
channel absorbs it (R187). -/
def Dev.storeSec (d : Dev) (st sec : Nat) (v : Line) : Dev :=
  if d.secFailed st sec then d.bump Obj.LATE_WRITES_ABSORBED st else
  let d := d.setSector st sec (if v.ash then Sector.ashSector else ⟨fit 0 64 v.bytes, false, []⟩)
  let x := d.stack st
  let rs := x.rowSlots.filter fun r => !rangesHold r.ranges sec
  let vs := x.vecSlots.filter fun r => !rangesHold r.ranges sec
  if rs = x.rowSlots ∧ vs = x.vecSlots then d else d.setStack st { x with rowSlots := rs, vecSlots := vs }

/-- Every sector `p` accepts becomes an ash sector (R184, R185). -/
def Dev.ashWhere (d : Dev) (st : Nat) (p : Nat → Bool) : Dev :=
  { d with hbm := tdrop (fun k => decide (k / 2 ^ 30 = st) && p (k % 2 ^ 30)) d.hbm }

/-- Word A of a block-maximum window with its fields (R212): element size, M, K, pitch and source address. -/
structure BmaxCfg where
  fmt : Nat
  m : Nat
  k : Nat
  pitch : Nat
  src : Nat
  out : Nat
  deriving DecidableEq, Repr

/-- Fields of window `w`. -/
def Dev.bmaxCfg (d : Dev) (st w : Nat) : BmaxCfg :=
  let a := d.get Obj.BMAX_WIN st (2 * w)
  let b := d.get Obj.BMAX_WIN st (2 * w + 1)
  ⟨bits a 62 61, 32 * (bits a 60 49 + 1), 32 * (bits a 48 37 + 1), 64 * bits a 36 13, 64 * bits b 63 28, 4096 * bits b 27 4⟩

/-- Format code of a window. -/
def bmaxFmt : Nat → Fmt
  | 0 => .fp32 | 1 => .bf16 | 2 => .e4m3 | _ => .e5m2

/-- Bytes of an element. -/
def Fmt.bytes (f : Fmt) : Nat := f.width / 8

/-- Elements of a line in a format of whole bytes. -/
def lineElems (f : Fmt) (bs : List Byte) : List Nat :=
  (List.range (64 / f.bytes)).map fun i => leNat ((bs.drop (i * f.bytes)).take f.bytes)

/-- A record raised to a magnitude; 0xFFFF_FFFF is no value. -/
def raiseRec (r m : Nat) : Nat := if r = 0xFFFFFFFF then m else max r m

/-- Record a sector written at physical address `pa` in an armed window (R212). -/
def bmaxNote (c : BmaxCfg) (b : Bmax) (pa : Nat) (v : Line) : Bmax :=
  let f := bmaxFmt c.fmt
  let off := pa - c.src
  if pa < c.src ∨ c.pitch = 0 then b
  else
    let k := off / c.pitch
    let m0 := (off % c.pitch) / f.bytes
    if c.k ≤ k ∨ c.m ≤ m0 then b
    else
      let b := { b with count := b.count + 1 }
      if v.ash then b
      else
        ((lineElems f v.bytes).zipIdx).foldl (fun b ei =>
          let m := m0 + ei.2
          if c.m ≤ m then b
          else
            let mag := fabs (f.load ei.1 0)
            { b with records := tmod 0xFFFFFFFF b.records (k / 32 * (c.m / 32) + m / 32) (raiseRec · mag), whole := raiseRec b.whole mag }) b

/-- Sectors after which a window is full. -/
def BmaxCfg.target (c : BmaxCfg) : Nat := c.m * c.k * (bmaxFmt c.fmt).bytes / 64

/-- The bytes of a window's write-out: its records and the whole tensor's (R212). -/
def bmaxBytes (c : BmaxCfg) (b : Bmax) : List Byte :=
  ((List.range (c.m / 32 * (c.k / 32))).flatMap fun i => leBytes 4 (tget 0xFFFFFFFF b.records i)) ++ leBytes 4 b.whole

/-- The sectors that `n` bytes at stack address `a` touch. -/
def touchedSectors (a n : Nat) : List Nat := if n = 0 then [] else (List.range ((a + n - 1) / 64 + 1 - a / 64)).map (a / 64 + ·)

/-- Byte `j` of a sector that an engine writes in part and does not cover: as it stands, but a free value (12) where the sector is read
as ash (log entry 12). -/
def Dev.keptByte (d : Dev) (st sec j : Nat) : Byte :=
  let old := d.peek st sec
  if old.ash then BitVec.ofNat 8 (Config.free 12 (d.free + j)) else old.bytes.getD j 0

/-- The part of a base die's own write of `bs` at stack address `a` that lies in a sector, merged with the bytes around it. -/
def Dev.mergeLine (d : Dev) (st a : Nat) (bs : List Byte) (sec : Nat) : Line :=
  ⟨(List.range 64).map fun j =>
    let x := 64 * sec + j
    if a ≤ x ∧ x < a + bs.length then bs.getD (x - a) 0 else d.keptByte st sec j, false⟩

/-- Count the free values that merging into a sector has used. -/
def Dev.mergeUsed (d : Dev) (st a n sec : Nat) : Dev :=
  if (a ≤ 64 * sec ∧ 64 * sec + 64 ≤ a + n) ∨ (d.peek st sec).ash = false then d else { d with free := d.free + 64 }

/-- The arrival notice a hob doorbell word asks for (R215). -/
def Dev.hobNotice (d : Dev) (v : Nat) : Dev := if bit v 50 then d.arrival (bits v 49 40) (bits v 39 25) else d

/-- Write a sector, or record an aperture sector (`store` false), in every armed window; a window that is full is written
out, which may itself be recorded in the windows still armed. -/
def Dev.writeFuel : Nat → Dev → Nat → Nat → Option Nat → Line → Dev
  | 0, d, st, _, sec, v => match sec with
    | some s => d.storeSec st s v
    | none => d
  | n + 1, d, st, pa, sec, v =>
    let d := match sec with
      | some s => d.storeSec st s v
      | none => d
    if sec.any (d.secFailed st) then d else
    (List.range 8).foldl (fun d w =>
      match tget none (d.stack st).bmax w with
      | none => d
      | some b =>
        let c := d.bmaxCfg st w
        let b' := bmaxNote c b pa v
        if b'.count ≠ b.count ∧ c.target ≤ b'.count then
          let d := d.modStack st fun x => { x with bmax := tset none x.bmax w none }
          let bs := bmaxBytes c b'
          let d := (touchedSectors c.out bs.length).foldl (fun d i =>
            Dev.writeFuel n (d.mergeUsed st c.out bs.length i) st (d.paOf st i) (some i) (d.mergeLine st c.out bs i)) d
          d.hobNotice b'.word
        else d.modStack st fun x => { x with bmax := tset none x.bmax w (some b') }) d

/-- Write a whole sector (R194), recorded by the armed block-maximum windows. -/
def Dev.writeSec (d : Dev) (st sec : Nat) (v : Line) : Dev := Dev.writeFuel 9 d st (d.paOf st sec) (some sec) v

/-- Write bytes at a stack address, merging partly covered sectors. -/
def Dev.writeStack (d : Dev) (st a : Nat) (bs : List Byte) : Dev :=
  (touchedSectors a bs.length).foldl (fun d i => (d.mergeUsed st a bs.length i).writeSec st i (d.mergeLine st a bs i)) d

/-- Write out and disarm a window now (R212). -/
def Dev.closeBmax (d : Dev) (st w : Nat) : Dev :=
  match tget none (d.stack st).bmax w with
  | none => d
  | some b =>
    let c := d.bmaxCfg st w
    let d := d.modStack st fun x => { x with bmax := tset none x.bmax w none }
    (d.writeStack st c.out (bmaxBytes c b)).hobNotice b.word

/-! ### Pseudo-channels -/

/-- CHANNEL_STATE code of a channel from its two pseudo-channels (R217). -/
def chanCode (a b : Pch) : Nat :=
  if a = .failed ∨ b = .failed then 3 else if a = .retrain ∨ b = .retrain then 1
  else if a = .hold ∧ b = .hold then 2 else if a = .off ∧ b = .off then 4 else 0

/-- Set a pseudo-channel's state, and the CHANNEL_STATE that shows it. -/
def Dev.setPch (d : Dev) (st p : Nat) (v : Pch) : Dev :=
  let d := d.modStack st fun x => { x with pch := tset Pch.off x.pch p v }
  let c := p / 2
  d.put Obj.CHANNEL_STATE (chanCode (d.pch st (2 * c)) (d.pch st (2 * c + 1))) st c

/-- Set both pseudo-channels of a channel. -/
def Dev.setChan (d : Dev) (st c : Nat) (v : Pch) : Dev := (d.setPch st (2 * c) v).setPch st (2 * c + 1) v

/-- How a stack meets a request for a sector. -/
inductive Gate where
  | serve | waits | failed | absent | stopped
  deriving DecidableEq, Repr

/-- What the state of its pseudo-channel alone says of a request: served, waiting for the retraining, meeting a FAILED channel, or absent
(R181, R183, R187). -/
def Dev.chanGate (d : Dev) (st sec : Nat) : Gate :=
  match d.pch st (pchOfSec sec) with
  | .active | .powerDown | .selfRefresh => .serve
  | .retrain => .waits
  | .failed => .failed
  | .hold | .off => .absent

/-- R25, R181, R183, R185, R187, R374, R397: whether a request is served, waits for the channel or for the region's clock, meets a FAILED
channel, or the absent response. -/
def Dev.gate (d : Dev) (st sec : Nat) : Gate :=
  if d.get Obj.STACK_STATE st = 0 ∨ d.get Obj.STACK_STATE st = 1 ∨ (d.stack st).draining then .absent
  else match d.chanGate st sec with
    | .absent => .absent
    | g => if d.clockOn (st / 2) then g else .stopped

/-- A request wakes its pseudo-channel (R182). -/
def Dev.wakePch (d : Dev) (st sec : Nat) : Dev :=
  let p := pchOfSec sec
  match d.pch st p with
  | .powerDown | .selfRefresh => d.setPch st p .active
  | _ => d

/-- What a read request gets. -/
inductive Got where
  | line (v : Line) | wait | absent
  deriving DecidableEq, Repr

/-- What a write request gets. -/
inductive Acc where
  | ok | wait | absent | refused | invalid
  deriving DecidableEq, Repr

/-! ### Retraining (R186) -/

/-- Begin the retraining of a channel, which is counted and reported. -/
def Dev.beginRetrain (d : Dev) (st ch : Nat) : Dev :=
  let d := d.setChan st ch .retrain
  let d := d.modStack st fun x => { x with retraining := some ch, attempts := tset 0 x.attempts ch 0 }
  (d.bump Obj.RETRAINS st).raise Event.retrain .stack st

/-- Whether a channel is in service. -/
def Dev.chanInService (d : Dev) (st ch : Nat) : Bool :=
  match d.pch st (2 * ch) with
  | .active | .powerDown | .selfRefresh => true
  | _ => false

/-- Ask for a channel's retraining: at once, or queued behind the channel retraining, in channel order (R186). -/
def Dev.askRetrain (d : Dev) (st ch : Nat) : Dev :=
  let x := d.stack st
  if !d.chanInService st ch || x.draining || x.retrainQueue.contains ch then d
  else match x.retraining with
    | none => d.beginRetrain st ch
    | some _ => d.modStack st fun x => { x with retrainQueue := (List.range 32).filter fun c => c = ch || x.retrainQueue.contains c }

/-- Count CRC mismatches of a transfer and retrain a channel that meets 16 in 50,000 ticks (R174, R186). -/
def Dev.crcMismatch (d : Dev) (st sec fails : Nat) : Dev :=
  if fails = 0 then d else
  let d := d.bump Obj.CRC_REPLAYS st (min fails 4)
  let ch := chanOfSec sec
  let ts := ((tget [] (d.stack st).crcTicks ch).filter fun t => decide (d.tick < t + 50000)) ++ List.replicate (min fails 5) d.tick
  let hit := decide (16 ≤ ts.length)
  let d := d.modStack st fun x => { x with crcTicks := tset [] x.crcTicks ch (if hit then [] else ts) }
  if hit then d.askRetrain st ch else d

/-! ### Serving requests -/

/-- Failed attempts of the transfer of a sector by the command in progress (R174). -/
def Dev.crcFails (d : Dev) (st sec : Nat) : Nat := tget 0 d.crc (hbmKey st sec)

/-- A read whose fifth transfer attempt fails: delivered as received, marked ash, and handled as uncorrectable (R174). -/
def Dev.failedRead (d : Dev) (st sec : Nat) (src : ReadSource) : Dev × Line :=
  (d.logBad st sec src, ⟨fit 0 64 (Config.garble (xtsTweak st sec) (d.sector st sec).data []), true⟩)

/-- Serve a read of a sector for a requester charged to a slot, met as `g` says (R174, R187, R193). -/
def Dev.hbmGetAs (d : Dev) (g : Gate) (st sec : Nat) (src : ReadSource) (c : Option Nat) : Dev × Got :=
  match g with
  | .absent => (d, .absent)
  | .waits => (d, .wait)
  | .stopped => (d.wakeRegion (st / 2), .wait)
  | .failed => (d.chargeHbm c st 64, .line Line.zerosAsh)
  | .serve =>
    let n := d.crcFails st sec
    let d := (d.wakePch st sec).chargeHbm c st 64
    let (d, l) := if 5 ≤ n then d.failedRead st sec src else d.readSec st sec src
    (d.crcMismatch st sec n, .line l)

/-- Serve a read as it arrives. -/
def Dev.hbmGet (d : Dev) (st sec : Nat) (src : ReadSource) (c : Option Nat) : Dev × Got := d.hbmGetAs (d.gate st sec) st sec src c

/-- Bytes of a partial write put over a line; the line stays ash, or becomes it (R194). -/
def mergeMask (old : Line) (v : Line) (mask : List Bool) : Line :=
  ⟨(List.range 64).map fun i => if mask.getD i false then v.bytes.getD i 0 else old.bytes.getD i 0, old.ash || v.ash⟩

/-- Serve a write of a sector, met as `g` says; an empty mask means the whole sector, and a write whose fifth attempt fails is stored as
ash (R174, R187, R194). -/
def Dev.hbmPutAs (d : Dev) (g : Gate) (st sec : Nat) (v : Line) (mask : List Bool) (c : Option Nat) : Dev × Acc :=
  match g with
  | .absent => (d, .absent)
  | .waits => (d, .wait)
  | .stopped => (d.wakeRegion (st / 2), .wait)
  | .failed => ((d.chargeHbm c st 64).bump Obj.LATE_WRITES_ABSORBED st, .ok)
  | .serve =>
    let n := d.crcFails st sec
    let d := (d.wakePch st sec).chargeHbm c st 64
    let d := if 5 ≤ n then d.writeSec st sec Line.zerosAsh
      else if mask.isEmpty then d.writeSec st sec v
      else let (d, old) := d.readSec st sec .demand; d.writeSec st sec (mergeMask old v mask)
    (d.crcMismatch st sec n, .ok)

/-- Serve a write as it arrives. -/
def Dev.hbmPut (d : Dev) (st sec : Nat) (v : Line) (mask : List Bool) (c : Option Nat) : Dev × Acc :=
  d.hbmPutAs (d.gate st sec) st sec v mask c

/-- Read requests and writes that hold tags on a stack: 32 reserved to each pseudo-channel, 10,240 shared (R179). -/
def Dev.tagFree (d : Dev) (st sec : Nat) : Bool :=
  let ps := (d.stack st).waiting.map fun w => pchOfSec w.sec
  let used (p : Nat) : Nat := (ps.filter (· = p)).length
  let shared := ((List.range 64).map fun p => used p - 32).foldl (· + ·) 0
  decide (used (pchOfSec sec) < 32) || decide (shared < 10240)

/-- A request waits at the region boundary, in arrival order (R25, R179). -/
def Dev.toBoundary (d : Dev) (st : Nat) (w : HbmWait) : Dev := d.modStack st fun x => { x with boundary := x.boundary ++ [w] }

/-- Put a request among those that wait and keep their tags; with no tag free it waits at the region boundary, and is counted (R179). -/
def Dev.holdReq (d : Dev) (st : Nat) (w : HbmWait) : Dev :=
  if d.tagFree st w.sec then d.modStack st fun x => { x with waiting := x.waiting ++ [w] }
  else (d.toBoundary st w).bump Obj.TAG_FULL_CYCLES st

/-- Show the outcome of a read request: the line and its mark, or the absent response; a request that waits answers later. -/
def Dev.replyGot (d : Dev) : Got → Dev
  | .line v => { d with reply := ⟨0, if v.ash then 1 else 0, v.bytes⟩ }
  | .absent => { d with reply := ⟨2, 1, Line.zerosAsh.bytes⟩ }
  | .wait => d

/-- Show the outcome of a write request. -/
def Dev.replyAcc (d : Dev) : Acc → Dev
  | .ok => { d with reply := ⟨0, 0, []⟩ }
  | .refused => { d with reply := ⟨1, 0, []⟩ }
  | .absent => { d with reply := ⟨2, 0, []⟩ }
  | .invalid => { d with reply := ⟨3, 0, []⟩ }
  | .wait => d

end Sys2Proof.Machine
end

