-- ==== Sys2Proof/Machine/Operands.lean ====
section
/-! DEFINITION. The firing table's entries (R85 to R97), address fields (R87), stream descriptors (R139), flue settings (R158) and
translation entries (R319): their fields, read from and written into words. -/

namespace Sys2Proof.Machine

/-! ### The entry header (R85) -/

/-- A wait condition. -/
structure Wait where
  en : Bool
  ctr : Nat
  sel : Nat
  inc : Nat
  base : Int
  deriving DecidableEq, Repr

/-- An entry's header. -/
structure Header where
  kind : Nat
  w0 : Wait
  w1 : Wait
  sigEn : Bool
  sigCtr : Nat
  sigAmt : Nat
  deriving DecidableEq, Repr

/-- The wait condition whose 25 bits end at bit `lo`. -/
def Wait.ofWord (v lo : Nat) : Wait :=
  ⟨bit v (lo + 24), bits v (lo + 23) (lo + 18), bits v (lo + 17) (lo + 15), bits v (lo + 14) (lo + 9), toSigned 9 (bits v (lo + 8) lo)⟩

/-- The 25 bits of a wait condition. -/
def Wait.word (w : Wait) : Nat :=
  (if w.en then 2 ^ 24 else 0) + w.ctr * 2 ^ 18 + w.sel * 2 ^ 15 + w.inc * 2 ^ 9 + ofSigned 9 w.base

/-- Read the header of a 256-bit entry. -/
def Header.ofWord (v : Nat) : Header :=
  ⟨bits v 255 252, Wait.ofWord v 227, Wait.ofWord v 202, bit v 201, bits v 200 195, bits v 194 192⟩

/-- A header's 64 bits at their place in an entry. -/
def Header.word (h : Header) : Nat :=
  h.kind * 2 ^ 252 + h.w0.word * 2 ^ 227 + h.w1.word * 2 ^ 202 + (if h.sigEn then 2 ^ 201 else 0) + h.sigCtr * 2 ^ 195 +
    h.sigAmt * 2 ^ 192

/-- A wait condition whose fields fit R85. -/
def Wait.Fits (w : Wait) : Prop := w.ctr < 64 ∧ w.sel < 8 ∧ w.inc < 64 ∧ -256 ≤ w.base ∧ w.base < 256

/-- A header whose fields fit R85. -/
def Header.Fits (h : Header) : Prop := h.kind < 16 ∧ h.w0.Fits ∧ h.w1.Fits ∧ h.sigCtr < 64 ∧ h.sigAmt < 8

/-- The enabled wait conditions, condition 0 first. -/
def Header.waits (h : Header) : List Wait := [h.w0, h.w1].filter (·.en)

/-- Entry kinds (R86). -/
inductive EKind where
  | nop | grate | vector | stream | flue | counter | loop | branch | stepEnd
  deriving DecidableEq, Repr

/-- The kind a KIND field names; none where it is reserved. -/
def EKind.ofCode : Nat → Option EKind
  | 0 => some .nop | 1 => some .grate | 2 => some .vector | 3 => some .stream | 4 => some .flue | 5 => some .counter
  | 8 => some .loop | 9 => some .branch | 15 => some .stepEnd | _ => none

/-! ### Loop values and address fields (R87, R91) -/

/-- Loop value SEL of a dynamic entry: I0..I3, T0..T3 (R91). -/
def loopVal (i t : Tab Nat) (sel : Nat) : Nat := if sel < 4 then tget 0 i sel else tget 0 t (sel - 4)

/-- The step count g of a loop value under a WRAP field (R87). -/
def wrapVal (v wrap : Nat) : Nat := if wrap = 0 then v else v % 2 ^ wrap

/-- A 30-bit scratchpad address field (R87). -/
structure AddrField where
  base : Nat
  sel : Nat
  wrap : Nat
  stride : Nat
  deriving DecidableEq, Repr

/-- Read an address field. -/
def AddrField.ofWord (v : Nat) : AddrField := ⟨bits v 29 15, bits v 14 12, bits v 11 10, bits v 9 0⟩

/-- The 30 bits of an address field. -/
def AddrField.word (a : AddrField) : Nat := a.base * 2 ^ 15 + a.sel * 2 ^ 12 + a.wrap * 2 ^ 10 + a.stride

/-- An address field whose fields fit R87. -/
def AddrField.Fits (a : AddrField) : Prop := a.base < 32768 ∧ a.sel < 8 ∧ a.wrap < 4 ∧ a.stride < 1024

/-- g of an address field. -/
def AddrField.g (a : AddrField) (i t : Tab Nat) : Nat := wrapVal (loopVal i t a.sel) a.wrap

/-- Line address of an address field (R87). -/
def AddrField.line (a : AddrField) (i t : Tab Nat) : Nat := (a.base + 32 * a.stride * a.g i t) % 32768

/-- Byte address of an address field (R87). -/
def AddrField.byte (a : AddrField) (i t : Tab Nat) : Nat := 64 * a.line i t

/-- The scale tag an operand names; 0xFF names none (R88). -/
def AddrField.tag (a : AddrField) (i t : Tab Nat) (tag : Nat) : Option Nat :=
  if tag = 0xFF then none else if a.wrap = 0 then some tag else some ((tag + a.g i t) % 256)

/-! ### Bodies (R92 to R97) -/

/-- A GRATE body (R92). -/
structure GrateBody where
  a : AddrField
  b : AddrField
  epi : Nat
  d : AddrField
  m : Nat
  n : Nat
  k : Nat
  aFmt : Nat
  bFmt : Nat
  dFmt : Nat
  colMajor : Bool
  sigEarly : Bool
  aStride : Nat
  bStride : Nat
  dStride : Nat
  aTag : Nat
  bTag : Nat
  dTag : Nat
  slotExp : Nat
  skipLog2 : Nat
  deriving DecidableEq, Repr

/-- Read a GRATE body. -/
def GrateBody.ofWord (v : Nat) : GrateBody :=
  { a := .ofWord (bits v 191 162), b := .ofWord (bits v 161 132), epi := bits v 131 128, d := .ofWord (bits v 127 98),
    m := 32 * (bits v 97 91 + 1), n := 32 * (bits v 90 84 + 1), k := 32 * (bits v 83 77 + 1), aFmt := bits v 76 74,
    bFmt := bits v 73 71, dFmt := bits v 70 68, colMajor := bit v 67, sigEarly := bit v 66, aStride := bits v 63 56,
    bStride := bits v 55 48, dStride := bits v 47 40, aTag := bits v 39 32, bTag := bits v 31 24, dTag := bits v 23 16,
    slotExp := bits v 15 8, skipLog2 := bits v 7 0 }

/-- The 192 bits of a GRATE body. -/
def GrateBody.word (g : GrateBody) : Nat :=
  g.a.word * 2 ^ 162 + g.b.word * 2 ^ 132 + g.epi * 2 ^ 128 + g.d.word * 2 ^ 98 + (g.m / 32 - 1) * 2 ^ 91 +
    (g.n / 32 - 1) * 2 ^ 84 + (g.k / 32 - 1) * 2 ^ 77 + g.aFmt * 2 ^ 74 + g.bFmt * 2 ^ 71 + g.dFmt * 2 ^ 68 +
    (if g.colMajor then 2 ^ 67 else 0) + (if g.sigEarly then 2 ^ 66 else 0) + g.aStride * 2 ^ 56 + g.bStride * 2 ^ 48 +
    g.dStride * 2 ^ 40 + g.aTag * 2 ^ 32 + g.bTag * 2 ^ 24 + g.dTag * 2 ^ 16 + g.slotExp * 2 ^ 8 + g.skipLog2

/-- A VECTOR body (R95). -/
structure VectorBody where
  a : AddrField
  b : AddrField
  d : AddrField
  len : Nat
  aFmt : Nat
  bFmt : Nat
  dFmt : Nat
  sr : Bool
  red : Nat
  rowLog2 : Nat
  imm : Nat
  op : Nat
  aTag : Nat
  bTag : Nat
  dTag : Nat
  deriving DecidableEq, Repr

/-- Read a VECTOR body; `len` is the number of vectors. -/
def VectorBody.ofWord (v : Nat) : VectorBody :=
  { a := .ofWord (bits v 191 162), b := .ofWord (bits v 161 132), d := .ofWord (bits v 127 98), len := bits v 97 84 + 1,
    aFmt := bits v 83 81, bFmt := bits v 80 78, dFmt := bits v 77 75, sr := bit v 74, red := bits v 73 72,
    rowLog2 := bits v 71 68, imm := bits v 63 32, op := bits v 31 26, aTag := bits v 25 18, bTag := bits v 17 10,
    dTag := bits v 9 2 }

/-- Whether a vector operation uses operand b (R96). -/
def vecUsesB (op : Nat) : Bool := op = 1 || op = 2 || op = 3 || op = 4 || op = 7 || op = 8 || op = 0xD

/-- A STREAM body (R97). -/
structure StreamBody where
  loc : AddrField
  remSel : Nat
  remWrap : Nat
  remStride : Nat
  remOffset : Nat
  desc : Nat
  runahead : Bool
  deriving DecidableEq, Repr

/-- Read a STREAM body. -/
def StreamBody.ofWord (v : Nat) : StreamBody :=
  ⟨.ofWord (bits v 191 162), bits v 161 159, bits v 158 157, bits v 156 141, bits v 127 84, bits v 63 54, bit v 53⟩

/-- A FLUE body (R97). -/
structure FlueBody where
  loc : AddrField
  flue : Nat
  fop : Nat
  sel : Nat
  wrap : Nat
  deriving DecidableEq, Repr

/-- Read a FLUE body. -/
def FlueBody.ofWord (v : Nat) : FlueBody := ⟨.ofWord (bits v 191 162), bits v 63 48, bits v 47 46, bits v 45 43, bits v 42 41⟩

/-- The flue a FLUE entry names (R97). -/
def FlueBody.number (b : FlueBody) (i t : Tab Nat) : Nat := (b.flue + wrapVal (loopVal i t b.sel) b.wrap) % 65536

/-- A LOOP body (R97). -/
structure LoopBody where
  level : Nat
  trip : Nat
  fromCtr : Bool
  ctr : Nat
  len : Nat
  deriving DecidableEq, Repr

/-- Read a LOOP body. -/
def LoopBody.ofWord (v : Nat) : LoopBody := ⟨bits v 63 62, bits v 61 46, bit v 45, bits v 44 39, bits v 38 25⟩

/-- A BRANCH body (R97). -/
structure BranchBody where
  cmp : Nat
  loopSrc : Bool
  src : Nat
  imm : Nat
  target : Nat
  likely : Bool
  deriving DecidableEq, Repr

/-- Read a BRANCH body. -/
def BranchBody.ofWord (v : Nat) : BranchBody :=
  ⟨bits v 63 62, bit v 61, bits v 60 55, bits v 54 39, bits v 38 25, bit v 24⟩

/-- Whether a branch's comparison holds for the value compared. -/
def BranchBody.holds (b : BranchBody) (v : Nat) : Bool :=
  match b.cmp with
  | 0 => decide (v = b.imm)
  | 1 => decide (v ≠ b.imm)
  | 2 => decide (v < b.imm)
  | _ => decide (b.imm ≤ v)

/-- CTR and ADD of a COUNTER body (R97). -/
def counterBody (v : Nat) : Nat × Int := (bits v 63 58, toSigned 16 (bits v 57 42))

/-! ### Stream descriptors (R139) -/

/-- A stream descriptor. -/
structure Desc where
  farBase : Nat
  rowLines : Nat
  rows : Nat
  farPitch : Nat
  localPitch : Nat
  dir : Nat
  mode : Nat
  epoch : Nat
  cacheable : Bool
  faultHalt : Bool
  addFmt : Nat
  chain : Nat
  deriving DecidableEq, Repr

/-- Read a descriptor. -/
def Desc.ofWord (v : Nat) : Desc :=
  { farBase := bits v 255 192, rowLines := bits v 191 177 + 1, rows := bits v 176 161 + 1, farPitch := bits v 160 129,
    localPitch := bits v 128 114, dir := bits v 113 112, mode := bits v 111 110, epoch := bits v 109 102,
    cacheable := bit v 101, faultHalt := bit v 100, addFmt := bits v 99 98, chain := bits v 97 90 }

/-- A descriptor's 256 bits. -/
def Desc.word (d : Desc) : Nat :=
  d.farBase * 2 ^ 192 + (d.rowLines - 1) * 2 ^ 177 + (d.rows - 1) * 2 ^ 161 + d.farPitch * 2 ^ 129 + d.localPitch * 2 ^ 114 +
    d.dir * 2 ^ 112 + d.mode * 2 ^ 110 + d.epoch * 2 ^ 102 + (if d.cacheable then 2 ^ 101 else 0) +
    (if d.faultHalt then 2 ^ 100 else 0) + d.addFmt * 2 ^ 98 + d.chain * 2 ^ 90

/-- A descriptor whose fields fit R139. -/
def Desc.Fits (d : Desc) : Prop :=
  d.farBase < 2 ^ 64 ∧ 1 ≤ d.rowLines ∧ d.rowLines ≤ 2 ^ 15 ∧ 1 ≤ d.rows ∧ d.rows ≤ 2 ^ 16 ∧ d.farPitch < 2 ^ 32 ∧
    d.localPitch < 2 ^ 15 ∧ d.dir < 4 ∧ d.mode < 4 ∧ d.epoch < 256 ∧ d.addFmt < 4 ∧ d.chain < 256

/-- Lines a transfer moves. -/
def Desc.total (d : Desc) : Nat := d.rows * d.rowLines

/-- Local pitch in lines; 0 means the row length. -/
def Desc.pitch (d : Desc) : Nat := if d.localPitch = 0 then d.rowLines else d.localPitch

/-- R142: a reserved DIR, MODE or ADD_FMT, too many lines, or IN-only settings on another direction. -/
def Desc.illegal (d : Desc) : Bool :=
  d.dir = 3 || d.mode = 3 || decide (2 ≤ d.addFmt) || decide (32768 < d.total) ||
    (d.dir ≠ 0 && (d.cacheable || d.chain ≠ 0))

/-- Scratchpad line of line `n` of a transfer whose LOCAL field names `base` (R140). -/
def Desc.localLine (d : Desc) (base n : Nat) : Nat := (base + n / d.rowLines * d.pitch + n % d.rowLines) % 32768

/-- Far address of line `n` of a transfer whose far side starts at `far` (R140). -/
def Desc.farAddr (d : Desc) (far n : Nat) : Nat := (far + n / d.rowLines * d.farPitch + 64 * (n % d.rowLines)) % 2 ^ 64

/-! ### Flues (R158) -/

/-- FLUE_CFG. -/
structure FlueCfg where
  enable : Bool
  proxy : Bool
  ctx : Nat
  homeSlot : Nat
  slots : Nat
  lines : Nat
  handleLine : Nat
  fillEn : Bool
  fillCtr : Nat
  drainEn : Bool
  drainCtr : Nat
  deriving DecidableEq, Repr

/-- Read FLUE_CFG. -/
def FlueCfg.ofWord (v : Nat) : FlueCfg :=
  { enable := bit v 63, proxy := bit v 62, ctx := bits v 61 58, homeSlot := bits v 57 55, slots := bits v 54 47 + 1,
    lines := bits v 46 36 + 1, handleLine := bits v 35 21, fillEn := bit v 20, fillCtr := bits v 19 14,
    drainEn := bit v 13, drainCtr := bits v 12 7 }

/-- FLUE_CFG as a word. -/
def FlueCfg.word (c : FlueCfg) : Nat :=
  (if c.enable then 2 ^ 63 else 0) + (if c.proxy then 2 ^ 62 else 0) + c.ctx * 2 ^ 58 + c.homeSlot * 2 ^ 55 +
    (c.slots - 1) * 2 ^ 47 + (c.lines - 1) * 2 ^ 36 + c.handleLine * 2 ^ 21 + (if c.fillEn then 2 ^ 20 else 0) +
    c.fillCtr * 2 ^ 14 + (if c.drainEn then 2 ^ 13 else 0) + c.drainCtr * 2 ^ 7

/-- A flue setting whose fields fit R158. -/
def FlueCfg.Fits (c : FlueCfg) : Prop :=
  c.ctx < 16 ∧ c.homeSlot < 8 ∧ 1 ≤ c.slots ∧ c.slots ≤ 256 ∧ 1 ≤ c.lines ∧ c.lines ≤ 2048 ∧ c.handleLine < 32768 ∧
    c.fillCtr < 64 ∧ c.drainCtr < 64

/-! ### Translation entries (R319) -/

/-- A translation entry. -/
structure TransEntry where
  device : Nat
  addr : Nat
  low : Nat
  add : Bool
  wr : Bool
  rd : Bool
  leaf : Bool
  valid : Bool
  deriving DecidableEq, Repr

/-- Read a translation entry; `addr` is the byte address of its ADDR field, `low` its reserved bits [11:5]. -/
def TransEntry.ofWord (v : Nat) : TransEntry :=
  ⟨bits v 63 44, 4096 * bits v 43 12, bits v 11 5, bit v 4, bit v 3, bit v 2, bit v 1, bit v 0⟩

end Sys2Proof.Machine
end

