-- ==== Sys2Proof/Machine/Translate.lean ====
section
/-! DEFINITION. The local address map (R281) and the translation of device virtual addresses (R318 to R322). -/

namespace Sys2Proof.Machine

/-- The device ID that counts as this device's own: that of DEVICE_ID_ACTIVE, 0 while none is active (log entry 14). -/
def Dev.selfId (d : Dev) : Nat := d.get Obj.DEVICE_ID_ACTIVE % 2 ^ 20

/-- What lies at a local address (R281). -/
inductive Area where
  | hbm (st sec : Nat)
  | aper (st win line : Nat)
  | slow (t line : Nat)
  | scr (h off : Nat)
  | od (off : Nat)
  | host (addr : Nat)
  | reserved
  deriving DecidableEq, Repr

/-- Whether a local address lies in a reserved area (R281). -/
def reservedLocal (a : Nat) : Bool :=
  (decide (0x40800000000 ≤ a) && decide (a < 0x80000000000)) || (decide (0x80080000000 ≤ a) && decide (a < 0xC0000000000)) ||
  (decide (0xC0080000000 ≤ a) && decide (a < 0xE0000000000))

/-- The area of a 44-bit local address, with the line or byte in it. -/
def Dev.area (d : Dev) (a : Nat) : Area :=
  if a < 0x20000000000 then let (s, c) := d.decodePA a; .hbm s c
  else if a < 0x40000000000 then .aper (bits a 40 36) (bits a 35 32) (bits a 31 6)
  else if a < 0x40800000000 then .slow (bits a 38 38) (bits a 37 6)
  else if a < 0x80000000000 then .reserved
  else if a < 0x80080000000 then .scr (bits a 30 21) (bits a 20 0)
  else if a < 0xC0000000000 then .reserved
  else if a < 0xC0080000000 then .od (bits a 30 0)
  else if a < 0xE0000000000 then .reserved
  else if a < 0x100000000000 then .host (bits a 40 0)
  else .reserved

/-- The right an access needs (R319). -/
inductive Need where
  | rd | wr | add
  deriving DecidableEq, Repr

/-- Outcome of translating a far line (R320); a forbidden line comes with the offset bits of its page. -/
inductive Xl where
  | ok (dev addr : Nat)
  | unmapped
  | forbidden (shift : Nat)
  | absent
  | wait
  deriving DecidableEq, Repr

/-- Whether a leaf grants a right. -/
def TransEntry.grants (e : TransEntry) : Need → Bool
  | .rd => e.rd | .wr => e.wr | .add => e.add

/-- A line under a leaf whose page has `shift` offset bits (R320). -/
def useLeaf (leaf shift va : Nat) (need : Need) : Xl :=
  let e := TransEntry.ofWord leaf
  let a := e.addr + va % 2 ^ shift
  if reservedLocal a || !e.grants need then .forbidden shift else .ok e.device a

/-- The cached leaf for an address, with its offset bits (R321). -/
def Dev.tlbFind (d : Dev) (cl c va : Nat) : Option (Nat × Nat) :=
  ((d.cluster cl).tlb.find? fun t => t.ctx = c && decide (t.vpage = va / 2 ^ (if t.big then 30 else 21))).map fun t =>
    (t.leaf, if t.big then 30 else 21)

/-- Cache a leaf; with 512 held the oldest leaves (log entry 15). -/
def Dev.tlbPut (d : Dev) (cl c va shift leaf : Nat) : Dev :=
  let x := d.cluster cl
  let l := x.tlb ++ [⟨c, va / 2 ^ shift, shift = 30, leaf⟩]
  d.setCluster cl { x with tlb := if 512 < l.length then l.tail else l }

/-- A level of the walk at table address `base`: `shifts` are the offset bits of this level and those below (R318 to R320). -/
def Dev.walk (d : Dev) (cl c va : Nat) (need : Need) : List Nat → Nat → Dev × Xl
  | [], _ => (d, .unmapped)
  | shift :: rest, base =>
    if 2 ^ 41 ≤ base then (d, .unmapped)
    else
      let pa := base / 4096 * 4096 + 8 * (va / 2 ^ shift % 512)
      let (st, sec) := d.decodePA pa
      let (d, g) := d.hbmGet st sec .demand (some c)
      match g with
      | .wait => (d, .wait)
      | .absent => (d, .absent)
      | .line v =>
        if v.ash then (d.raise Event.translationError .ctx c (some c), .unmapped)
        else
          let w := leNat ((v.bytes.drop (pa % 64)).take 8)
          let e := TransEntry.ofWord w
          if !e.valid || e.low ≠ 0 then (d, .unmapped)
          else if e.leaf then
            if 30 < shift ∨ e.addr % 2 ^ shift ≠ 0 then (d, .unmapped)
            else match useLeaf w shift va need with
              | .ok dv a => (d.tlbPut cl c va shift w, .ok dv a)
              | x => (d, x)
          else if e.device ≠ 0 ∨ e.add ∨ e.wr ∨ e.rd ∨ 2 ^ 42 ≤ e.addr then (d, .unmapped)
          else Dev.walk d cl c va need rest e.addr

/-- Translate a virtual address for a slot through a cluster's router (R318 to R321). -/
def Dev.translate (d : Dev) (cl c va : Nat) (need : Need) : Dev × Xl :=
  if 2 ^ 57 ≤ va then (d, .unmapped)
  else match d.tlbFind cl c va with
    | some (leaf, shift) => (d, useLeaf leaf shift va need)
    | none => d.walk cl c va need [48, 39, 30, 21] (d.get Obj.TRANS_ROOT c)

/-- Drop a slot's translations from every cache (R322). -/
def Dev.tlbDrop (d : Dev) (c : Nat) : Dev :=
  { d with clusters := (d.clusters.map (·.1)).foldl (fun t k =>
      tmod Cluster.fresh t k fun x => { x with tlb := x.tlb.filter fun e => e.ctx ≠ c }) d.clusters }

end Sys2Proof.Machine
end

