-- ==== Sys2Proof/Machine/FlueOps.lean ====
section
/-! DEFINITION. Flues (R157 to R166, R461): slot states, notices, copies, doorbells, proxied writes. -/

namespace Sys2Proof.Machine

/-- FLUE_CFG of flue `f`. -/
def Dev.flueCfg (d : Dev) (f : Nat) : FlueCfg := .ofWord (d.get Obj.FLUE_CFG f)

/-- Home hearth of a flue (R157). -/
def Dev.flueHome (d : Dev) (f : Nat) : Nat := f / 512 * 8 + (d.flueCfg f).homeSlot

/-- Change a flue. -/
def Dev.modFlue (d : Dev) (f : Nat) (g : Flue → Flue) : Dev := d.setFlue f (g (d.flue f))

/-- Slot `i`. -/
def Flue.slot (x : Flue) (i : Nat) : FSlot := tget FSlot.fresh x.slots i

/-- Replace slot `i`. -/
def Flue.setSlot (x : Flue) (i : Nat) (s : FSlot) : Flue := { x with slots := tset FSlot.fresh x.slots i s }

/-- Lap bit of sequence number `s` with `n` slots. -/
def lapBit (s n : Nat) : Bool := decide (s / n % 2 = 1)

/-- Every slot is filled (R168). -/
def Dev.flueFull (d : Dev) (f : Nat) : Bool :=
  (List.range (d.flueCfg f).slots).all fun i => ((d.flue f).slot i).st = .filled

/-- Empty every slot and zero PUT and GET; copies under way finish without touching a slot (R161). -/
def Flue.reset (x : Flue) : Flue :=
  { x with put := 0, get := 0, slots := [], copies := x.copies.map fun c => { c with stale := true },
           arrivals := x.arrivals.map fun a => { a with stale := true }, due := false }

/-- A step abort's reset of a flue waits until no operation on it is outstanding (R167). -/
def Flue.abortReset (x : Flue) : Flue := if x.copies.isEmpty && x.arrivals.isEmpty then x.reset else { x with due := true }

/-- Make a reset that waits. -/
def Flue.settle (x : Flue) : Flue := if x.due then x.abortReset else x

/-- Reset every flue of the device whose CTX is `c` (R167 step 5). -/
def Dev.resetCtxFlues (d : Dev) (c : Nat) : Dev :=
  ((d.flues.map (·.1)).filter fun f => (d.flueCfg f).ctx = c).foldl (fun d f => d.modFlue f Flue.abortReset) d

/-- Raise step-aborted for a slot whose step has ended in an abort, once every flue of the slot has been reset (R167). -/
def Dev.abortReport (d : Dev) (c : Nat) : Dev :=
  match (d.ctx c).abortDue with
  | none => d
  | some cause =>
    if d.flues.any fun f => f.2.due && (d.flueCfg f.1).ctx = c then d
    else (d.setCtx c { d.ctx c with abortDue := none }).raise Event.stepAborted .ctx c (some c) cause

/-- A reset of a flue that waited for the operations on it is made once none is outstanding (R167). -/
def Dev.flueSettle (d : Dev) (f : Nat) : Dev := (d.modFlue f Flue.settle).abortReport (d.flueCfg f).ctx

/-- Raise an event of a flue, which its home hearth enables (R170, R368). -/
def Dev.flueEvent (d : Dev) (f : Nat) (e : Ev) : Dev := d.raise e .hearth (d.flueHome f) (some (d.flueCfg f).ctx) f

/-- Home hearth of flue `f` under a setting. -/
def FlueCfg.home (c : FlueCfg) (f : Nat) : Nat := f / 512 * 8 + c.homeSlot

/-- A fill notice of flue `f` under a setting (R163). -/
def Dev.fillNoticeOf (d : Dev) (f : Nat) (c : FlueCfg) : Dev := if c.fillEn then d.noticeCounter (c.home f) c.fillCtr else d

/-- A fill notice (R163). -/
def Dev.fillNotice (d : Dev) (f : Nat) : Dev := d.fillNoticeOf f (d.flueCfg f)

/-- A drain notice under a setting and a producer, applied here or sent as a NOTICE frame to the producer's device (R163, R461). -/
def Dev.drainNoticeOf (d : Dev) (c : FlueCfg) (p : Nat) : Dev :=
  if !c.drainEn then d
  else
    let dst := bits p 63 44
    let h := bits p 43 34
    if dst = d.selfId then d.noticeCounter h c.drainCtr
    else d.sendAnswer { Frame.plain 6 0 dst d.selfId (0x80000000000 + 2097152 * h) 0 0 with
      srcCtx := Fin.ofNat 16 c.ctx, ext := 2 ^ 63 + c.drainCtr * 2 ^ 57 }

/-- A drain notice (R163). -/
def Dev.drainNotice (d : Dev) (f : Nat) : Dev := d.drainNoticeOf (d.flueCfg f) (d.get Obj.FLUE_PEER f)

/-- First line of the buffer that slot `i`'s handle names now (R159). -/
def Dev.flueBuf (d : Dev) (f i : Nat) : Nat :=
  let c := d.flueCfg f
  bits ((d.hearth (d.flueHome f)).num (64 * c.handleLine + 8 * i) 8) 20 6

/-- Outcome of a write request (R162). -/
inductive WOut where
  | accepted (slot : Nat) | absorbed | dropped
  deriving DecidableEq, Repr

/-- Apply write number `w` to its slot (R162); a write not accepted yields its fill notice now (R163). -/
def Dev.flueWriteAt (d : Dev) (f w : Nat) : Dev × WOut :=
  let n := (d.flueCfg f).slots
  let i := w % n
  let s := (d.flue f).slot i
  if s.st = .empty ∧ !s.pending then
    if lapBit w n ≠ s.doneLap then (d.modFlue f fun x => x.setSlot i { s with pending := true }, .accepted i)
    else ((d.bump Obj.FLUE_ABSORBED f).fillNotice f, .absorbed)
  else
    let d := (d.modFlue f fun x => x.setSlot i { s with ash := true }).bump Obj.FLUE_BREACHES f
    ((d.flueEvent f Event.scheduleBreach).fillNotice f, .dropped)

/-- A local write takes the flue's PUT (R160). -/
def Dev.flueWrite (d : Dev) (f : Nat) : Dev × WOut :=
  let w := (d.flue f).put
  (d.modFlue f fun x => { x with put := w + 1 }).flueWriteAt f w

/-- The end of an accepted write's copy into slot `i`, under the setting it was accepted with (R161 to R163). -/
def Dev.flueFilled (d : Dev) (f i : Nat) (stale : Bool) (c : FlueCfg) : Dev :=
  let d := if stale then d else d.modFlue f fun x => x.setSlot i { x.slot i with st := .filled, pending := false }
  (d.fillNoticeOf f c).flueSettle f

/-- Apply the next read (R162): its slot, whether it was filled, and whether every line is marked ash. -/
def Dev.flueRead (d : Dev) (f : Nat) : Dev × Nat × Bool × Bool :=
  let n := (d.flueCfg f).slots
  let r := (d.flue f).get
  let i := r % n
  let s := (d.flue f).slot i
  let d := d.modFlue f fun x => { x with get := r + 1 }
  if s.st = .filled then (d.modFlue f fun x => x.setSlot i { s with st := .draining, doneLap := lapBit r n }, i, true, s.ash)
  else
    let d := (d.modFlue f fun x => x.setSlot i { s with doneLap := lapBit r n }).bump Obj.FLUE_UNDERRUNS f
    (d.flueEvent f Event.slotUnderrun, i, false, true)

/-- The end of a read's copy of slot `i`, under the setting and the producer it was accepted with (R161 to R163). A slot that an underrun
reads stays as it is. -/
def Dev.flueDrained (d : Dev) (f i : Nat) (stale : Bool) (c : FlueCfg) (peer : Nat) : Dev :=
  let s := (d.flue f).slot i
  let d := if stale || s.st ≠ .draining then d else d.modFlue f fun x => x.setSlot i { s with st := .empty, ash := false }
  (d.drainNoticeOf c peer).flueSettle f

/-- A request of `who` to a flue and its rivals in the same cycle: whether the router accepts it (R162, R335). -/
def Dev.askFlue (d : Dev) (f who : Nat) (rivals : List Nat) : Dev × Bool := d.grantTo (arbFlue f) requesters who rivals

/-- The router of flue `f` must wait for its region's clock (R25, R374): it starts it. -/
def Dev.flueSleeps (d : Dev) (f : Nat) : Bool := d.hearthOpen (d.flueHome f) && !d.clockOn (f / 4096)

/-- One FILL (R166): a write that copies nothing. -/
def Dev.flueFillOnce (d : Dev) (f : Nat) : Dev :=
  match d.flueWrite f with
  | (d, .accepted i) => d.flueFilled f i false (d.flueCfg f)
  | (d, _) => d

/-- One DRAIN (R166): a read that copies nothing. -/
def Dev.flueDrainOnce (d : Dev) (f : Nat) : Dev :=
  let (d, i, own, _) := d.flueRead f
  if own then d.flueDrained f i false (d.flueCfg f) (d.get Obj.FLUE_PEER f) else d.drainNotice f

/-- Repeat a change `n` times. -/
def Dev.times (d : Dev) (n : Nat) (g : Dev → Dev) : Dev := (List.range n).foldl (fun d _ => g d) d

/-- FILL or DRAIN of a doorbell by requester `who`, alone in its cycle, with the status it completes with (R162, R166). A home hearth behind a reset boundary answers the
absent response: no slot is reached and no notice is yielded (R163). -/
def Dev.flueBell (d : Dev) (f count : Nat) (once : Dev → Dev) : Dev × Nat :=
  let c := d.flueCfg f
  if !c.enable || c.proxy then (d, 4)
  else if !d.hearthOpen (d.flueHome f) then (d, 0)
  else (d.times count once, 0)

/-- A write to FLUE_DOORBELL that has its turn (R166). -/
def Dev.flueDoorbell (d : Dev) (f v : Nat) : Dev × Nat :=
  match bits v 63 60 with
  | 1 => d.flueBell f (bits v 59 52 + 1) fun d => d.flueFillOnce f
  | 2 => d.flueBell f (bits v 59 52 + 1) fun d => d.flueDrainOnce f
  | 3 => ((d.modFlue f Flue.reset).abortReport (d.flueCfg f).ctx, 0)
  | _ => (d, 0)

/-! ### Proxied writes (R160, R277) -/

/-- The full stamp whose low 37 bits a frame carries (R160). -/
def fullStamp (put low : Nat) : Nat :=
  (((put : Int) + (((low : Int) - put + 2 ^ 36) % 2 ^ 37) - 2 ^ 36)).toNat

/-- The ACK of a frame with a status (R276, R293). -/
def Dev.ackOf (d : Dev) (f : Frame) (status : Nat) : Frame :=
  { Frame.plain 0xB f.vl.val f.srcId d.selfId f.addr f.linesM1.val f.xferTag with
    srcCtx := f.srcCtx, attr := Fin.ofNat 4 status }

/-- What is left of an arrival once it has nothing more to do: the copy ends when every line has arrived (R277), and the ACK
follows the last frame, the decision and the copy (R293). -/
def Dev.flueArrivalEnd (d : Dev) (f : Nat) (a : FArrival) : Dev :=
  let ended := decide (a.left = 0)
  let d := if ended && a.buf.isSome then d.flueFilled f a.slot a.stale (.ofWord a.cfg) else d
  let ackNow := a.ack.isSome && (ended || a.buf.isNone)
  let d := match a.ack with
    | some fr => if ackNow then d.sendAnswer (d.ackOf fr 0) else d
    | none => d
  let a' := if ackNow then { a with ack := none } else a
  let d := if ended && a'.ack.isNone then d else d.modFlue f fun x => { x with arrivals := x.arrivals ++ [a'] }
  d.flueSettle f

/-- The flue, slot lines and stamp a FLUE_WRITE frame names (R275). -/
def flueExt (fr : Frame) : Nat × Nat × Nat := (bits fr.ext 63 48, bits fr.ext 47 37 + 1, bits fr.ext 36 0)

/-- The outcome of a proxied write, decided by its first frame (R162, R165, R277). -/
def Dev.flueOpen (d : Dev) (f lines low src : Nat) : Dev × FArrival :=
  let c := d.flueCfg f
  if !c.enable || c.proxy || c.lines ≠ lines then
    (((d.flueEvent f Event.flueMisuse).fillNotice f), ⟨src, low, 0, none, false, lines, none, c.word⟩)
  else
    let w := fullStamp (d.flue f).put low
    let d := d.modFlue f fun x => { x with put := max x.put (w + 1) }
    match d.flueWriteAt f w with
    | (d, .accepted i) => (d, ⟨src, low, i, some (d.flueBuf f i), false, lines, none, c.word⟩)
    | (d, _) => (d, ⟨src, low, 0, none, false, lines, none, c.word⟩)

/-- The write that a FLUE_WRITE frame goes on with, if its first frame has arrived. -/
def Dev.flueBegun (d : Dev) (fr : Frame) : Option FArrival :=
  (d.flue (flueExt fr).1).arrivals.find? fun a => a.src = fr.srcId && a.stamp = (flueExt fr).2.2

/-- The home hearth of a FLUE_WRITE frame's flue. -/
def Dev.flueFrameHome (d : Dev) (fr : Frame) : Nat :=
  match d.flueBegun fr with
  | some a => (FlueCfg.ofWord a.cfg).home (flueExt fr).1
  | none => d.flueHome (flueExt fr).1

/-- A FLUE_WRITE frame whose first frame has its turn reaches the flue's home (R277). -/
def Dev.flueFrame (d : Dev) (fr : Frame) : Dev :=
  let (f, lines, low) := flueExt fr
  let begun := d.flueBegun fr
  let home := d.flueFrameHome fr
  if !d.hearthOpen home then (if fr.last then d.sendAnswer (d.ackOf fr 2) else d)
  else
    let (d, a) := match begun with
      | some a => (d.modFlue f fun x => { x with arrivals := x.arrivals.erase a }, a)
      | none => d.flueOpen f lines low fr.srcId
    let n := fr.payload.length / 64
    let d := match a.buf with
      | none => d
      | some b => (List.range n).foldl (fun d i =>
          d.modHearth home fun x => x.setLine (b + fr.addr / 64 + i) ⟨(fr.payload.drop (64 * i)).take 64, fr.ash.getD i false⟩) d
    d.flueArrivalEnd f { a with left := a.left - n, ack := if fr.last then some fr else a.ack }

end Sys2Proof.Machine
end

