-- ==== Sys2Proof/Machine/SeqOps.lean ====
section
/-! DEFINITION. The firing sequencer's shared operations: the fill stage's walk (R103), legality (R104, R113), the firing scan (R106 to
R110), provisional slots (R124), retirement (R112), squashing (R125), the end of a hearth's part and step aborts (R167, R325). -/

namespace Sys2Proof.Machine

/-- The 256 bits of table entry `idx` (R83). -/
def Dev.tableEntry (d : Dev) (h idx : Nat) : Nat := (d.hearth h).num (d.get Obj.TABLE_BASE h + 32 * idx) 32

/-- Header of a window entry. -/
def WEntry.hdr (e : WEntry) : Header := .ofWord e.raw

/-- Kind of a window entry. -/
def WEntry.kind (e : WEntry) : EKind := (EKind.ofCode e.hdr.kind).getD .nop

/-- The threshold of a wait condition, in signed 32-bit arithmetic (R99). -/
def Wait.threshold (w : Wait) (i t : Tab Nat) : Int := toSigned 32 (ofSigned 32 (w.base + (w.inc * loopVal i t w.sel : Nat)))

/-- A wait condition met by a counter's value (R99). -/
def Wait.met (w : Wait) (i t : Tab Nat) (v : Nat) : Bool :=
  let th := w.threshold i t
  decide (th ≤ 0) || decide (th ≤ (v : Int))

/-- Every enabled wait condition of a header met by visible values. -/
def Hearth.waitsMet (x : Hearth) (h : Header) (i t : Tab Nat) : Bool := h.waits.all fun w => w.met i t (x.visible w.ctr)

/-- Every enabled wait condition met by committed values alone (R103). -/
def Hearth.waitsCommitted (x : Hearth) (h : Header) (i t : Tab Nat) : Bool := h.waits.all fun w => w.met i t (x.counter w.ctr)

/-! ### The dynamic entry sequence (R103) -/

/-- Begin a pass of a level: Il as given, Tl the passes begun so far. -/
def Walk.begin (w : Walk) (l il : Nat) : Walk :=
  { w with i := tset 0 w.i l il, t := tset 0 w.t l (tget 0 w.n l), n := tset 0 w.n l (tget 0 w.n l + 1) }

/-- Continue at `nxt` with the bodies `fs` around it: the last entry of a body begins the next pass or leaves the body. -/
def Walk.exit : List LoopFrame → Walk → Nat → Walk
  | [], w, nxt => { w with pos := nxt, loops := [] }
  | f :: fs, w, nxt =>
    if nxt = f.last + 1 then
      if 0 < f.left then
        { (w.begin f.level (tget 0 w.i f.level + 1)) with pos := f.first, loops := { f with left := f.left - 1 } :: fs }
      else Walk.exit fs w nxt
    else { w with pos := nxt, loops := f :: fs }

/-- Pass one dynamic entry and continue at `nxt`. -/
def Walk.advance (w : Walk) (nxt : Nat) : Walk := Walk.exit w.loops { w with ordinal := w.ordinal + 1 } nxt

/-- Resolve a LOOP entry with a pass count. -/
def Walk.loop (w : Walk) (b : LoopBody) (passes : Nat) : Walk :=
  if passes = 0 then w.advance (w.pos + 1 + b.len)
  else
    let f : LoopFrame := ⟨b.level, w.pos + 1, w.pos + b.len, passes - 1⟩
    { (w.begin b.level 0) with pos := w.pos + 1, loops := f :: w.loops, ordinal := w.ordinal + 1 }

/-- The pass count of a LOOP entry (R97). -/
def Hearth.passes (x : Hearth) (b : LoopBody) : Nat := if b.fromCtr then min (x.counter b.ctr) 65535 else b.trip

/-- The value a BRANCH entry compares (R97). -/
def Hearth.branchVal (x : Hearth) (w : Walk) (b : BranchBody) : Nat :=
  if b.loopSrc then loopVal w.i w.t (b.src % 8) else x.counter b.src

/-! ### Legality (R104, R113, R402) -/

/-- Whether a table index lies in the body of some LOOP entry of the table (R104). -/
def Dev.inSomeBody (d : Dev) (h t : Nat) : Bool :=
  (List.range (min t (d.get Obj.TABLE_ENTRIES h))).any fun i =>
    let v := d.tableEntry h i
    decide (bits v 255 252 = 8) && decide (t ≤ i + (LoopBody.ofWord v).len)

/-- Whether a region is in banked service (R401). -/
def Dev.banked (d : Dev) (h : Nat) : Bool := d.get Obj.HEARTH_SERVICE h = 1

/-- A grate entry's own settings are legal (R54, R94, R113). A scale slot above 127 is taken as a reserved code (log entry 16). -/
def GrateBody.legal (b : GrateBody) : Bool :=
  b.aFmt ≠ 7 && b.bFmt ≠ 7 && b.dFmt ≠ 7 && b.aFmt ≠ 0 && b.bFmt ≠ 0 && decide (b.epi ≤ 4) && (b.epi ≠ 3 || b.dFmt = 0) &&
    (!(decide (2 ≤ b.dFmt) && decide (b.dFmt ≤ 5)) || decide (b.slotExp < 128))

/-- A vector entry's own settings are legal (R95, R96, R113). -/
def VectorBody.legal (b : VectorBody) : Bool :=
  decide (b.op ≤ 0xD) && b.aFmt ≠ 7 && b.dFmt ≠ 7 && (!vecUsesB b.op || b.bFmt ≠ 7) && b.red ≠ 3 &&
    (b.red = 0 || (decide (b.len % 2 ^ b.rowLog2 = 0) && b.dFmt = 0))

/-- A format code that banked service does not allow (R402). -/
def narrowCode (c : Nat) : Bool := decide (2 ≤ c) && decide (c ≤ 6)

/-- Whether the fill stage takes an entry read at walk position `w` as legal. -/
def Dev.legalEntry (d : Dev) (h : Nat) (w : Walk) (v : Nat) : Bool :=
  match EKind.ofCode (bits v 255 252) with
  | none => false
  | some .loop =>
    let b := LoopBody.ofWord v
    b.len ≠ 0 && w.loops.all (fun f => decide (f.level < b.level)) &&
      (match w.loops with
       | [] => true
       | f :: _ => decide (w.pos + b.len ≤ f.last))
  | some .branch =>
    let b := BranchBody.ofWord v
    match w.loops with
    | f :: _ => decide (f.first ≤ b.target) && decide (b.target ≤ f.last)
    | [] => !d.inSomeBody h b.target
  | some .grate =>
    let b := GrateBody.ofWord v
    b.legal && !(d.banked h && (narrowCode b.aFmt || narrowCode b.bFmt || narrowCode b.dFmt))
  | some .vector =>
    let b := VectorBody.ofWord v
    b.legal && !(d.banked h && (narrowCode b.aFmt || narrowCode b.bFmt || narrowCode b.dFmt))
  | some .flue => decide ((FlueBody.ofWord v).fop < 2)
  | some _ => true

/-! ### Ranges (R108) -/

/-- Lowest to highest byte of `outer` runs of `inner` bytes, `step` bytes apart, from byte `off`. -/
def spanOf (off outer step inner : Nat) : Nat × Nat :=
  let n := (outer - 1) * step + inner
  if scrBytes < off + n then (0, scrBytes - 1) else (off, off + n - 1)

/-- Bytes of `n` elements under a format code. -/
def fmtBytes (code n : Nat) : Nat := match Fmt.ofCode code with
  | some f => n * f.width / 8
  | none => 0

/-- The lines a transfer touches in the scratchpad, as a byte interval (R140). -/
def Desc.span (ds : Desc) (base : Nat) : Nat × Nat :=
  let r := (List.range ds.rows).foldl (fun (acc : Nat × Nat) r =>
    let s := (base + r * ds.pitch) % 32768
    if 32768 < s + ds.rowLines then (0, 32767) else (min acc.1 s, max acc.2 (s + ds.rowLines - 1))) (32767, 0)
  (64 * r.1, 64 * r.2 + 63)

/-- Whether the hearth's step reads weights through the transposed-weight path (R230). -/
def Dev.transposed (d : Dev) (h : Nat) : Bool := match (d.hearth h).run with
  | some r => r.transposed
  | none => false

/-- Descriptor `n` of a hearth (R138). -/
def Dev.descriptor (d : Dev) (h n : Nat) : Desc := .ofWord ((d.hearth h).num (d.get Obj.DESC_TABLE_BASE h + 32 * n) 32)

/-- Fired and unretired: firing or complete, or returned for its own replay (R108, R125). -/
def WEntry.inFlight (e : WEntry) : Bool := e.st = .firing || e.st = .complete || (e.st = .waiting && e.slot.isSome)

/-- Whether a transfer uses its cluster's cache: CACHEABLE, and the cache is not disabled (R151, R406). -/
def Dev.usesCache (d : Dev) (h : Nat) (ds : Desc) : Bool := ds.cacheable && d.get Obj.CACHE_STATE (h / 8) ≠ 2

/-- Read and write ranges of an entry as it would fire now (R108). -/
def Dev.rangesNow (d : Dev) (h : Nat) (e : WEntry) : List (Nat × Nat) × List (Nat × Nat) :=
  match e.kind with
  | .grate =>
    let b := GrateBody.ofWord e.raw
    let a := spanOf (b.a.byte e.i e.t) b.k (64 * b.aStride) (fmtBytes b.aFmt b.m)
    let w := if d.transposed h then spanOf (b.b.byte e.i e.t) b.n (64 * b.bStride) (fmtBytes b.bFmt b.k)
      else spanOf (b.b.byte e.i e.t) b.k (64 * b.bStride) (fmtBytes b.bFmt b.n)
    let o := if b.colMajor then spanOf (b.d.byte e.i e.t) b.n (64 * b.dStride) (fmtBytes b.dFmt b.m)
      else spanOf (b.d.byte e.i e.t) b.m (64 * b.dStride) (fmtBytes b.dFmt b.n)
    (if b.epi = 3 then [a, w, o] else [a, w], [o])
  | .vector =>
    let b := VectorBody.ofWord e.raw
    let n := 64 * b.len
    let a := spanOf (b.a.byte e.i e.t) 1 0 (fmtBytes b.aFmt n)
    let bb := spanOf (b.b.byte e.i e.t) 1 0 (fmtBytes b.bFmt n)
    let o := spanOf (b.d.byte e.i e.t) 1 0 (if b.red = 0 then fmtBytes b.dFmt n else 4 * (b.len / 2 ^ b.rowLog2))
    (if vecUsesB b.op then [a, bb] else [a], [o])
  | .stream =>
    let b := StreamBody.ofWord e.raw
    let ds := d.descriptor h b.desc
    let r := ds.span (b.loc.line e.i e.t)
    if ds.dir = 0 then ([], [r]) else ([r], [])
  | .flue =>
    let b := FlueBody.ofWord e.raw
    let r := spanOf (b.loc.byte e.i e.t) 1 0 (64 * (d.flueCfg (b.number e.i e.t)).lines)
    if b.fop = 0 then ([], [r]) else ([r], [])
  | _ => ([], [])

/-- Read and write ranges of an entry (R108): those it fired with, whose STREAM descriptor is the transfer's own copy (R138), or those it
would fire with. -/
def Dev.rangesOf (d : Dev) (h : Nat) (e : WEntry) : List (Nat × Nat) × List (Nat × Nat) := if e.inFlight then e.ranges else d.rangesNow h e

/-- An entry's reads meet what the code finds in words of its read ranges (R62, R80). -/
def Dev.readSram (d : Dev) (h : Nat) (e : WEntry) (errs : List (Nat × SramOutcome)) : Dev :=
  d.meetSram h (errs.filter fun w => (d.rangesOf h e).1.any fun r => decide (r.1 / 8 ≤ w.1) && decide (w.1 ≤ r.2 / 8))

/-- Two byte intervals share a byte. -/
def overlaps (a b : Nat × Nat) : Bool := decide (a.1 ≤ b.2) && decide (b.1 ≤ a.2)

/-- A write range of `e` overlaps a range of another fired and unretired entry (R108). -/
def Dev.conflicts (d : Dev) (h : Nat) (e : WEntry) : Bool :=
  let ws := (d.rangesOf h e).2
  (d.hearth h).window.any fun o =>
    o.id ≠ e.id && o.inFlight &&
      (let (r, w) := d.rangesOf h o
       ws.any fun a => (r ++ w).any fun b => overlaps a b)

/-- A range of the entry touches a region retained for another slot (R132). -/
def Dev.touchesOther (d : Dev) (h c : Nat) (e : WEntry) : Bool :=
  let (r, w) := d.rangesOf h e
  (List.range 16).any fun n =>
    let g := d.get Obj.REGION h n
    decide (regKind g ≠ 0) && bit g 30 && decide (bits g 29 25 ≠ 0x1F) && decide (bits g 29 25 ≠ c) &&
      (r ++ w).any fun a => overlaps a (64 * regBase g, 64 * regEnd g - 1)

/-- A read from outside that overlaps what an entry has written in the provisional window is held until the entry has retired; a squash
frees the entry's slot and leaves its writes standing (R125, R126). -/
def Dev.heldRead (d : Dev) (h off n : Nat) : Bool :=
  (d.hearth h).window.any fun e => e.st ≠ .retired && e.prov.any fun w => overlaps w (off, off + n - 1)

/-! ### The firing scan (R106) -/

/-- A predicting entry (R124). -/
def WEntry.predicting (e : WEntry) : Bool :=
  match e.kind with
  | .grate => let b := GrateBody.ofWord e.raw; (decide (2 ≤ b.dFmt) && decide (b.dFmt ≤ 5)) || b.skipLog2 ≠ 0x80
  | _ => false

/-- Entries whose provisional increments a counter waited on by `e` holds (R124). -/
def Hearth.sources (x : Hearth) (e : WEntry) : List WEntry :=
  x.window.filter fun o => o.id ≠ e.id && e.hdr.waits.any fun w => tget 0 o.inc w.ctr ≠ 0

/-- Egress (R86): a FLUE entry, or a STREAM whose descriptor's DIR is OUT or OUT_ADD. -/
def Dev.egress (d : Dev) (h : Nat) (e : WEntry) : Bool :=
  match e.kind with
  | .flue => true
  | .stream => let dir := (d.descriptor h (StreamBody.ofWord e.raw).desc).dir; dir = 1 || dir = 2
  | _ => false

/-- An entry in the window that counts as provisional for younger egress entries (R106, R124): one in a slot, or a predicting one that has
yet to fire. DEDUCED (log entry 46): a waiting entry is not dependent before it fires. -/
def WEntry.provisional (e : WEntry) : Bool := e.st ≠ .retired && (e.slot.isSome || e.predicting)

/-- (n-block, m-block) pairs of a grate entry (R43). -/
def GrateBody.pairs (b : GrateBody) : Nat := (b.n + 127) / 128 * ((b.m + 255) / 256)

/-- The window entry with a number. -/
def Hearth.entryOf (x : Hearth) (id : Nat) : Option WEntry := x.window.find? fun e => e.id = id

/-- A GRATE entry whose pairs are all folded. -/
def Hearth.folded (x : Hearth) (j : GrateJob) : Bool :=
  match x.entryOf j.id with
  | some e => decide ((GrateBody.ofWord e.raw).pairs ≤ j.folded)
  | none => true

/-- The unit an entry needs is free (R107, R110): the grates once the entry before has injected its last pair, with a free
accumulator buffer; the vector unit; a stream place. -/
def Hearth.unitFree (x : Hearth) (e : WEntry) : Bool :=
  match e.kind with
  | .grate => x.jobs.all x.folded && decide (x.jobs.length < 2) && decide (x.bufs.length < 2)
  | .vector => x.window.all fun o => !(o.kind = .vector && o.st = .firing)
  | .stream | .flue => (List.range 32).any fun p => (tget none x.places p).isNone
  | _ => true

/-- The lowest free provisional slot (R124). -/
def Hearth.freeSlot (x : Hearth) : Option Nat := (List.range 8).find? fun s => x.window.all fun e => e.slot ≠ some s

/-- What the scan finds of a waiting entry: it fires, it is held by the egress rules alone, or neither. -/
inductive Verdict1 where
  | fires | egressHeld | no
  deriving DecidableEq, Repr

/-- The conditions of R106 on one waiting entry; `older` says that an older entry is provisional. -/
def Dev.scanOne (d : Dev) (h : Nat) (e : WEntry) (older : Bool) : Verdict1 :=
  let x := d.hearth h
  if !x.waitsMet e.hdr e.i e.t then .no
  else if e.kind = .stepEnd && x.window.length ≠ 1 then .no
  else if !x.unitFree e then .no
  else if d.conflicts h e then .no
  else
    let dep := !(x.sources e).isEmpty
    if e.slot.isNone && (dep || e.predicting) && x.freeSlot.isNone then .no
    else if d.egress h e && (dep || older) then .egressHeld
    else .fires

/-- The scan over the window, oldest first: the entry to fire, and whether an egress entry was held. -/
def Dev.scanFrom (d : Dev) (h : Nat) : List WEntry → Bool → Bool → Option WEntry × Bool
  | [], _, held => (none, held)
  | e :: es, older, held =>
    if e.st = .waiting then
      match d.scanOne h e older with
      | .fires => (some e, held)
      | .egressHeld => Dev.scanFrom d h es (older || e.provisional) true
      | .no => Dev.scanFrom d h es (older || e.provisional) held
    else Dev.scanFrom d h es (older || e.provisional) held

/-- Whether entries may fire on a hearth: its part of a step has begun and is not aborting (R324, R387, R167). -/
def Dev.mayFire (d : Dev) (h : Nat) : Bool :=
  match (d.hearth h).run with
  | some r => d.hState h = hFiring && r.released && !r.needExchange && !r.aborting
  | none => false

/-! ### The end of a hearth's part (R325, R167) -/

/-- Show a slot's CTX_STATE (R315). A slot that becomes WAITING counts its wait from now (R329). -/
def Dev.refreshCtx (d : Dev) (c : Nat) : Dev :=
  let x := d.ctx c
  let st := if x.run.isSome then 3 else if d.get Obj.CTX_ENABLE c = 0 then 0 else if x.halted then 4
    else if d.get Obj.PENDING_STEPS c ≠ 0 then 2 else 1
  let d := if st = 2 ∧ d.get Obj.CTX_STATE c ≠ 2 then d.setCtx c { x with since := d.tick } else d
  d.put Obj.CTX_STATE st c

/-- When every hearth of an aborted step has ended its part, the slot's flues are reset, and step-aborted is raised once each of them has
been (R167). -/
def Dev.abortEnd (d : Dev) (c : Nat) : Dev :=
  match (d.ctx c).run with
  | some r =>
    match r.aborted with
    | some cause =>
      if r.hearths.all fun h => r.ended.contains h then
        let d := d.resetCtxFlues c
        (d.setCtx c { d.ctx c with abortDue := some cause }).abortReport c
      else d
    | none => d
  | none => d

/-- A scale-slot exchange that waits for another device is given up: its answers will come late. -/
def Dev.dropExchange (d : Dev) (h : Nat) : Dev :=
  match (d.hearth h).exch with
  | none => d
  | some e => (d.modNet fun n => { n with awaits := tset none n.awaits e.tag none }).modHearth h fun x => { x with exch := none }

/-- The part of the step still owes the exchange of the scale slots. -/
def Hearth.owesExchange (x : Hearth) : Bool := match x.run with
  | some r => r.needExchange
  | none => false

/-- A hearth ends its part of slot `c`'s step and is released (R325). A part aborted before its exchange leaves the table with the slot
it belongs to, so that the next step still makes the exchange (R77, DEDUCED, log entry 46). -/
def Dev.endPart (d : Dev) (h c : Nat) : Dev :=
  let d := d.dropExchange h
  let d := d.modHearth h fun x =>
    { x with run := none, lastCtx := if x.owesExchange then x.lastCtx else some c, once := [], window := [], walk := Walk.start 0, jobs := [], bufs := [],
             feeders := [], feederPos := [], feedHalf := [], bellows := Bellows.fresh }
  let d := d.put Obj.RUNNING_CTX 0xFF h
  let d := if d.hState h = hFiring then d.put Obj.HEARTH_STATE hIdle h else d
  let x := d.ctx c
  let d := match x.run with
    | some r => d.setCtx c { x with run := some { r with ended := r.ended ++ [h] } }
    | none => d
  d.abortEnd c

/-- An aborting hearth with nothing firing empties its window, clears its counters and ends its part (R167). -/
def Dev.abortSettle (d : Dev) (h : Nat) : Dev :=
  let x := d.hearth h
  match x.run with
  | some r =>
    if r.aborting && x.window.all fun e => e.st ≠ .firing then
      (d.modHearth h fun x => { x with counters := [], places := [], slots := x.slots }).endPart h r.ctx
    else d
  | none => d

/-- A halted transfer goes on natively (R156). -/
def Transfer.goNative (t : Transfer) : Transfer := if t.halted.isSome then { t with halted := none, nativeRest := true } else t

/-- Steps 1 to 4 of an abort on one hearth (R167): nothing more fires, halted transfers complete natively, provisional increments
are withdrawn. -/
def Dev.abortHearth (d : Dev) (h : Nat) : Dev :=
  let d := d.modHearth h fun x =>
    { x with run := x.run.map fun r => { r with aborting := true, stopped := true },
             window := (x.window.filter fun e => e.st = .firing).map fun e => { e with inc := [] },
             places := x.places.map fun p => (p.1, p.2.map Transfer.goNative) }
  (d.put Obj.HALTED_STREAMS 0 h).abortSettle h

/-- Abort slot `c`'s running step (R167): hearths that have not yet taken their start command end their part at once. -/
def Dev.abortStep (d : Dev) (c cause : Nat) : Dev :=
  let x := d.ctx c
  match x.run with
  | none => d
  | some r =>
    if r.aborted.isSome || r.hearths.all fun h => r.ended.contains h then d
    else
      let idle := r.hearths.filter fun h => !r.ended.contains h && d.hearthCtx h ≠ some c
      let d := d.setCtx c { x with halted := true, run := some { r with aborted := some cause, ended := r.ended ++ idle } }
      let d := (r.hearths.filter fun h => d.hearthCtx h = some c).foldl (fun d h => d.abortHearth h) d
      if r.hearths.all fun h => r.ended.contains h || idle.contains h then d.abortEnd c else d

/-- Once the window of a hearth whose fill stage met an illegal entry is empty, the step is aborted (R113). -/
def Dev.illegalSettle (d : Dev) (h : Nat) : Dev :=
  let x := d.hearth h
  match x.run with
  | some r => if r.stopped && !r.aborting && x.window.isEmpty then d.abortStep r.ctx 0 else d
  | none => d

/-- An illegal entry: the fill stage stops and the event is raised (R113). -/
def Dev.illegal (d : Dev) (h idx : Nat) : Dev :=
  let d := d.modHearth h fun x => { x with run := x.run.map fun r => { r with stopped := true } }
  (d.raise Event.illegalEntry .hearth h (d.hearthCtx h) idx).illegalSettle h

/-! ### Firing, completing, retiring -/

/-- Replace the window entry with the same number. -/
def Hearth.setEntry (x : Hearth) (e : WEntry) : Hearth := { x with window := x.window.map fun o => if o.id = e.id then e else o }

/-- Apply an increment: provisional for an entry in a provisional slot, else committed (R98, R111). -/
def Hearth.increment (x : Hearth) (id c : Nat) (a : Int) : Hearth :=
  match x.entryOf id with
  | some e => if e.slot.isSome then x.setEntry { e with inc := tset 0 e.inc c (tget 0 e.inc c + a) } else x.addCounter c a
  | none => x.addCounter c a

/-- The signal of an entry (R85, R111). -/
def Hearth.signal (x : Hearth) (e : WEntry) : Hearth :=
  if e.hdr.sigEn then x.increment e.id e.hdr.sigCtr (e.hdr.sigAmt + 1 : Nat) else x

/-- Take an entry out of firing's way: mark it fired with its ranges, in a provisional slot when it is predicting or dependent, with the
entries its result depends on (R108, R124). -/
def Hearth.markFired (x : Hearth) (e : WEntry) (ranges : List (Nat × Nat) × List (Nat × Nat)) : Hearth :=
  let src := x.sources e
  let prov := e.slot.isSome || e.predicting || !src.isEmpty
  let mask := (e.mask ++ src.flatMap fun o => o.id :: o.mask).dedup
  x.setEntry { e with st := .firing, slot := if prov then (match e.slot with | some s => some s | none => x.freeSlot) else none,
                      mask := if prov then mask else [], ranges := ranges, prov := if prov then (e.prov ++ ranges.2).dedup else e.prov }

/-- Retired entries leave the window in order (R105). -/
def dropRetired : List WEntry → List WEntry
  | [] => []
  | e :: es => if e.st = .retired then dropRetired es else e :: es

/-- An entry retires: its increments are committed, its slot is released, others no longer depend on it (R111, R112). -/
def Dev.retire (d : Dev) (h id : Nat) : Dev :=
  let x := d.hearth h
  match x.entryOf id with
  | none => d
  | some e =>
    let x := { x with window := dropRetired ((x.window.map fun o =>
      if o.id = id then { o with st := .retired, slot := none, inc := [], mask := [] } else { o with mask := o.mask.filter (· ≠ id) })) }
    let x := e.inc.foldl (fun x ca => x.addCounter ca.1 ca.2) x
    let b := GrateBody.ofWord e.raw
    let x := if e.kind = .grate && !b.sigEarly && e.hdr.sigEn then x.addCounter e.hdr.sigCtr (e.hdr.sigAmt + 1 : Nat) else x
    let x := if e.kind = .grate && decide (2 ≤ b.dFmt) && decide (b.dFmt ≤ 5) then
      x.writeSlot b.slotExp false fun s => { s with used := true } else x
    let d := d.setHearth h x
    let d := match e.tagWord with
      | some (a, w) => d.ownRun h a (leBytes 4 w) fun _ => false
      | none => d
    (d.bump Obj.ENTRIES_RETIRED h).illegalSettle h

/-- Every entry it depends on has retired (R112). -/
def WEntry.free (e : WEntry) : Bool := e.mask.isEmpty

/-- A firing entry completes; it retires at once when nothing keeps it provisional (R112). Under an abort it only ends. -/
def Dev.completeEntry (d : Dev) (h id : Nat) (signals : Bool) : Dev :=
  match (d.hearth h).entryOf id with
  | none => d
  | some e =>
    let aborting := match (d.hearth h).run with
      | some r => r.aborting
      | none => true
    let d := d.modHearth h fun x =>
      let x := x.setEntry { e with st := .complete }
      if signals && !aborting then x.signal { e with st := .complete } else x
    if aborting then d.abortSettle h
    else if e.free then d.retire h id else d

/-- A tag that no transfer waits under any more; what still arrives under it comes late (R295). -/
def Dev.dropTag (d : Dev) (tag : Option Nat) : Dev :=
  match tag with
  | some g => d.modNet fun n => { n with awaits := tset none n.awaits g none }
  | none => d

/-- A squashed entry waits again, to fire afresh; what it wrote stands (R125). -/
def WEntry.squashed (e : WEntry) : WEntry :=
  { e with st := .waiting, slot := none, mask := [], inc := [], tagWord := none, replay := false, replayExp := none }

/-- Squash the entries that depend on `id` (R125): their increments are withdrawn, their slots and places freed, halted ones among them,
and they wait again. -/
def Dev.squash (d : Dev) (h id : Nat) : Dev :=
  let x := d.hearth h
  let hit := fun (e : WEntry) => e.mask.contains id && e.st ≠ .retired
  let ids := (x.window.filter hit).map (·.id)
  let gone := fun (p : Nat × Option Transfer) => match p.2 with
    | some t => ids.contains t.id
    | none => false
  let d := d.setHearth h { x with
    window := x.window.map fun e => if hit e then e.squashed else e,
    jobs := x.jobs.filter fun j => !ids.contains j.id,
    bufs := x.bufs.filter fun b => !ids.contains b.id,
    places := x.places.filter fun p => !gone p }
  let d := (x.places.filter gone).foldl (fun d p => (d.putBit Obj.HALTED_STREAMS p.1 false h).dropTag (p.2.bind (·.tag))) d
  d.bump Obj.DEPENDENT_REEXECUTIONS h ids.length

/-- What the sequencer does in a cycle whose scan picks an entry that `want` accepts: an entry illegal at firing (R132, R142) leaves the
window at once (DESIGN CHOICE, log entry 46); any other fires through `fire`. A scan that picks another entry, or nothing, leaves that
to its own command. -/
def Dev.fireIf (d : Dev) (h : Nat) (want : WEntry → Bool) (fire : Dev → WEntry → Dev) : Dev :=
  if !d.mayFire h then d
  else
    let x := d.hearth h
    let (pick, held) := d.scanFrom h x.window false false
    let d := if held then d.bump Obj.EGRESS_HOLD_CYCLES h else d
    match pick with
    | none => d
    | some e =>
      if !want e then d
      else
        let badDesc := match e.kind with
          | .stream => (d.descriptor h (StreamBody.ofWord e.raw).desc).illegal
          | _ => false
        if badDesc || d.touchesOther h ((d.hearthCtx h).getD 0) e then
          let d := d.modHearth h fun x => { x with window := dropRetired (x.window.filter fun o => o.id ≠ e.id) }
          d.illegal h e.idx
        else
          let d := (d.modHearth h fun x => x.markFired e (d.rangesNow h e)).bump Obj.ENTRIES_FIRED h
          match (d.hearth h).entryOf e.id with
          | some e => fire d e
          | none => d

end Sys2Proof.Machine
end

