-- ==== Sys2Proof/Machine/CtxOps.lean ====
section
/-! DEFINITION. Context slots: STEP_DOORBELL and CTX_ENABLE (R315, R316, R323). -/

namespace Sys2Proof.Machine

/-- CANCEL: no step is pending any more (R323). -/
def Dev.ctxCancel (d : Dev) (c : Nat) : Dev := (d.put Obj.PENDING_STEPS 0 c).refreshCtx c

/-- LAUNCH of `n` steps, with the status it completes with (R323). -/
def Dev.ctxLaunch (d : Dev) (c n : Nat) : Dev × Nat :=
  if d.get Obj.CTX_ENABLE c = 0 then (d, 4)
  else if 255 < d.get Obj.PENDING_STEPS c + n then (d, 3)
  else ((d.put Obj.PENDING_STEPS (d.get Obj.PENDING_STEPS c + n) c).refreshCtx c, 0)

/-- ABORT with cause host request; no effect with no step running (R323). -/
def Dev.ctxAbort (d : Dev) (c : Nat) : Dev := (d.abortStep c 3).refreshCtx c

/-- RESUME of a HALTED slot (R323). -/
def Dev.ctxResume (d : Dev) (c : Nat) : Dev :=
  if d.get Obj.CTX_STATE c = 4 then (d.setCtx c { d.ctx c with halted := false }).refreshCtx c else d

/-- A write to STEP_DOORBELL, with the status it completes with (R323). -/
def Dev.stepBell (d : Dev) (c v : Nat) : Dev × Nat :=
  match bits v 63 60 with
  | 1 => d.ctxLaunch c (bits v 59 52 + 1)
  | 2 => (d.ctxAbort c, 0)
  | 3 => (d.ctxCancel c, 0)
  | 4 => (d.ctxResume c, 0)
  | _ => (d, 4)

/-- A write to CTX_ENABLE: 0 cancels pending steps and clears a halt; 1 enables a disabled slot, which is then IDLE (R316). -/
def Dev.writeCtxEnable (d : Dev) (c v : Nat) : Dev :=
  if v % 2 = 0 then
    (((d.put Obj.CTX_ENABLE 0 c).put Obj.PENDING_STEPS 0 c).setCtx c { d.ctx c with halted := false }).refreshCtx c
  else
    let d := if d.get Obj.CTX_STATE c = 0 then d.setCtx c { d.ctx c with halted := false } else d
    (d.put Obj.CTX_ENABLE 1 c).refreshCtx c

end Sys2Proof.Machine
end

