-- ==== Sys2Proof/Machine/Lookup.lean ====
section
/-! DEFINITION. Finding an object by index and subindex (R353, R354). -/

namespace Sys2Proof.Machine

/-- Instance and element of an object that an index and subindex name. -/
def ObjDef.locate (o : ObjDef) (index sub : Nat) : Option (Nat × Nat) :=
  if sub < o.lo ∨ o.lo + o.n ≤ sub ∨ index < o.base then none
  else
    let st := o.kind.stride
    if st = 0 then if index = o.base then some (0, sub - o.lo) else none
    else if (index - o.base) % st = 0 ∧ (index - o.base) / st < o.kind.count then some ((index - o.base) / st, sub - o.lo) else none

/-- The object, instance and element at an index and subindex. -/
def lookupObj (index sub : Nat) : Option (ObjDef × Nat × Nat) :=
  objTable.findSome? fun o => (o.locate index sub).map fun x => (o, x)

/-- Highest subindex an index has, if it exists (R339). -/
def highestSub (index : Nat) : Option Nat :=
  objTable.foldl (fun m o => match o.locate index o.lo with
    | none => m
    | some _ => some (max (m.getD 0) (o.lo + o.n - 1))) none

/-- Whether a key of `Dev.od` belongs to a P object (R349). -/
def isPKey (k : Nat) : Bool :=
  match lookupObj (k / 256) (k % 256) with
  | some (o, _) => o.attrP
  | none => false

end Sys2Proof.Machine
end

