-- ==== Sys2Proof/Machine/HobOps.lean ====
section
/-! DEFINITION. Hob engines: checkpoint windows, compression and decoding (R203 to R207), recompute chains (R200 to R202, R208 to
R211, R460), fold-add (R213), jobs (R214). -/

namespace Sys2Proof.Machine

/-! ### Checkpoint windows -/

/-- Fields of a checkpoint window (R204). -/
structure CkptCfg where
  enable : Bool
  bf16 : Bool
  e5m2 : Bool
  data : Nat
  scale : Nat
  blocks : Nat
  deriving DecidableEq, Repr

/-- Decode a window word (R204). -/
def ckptCfg (v : Nat) : CkptCfg :=
  ⟨bit v 63, bit v 62, bit v 61, 16384 * bits v 60 39, 65536 * bits v 38 19, 64 * (bits v 18 3 + 1)⟩

/-- Window `w` of a stack. -/
def Dev.ckpt (d : Dev) (st w : Nat) : CkptCfg := ckptCfg (d.get Obj.CKPT_WIN st w)

/-- Input format of a window. -/
def CkptCfg.inFmt (c : CkptCfg) : Fmt := if c.bf16 then .bf16 else .fp32
/-- Stored format of a window. -/
def CkptCfg.code (c : CkptCfg) : Fmt := if c.e5m2 then .e5m2 else .e4m3
/-- Aperture lines of one block. -/
def CkptCfg.lines (c : CkptCfg) : Nat := if c.bf16 then 8 else 16

/-- Key of a partial block in `Stack.partials`. -/
def partKey (w b : Nat) : Nat := w * 2 ^ 22 + b

/-- FP32 value of a raw FP32 or BF16 element. -/
def widen (bf16 : Bool) (raw : Nat) : Nat := if bf16 then raw * 65536 else raw

/-- Elements of a line widened to FP32, each with the line's mark. -/
def wideElems (bf16 : Bool) (l : Line) : List (Nat × Bool) :=
  (lineElems (if bf16 then .bf16 else .fp32) l.bytes).map fun e => (widen bf16 e, l.ash)

/-- The 256 input values of a block; missing lines count as ash (R206). -/
def blockVals (c : CkptCfg) (p : PartBlock) : List (Nat × Bool) :=
  (List.range c.lines).flatMap fun i => wideElems c.bf16 ((tget none p.lines i).getD Line.zerosAsh)

/-- Data bytes and scale byte of a compressed block (R205). -/
def compressBlock (f : Fmt) (xs : List (Nat × Bool)) : List Byte × Nat :=
  if xs.any fun x => x.2 || !isFin x.1 then (List.replicate 256 0, 0xFF)
  else
    let m := xs.foldl (fun m x => max m (fabs x.1)) 0
    let e : Int := if m = 0 then 0 else f.scaleExp m 0
    (xs.map fun x => BitVec.ofNat 8 (f.convert x.1 e none).raw, (127 - e).toNat)

/-- Compress a block of a window into the stack (R205). -/
def Dev.compress (d : Dev) (st w b : Nat) (p : PartBlock) : Dev :=
  let c := d.ckpt st w
  let (bs, s) := compressBlock c.code (blockVals c p)
  let d := d.modStack st fun x => { x with partials := tset none x.partials (partKey w b) none }
  let d := (d.writeStack st (c.data + 256 * b) bs).writeStack st (c.scale + b) [BitVec.ofNat 8 s]
  let d := d.bump Obj.CKPT_BLOCKS_WRITTEN st
  if s = 0xFF then d.bump Obj.CKPT_BLOCKS_ASH st else d

/-- Count a misuse of the hob engines. -/
def Dev.hobMisuse (d : Dev) (st : Nat) : Dev := d.bump Obj.HOB_MISUSE st

/-- Lines the partial buffer holds: its 128 KiB are taken block by block (R206). -/
def Dev.partialLines (d : Dev) (st : Nat) : Nat :=
  ((d.stack st).partials.map fun e => (d.ckpt st (e.1 / 2 ^ 22)).lines).foldl (· + ·) 0

/-- Engine 1 takes a sector written to an aperture (R206, R212, R218). -/
def Dev.aperPut (d : Dev) (st w line : Nat) (v : Line) : Dev × Acc :=
  let c := d.ckpt st w
  let b := line / c.lines
  if !c.enable ∨ c.blocks ≤ b then (d.hobMisuse st, .ok)
  else
    let old := tget none (d.stack st).partials (partKey w b)
    if old.isNone ∧ 2048 < d.partialLines st + c.lines then (d, .wait)
    else
      let p : PartBlock := ⟨tset none (old.getD ⟨[]⟩).lines (line % c.lines) (some ⟨fit 0 64 v.bytes, v.ash⟩)⟩
      let d := Dev.writeFuel 9 d st (aperPA st w line) none v
      if p.lines.length = c.lines then (d.compress st w b p, .ok)
      else (d.modStack st fun x => { x with partials := tset none x.partials (partKey w b) (some p) }, .ok)

/-- Try the sectors that wait for the partial buffer, oldest first; one that is taken is acknowledged (R206, R218). -/
def Dev.retryParts (d : Dev) (st : Nat) : Dev :=
  (d.stack st).waiting.foldl (fun d q =>
    match q.win with
    | none => d
    | some (w, line) =>
      if !q.write || decide (d.chanGate st q.sec = .waits) then d
      else
        let (d', r) := d.aperPut st w line ⟨q.data, q.ash⟩
        if r = .wait then d else (d'.modStack st fun x => { x with waiting := x.waiting.erase q }).replyAcc .ok) d

/-- Flush one partial block (R206). -/
def Dev.flushBlock (d : Dev) (st w b : Nat) : Dev :=
  match tget none (d.stack st).partials (partKey w b) with
  | none => d
  | some p => (d.compress st w b p).retryParts st

/-- Flush every partial block of a window (R206, R219). -/
def Dev.flushWindow (d : Dev) (st w : Nat) : Dev :=
  (((d.stack st).partials.map (·.1)).filter fun k => k / 2 ^ 22 = w).foldl (fun d k => d.flushBlock st w (k % 2 ^ 22)) d

/-- Sectors a decoded aperture line comes from: its data and its scale. -/
def CkptCfg.sources (c : CkptCfg) (line : Nat) : Nat × Nat :=
  let b := line / c.lines
  let off := (line % c.lines) * (256 / c.lines)
  ((c.data + 256 * b + off) / 64, (c.scale + b) / 64)

/-- A stored value decoded to the window's input format (R207): the raw element and whether it is ash. -/
def decodeCkpt (c : CkptCfg) (s q : Nat) : Nat × Bool :=
  if s = 0xFF then (0, true)
  else match c.code.decode q with
    | .fin neg m e => let (n, dd) := frac m (e + (s : Int) - 127); ((c.inFmt.narrow neg n dd none).raw, false)
    | _ => (0, true)

/-- Whether an aperture line lies in an enabled window (R207). -/
def Dev.aperOk (d : Dev) (st w line : Nat) : Bool := (d.ckpt st w).enable && decide (line / (d.ckpt st w).lines < (d.ckpt st w).blocks)

/-- Elements of an aperture line in the window's input format (R207). -/
def Dev.aperElems (d : Dev) (st w line : Nat) : List (Nat × Bool) :=
  let c := d.ckpt st w
  let n := 256 / c.lines
  if !d.aperOk st w line then List.replicate n (0, true)
  else
    let b := line / c.lines
    let a := c.data + 256 * b + (line % c.lines) * n
    let (ds, ss) := c.sources line
    let dl := d.peek st ds
    let sl := d.peek st ss
    let s := (sl.bytes.getD ((c.scale + b) % 64) 0).toNat
    (List.range n).map fun i =>
      let (r, x) := decodeCkpt c s (dl.bytes.getD ((a + i) % 64) 0).toNat
      (if x then 0 else r, x || dl.ash || sl.ash)

/-- A line packed from elements; its mark is the OR of theirs. -/
def packLine (bf16 : Bool) (es : List (Nat × Bool)) : Line :=
  ⟨es.flatMap fun e => leBytes (if bf16 then 2 else 4) e.1, es.any (·.2)⟩

/-! ### Recompute chains -/

/-- Where a chain's elements come from: a sector of data space, or a line of an aperture (R208). -/
inductive ChainSrc where
  | data (sec : Nat)
  | aper (w line : Nat)
  deriving DecidableEq, Repr

/-- An OP entry (R202). -/
structure ChainOp where
  opc : Nat
  imm : Nat
  arg : Nat
  deriving DecidableEq, Repr

/-- A chain read from engine 0's table: whether its data-space source is BF16, the row length, the operations. -/
structure Chain where
  bf16 : Bool
  row : Nat
  ops : List ChainOp
  deriving DecidableEq, Repr

/-- Entry `i` of an engine's table (R200). -/
def Dev.hobEntry (d : Dev) (o : ObjDef) (st i : Nat) : Nat := leNat (d.domRead o (16 * i) 16 st)

/-- The table entries that a read through chain `k` works with, the HEAD and its OPs, as they stand now (R200); none for chain 0. -/
def Dev.chainEntries (d : Dev) (st k : Nat) : List Nat :=
  if k = 0 then []
  else
    let e := d.hobEntry Obj.HOB_TABLE_0 st k
    e :: (List.range (min 8 (bits e 114 111))).map fun i =>
      let j := bits e 122 115 + i
      if 255 < j then 0 else d.hobEntry Obj.HOB_TABLE_0 st j

/-- An OP entry, none where it is illegal (R202). -/
def chainOpOf (e : Nat) : Option ChainOp :=
  let opc := bits e 123 118
  if bits e 127 124 = 2 ∧ 1 ≤ opc ∧ opc ≤ 0xC then some ⟨opc, bits e 117 86, bits e 85 62⟩ else none

/-- The chain that a HEAD and its OPs spell; none where R211 calls it misused. -/
def chainOf : List Nat → Option Chain
  | [] => none
  | e :: ops =>
    if bits e 127 124 ≠ 1 ∨ 8 < bits e 114 111 then none
    else (ops.mapM chainOpOf).map fun ops => ⟨bit e 123, 64 * (bits e 110 103 + 1), ops⟩

/-- RMSNORM or LAYERNORM, which work on whole rows (R209). -/
def ChainOp.isRow (o : ChainOp) : Bool := o.opc = 8 || o.opc = 9

/-- Elements of a source widened to FP32. -/
def Dev.srcElems (d : Dev) (st : Nat) (bf16 : Bool) : ChainSrc → List (Nat × Bool)
  | .data sec => wideElems bf16 (d.peek st sec)
  | .aper w l => (d.aperElems st w l).map fun e => (widen bf16 e.1, e.2)

/-- `n` FP32 values from a stack address (R209); beyond the stack they are ash. -/
def Dev.vecElems (d : Dev) (st a n : Nat) : List (Nat × Bool) :=
  (List.range ((n + 15) / 16)).flatMap fun i =>
    if 2 ^ 30 ≤ a / 64 + i then List.replicate 16 (0, true) else wideElems false (d.peek st (a / 64 + i))

/-- The second operand of ADD_MEM for a source (R210), none where it lies on another stack. -/
def Dev.memSrc (d : Dev) (st arg : Nat) : ChainSrc → Option ChainSrc
  | .data sec =>
    let pa : Int := (d.paOf st sec : Int) + toSigned 24 arg * 4096
    if pa < 0 ∨ (2 : Int) ^ 41 ≤ pa then none
    else
      let (s, c) := d.decodePA pa.toNat
      if s = st then some (.data c) else none
  | .aper w l =>
    let pa : Int := (aperPA st w l : Int) + toSigned 24 arg * 4096
    if pa < (2 : Int) ^ 41 ∨ (2 : Int) ^ 42 ≤ pa ∨ bits pa.toNat 40 36 ≠ st then none
    else some (.aper (bits pa.toNat 35 32) (bits pa.toNat 31 0 / 64))

/-- Sum over lanes: lane j takes the elements whose index is j modulo 16, in order, then a pairwise tree (R460). -/
def rowSum (f : Nat → Nat) (xs : List Nat) : Nat :=
  let lanes := (List.range 16).map fun j =>
    ((xs.zipIdx).filter fun xi => xi.2 % 16 = j).foldl (fun s xi => fadd s (f xi.1)) 0
  (pairSum 4 lanes).headD 0

/-- FP32 value of 1/n. -/
def recipNat (n : Nat) : Nat := round32 false 1 n

/-- RMSNORM and LAYERNORM over a whole row (R202, R460). -/
def rowNorm (layer : Bool) (imm : Nat) (xs : List (Nat × Bool)) : List (Nat × Bool) :=
  let vs := xs.map (·.1)
  let ash := xs.any (·.2)
  let r := recipNat vs.length
  let q := fmul (rowSum (fun x => fmul x x) vs) r
  if layer then
    let mean := fmul (rowSum id vs) r
    let s := frsqrt (fadd (fmax (fsub q (fmul mean mean)) 0) imm)
    vs.map fun x => (fmul (fsub x mean) s, ash)
  else
    let s := frsqrt (fadd q imm)
    vs.map fun x => (fmul x s, ash)

/-- Result of an elementwise operation without a second operand (R202). -/
def chainUnary (opc imm x : Nat) : Nat :=
  match opc with
  | 1 => fmul x imm
  | 2 => fadd x imm
  | 3 => fmax x 0
  | 4 => fmax (fneg imm) (fmin x imm)
  | 5 => fexp2Mul x imm
  | 6 => fsilu x
  | _ => fgelu x

/-- Combine elements with a second operand, ash when either is. -/
def zipOp (f : Nat → Nat → Nat) (xs ys : List (Nat × Bool)) : List (Nat × Bool) :=
  (xs.zipIdx).map fun xi => let y := ys.getD xi.2 (0, true); (f xi.1.1 y.1, xi.1.2 || y.2)

/-- The lines a chain works on for one source line and that line's place among them: the row when an operation needs it
(R209), else the line alone; none where the row does not lie wholly on the stack or in the window (R211). -/
def Dev.chainRow (d : Dev) (st : Nat) (c : Chain) (bf16 : Bool) (src : ChainSrc) : Option (List ChainSrc × Nat × Nat) :=
  let es := if bf16 then 2 else 4
  let n := c.row * es / 64
  let at_ := match src with | .data s => s | .aper _ l => l
  let col := at_ % n * (64 / es)
  if c.ops.any ChainOp.isRow then
    let base := at_ - at_ % n
    match src with
    | .data _ => if 2 ^ 30 < base + n then none else some ((List.range n).map fun i => .data (base + i), at_ % n, 0)
    | .aper w _ =>
      let k := d.ckpt st w
      if !k.enable ∨ 256 * k.blocks < (base + n) * (64 / es) then none
      else some ((List.range n).map fun i => .aper w (base + i), at_ % n, 0)
  else some ([src], 0, col)

/-- Narrow a chain's result to the source format: a NaN to BF16 becomes +0 marked ash (R199). -/
def chainNarrow (bf16 : Bool) (x : Nat × Bool) : Nat × Bool :=
  if bf16 then let r := Fmt.bf16.convert x.1 0 none; (r.raw, r.ash || x.2) else x

/-- Sectors read for a source. -/
def Dev.srcSecs (d : Dev) (st : Nat) : ChainSrc → List Nat
  | .data s => [s]
  | .aper w l => if d.aperOk st w l then [((d.ckpt st w).sources l).1, ((d.ckpt st w).sources l).2] else []

/-- Sector ranges a row slot holds. -/
def Dev.rowRanges (d : Dev) (st : Nat) (srcs : List ChainSrc) : List (Nat × Nat) :=
  match srcs.head?, srcs.getLast? with
  | some (.data a), some (.data _) => [(a, srcs.length)]
  | some (.aper w a), some (.aper _ b) =>
    let k := d.ckpt st w
    let (d1, s1) := k.sources a
    let (d2, s2) := k.sources b
    [(d1, d2 + 1 - d1), (s1, s2 + 1 - s1)]
  | _, _ => []

/-- Most recently used first, at most two (R209). -/
def lru (x : HobSlot) (l : List HobSlot) : List HobSlot := (x :: l.filter fun y => decide (y.key ≠ x.key)).take 2

/-- What a row slot was loaded from: data space with its format, or an aperture under its window's setting. -/
def Dev.rowKey (d : Dev) (st : Nat) (bf16 : Bool) (srcs : List ChainSrc) : List Nat :=
  match srcs.head? with
  | some (.data a) => [0, a, srcs.length, if bf16 then 1 else 0]
  | some (.aper w a) => [1, w, a, srcs.length, d.get Obj.CKPT_WIN st w]
  | none => []

/-- Whether a source can be read: a line of a disabled window, or beyond its blocks, cannot (R207). -/
def Dev.srcOk (d : Dev) (st : Nat) : ChainSrc → Bool
  | .data _ => true
  | .aper w l => d.aperOk st w l

/-- Read sources with all that R193 and R207 count: their elements widened to FP32. -/
def Dev.readSrcs (d : Dev) (st : Nat) (bf16 : Bool) (rs : ReadSource) (srcs : List ChainSrc) : Dev × List (Nat × Bool) :=
  let xs := srcs.flatMap fun s => d.srcElems st bf16 s
  let d := d.bump Obj.HOB_MISUSE st (srcs.filter fun s => !d.srcOk st s).length
  (d.touch st (srcs.flatMap fun s => d.srcSecs st s).dedup rs, xs)

/-- The elements of a row, from its slot, or read into one, which is counted (R209). -/
def Dev.rowLoad (d : Dev) (st : Nat) (bf16 : Bool) (rs : ReadSource) (srcs : List ChainSrc) : Dev × List (Nat × Bool) :=
  let key := d.rowKey st bf16 srcs
  match (d.stack st).rowSlots.find? fun x => x.key = key with
  | some x => (d.modStack st fun y => { y with rowSlots := lru x y.rowSlots }, x.vals)
  | none =>
    let ranges := d.rowRanges st srcs
    let (d, xs) := d.readSrcs st bf16 rs srcs
    ((d.bump Obj.ROW_RELOADS st).modStack st fun y => { y with rowSlots := lru ⟨key, ranges, xs⟩ y.rowSlots }, xs)

/-- The `n` values of a vector operand at 4 KiB unit `arg`, from their slot, or read into one (R209). -/
def Dev.vecLoad (d : Dev) (st arg n : Nat) : Dev × List (Nat × Bool) :=
  let k := (n + 15) / 16
  match (d.stack st).vecSlots.find? fun x => x.key = [arg, n] with
  | some x => (d.modStack st fun y => { y with vecSlots := lru x y.vecSlots }, x.vals)
  | none =>
    let xs := (d.vecElems st (4096 * arg) n).take n
    let d := d.touch st (((List.range k).map (64 * arg + ·)).filter fun s => decide (s < 2 ^ 30)) .hob
    (d.modStack st fun y => { y with vecSlots := lru ⟨[arg, n], [(64 * arg, k)], xs⟩ y.vecSlots }, xs)

/-- Apply one operation to elements of sources `srcs`, of which the first is column `col` of its row. -/
def Dev.chainApply (d : Dev) (st : Nat) (bf16 : Bool) (row col : Nat) (srcs : List ChainSrc) (xs : List (Nat × Bool))
    (o : ChainOp) : Dev × List (Nat × Bool) :=
  match o.opc with
  | 8 => (d, rowNorm false o.imm xs)
  | 9 => (d, rowNorm true o.imm xs)
  | 0xA => let (d, v) := d.vecLoad st o.arg row; (d, zipOp fmul xs (v.drop col))
  | 0xB => let (d, v) := d.vecLoad st o.arg row; (d, zipOp fadd xs (v.drop col))
  | 0xC => let (d, ys) := d.readSrcs st bf16 .hob (srcs.filterMap fun s => d.memSrc st o.arg s); (d, zipOp fadd xs ys)
  | c => (d, xs.map fun x => (chainUnary c o.imm x.1, x.2))

/-- Apply operations in order. -/
def Dev.chainOps (d : Dev) (st : Nat) (bf16 : Bool) (row col : Nat) (srcs : List ChainSrc) (ops : List ChainOp) (xs : List (Nat × Bool)) :
    Dev × List (Nat × Bool) :=
  ops.foldl (fun r o => r.1.chainApply st bf16 row col srcs r.2 o) (d, xs)

/-- The operations up to the last one that works on whole rows; those after it work on the line alone. -/
def Chain.rowOps (c : Chain) : List ChainOp := (c.ops.reverse.dropWhile fun o => !o.isRow).reverse

/-- A line run through a chain (R208): its row from a row slot when an operation needs it, the second operands of ADD_MEM read anew each
time, for engine 0 has nowhere to keep them (log entry 49). None where the chain is misused, and then nothing is read. -/
def Dev.chainRun (d : Dev) (st : Nat) (c : Chain) (bf16 : Bool) (src : ChainSrc) (rs : ReadSource) : Option (Dev × Line) :=
  match d.chainRow st c bf16 src with
  | none => none
  | some (srcs, idx, col) =>
    let n := if bf16 then 32 else 16
    if c.ops.any fun o => o.opc = 0xC && srcs.any fun s => (d.memSrc st o.arg s).isNone then none
    else
      let pre := c.rowOps
      let (d, xs) := if pre.isEmpty then d.readSrcs st bf16 rs srcs else d.rowLoad st bf16 rs srcs
      let (d, xs) := d.chainOps st bf16 c.row 0 srcs pre xs
      let (d, ys) := d.chainOps st bf16 c.row (col + idx * n) [src] (c.ops.drop pre.length) ((xs.drop (idx * n)).take n)
      some (d.bump Obj.CHAIN_ELEMENTS st n, packLine bf16 (ys.map (chainNarrow bf16)))

/-- Count a misused chain, and report the first by a slot's transfers in each of its steps (R211). -/
def Dev.chainMisuse (d : Dev) (st : Nat) (c : Option Nat) : Dev :=
  let d := d.hobMisuse st
  match c with
  | none => d
  | some c =>
    if (d.stack st).misused.contains c then d
    else (d.modStack st fun x => { x with misused := c :: x.misused }).raise Event.hobMisuse .stack st (some c)

/-- Read a source through the chain whose entries are `es` (none: no chain) for a requester charged to slot `c` (R207, R208, R211). -/
def Dev.hobRead (d : Dev) (st : Nat) (src : ChainSrc) (es : List Nat) (c : Option Nat) (rs : ReadSource) : Dev × Line :=
  let isAper := match src with | .aper .. => true | .data _ => false
  let inBf := match src with | .aper w _ => (d.ckpt st w).bf16 | .data _ => false
  if !d.srcOk st src then (d.hobMisuse st, Line.zerosAsh)
  else if es.isEmpty then
    match src with
    | .data sec => d.readSec st sec rs
    | .aper w l =>
      let v := packLine inBf (d.aperElems st w l)
      (d.touch st (d.srcSecs st src) rs, v)
  else match chainOf es with
    | none => (d.chainMisuse st c, Line.zerosAsh)
    | some ch => (d.chainRun st ch (if isAper then inBf else ch.bf16) src rs).getD (d.chainMisuse st c, Line.zerosAsh)

/-- The sector whose pseudo-channel a request for a source meets: of an aperture line, that of its block's data. -/
def Dev.srcSec (d : Dev) (st : Nat) : ChainSrc → Nat
  | .data s => s
  | .aper w l => ((d.ckpt st w).sources l).1 % 2 ^ 30

/-- A read of a data sector or an aperture line of a stack, met as `g` says, through the chain entries `es`; one whose fifth transfer
attempt fails is uncorrectable (R174). -/
def Dev.stackReadAs (d : Dev) (g : Gate) (st : Nat) (src : ChainSrc) (es : List Nat) (c : Option Nat) (rs : ReadSource) : Dev × Got :=
  let sec := d.srcSec st src
  match g with
  | .absent => (d, .absent)
  | .waits => (d, .wait)
  | .stopped => (d.wakeRegion (st / 2), .wait)
  | .failed => (d.chargeHbm c st 64, .line Line.zerosAsh)
  | .serve =>
    let n := d.crcFails st sec
    let d := (d.wakePch st sec).chargeHbm c st 64
    let d := if es.isEmpty ∧ src = .data sec then d else d.modStack st fun x => { x with hobClock := true }
    let (d, l) := if 5 ≤ n then d.failedRead st sec rs else d.hobRead st src es c rs
    (d.crcMismatch st sec n, .line l)

/-- A read of a data sector or an aperture line through chain `k`, as it arrives. -/
def Dev.stackRead (d : Dev) (st : Nat) (src : ChainSrc) (k : Nat) (c : Option Nat) (rs : ReadSource) : Dev × Got :=
  d.stackReadAs (d.gate st (d.srcSec st src)) st src (d.chainEntries st k) c rs

/-- A write of an aperture line, met as `g` says (R174, R187, R206, R218). -/
def Dev.aperWriteAs (d : Dev) (g : Gate) (st w l : Nat) (v : Line) (c : Option Nat) : Dev × Acc :=
  let sec := d.srcSec st (.aper w l)
  match g with
  | .absent => (d, .absent)
  | .waits => (d, .wait)
  | .stopped => (d.wakeRegion (st / 2), .wait)
  | .failed => ((d.chargeHbm c st 64).bump Obj.LATE_WRITES_ABSORBED st, .ok)
  | .serve =>
    let n := d.crcFails st sec
    match (d.modStack st fun x => { x with hobClock := true }).aperPut st w l (if 5 ≤ n then Line.zerosAsh else v) with
    | (d', .wait) => (d'.crcMismatch st sec n, .wait)
    | (d', r) => (((d'.chargeHbm c st 64).crcMismatch st sec n).retryParts st, r)

/-- A write of an aperture line as it arrives. -/
def Dev.aperWrite (d : Dev) (st w l : Nat) (v : Line) (c : Option Nat) : Dev × Acc :=
  d.aperWriteAs (d.gate st (d.srcSec st (.aper w l))) st w l v c

/-! ### Fold-add (R213) -/

/-- The sum of two lines under ADD_FMT. -/
def foldLine (bf16 : Bool) (a b : Line) : Line :=
  if a.ash || b.ash then Line.zerosAsh
  else
    let es := List.zipWith (fun x y => fadd x.1 y.1) (wideElems bf16 a) (wideElems bf16 b)
    if bf16 then
      let r := es.map fun e => Fmt.bf16.convert e 0 none
      if r.any (·.ash) then Line.zerosAsh else ⟨r.flatMap fun n => leBytes 2 n.raw, false⟩
    else ⟨es.flatMap fun e => leBytes 4 e, false⟩

/-- Engine 1 adds a line into a sector, met as `g` says (R174, R213). -/
def Dev.foldAddAs (d : Dev) (g : Gate) (st sec : Nat) (bf16 : Bool) (v : Line) (c : Option Nat) : Dev × Acc :=
  match g with
  | .absent => (d, .absent)
  | .waits => (d, .wait)
  | .stopped => (d.wakeRegion (st / 2), .wait)
  | .failed => ((d.chargeHbm c st 64).bump Obj.LATE_WRITES_ABSORBED st, .ok)
  | .serve =>
    let n := d.crcFails st sec
    let d := (d.wakePch st sec).chargeHbm c st 64
    let (d, old) := d.readSec st sec .hob
    let d := d.modStack st fun x => { x with hobClock := true }
    let d := (d.writeSec st sec (foldLine bf16 old (if 5 ≤ n then Line.zerosAsh else v))).bump Obj.FOLD_ADD_SECTORS st
    (d.crcMismatch st sec n, .ok)

/-- Engine 1 adds a line into a sector as it arrives. -/
def Dev.foldAdd (d : Dev) (st sec : Nat) (bf16 : Bool) (v : Line) (c : Option Nat) : Dev × Acc :=
  d.foldAddAs (d.gate st sec) st sec bf16 v c

/-! ### Requests to a stack (R179, R180, R200) -/

/-- Serve a request, met as `g` says, with the failed attempts it carries, and show its answer; what must wait keeps a tag (R186, R206). -/
def Dev.serveAs (d : Dev) (g : Gate) (st : Nat) (w : HbmWait) : Dev :=
  let keep := d.crc
  let d := { d with crc := [(hbmKey st w.sec, w.crc)] }
  let held := fun (d : Dev) => d.holdReq st { w with crc := 0 }
  let put := fun (r : Dev × Acc) => if r.2 = Acc.wait then held r.1 else r.1.replyAcc r.2
  let d := match w.win, w.write, w.fold with
    | none, _, some bf => put (d.foldAddAs g st w.sec bf ⟨w.data, w.ash⟩ w.ctx)
    | none, true, none => put (d.hbmPutAs g st w.sec ⟨w.data, w.ash⟩ w.mask w.ctx)
    | some a, true, _ => put (d.aperWriteAs g st a.1 a.2 ⟨w.data, w.ash⟩ w.ctx)
    | win, false, _ =>
      let src := match win with
        | some a => ChainSrc.aper a.1 a.2
        | none => .data w.sec
      let r := d.stackReadAs g st src w.chain w.ctx w.source
      if r.2 = Got.wait then held r.1 else r.1.replyGot r.2
  { d with crc := keep }

/-- Offer a request to its stack: it waits with a tag for a retraining channel, at the region boundary for the clock, or is served. -/
def Dev.offer (d : Dev) (st : Nat) (w : HbmWait) : Dev :=
  match d.gate st w.sec with
  | .stopped => (d.wakeRegion (st / 2)).toBoundary st w
  | .waits => d.holdReq st w
  | g => d.serveAs g st w

/-- Offer the requests at the region boundary once more, in arrival order (R25, R179). -/
def Dev.letIn (d : Dev) (st : Nat) : Dev :=
  (d.stack st).boundary.foldl (fun d w => d.offer st w) (d.modStack st fun x => { x with boundary := [] })

/-- A request arrives in its turn: one that loses to a rival in its cycle waits for the next (R180, R335). -/
def Dev.request (d : Dev) (st : Nat) (t : Turn) (w : HbmWait) : Dev :=
  let (d, won) := d.grantTo (arbStack st) requesters t.who.val (t.rivals.map Fin.val)
  if won then (d.offer st w).letIn st else d.toBoundary st w

/-- The clock of a region runs again: what waits at its boundary is served in arrival order (R25, R374). -/
def Dev.openBoundary (d : Dev) (g : Nat) : Dev := ((d.serveEdge g).letIn (2 * g)).letIn (2 * g + 1)

/-! ### Jobs (R214) and doorbells (R215) -/

/-- A JOB entry (R214). -/
structure HobJob where
  op : Nat
  es : Nat
  rows : Nat
  cols : Nat
  src : Nat
  dst : Nat
  sp : Nat
  dp : Nat
  deriving DecidableEq, Repr

/-- The JOB that an entry of engine 1's table spells, none where it is not a legal one. -/
def hobJobOf (e : Nat) : Option HobJob :=
  let op := bits e 123 120
  let f := bits e 119 118
  if bits e 127 124 = 3 ∧ 1 ≤ op ∧ op ≤ 3 ∧ f < 3 then
    some ⟨op, if f = 0 then 4 else if f = 1 then 2 else 1, 32 * (bits e 117 111 + 1), 32 * (bits e 110 104 + 1),
      64 * bits e 103 74, 64 * bits e 73 44, 64 * bits e 43 28, 64 * bits e 27 12⟩
  else none

/-- The JOB in entry `i` of engine 1's table. -/
def Dev.hobJob (d : Dev) (st i : Nat) : Option HobJob := hobJobOf (d.hobEntry Obj.HOB_TABLE_1 st i)

/-- A doorbell word as it is queued: above RUN_JOB stands the entry it names, for a job accepted finishes with that entry (R200). -/
def Dev.queuedBell (d : Dev) (st v : Nat) : Nat :=
  if bits v 63 60 = 1 then v % 2 ^ 64 + 2 ^ 64 * d.hobEntry Obj.HOB_TABLE_1 st (bits v 58 51) else v

/-- Byte `b` of row `r` of the destination, with the mark of the source sector it draws on. -/
def Dev.jobByte (d : Dev) (st : Nat) (j : HobJob) (r b : Nat) : Byte × Bool :=
  if j.op = 3 then (0, false)
  else
    let e := b / j.es
    let (sr, sc) := if j.op = 1 then (e, r) else (r, e)
    let a := j.src + sr * j.sp + sc * j.es + b % j.es
    let l := d.peek st (a / 64 % 2 ^ 30)
    (l.bytes.getD (a % 64) 0, l.ash)

/-- Write a run of bytes with marks: a sector that draws on a marked byte becomes an ash sector (R214). -/
def Dev.writeMarked (d : Dev) (st a : Nat) (bs : List (Byte × Bool)) : Dev :=
  (touchedSectors a bs.length).foldl (fun d i =>
    let ash := (List.range 64).any fun j => let x := 64 * i + j; decide (a ≤ x) && (bs.getD (x - a) (0, false)).2
    (d.mergeUsed st a bs.length i).writeSec st (i % 2 ^ 30) { d.mergeLine st a (bs.map (·.1)) i with ash := ash }) d

/-- Run a job: every source sector is read once, then the destination rows are written (R214). -/
def Dev.runJob (d : Dev) (st : Nat) (j : HobJob) : Dev :=
  let secs := (List.range j.rows).flatMap fun r =>
    (List.range ((j.cols * j.es + 63) / 64)).map fun i => (j.src + r * j.sp) / 64 % 2 ^ 30 + i
  let d0 := d
  let d := if j.op = 3 then d else d.touch st secs.dedup .hob
  let (h, w) := if j.op = 1 then (j.cols, j.rows) else (j.rows, j.cols)
  let d := (List.range h).foldl (fun d r =>
    d.writeMarked st (j.dst + r * j.dp) ((List.range (w * j.es)).map fun b => d0.jobByte st j r b)) d
  d.bump Obj.JOBS_DONE st

/-- The records a window needs in engine 1's 16,384 (R212). -/
def BmaxCfg.records (c : BmaxCfg) : Nat := c.m / 32 * (c.k / 32)

/-- Whether an ARM_BMAX of window `w` waits among the doorbells. -/
def Dev.armQueued (d : Dev) (st w : Nat) : Bool := (d.stack st).doorbells.any fun v => bits v 63 60 = 2 && bits v 58 56 = w

/-- Whether window `w`'s records fit beside those of the other armed windows, and with `queued` those to be armed before it (R212). -/
def Dev.bmaxFits (d : Dev) (st w : Nat) (queued : Bool) : Bool :=
  let others := ((List.range 8).filter fun i => i ≠ w && ((tget none (d.stack st).bmax i).isSome || (queued && d.armQueued st i))).map
    fun i => (d.bmaxCfg st i).records
  decide (others.foldl (· + ·) 0 + (d.bmaxCfg st w).records ≤ 16384)

/-- Engine 1 takes up a doorbell: arming, closing and flushing happen now; a job's writes happen when it finishes. A window that was
made too large for the SRAM while its doorbell was queued is not armed (DESIGN CHOICE, log entry 49). -/
def Dev.beginBell (d : Dev) (st v : Nat) : Dev :=
  match bits v 63 60 with
  | 2 =>
    let w := bits v 58 56
    if d.bmaxFits st w false then d.modStack st fun x => { x with bmax := tset none x.bmax w (some ⟨[], 0xFFFFFFFF, 0, v⟩) } else d
  | 3 => d.closeBmax st (bits v 58 56)
  | 4 => d.flushWindow st (bits v 58 55)
  | _ => d

/-- Queue a doorbell of a stack (R215); engine 1 takes it up at once when none is ahead. -/
def Dev.ringHob (d : Dev) (st v : Nat) : Dev :=
  let empty := (d.stack st).doorbells.isEmpty
  let q := d.queuedBell st v
  let d := d.modStack st fun x => { x with doorbells := x.doorbells ++ [q], hobClock := true }
  if empty then d.beginBell st v else d

/-- What a write to HOB_DOORBELL answers (R215, R212, R354, R397): a status of R357. -/
def Dev.hobBell (d : Dev) (st v : Nat) : Dev × Nat :=
  let state := d.get Obj.STACK_STATE st
  if state = 0 ∨ state = 1 ∨ state = 4 then (d, 3)
  else if 16 ≤ (d.stack st).doorbells.length then (d, 3)
  else match bits v 63 60 with
    | 1 => if (d.hobJob st (bits v 58 51)).isSome then (d.ringHob st v, 0) else (d, 4)
    | 2 => if d.bmaxFits st (bits v 58 56) true then (d.ringHob st v, 0) else (d, 4)
    | 3 | 4 => (d.ringHob st v, 0)
    | _ => (d, 4)

end Sys2Proof.Machine
end

