-- ==== Sys2Proof/Machine/PowerOps.lean ====
section
/-! DEFINITION. Operating points, region clocks, phases and the damper (R374 to R386). -/

namespace Sys2Proof.Machine

/-- Change the power state. -/
def Dev.modPower (d : Dev) (f : Power → Power) : Dev := { d with power := f d.power }

/-- DAMPER_N, or the internal damper net, is low (R385, R448). -/
def Dev.damperLow (d : Dev) : Bool := !d.power.pin || !d.power.net

/-- From a damper assertion until DAMPER_HOLD has run out, or while a critical temperature holds (R386, R390). -/
def Dev.damped (d : Dev) : Bool := d.damperLow || d.power.rise.isSome || d.power.critical

/-- Preferred point of a region's current phase (R378, R379). -/
def Dev.phaseOp (d : Dev) (g : Nat) : Nat := d.get Obj.PHASE_OP g (d.get Obj.CURRENT_PHASE g)

/-- A region in banked service, which runs at no more than OP4 (R378). -/
def Dev.regionBanked (d : Dev) (g : Nat) : Bool := d.get Obj.REGION_STATE g = 3

/-- A region's target operating point (R378). -/
def Dev.regionTarget (d : Dev) (g : Nat) : Nat :=
  if d.damperLow || d.power.critical then 0
  else
    let m := min (min (d.phaseOp g) (d.get Obj.OP_LIMIT g)) (min (d.get Obj.POWER_CEILING g) (d.get Obj.THERMAL_CEILING g))
    if d.regionBanked g || d.get Obj.PILOT_STATE = 2 then min 4 m else m

/-- A region's clock stops for a while in this tick (R232, R377, R385). -/
def Dev.holdClock (d : Dev) (g : Nat) : Dev := if d.clockHeld.contains g then d else { d with clockHeld := g :: d.clockHeld }

/-- Begin a move to the target when a running region stands elsewhere (R377). -/
def Dev.retarget (d : Dev) (g : Nat) : Dev :=
  let t := d.regionTarget g
  if d.get Obj.CLOCK_STATE g = 2 ∧ d.get Obj.REGION_OP g ≠ t then
    (((d.put Obj.CLOCK_STATE 3 g).bump Obj.OP_MOVES g).modPower fun p => { p with dest := tset 0 p.dest g t }).holdClock g
  else d

/-- Recompute the target of every region. -/
def Dev.retargetAll (d : Dev) : Dev := (List.range 16).foldl Dev.retarget d

/-- A write to PHASE_DOORBELL, with the status it completes with (R379). -/
def Dev.phaseBell (d : Dev) (v : Nat) : Dev × Nat :=
  let ph := bits v 63 61
  if 5 ≤ ph then (d, 4)
  else ((List.range 16).foldl (fun d g => if bit v g then (d.put Obj.CURRENT_PHASE ph g).retarget g else d) d, 0)

/-- Start a stopped region's clock (R374); a trip leaves it stopped (R390). -/
def Dev.clockStart (d : Dev) (g : Nat) : Dev :=
  if d.get Obj.CLOCK_STATE g = 0 ∧ !d.power.tripped then d.put Obj.CLOCK_STATE 1 g else d

/-- A region's PLL has locked: it runs at its target (R375), or at OP0 where its clock was stopped at an edge of the damper (R385). -/
def Dev.clockRunning (d : Dev) (g : Nat) : Dev :=
  let op := if d.power.clamped.contains g then 0 else d.regionTarget g
  ((d.put Obj.CLOCK_STATE 2 g).put Obj.REGION_OP op g).modPower fun p => { p with clamped := p.clamped.filter fun x => x ≠ g }

/-- The Stokers run at 0.75 GHz while the damper is low or a critical temperature holds, or while they are throttled (R242). -/
def Dev.stokerRate (d : Dev) : Dev :=
  (List.range 2).foldl (fun d t =>
    let v := d.damperLow || d.power.critical || d.power.hotStokers.contains t
    if (d.stoker t).half = v then d else d.modStoker t fun x => { x with half := v }) d

/-- Every region clamped to OP0: a running region begins its forced move, one in a move abandons it, a stopped one starts at OP0
when next woken (R385). -/
def Dev.clampAll (d : Dev) : Dev :=
  (List.range 16).foldl (fun d g =>
    let st := d.get Obj.CLOCK_STATE g
    if (st = 2 ∧ d.get Obj.REGION_OP g ≠ 0) ∨ st = 3 then
      let d := if st = 2 then (d.put Obj.CLOCK_STATE 3 g).bump Obj.OP_MOVES g else d
      (d.modPower fun p => { p with dest := tset 0 p.dest g 0 }).holdClock g
    else if st ≤ 1 ∧ !d.power.clamped.contains g then d.modPower fun p => { p with clamped := g :: p.clamped }
    else d) d

/-- Every POWER_CEILING at OP0 (R386). -/
def Dev.ceilingsZero (d : Dev) : Dev := (List.range 16).foldl (fun d g => d.put Obj.POWER_CEILING 0 g) d

/-- A falling edge of the damper (R385, R386): counted and reported; a rise and a fall within one tick are one assertion. -/
def Dev.damperEdge (d : Dev) : Dev :=
  let same := decide (d.power.rise = some d.tick)
  let d := d.modPower fun p => { p with rise := none }
  if same then d.stokerRate
  else
    let d := (d.bump Obj.DAMPER_ASSERTIONS).raise Event.damperAsserted .global 0
    (d.ceilingsZero.clampAll).stokerRate

/-- Set a level of the damper's pin and net: a fall of the combined level asserts it, a rise begins the hold (R386, R448). -/
def Dev.setDamper (d : Dev) (pin net : Bool) : Dev :=
  let was := d.damperLow
  let d := d.modPower fun p => { p with pin := pin, net := net }
  if !was && d.damperLow then d.damperEdge
  else if was && !d.damperLow then (d.modPower fun p => { p with rise := some d.tick }).stokerRate.retargetAll
  else d

/-- The hearths of steps that run wait for their clusters' release again (R387): a hold of DAMPER_N or a critical temperature has ended. -/
def Dev.stagger (d : Dev) : Dev :=
  if d.get Obj.RELEASE_STAGGER_EN = 0 then d
  else (d.hearths.map (·.1)).foldl (fun d h => d.modHearth h fun x => { x with run := x.run.map fun r => { r with released := false } }) d

end Sys2Proof.Machine
end

