-- ==== Sys2Proof/Machine/GrateOps.lean ====
section
/-! DEFINITION. The grates' and the vector unit's shared operations: elements in scratchpad (R53, R61), tags (R88, R89), exact sums
(R34, R55), block-product skips (R120, R121), scale slots (R69). -/

namespace Sys2Proof.Machine

/-! ### Elements in scratchpad -/

/-- Element `i` of a run that begins at byte `off`, with its ash mark: an element in two lines is ash when either is (R53, R61). -/
def Hearth.elem (x : Hearth) (f : Fmt) (off i : Nat) : Nat × Bool :=
  let b := i * f.width
  let a := off + b / 8
  let n := (b % 8 + f.width + 7) / 8
  (x.num a n >>> (b % 8) % 2 ^ f.width, x.ashAt a n)

/-- Elements as bytes in storage order (R7, R53). -/
def packElems (f : Fmt) (es : List Nat) : List Byte :=
  match f.width with
  | 4 => pack 2 1 es.length es
  | 6 => pack 4 3 es.length es
  | w => es.flatMap fun e => leBytes (w / 8) e
where
  pack (n bytes : Nat) : Nat → List Nat → List Byte
    | 0, _ => []
    | k + 1, es =>
      if es.isEmpty then []
      else leBytes bytes ((es.take n).foldr (fun e v => e % 2 ^ f.width + 2 ^ f.width * v) 0) ++ pack n bytes k (es.drop n)

/-- Whether some marked element of a run that begins at `off` lies in line `j` counted from the run's first line. -/
def markedLine (f : Fmt) (off : Nat) (marked : List Nat) (j : Nat) : Bool :=
  marked.any fun i =>
    let a := off % 64 + i * f.width / 8
    let z := off % 64 + ((i + 1) * f.width - 1) / 8
    decide (a / 64 ≤ j) && decide (j ≤ z / 64)

/-- A run of elements written by the hearth's own agents. -/
def Dev.ownElems (d : Dev) (h : Nat) (f : Fmt) (off : Nat) (es : List (Nat × Bool)) : Dev :=
  let marked := (es.zipIdx).filterMap fun e => if e.1.2 then some e.2 else none
  d.ownRun h off (packElems f (es.map (·.1))) (markedLine f off marked)

/-! ### Tags -/

/-- Tag record `t` of a hearth (R89). -/
def Dev.tagRec (d : Dev) (h t : Nat) : Nat := (d.hearth h).num (d.get Obj.TAG_TABLE_BASE h + 8 * t) 8

/-- Exponent of the named tag; 0 where none is named, 0x80 read as −127 (R66). -/
def Dev.tagExp (d : Dev) (h : Nat) : Option Nat → Int
  | none => 0
  | some t => max (-127) (toSigned 8 (d.tagRec h t))

/-- Block-maximum area of a tag: its first byte (R89, R90). -/
def Dev.bmaxArea (d : Dev) (h : Nat) : Option Nat → Option Nat
  | none => none
  | some t => let r := d.tagRec h t; if bit r 63 then some (64 * bits r 46 32) else none

/-! ### Exact values -/

/-- What a grate takes from an element: its value, zero where it is not finite, and whether it is ash (R55). -/
def gval (f : Fmt) (e : Nat × Bool) : Dy × Bool :=
  let v := f.decode e.1
  (v.dy, e.2 || !v.finite)

/-- The exact sum of one column for one vector, with its ash mark (R34, R62). -/
def colSum (as ws : List (Dy × Bool)) : Dy × Bool :=
  (List.zip as ws).foldl (fun s p => (s.1.add (p.1.1.mul p.2.1), s.2 || p.1.2 || p.2.2)) (⟨0, 0⟩, false)

/-- An accumulator element: raw FP32, ash mark, saturations so far. -/
structure AccElem where
  raw : Nat
  ash : Bool
  sats : Nat
  deriving DecidableEq, Repr

/-- Add a column sum with one rounding and saturation (R34, R57). DESIGN CHOICE (log entry 47): a sum that is exactly zero is +0. -/
def AccElem.add (a : AccElem) (s : Dy × Bool) : AccElem :=
  let (r, sat) := ((dec32 a.raw).dy.add s.1).round32Sat false
  ⟨r, a.ash || s.2, a.sats + if sat then 1 else 0⟩

/-- Magnitude of a dyadic. -/
def Dy.abs (x : Dy) : Dy := ⟨x.m.natAbs, x.e⟩

/-- a ≤ b. -/
def Dy.le (a b : Dy) : Bool :=
  let e := min a.e b.e
  decide (a.m * 2 ^ (a.e - e).toNat ≤ b.m * 2 ^ (b.e - e).toNat)

/-- The larger. -/
def Dy.max (a b : Dy) : Dy := if a.le b then b else a

/-- Times 2^k. -/
def Dy.scale (a : Dy) (k : Int) : Dy := ⟨a.m, a.e + k⟩

/-! ### A grate entry's geometry (R42, R43, R92) -/

/-- A paired FP4 entry. -/
def GrateBody.paired (b : GrateBody) : Bool := b.aFmt = 6 && b.bFmt = 6
/-- Format of the activations. -/
def GrateBody.fa (b : GrateBody) : Fmt := (Fmt.ofCode b.aFmt).getD .fp32
/-- Format of the weights. -/
def GrateBody.fb (b : GrateBody) : Fmt := (Fmt.ofCode b.bFmt).getD .fp32
/-- Output format. -/
def GrateBody.fd (b : GrateBody) : Fmt := (Fmt.ofCode b.dFmt).getD .fp32
/-- K positions of a whole k-block. -/
def GrateBody.kStep (b : GrateBody) : Nat := if b.paired then 64 else 32
/-- Number of k-blocks. -/
def GrateBody.kBlocks (b : GrateBody) : Nat := (b.k + b.kStep - 1) / b.kStep
/-- K positions of k-block `kb`: 32 at the end of an odd paired FP4 entry. -/
def GrateBody.kWidth (b : GrateBody) (kb : Nat) : Nat := min b.kStep (b.k - b.kStep * kb)
/-- m-blocks. -/
def GrateBody.mBlocks (b : GrateBody) : Nat := (b.m + 255) / 256
/-- n-blocks. -/
def GrateBody.nBlocks (b : GrateBody) : Nat := (b.n + 127) / 128
/-- Rows of m-block `mb`. -/
def GrateBody.rowsOf (b : GrateBody) (mb : Nat) : Nat := min 256 (b.m - 256 * mb)
/-- Columns of n-block `nb`. -/
def GrateBody.colsOf (b : GrateBody) (nb : Nat) : Nat := min 128 (b.n - 128 * nb)
/-- Column blocks of 32, one for each grate in use, of n-block `nb`. -/
def GrateBody.colBlocks (b : GrateBody) (nb : Nat) : List Nat := (List.range (b.colsOf nb / 32)).map (4 * nb + ·)
/-- Cycles in which a vector is injected (R45). -/
def GrateBody.perVector (b : GrateBody) : Nat := if b.aFmt = 1 || b.bFmt = 1 then 2 else 1

/-- Activation element (m, k) (R38). -/
def Hearth.aElem (x : Hearth) (e : WEntry) (b : GrateBody) (m k : Nat) : Nat × Bool :=
  x.elem b.fa (b.a.byte e.i e.t + 64 * b.aStride * k) m

/-- Weight element (k, n), N-major on the transposed-weight path (R38, R230). -/
def Hearth.wElem (x : Hearth) (e : WEntry) (b : GrateBody) (tr : Bool) (k n : Nat) : Nat × Bool :=
  if tr then x.elem b.fb (b.b.byte e.i e.t + 64 * b.bStride * n) k else x.elem b.fb (b.b.byte e.i e.t + 64 * b.bStride * k) n

/-- Weight column `n` of a k-block. -/
def Hearth.wCol (x : Hearth) (e : WEntry) (b : GrateBody) (tr : Bool) (kb n : Nat) : List (Nat × Bool) :=
  (List.range (b.kWidth kb)).map fun r => x.wElem e b tr (b.kStep * kb + r) n

/-! ### Skips (R120, R121) -/

/-- Largest finite weight magnitude before scaling of a tile. -/
def Hearth.tileMax (x : Hearth) (e : WEntry) (b : GrateBody) (tr : Bool) (ew : Int) (kb cb : Nat) : Dy :=
  ((List.range 32).foldl (fun w c => (x.wCol e b tr kb (32 * cb + c)).foldl (fun w v => w.max (gval b.fb v).1.abs) w) (⟨0, 0⟩ : Dy)).scale (-ew)

/-- P × a × w < 2^s. -/
def belowTau (p : Nat) (a w : Dy) (s : Int) : Bool :=
  let x := a.mul w
  let (n, d) := scale2 (p * x.m.natAbs) (x.e - s)
  decide (n < d)

/-- SKIP_LOG2 as an exponent. -/
def GrateBody.tau (b : GrateBody) : Int := toSigned 8 b.skipLog2

/-- A block-maximum record's value; none where it holds none (R90). -/
def recValue (raw : Nat) : Option Dy := if raw < 0x7F800000 then some (dec32 raw).dy else none

/-- The predicted activation maximum of a block from the records of its area (R120). -/
def Hearth.predMax (x : Hearth) (b : GrateBody) (area rb kb : Nat) : Option Dy :=
  (List.range ((b.kWidth kb + 31) / 32)).foldl (fun a q =>
    match a, recValue (x.num (area + 4 * ((b.kStep * kb / 32 + q) * (b.m / 32) + rb)) 4) with
    | some a, some v => some (a.max v)
    | _, _ => none) (some ⟨0, 0⟩)

/-- Block products to skip: row block, k-block, column block (R120). -/
def Dev.skipSet (d : Dev) (h : Nat) (e : WEntry) (b : GrateBody) : List (Nat × Nat × Nat) :=
  if b.skipLog2 = 0x80 || e.replay then []
  else match d.bmaxArea h (b.a.tag e.i e.t b.aTag) with
    | none => []
    | some area =>
      let x := d.hearth h
      let ew := d.tagExp h (b.b.tag e.i e.t b.bTag)
      (List.range b.kBlocks).flatMap fun kb =>
        let ws := (List.range (b.n / 32)).map fun cb => x.tileMax e b (d.transposed h) ew kb cb
        (List.range (b.m / 32)).flatMap fun rb =>
          match x.predMax b area rb kb with
          | none => []
          | some a => ((ws.zipIdx).filter fun w => belowTau (b.kWidth kb) a w.1 b.tau).map fun w => (rb, kb, w.2)

/-- A block is skipped for every grate in use of an n-block. -/
def GrateBody.allSkipped (b : GrateBody) (skips : List (Nat × Nat × Nat)) (nb rb kb : Nat) : Bool :=
  (b.colBlocks nb).all fun cb => skips.contains (rb, kb, cb)

/-- Blocks skipped for every grate, which the check reader reads (R121). -/
def GrateBody.checkSet (b : GrateBody) (skips : List (Nat × Nat × Nat)) : List (Nat × Nat × Nat) :=
  if skips.isEmpty then [] else
  (List.range b.nBlocks).flatMap fun nb => (List.range (b.m / 32)).flatMap fun rb =>
    ((List.range b.kBlocks).filter fun kb => b.allSkipped skips nb rb kb).map fun kb => (nb, rb, kb)

/-- Whether a skip of block (rb, kb) by a grate of n-block `nb` is wrong, from the block's elements (R121). DESIGN CHOICE (log entry 47):
an ash element makes it wrong also where the block was injected for another grate, as R121 says of any skipped block; R63 says of an
injected block that its ash triggers no replay. -/
def Dev.skipWrong (d : Dev) (h : Nat) (e : WEntry) (b : GrateBody) (skips : List (Nat × Nat × Nat)) (nb rb kb : Nat)
    (elems : List (Nat × Bool)) : Bool :=
  let vs := elems.map (gval b.fa)
  let a := (vs.foldl (fun m v => if v.2 then m else m.max v.1.abs) (⟨0, 0⟩ : Dy)).scale (-(d.tagExp h (b.a.tag e.i e.t b.aTag)))
  let ew := d.tagExp h (b.b.tag e.i e.t b.bTag)
  let mine := (b.colBlocks nb).filter fun cb => skips.contains (rb, kb, cb)
  !mine.isEmpty && (vs.any (·.2) || mine.any fun cb =>
    !belowTau (b.kWidth kb) a ((d.hearth h).tileMax e b (d.transposed h) ew kb cb) b.tau)

/-! ### Scale slots (R69) -/

/-- The maximum of a slot's history as a magnitude, NaN words left out. -/
def histMax (hist : List Nat) : Nat := hist.foldl (fun m r => if isNan r then m else Nat.max m (fabs r)) 0

/-- The exponent that a slot's history predicts. -/
def ScaleSlot.predict (s : ScaleSlot) (f : Fmt) : Int :=
  let p := histMax s.hist
  if p = 0 then max (-127) (min 127 s.initExp)
  else
    let inf := match dec32 p with
      | .fin _ m e => let (n, d) := frac m (e + s.margin); decide (round32 false n d = 0x7F800000)
      | _ => true
    if inf then -127 else f.scaleExp p s.margin

/-- Choose the exponent for the step, or keep the one chosen. -/
def ScaleSlot.choose (s : ScaleSlot) (f : Fmt) : ScaleSlot :=
  if s.curValid then s else { s with curExp := s.predict f, curValid := true }

/-! ### Accounts -/

/-- Charge grate cycles to the step's slot (R332). -/
def Dev.chargeGrate (d : Dev) (h n : Nat) : Dev :=
  match d.hearthCtx h with
  | none => d
  | some c => (d.bump Obj.GRATE_CYCLES c n).noteUnit (unitRegion (h / 64)) c n

/-- Charge vector-unit cycles (R332). -/
def Dev.chargeVector (d : Dev) (h n : Nat) : Dev :=
  match d.hearthCtx h with
  | none => d
  | some c => (d.bump Obj.VECTOR_CYCLES c n).noteUnit (unitRegion (h / 64)) c n

end Sys2Proof.Machine
end

