-- ==== Sys2Proof/Machine/Vector.lean ====
section
/-! DEFINITION. The vector unit's command: a VECTOR entry fires (R50, R51, R58 to R62, R95, R96). -/

namespace Sys2Proof.Machine

/-- Elements of an operand as FP32 with ash marks, read as stored value × 2^−e (R96). -/
def Hearth.loadElems (x : Hearth) (f : Fmt) (off n : Nat) (e : Int) : List (Nat × Bool) :=
  (List.range n).map fun i => let v := x.elem f off i; (f.load v.1 e, v.2)

/-- One element's result (R95). DEDUCED (log entry 9): OP 0x0A is a multiply rounded to FP32 and then the exponent unit, the 12 cycles of R50. -/
def vecOp (op imm a b : Nat) : Nat :=
  match op with
  | 0x0 => a
  | 0x1 => fadd a b
  | 0x2 => fsub a b
  | 0x3 => fmul a b
  | 0x4 => ffma a imm b
  | 0x5 => fmul a imm
  | 0x6 => fadd a imm
  | 0x7 => fmin a b
  | 0x8 => fmax a b
  | 0x9 => fmax a imm
  | 0xA => fexp2 (fmul a imm)
  | 0xB => frecip a
  | 0xC => frsqrt a
  | _ => if fgt a b then one32 else 0

/-- Cycles per vector, P of R96. -/
def vecCycles (op : Nat) : Nat := if op = 0xA ∨ op = 0xB ∨ op = 0xC then 2 else 1

/-- Cut a list into pieces of `n`; `k` bounds their number. -/
def pieces {α : Type} (n : Nat) : Nat → List α → List (List α)
  | 0, _ => []
  | k + 1, l => if l.isEmpty then [] else l.take n :: pieces n k (l.drop n)

/-- Reduce a row of vectors: each across its 64 lanes, then folded in order (R96, R51). -/
def reduceRow (red : Nat) (row : List (Nat × Bool)) : Nat × Bool :=
  let lane (v : List (Nat × Bool)) : Nat := if red = 1 then laneSum (v.map (·.1)) else laneMax (v.map (·.1))
  let vs := (pieces 64 (row.length / 64) row).map lane
  let r := match vs with
    | [] => 0
    | a :: l => l.foldl (fun s v => if red = 1 then fadd s v else fmax s v) a
  (r, row.any (·.2))

/-- Element `i` passes through a vector register word that the code finds uncorrectable (R62). -/
def badReg (regs : List (Nat × SramOutcome)) (i : Nat) : Bool := regs.any fun r => r.1 = i && r.2 = .uncorrectable

/-- The results of a VECTOR entry before conversion. -/
def Dev.vecResults (d : Dev) (h : Nat) (e : WEntry) (b : VectorBody) (regs : List (Nat × SramOutcome)) : List (Nat × Bool) :=
  let x := d.hearth h
  let n := 64 * b.len
  let fa := (Fmt.ofCode b.aFmt).getD .fp32
  let as := x.loadElems fa (b.a.byte e.i e.t) n (d.tagExp h (b.a.tag e.i e.t b.aTag))
  let bs := if vecUsesB b.op then
      x.loadElems ((Fmt.ofCode b.bFmt).getD .fp32) (b.b.byte e.i e.t) n (d.tagExp h (b.b.tag e.i e.t b.bTag))
    else as.map fun _ => (0, false)
  let rs := ((List.zipWith (fun a c => (vecOp b.op b.imm a.1 c.1, a.2 || c.2)) as bs).zipIdx).map fun r =>
    (r.1.1, r.1.2 || badReg regs r.2)
  if b.red = 0 then rs else (pieces (64 * 2 ^ b.rowLog2) (b.len / 2 ^ b.rowLog2) rs).map (reduceRow b.red)

/-- VECTOR: the entry fires and writes every result; it stays firing until ENTRY_COMPLETE. Conversions saturate under R58 and draw from
the hearth's generator when SR asks for it (R59, R60). DESIGN CHOICE (log entry 47): the entry's whole output is one write, so that a
line which several vectors' narrow or reduced results fill together is a line written whole (R61). -/
def Dev.runVector (d : Dev) (h : Nat) (e : WEntry) (sram regs : List (Nat × SramOutcome)) : Dev :=
  let b := VectorBody.ofWord e.raw
  let d := (d.readSram h e sram).countSram h (· / 64) (regs.filter fun r => decide (r.1 < 64 * b.len))
  let rs := d.vecResults h e b regs
  let f := (Fmt.ofCode b.dFmt).getD .fp32
  let de := d.tagExp h (b.d.tag e.i e.t b.dTag)
  let sr := b.sr && f ≠ .fp32
  let seed := d.get Obj.HEARTH_SR_SEED h
  let base := (d.hearth h).srDraws
  let outs := (rs.zipIdx).map fun ri =>
    (f.store ri.1.1 de (if sr then some (Config.srDraw seed (base + ri.2)) else none), ri.1.2)
  let d := d.ownElems h f (b.d.byte e.i e.t) (outs.map fun o => (o.1.raw, o.1.ash || o.2))
  let d := if sr then d.modHearth h fun x => { x with srDraws := x.srDraws + outs.length } else d
  ((d.work h).bump Obj.CONVERT_SATURATIONS h ((outs.filter (·.1.sat)).length)).chargeVector h (vecCycles b.op * b.len)

/-- VECTOR (R95). -/
def execVector (h : Fin 1024) (sram regs : List (Nat × SramOutcome)) (s : State) : Host.Outcome State Fault Refusal :=
  s.onDev fun d => d.fireIf h.val (fun e => e.kind = .vector) fun d e => d.runVector h.val e sram regs

end Sys2Proof.Machine
end

