-- ==== Sys2Proof/Machine/StokerOps.lean ====
section
/-! DEFINITION. Stokers: the slow tier (R240), group settings and ranges (R227, R245 to R248), doorbells (R249 to R251), and the accesses of
an update to HBM and slow tier (R243, R257). -/

namespace Sys2Proof.Machine

/-! ### The slow tier (R240) -/

/-- Key of a 64-byte line of a slow tier in `Dev.slow`. -/
def slowKey (t line : Nat) : Nat := t * 2 ^ 32 + line % 2 ^ 32

/-- A line of Stoker `t`'s slow tier. -/
def Dev.slowLine (d : Dev) (t line : Nat) : SlowLine := tget SlowLine.fresh d.slow (slowKey t line)

/-- Replace a line of a slow tier. -/
def Dev.setSlowLine (d : Dev) (t line : Nat) (v : SlowLine) : Dev :=
  { d with slow := tset SlowLine.fresh d.slow (slowKey t line) v }

/-- Bytes written into a line from byte `off`, none where a byte is left alone: a word written whole is no longer poison (R240). -/
def SlowLine.write (l : SlowLine) (off : Nat) (bs : List (Option Byte)) : SlowLine :=
  let new (j : Nat) : Option Byte := if off ≤ j then bs.getD (j - off) none else none
  { data := (List.range 64).map fun j => (new j).getD (l.data.getD j 0),
    poison := (List.range 8).foldl (fun p w =>
      if (List.range 8).all fun j => (new (8 * w + j)).isSome then setBit p w false else p) l.poison }

/-- Words that a write with its ash bit set touches become poison: data zero (R240). -/
def SlowLine.poisonWords (l : SlowLine) (mask : List Bool) : SlowLine :=
  let hit (w : Nat) : Bool := (List.range 8).any fun j => mask.getD (8 * w + j) false
  { data := (List.range 64).map fun j => if hit (j / 8) then 0 else l.data.getD j 0,
    poison := (List.range 8).foldl (fun p w => if hit w then setBit p w true else p) l.poison }

/-- Count what the code finds in a word, and report an uncorrectable one (R240). -/
def Dev.countSlow (d : Dev) (t : Nat) : SramOutcome → Dev
  | .clean => d
  | .corrected => d.bump Obj.SLOW_CORRECTED t
  | .uncorrectable => (d.bump Obj.SLOW_UNCORRECTABLE t).raise Event.slowUncorrectable .stoker t

/-- How a Stoker meets a slow-tier access of a hearth: a request to one in TRAINING or ASLEEP waits (R242, R270). -/
def Dev.slowGate (d : Dev) (t : Nat) : Gate :=
  match d.get Obj.STOKER_STATE t with
  | 2 => .serve
  | 1 | 3 => .waits
  | _ => .absent

/-- A read of a line for a slot; `words` is what the code finds in its eight words. A poisoned word is neither counted nor reported,
and marks the line ash; the bytes of an uncorrectable word are free values (21) (R240). -/
def Dev.slowGet (d : Dev) (t line : Nat) (c : Option Nat) (words : List SramOutcome) : Dev × Got :=
  match d.slowGate t with
  | .waits | .stopped => (d, .wait)
  | .absent | .failed => (d, .absent)
  | .serve =>
    let l := d.slowLine t line
    let found (w : Nat) : SramOutcome := if bit l.poison w then .clean else words.getD w .clean
    let d := (List.range 8).foldl (fun d w => d.countSlow t (found w)) d
    let bad (w : Nat) : Bool := found w = .uncorrectable
    let anyBad := (List.range 8).any bad
    let bs := (List.range 64).map fun j =>
      if bad (j / 8) then BitVec.ofNat 8 (Config.free 21 (d.free + j)) else l.data.getD j 0
    let d := if anyBad then { d with free := d.free + 64 } else d
    ((d.bump Obj.STOKER_SLOW_BYTES t 64).chargeSlow c 64, .line ⟨bs, anyBad || l.poison ≠ 0⟩)

/-- A write of a line for a slot; an empty mask means the whole line. -/
def Dev.slowPut (d : Dev) (t line : Nat) (v : Line) (mask : List Bool) (c : Option Nat) : Dev × Acc :=
  match d.slowGate t with
  | .waits | .stopped => (d, .wait)
  | .absent | .failed => (d, .absent)
  | .serve =>
    let m := if mask.isEmpty then List.replicate 64 true else mask
    let l := d.slowLine t line
    let l := if v.ash then l.poisonWords m
      else l.write 0 ((List.range 64).map fun j => if m.getD j false then some (v.bytes.getD j 0) else none)
    let n := (m.filter id).length
    (((d.setSlowLine t line l).bump Obj.STOKER_SLOW_BYTES t n).chargeSlow c n, .ok)

/-- Port of a slow tier's arbiter by which a requester reaches it (R236, R238, R241): 1 or 2, the link to its own die or to the die across
from it. A link port's die is taken to be a quarter of the ports' number (log entry 50). -/
def slowPort (who : Nat) : Nat := 1 + (if who < 1024 then who / 256 else (who - whoPort 0) / 4) % 2

/-- Serve a slow-tier request and show its outcome; one that must wait does so in arrival order (R239, R242). -/
def Dev.slowOffer (d : Dev) (t : Nat) (w : SlowWait) : Dev :=
  if d.slowGate t = .waits then d.modStoker t fun x => { x with waiting := x.waiting ++ [w] }
  else if w.write then
    match d.slowPut t w.line ⟨w.data, w.ash⟩ [] (some w.ctx) with
    | (d, .ok) => d.answer 0
    | (d, _) => d.answer 2
  else
    match d.slowGet t w.line (some w.ctx) w.words with
    | (d, .line v) => d.answer 0 (if v.ash then 1 else 0) v.bytes
    | (d, _) => d.answer 2 1 Line.zerosAsh.bytes

/-- Offer the slow-tier requests that wait once more, in order. -/
def Dev.slowAdmit (d : Dev) (t : Nat) : Dev :=
  (d.stoker t).waiting.foldl (fun d w => d.slowOffer t w) (d.modStoker t fun x => { x with waiting := [] })

/-- A slow-tier request arrives at its port; one that loses to another port waits for the next cycle (R241, R335). -/
def Dev.slowRequest (d : Dev) (t port : Nat) (rivals : List Nat) (w : SlowWait) : Dev :=
  let (d, won) := d.grantTo (arbStoker t) 3 port rivals
  if won then (d.slowOffer t w).slowAdmit t else d.modStoker t fun x => { x with waiting := x.waiting ++ [w] }

/-! ### Group settings -/

/-- What GROUP_CTL and the group's block say of its arrays (R245, R248): its number and Stoker, rule, element count, bytes of a gradient
and of a moment, state arrays, the flags SR and ZERO_GRAD, the slot charged, headers, and the base addresses. -/
structure GCfg where
  g : Nat
  t : Nat
  rule : Nat
  n : Nat
  gb : Nat
  mb : Nat
  ns : Nat
  sr : Bool
  zero : Bool
  ctx : Nat
  shards : Nat
  high : Nat
  grad : Nat
  hdr : Nat
  low : Nat
  state : Nat
  deriving DecidableEq, Repr

/-- The settings of group `g` under a GROUP_CTL value. -/
def Dev.gcfgOf (d : Dev) (g ctl : Nat) : GCfg :=
  let rule := bits ctl 62 60
  { g := g, t := g / 2048, rule := rule, n := d.get Obj.N_ELEMENTS g, gb := if bit ctl 59 then 2 else 4,
    mb := if rule = 3 then 4 else if bit ctl 58 then 2 else 4,
    ns := if rule = 0 then 2 else if rule = 3 then d.get Obj.VEC_STATES g else 1,
    sr := bit ctl 57, zero := bit ctl 56, ctx := bits ctl 55 52, shards := bits ctl 51 46 + 1, high := d.get Obj.HIGH_PA g,
    grad := d.get Obj.GRAD_PA g, hdr := d.get Obj.HDR_PA g, low := d.get Obj.LOW_TA g, state := d.get Obj.STATE_TA g }

/-- The settings of group `g`. -/
def Dev.gcfg (d : Dev) (g : Nat) : GCfg := d.gcfgOf g (d.get Obj.GROUP_CTL g)

/-- Whether a group is enabled. -/
def Dev.groupOn (d : Dev) (g : Nat) : Bool := bit (d.get Obj.GROUP_CTL g) 63

/-- A bit of GROUP_STATUS (R246). -/
def Dev.groupBit (d : Dev) (g b : Nat) : Bool := bit (d.get Obj.GROUP_STATUS g) b

/-- Neither QUEUED nor RUNNING (R244). -/
def Dev.groupIdle (d : Dev) (g : Nat) : Bool := !d.groupBit g 3 && !d.groupBit g 4

/-- Block rows and columns of the Kronecker rule (R244). -/
def Dev.blockDims (d : Dev) (g : Nat) : Nat × Nat :=
  (32 * (bits (d.get Obj.BLOCK g) 15 8 + 1), 32 * (bits (d.get Obj.BLOCK g) 7 0 + 1))

/-- HBM ranges of a group: gradient, high halves, headers (address, bytes). -/
def GCfg.hbmRanges (c : GCfg) : List (Nat × Nat) := [(c.grad, c.gb * c.n), (c.high, 2 * c.n), (c.hdr, 64 * c.shards)]

/-- Slow-tier ranges of a group: low halves, state, preconditioner (R261). -/
def Dev.slowRanges (d : Dev) (c : GCfg) : List (Nat × Nat) :=
  let base := [(c.low, 2 * c.n), (c.state, c.mb * c.ns * c.n)]
  if c.rule = 2 then
    let (br, bc) := d.blockDims c.g
    let nb := d.get Obj.MAT_ROWS c.g / br * (d.get Obj.MAT_COLS c.g / bc)
    base ++ [(d.get Obj.PRECOND_TA c.g, 8 * nb * (br * br + bc * bc))]
  else base

/-- Stacks that bytes [a, b) of data space touch within the 2 GiB segment pair at `p` (R176). -/
def Dev.segStacks (d : Dev) (p a b : Nat) : List Nat :=
  let lo := max a (p * 2 ^ 31)
  let hi := min b ((p + 1) * 2 ^ 31)
  if hi ≤ lo then []
  else
    let g := p / 64
    if bit (d.get Obj.HBM_SEG_MODE g) (p % 64) then
      (if lo < p * 2 ^ 31 + 2 ^ 30 then [2 * g] else []) ++ (if p * 2 ^ 31 + 2 ^ 30 < hi then [2 * g + 1] else [])
    else if lo + 768 ≤ hi then [2 * g, 2 * g + 1]
    else [lo, lo + 256, lo + 512, hi - 1].map fun x => (d.decodePA (min x (hi - 1))).1

/-- Every byte of an HBM range is a data address on a stack whose STACK_POWER_CTL is 1 (R247). -/
def Dev.rangePowered (d : Dev) (r : Nat × Nat) : Bool :=
  decide (r.1 + r.2 ≤ 2 ^ 41) &&
    (List.range ((r.1 + r.2 - 1) / 2 ^ 31 + 1 - r.1 / 2 ^ 31)).all fun i =>
      (d.segStacks (r.1 / 2 ^ 31 + i) r.1 (r.1 + r.2)).all fun st => d.get Obj.STACK_POWER_CTL st = 1

/-- The checks of R247 on a group's settings. -/
def Dev.groupLegal (d : Dev) (c : GCfg) : Bool :=
  decide (c.rule ≤ 3) && decide (c.n % 64 = 0) && decide (64 ≤ c.n) && decide (c.n ≤ 2 ^ 33) &&
  (c.rule ≠ 2 ||
    (let p := d.get Obj.ROOT_P c.g
     let r := d.get Obj.MAT_ROWS c.g
     let k := d.get Obj.MAT_COLS c.g
     let (br, bc) := d.blockDims c.g
     decide (1 ≤ p) && decide (p ≤ 8) && decide (br ≤ 1024) && decide (bc ≤ 1024) && decide (c.n = r * k) &&
       decide (r % br = 0) && decide (k % bc = 0))) &&
  (c.rule ≠ 3 ||
    (let b := d.get Obj.PROGRAM_BYTES c.g
     decide (1 ≤ b) && decide (b ≤ 16384) && decide (d.get Obj.VEC_STATES c.g ≤ 4) &&
       decide (d.get Obj.PROGRAM_TA c.g + b ≤ 2 ^ 38))) &&
  c.hbmRanges.all d.rangePowered && (d.slowRanges c).all fun r => decide (r.1 + r.2 ≤ 2 ^ 38)

/-- Two ranges share a byte; an empty one shares none. -/
def rangesMeet (x y : Nat × Nat) : Bool := decide (max x.1 y.1 < min (x.1 + x.2) (y.1 + y.2))

/-- Enabled groups, in increasing number. -/
def Dev.groupsOn (d : Dev) : List Nat :=
  (d.od.filter fun e => decide (0x32000 * 256 ≤ e.1) && decide (e.1 < 0x3A000 * 256) && e.1 % 2048 = 1).filterMap fun e =>
    let g := (e.1 / 256 - 0x32000) / 8
    if d.groupOn g then some g else none

/-- The group whose ranges a group's overlap: itself when its gradient overlaps its high halves, else the first enabled group that
conflicts (R227, R247). Slow-tier ranges are compared within one Stoker. -/
def Dev.groupClash (d : Dev) (c : GCfg) : Option Nat :=
  if rangesMeet (c.grad, c.gb * c.n) (c.high, 2 * c.n) then some c.g
  else d.groupsOn.find? fun o =>
    let k := d.gcfg o
    o ≠ c.g && (c.hbmRanges.any (fun x => k.hbmRanges.any (rangesMeet x)) ||
      (k.t = c.t && (d.slowRanges c).any fun x => (d.slowRanges k).any (rangesMeet x)))

/-- What a write to GROUP_CTL answers, with its effect (R244, R247). -/
def Dev.writeGroupCtl (d : Dev) (g v : Nat) : Dev × Nat :=
  if !d.groupIdle g then (d, 3)
  else
    let w := v / 2 ^ 46 * 2 ^ 46
    let c := d.gcfgOf g w
    if !bit w 63 then (d.put Obj.GROUP_CTL w g, 0)
    else if !d.groupLegal c then (d, 4)
    else match d.groupClash c with
      | some o => (d.raise Event.groupOverlap .group g none o, 4)
      | none => (d.put Obj.GROUP_CTL w g, 0)

/-! ### Doorbells (R249 to R251) -/

/-- Groups a doorbell word names. -/
def bellGroups (v : Nat) : List Nat := (List.range (bits v 47 36 + 1)).map (bits v 59 48 + ·)

/-- A Stoker that is READY and has no doorbell in hand takes the one at the front of its queue (R250, R270). -/
def Dev.stokerTake (d : Dev) (t : Nat) : Dev :=
  let x := d.stoker t
  if d.get Obj.STOKER_STATE t ≠ 2 || x.taken.isSome then d
  else match x.queue with
    | [] => d
    | v :: rest =>
      let d := d.setStoker t { x with queue := rest, taken := some (v, bellGroups v) }
      (bellGroups v).foldl (fun d g =>
        if rest.any fun w => (bellGroups w).contains g then d else d.putBit Obj.GROUP_STATUS 3 false g) d

/-- A write to STOKER_DOORBELL, with the status it completes with (R249, R270). -/
def Dev.stokerBell (d : Dev) (t v : Nat) : Dev × Nat :=
  let op := bits v 63 60
  let last := bits v 59 48 + bits v 47 36
  let st := d.get Obj.STOKER_STATE t
  if st = 0 ∨ st = 4 then (d, 3)
  else if op = 0 ∨ 3 < op ∨ bits v 59 48 / 2048 ≠ t ∨ last / 2048 ≠ t then (d, 4)
  else if 16 ≤ (d.stoker t).queue.length then (d, 3)
  else
    let d := d.modStoker t fun x => { x with queue := x.queue ++ [v] }
    let d := (bellGroups v).foldl (fun d g => d.putBit Obj.GROUP_STATUS 3 true g) d
    (d.stokerTake t, 0)

/-! ### Accesses of an update -/

/-- How an access of an update ended: done, met by an absent response or absorbed (R257), or still waiting. -/
inductive SAcc where
  | ok | broken | waits
  deriving DecidableEq, Repr

/-- Go on only after an access that was done. -/
def thenDo (r : Dev × SAcc) (f : Dev → Dev × SAcc) : Dev × SAcc := if r.2 = .ok then f r.1 else r

/-- Read `n` bytes of data space for a group's slot, each with its line's mark. -/
def Dev.stokerGet (d : Dev) (t c pa n : Nat) : Dev × List (Byte × Bool) × SAcc :=
  let l0 := pa / 64
  let ask := fun (d : Dev) st => (d.grantTo (arbStack st) requesters (whoStoker t) []).1
  let r := (List.range ((pa + n - 1) / 64 + 1 - l0)).foldl (fun (r : Dev × List (Byte × Bool) × SAcc) i =>
    if r.2.2 ≠ .ok then r
    else
      let (st, sec) := r.1.decodePA (64 * (l0 + i))
      match (ask r.1 st).hbmGet st sec .demand (some c) with
      | (d, .line v) => ((d.bump Obj.STOKER_HBM_BYTES t 64).noteStoker t c 64, r.2.1 ++ (fit 0 64 v.bytes).map fun b => (b, v.ash), .ok)
      | (d, .absent) => (d, r.2.1, .broken)
      | (d, .wait) => (d, r.2.1, .waits)) (d, [], .ok)
  (r.1, (r.2.1.drop (pa % 64)).take n, r.2.2)

/-- Write bytes of data space for a group's slot, none where a byte is left alone. A line with nothing to write is not written; a write
that a FAILED channel absorbs breaks the update (R187, R257). -/
def Dev.stokerPut (d : Dev) (t c pa : Nat) (bs : List (Option Byte)) : Dev × SAcc :=
  let l0 := pa / 64
  (List.range ((pa + bs.length - 1) / 64 + 1 - l0)).foldl (fun (r : Dev × SAcc) i => thenDo r fun d =>
    let (st, sec) := d.decodePA (64 * (l0 + i))
    let at_ (j : Nat) : Option Byte := let x := 64 * (l0 + i) + j; if pa ≤ x then bs.getD (x - pa) none else none
    let mask := (List.range 64).map fun j => (at_ j).isSome
    let data := (List.range 64).map fun j => (at_ j).getD 0
    let d := (d.bump Obj.STOKER_HBM_BYTES t 64).noteStoker t c 64
    if !mask.any id then (d.chargeHbm (some c) st 64, .ok)
    else
      let failed := d.gate st sec = .failed
      match (d.grantTo (arbStack st) requesters (whoStoker t) []).1.hbmPut st sec ⟨data, false⟩ (if mask.all id then [] else mask) (some c) with
      | (d, .ok) => (d, if failed then .broken else .ok)
      | (d, .wait) => (d, .waits)
      | (d, _) => (d, .broken)) (d, .ok)

/-- What the code finds in slow-tier word `w` of a Stoker. -/
def wordErr (errs : List (Nat × SramOutcome)) (w : Nat) : SramOutcome :=
  match errs.find? fun e => e.1 = w with
  | some e => e.2
  | none => .clean

/-- Read `n` bytes of the Stoker's own slow tier, each marked when its word is poison or uncorrectable (R240). -/
def Dev.stokerLoad (d : Dev) (t c a n : Nat) (errs : List (Nat × SramOutcome)) : Dev × List (Byte × Bool) :=
  let poison (w : Nat) : Bool := bit (d.slowLine t (w / 8)).poison (w % 8)
  let bs := (List.range n).map fun i =>
    let x := a + i
    ((d.slowLine t (x / 64)).data.getD (x % 64) 0, poison (x / 8) || wordErr errs (x / 8) = .uncorrectable)
  let ws := (List.range ((a + n - 1) / 8 + 1 - a / 8)).map (a / 8 + ·)
  let d := if n = 0 then d else (d.grantTo (arbStoker t) 3 0 []).1
  let d := if n = 0 then d else ws.foldl (fun d w => if poison w then d else d.countSlow t (wordErr errs w)) d
  (((d.bump Obj.STOKER_SLOW_BYTES t n).chargeSlow (some c) n).noteStoker t c n, bs)

/-- Write bytes of the Stoker's own slow tier, none where a byte is left alone. -/
def Dev.stokerSave (d : Dev) (t c a : Nat) (bs : List (Option Byte)) : Dev :=
  let n := bs.length
  let d := if n = 0 then d else (d.grantTo (arbStoker t) 3 0 []).1
  let d := if n = 0 then d else (List.range ((a + n - 1) / 64 + 1 - a / 64)).foldl (fun d i =>
    let l := a / 64 + i
    let part := (List.range 64).map fun j => if a ≤ 64 * l + j then bs.getD (64 * l + j - a) none else none
    d.setSlowLine t l ((d.slowLine t l).write 0 part)) d
  ((d.bump Obj.STOKER_SLOW_BYTES t n).chargeSlow (some c) n).noteStoker t c n

/-- Elements of `s` bytes, each with the marks of its bytes. -/
def elemsOf (s : Nat) (l : List (Byte × Bool)) : List (Nat × Bool) :=
  (pieces s l.length l).map fun p => (leNat (p.map (·.1)), p.any (·.2))

end Sys2Proof.Machine
end

