-- ==== Sys2Proof/Machine/LocalMap.lean ====
section
/-! DEFINITION. Reading, writing and adding at local addresses (R281 to R283), and the doorbells a WRITE reaches (R362). -/

namespace Sys2Proof.Machine

/-- What a read at a local address gets. -/
inductive LGot where
  | line (v : Line) | wait | absent | invalid
  deriving DecidableEq, Repr

/-- What a stack or slow tier gives, as an answer of the local map. -/
def Got.toLocal : Got → LGot
  | .line v => .line v
  | .wait => .wait
  | .absent => .absent

/-! ### Region clocks -/

/-- The clock of a region runs, after a start or a move: what waits at its boundary is served (R25, R374), and it moves on if its target
stands elsewhere (R377). -/
def Dev.regionRuns (d : Dev) (g : Nat) : Dev := (d.openBoundary g).retarget g

/-! ### Doorbells -/

/-- The region of the doorbell index:sub, where it is an object of a region. -/
def bellRegion (index sub : Nat) : Option Nat :=
  if 0x40000 ≤ index ∧ index < 0x50000 ∧ sub = 4 then some ((index - 0x40000) / 4096)
  else if 0x12000 ≤ index ∧ index < 0x13000 ∧ index % 0x80 = 6 ∧ sub = 1 then some ((index - 0x12000) / 0x100)
  else none

/-- A doorbell word that `who` writes to object index:sub: the status it completes with, none where that object is no doorbell (R362). The
phase doorbell is device-global and served by the management core (R372). -/
def Dev.ringDoorbell (d : Dev) (index sub v who : Nat) : Option (Dev × Nat) :=
  if 0x40000 ≤ index ∧ index < 0x50000 ∧ sub = 4 then some ((d.askFlue (index - 0x40000) who []).1.flueDoorbell (index - 0x40000) v)
  else if 0x12000 ≤ index ∧ index < 0x13000 ∧ index % 0x80 = 6 ∧ sub = 1 then some (d.hobBell ((index - 0x12000) / 0x80) v)
  else if (index = 0x31010 ∨ index = 0x31020) ∧ sub = 2 then some (d.stokerBell ((index - 0x31010) / 0x10) v)
  else if index = 0x1002 ∧ sub = 1 then some (if d.pilot.restarting then (d, 7) else d.phaseBell v)
  else if 0x30000 ≤ index ∧ index < 0x31000 ∧ index % 0x100 = 0 ∧ sub = 8 then some (d.stepBell ((index - 0x30000) / 0x100) v)
  else none

/-- The words of a line written at window offset `off`, in address order: every doorbell word is written, and an error of one makes
the outcome invalid (R283). -/
def Dev.ringWords (d : Dev) (off : Nat) (bs : List Byte) (who : Nat) : Dev × Acc :=
  (List.range 8).foldl (fun (r : Dev × Acc) i =>
    let a := off + 8 * i
    let v := leNat ((bs.drop (8 * i)).take 8)
    match r.1.ringDoorbell (a / 2048) (a / 8 % 256) v who with
    | none => r
    | some (d, st) => if r.1.get Obj.BOOT_STATE < 2 then (r.1, .invalid) else (d, if st = 0 then r.2 else .invalid)) (d, .ok)

/-- The regions with a doorbell in the line at `off` that have to start or finish a move of their clock first (R365). -/
def Dev.lineSleeps (d : Dev) (off : Nat) : List Nat :=
  ((List.range 8).filterMap fun i => bellRegion ((off + 8 * i) / 2048) ((off + 8 * i) / 8 % 256)).filter d.regionWaits

/-- A line that `who` writes to the dictionary's doorbells; it waits for the clocks it needs, which it starts; the full queue of its path
takes none (R365). -/
def Dev.ringLine (d : Dev) (off : Nat) (bs : List Byte) (who : Nat) : Dev × Acc :=
  let w := d.lineSleeps off
  if d.pathFull 2 then (d, .invalid)
  else if w.isEmpty then d.ringWords off bs who else (w.foldl Dev.wakeRegion d, .wait)

/-! ### Host memory (R310) -/

/-- Whether this device is the bridge (R306). -/
def Dev.isBridge (d : Dev) : Bool := d.get Obj.HOST_LINK_STATE ≠ 0

/-- Whether the host link is up. -/
def Dev.hostUp (d : Dev) : Bool := d.get Obj.HOST_LINK_STATE = 2

/-- A line of host memory: free values (23); absent where the access completes on PCIe with an error, which an uncorrectable outcome
reports (R310, log entry 30). -/
def Dev.hostLine (d : Dev) (words : List SramOutcome) : Dev × LGot :=
  if !d.isBridge then (d, .invalid)
  else if !d.hostUp || words.contains .uncorrectable then (d, .absent)
  else ({ d with free := d.free + 64 },
    .line ⟨(List.range 64).map fun j => BitVec.ofNat 8 (Config.free 23 (d.free + j)), false⟩)

/-- A write issued to host memory. -/
def Dev.hostPut (d : Dev) (a : Nat) (bs : List Byte) (mask : List Bool) : Dev × Acc :=
  if !d.isBridge then (d, .invalid)
  else if !d.hostUp then (d, .absent)
  else ({ d with host := { d.host with writes := d.host.writes ++ [(a, bs, mask)] } }, .ok)

/-! ### The local map -/

/-- Read a line of a scratchpad from outside its hearth (R17, R126); `words` is what the code finds in its eight words. -/
def Dev.scrRead (d : Dev) (h off : Nat) (words : List SramOutcome) : Dev × LGot :=
  if !d.hearthOpen h then (d, .absent)
  else if !d.clockOn (h / 64) then (d.wakeRegion (h / 64), .wait)
  else if d.heldRead h off 64 then (d, .wait)
  else
    let d := d.meetSram h (((words.zipIdx).filter fun w => w.1 ≠ .clean && decide (w.2 < 8)).map fun w => (off / 8 + w.2, w.1))
    (d, .line ((d.hearth h).line (off / 64)))

/-- A request of `who` to a stack arrives alone in its cycle (R180, R335). -/
def Dev.askStack (d : Dev) (st who : Nat) : Dev := (d.grantTo (arbStack st) requesters who []).1

/-- A request of `who` to a slow tier arrives alone in its cycle (R241, R335). -/
def Dev.askSlow (d : Dev) (t who : Nat) : Dev := (d.grantTo (arbStoker t) 3 (slowPort who) []).1

/-- Read the line at a local address for slot `c` and requester `who`, through chain `k` where it lies in HBM (R281, R282). -/
def Dev.localRead (d : Dev) (a k : Nat) (c : Option Nat) (words : List SramOutcome) (who : Nat) : Dev × LGot :=
  match d.area a with
  | .hbm st sec => let (d, g) := (d.askStack st who).stackRead st (.data sec) k c .demand; (d, g.toLocal)
  | .aper st w l => let (d, g) := (d.askStack st who).stackRead st (.aper w l) k c .demand; (d, g.toLocal)
  | .slow t l => let (d, g) := (d.askSlow t who).slowGet t l c words; (d, g.toLocal)
  | .scr h off => d.scrRead h off words
  | .host _ => d.hostLine words
  | .od _ | .reserved => (d, .invalid)

/-- The bytes of a line that a mask selects, as a remote write of each (R134, R276). -/
def Dev.scrMasked (d : Dev) (h off : Nat) (v : Line) (mask : List Bool) : Dev × Answer :=
  if !d.hearthOpen h then (d, .absent)
  else if !d.remoteOk h (off / 64) (off / 64) then (d.remoteRefuse h, .refused)
  else (d.modHearth h fun x => ((List.range 64).filter fun j => mask.getD j false).foldl
    (fun x j => x.setPart (off + j) [v.bytes.getD j 0] v.ash) x, .done)

/-- The answer of a scratchpad as an outcome of a write. -/
def Answer.toAcc : Answer → Acc
  | .done => .ok
  | .refused => .refused
  | .absent => .absent
  | .invalid => .invalid

/-- A write from outside into a scratchpad; it waits for the region's clock, which it starts (R25, R374). -/
def Dev.scrWrite (d : Dev) (h off : Nat) (v : Line) (mask : List Bool) : Dev × Acc :=
  if d.hearthOpen h && !d.clockOn (h / 64) then (d.wakeRegion (h / 64), .wait)
  else
    let (d, r) := if mask.isEmpty then d.remoteWrite h off (fit 0 64 v.bytes) v.ash else d.scrMasked h off v mask
    (d, r.toAcc)

/-- Write the line at a local address for slot `c` and requester `who`; an empty mask means the whole line (R281 to R283). -/
def Dev.localWrite (d : Dev) (a : Nat) (v : Line) (mask : List Bool) (c : Option Nat) (who : Nat) : Dev × Acc :=
  match d.area a with
  | .hbm st sec => (d.askStack st who).hbmPut st sec v mask c
  | .aper st w l => if mask.isEmpty then (d.askStack st who).aperWrite st w l v c else (d, .invalid)
  | .slow t l => (d.askSlow t who).slowPut t l v mask c
  | .scr h off => d.scrWrite h off v mask
  | .od off => if mask.isEmpty then d.ringLine off (fit 0 64 v.bytes) who else (d, .invalid)
  | .host x => d.hostPut x (fit 0 64 v.bytes) mask
  | .reserved => (d, .invalid)

/-- Add a line at a local address for slot `c` and requester `who`: HBM data space takes it, an aperture refuses it (R213, R282). -/
def Dev.localAdd (d : Dev) (a : Nat) (bf16 : Bool) (v : Line) (c : Option Nat) (who : Nat) : Dev × Acc :=
  match d.area a with
  | .hbm st sec => (d.askStack st who).foldAdd st sec bf16 v c
  | .aper .. => (d, .refused)
  | _ => (d, .invalid)

end Sys2Proof.Machine
end

