-- ==== Sys2Proof/Machine/StreamOps.lean ====
section
/-! DEFINITION. The stream engine's shared operations: places (R137), a line of a transfer (R140, R141), faults (R153, R154), the
cluster cache (R151), frames (R277), epochs (R147), completion and notices (R135, R144 to R146). -/

namespace Sys2Proof.Machine

/-! ### Places -/

/-- The transfer in a place. -/
def Hearth.place (x : Hearth) (p : Nat) : Option Transfer := tget none x.places p

/-- Replace the transfer in a place. -/
def Dev.setPlace (d : Dev) (h p : Nat) (t : Option Transfer) : Dev := d.modHearth h fun x => { x with places := tset none x.places p t }

/-- The lowest free place (R137). -/
def Hearth.freePlace (x : Hearth) : Option Nat := (List.range 32).find? fun p => (x.place p).isNone

/-- The descriptor copy of a transfer. -/
def Transfer.d (t : Transfer) : Desc := .ofWord t.desc

/-- Scratchpad line of line `n` of a transfer. -/
def Transfer.lineOf (t : Transfer) (n : Nat) : Nat := t.d.localLine t.line0 n

/-- Lines of a transfer, whether of a STREAM or, in `waiting`, of a proxied FLUE write. -/
def Transfer.moved (t : Transfer) : Bool := decide (t.d.total ≤ t.next)

/-- A tag no awaited answer carries. -/
def Dev.freshTag (d : Dev) : Nat × Dev :=
  let t := (((List.range 65536).map fun i => (d.net.nextTag + i) % 65536).find? fun t => (tget none d.net.awaits t).isNone).getD
    (d.net.nextTag % 65536)
  (t, d.modNet fun n => { n with nextTag := (t + 1) % 65536 })

/-- Await an answer under a tag. -/
def Dev.await (d : Dev) (tag : Nat) (a : Option Await) : Dev := d.modNet fun n => { n with awaits := tset none n.awaits tag a }

/-! ### Frames of a transfer (R277) -/

/-- The frame that `f` lengthens: the last one queued, of the same transfer, whose lines end where `f` begins, in one row and one
2 MiB range, with fewer than 256 lines. -/
def frameJoins (g f : Frame) : Bool :=
  g.ftype = f.ftype && g.dstId = f.dstId && g.srcId = f.srcId && g.xferTag = f.xferTag && !g.last && !g.nbr &&
    g.addr + 64 * (g.linesM1.val + 1) = f.addr && g.addr / 2 ^ 21 = f.addr / 2 ^ 21 && decide (g.linesM1.val < 255)

/-- Queue one more line of a transfer; `row` says that it continues the row of the line before. None where it has no route. -/
def Dev.sendLine (d : Dev) (f : Frame) (row : Bool) : Option Dev :=
  match d.net.queue.getLast? with
  | some (p, g) =>
    if row && frameJoins g f then
      let g := { g with linesM1 := g.linesM1 + 1, payload := g.payload ++ f.payload, ash := g.ash ++ f.ash, last := f.last }
      some (d.modNet fun n => { n with queue := n.queue.dropLast ++ [(p, g)] })
    else d.trySend f
  | none => d.trySend f

/-- Charge payload bytes to a slot (R332); the port's share is noted as they are sent (R333). -/
def Dev.chargeFabric (d : Dev) (c n : Nat) : Dev := d.bump Obj.FABRIC_BYTES c n

/-! ### Faults (R153, R154) -/

/-- Address of the page of a virtual address whose page has `shift` offset bits. -/
def pageOf (shift va : Nat) : Nat := va / 2 ^ shift * 2 ^ shift

/-- Offset bits of the page whose leaf has been found: 30 for a large page, else 21 (R141). DEDUCED (log entry 48): an address that no leaf
maps counts as one of a 2 MiB page. -/
def Xl.shift : Xl → Nat
  | .forbidden s => s
  | _ => 21

/-- Offset bits of the page that a translation has just gone through. -/
def Dev.shiftAt (d : Dev) (h c va : Nat) : Nat :=
  match d.tlbFind (h / 8) c va with
  | some (_, s) => s
  | none => 21

/-- Report a page: counted for the slot whether or not the event is enabled (R332, R368). -/
def Dev.pageEvent (d : Dev) (h : Nat) (t : Transfer) (e : Ev) (page : Nat) : Dev :=
  (d.bump Obj.PAGE_FAULTS t.ctx).raise e .hearth h (some t.ctx) page t.descIdx

/-- A line that arrives in the scratchpad (R144). -/
def Dev.lineIn (d : Dev) (h : Nat) (t : Transfer) (n : Nat) (v : Line) : Dev :=
  (d.ownLine h (t.lineOf n) v).bump Obj.STREAM_BYTES_IN h 64

/-- A line absent or refused: counted; an IN line becomes zeros marked ash (R153). -/
def Dev.lineLost (d : Dev) (h : Nat) (t : Transfer) (n : Nat) : Dev :=
  let d := d.bump Obj.STREAM_FAULT_LINES h
  if t.d.dir = 0 then d.lineIn h t n Line.zerosAsh else d

/-- A faulting line of a page with `shift` offset bits handled natively: counted, reported once per page of the transfer (R153). -/
def Dev.lineFault (d : Dev) (h : Nat) (t : Transfer) (n shift : Nat) : Dev × Transfer :=
  let d := d.lineLost h t n
  let page := pageOf shift (t.d.farAddr t.far n)
  if t.faultPages.contains page then (d, t)
  else (d.pageEvent h t Event.pageFault page, { t with faultPages := t.faultPages ++ [page] })

/-- Halt a transfer at line `n`, of a page with `shift` offset bits (R154). -/
def Dev.haltAt (d : Dev) (h p : Nat) (t : Transfer) (n shift : Nat) : Dev :=
  let va := t.d.farAddr t.far n
  let d := (d.putBit Obj.HALTED_STREAMS p true h).put Obj.HALT_ADDRESS va h p
  (d.pageEvent h t Event.streamHalt (pageOf shift va)).setPlace h p (some { t with halted := some n })

/-! ### The cluster cache (R151, R406) -/

/-- Lines of a 2 MiB cluster cache. -/
def cacheLines : Nat := 32768

/-- Key of a line in a cluster cache: device, local address and chain. -/
def cacheKey (dv a k : Nat) : Nat := (dv * 2 ^ 44 + a) * 256 + k

/-- The cached line. -/
def Dev.cacheFind (d : Dev) (cl c key : Nat) : Option Line :=
  match (d.cluster cl).cache.find? fun e => e.1 = c && e.2.1 = key with
  | some e => some e.2.2
  | none => none

/-- Fill a line; the oldest leaves a full cache (log entry 17). -/
def Dev.cacheFill (d : Dev) (cl c key : Nat) (v : Line) : Dev :=
  let x := d.cluster cl
  let l := (x.cache.filter fun e => !(e.1 = c && e.2.1 = key)) ++ [(c, key, v)]
  d.setCluster cl { x with cache := if cacheLines < l.length then l.tail else l }

/-- Keep a line read for a cacheable transfer. -/
def Dev.cacheKeep (d : Dev) (h : Nat) (t : Transfer) (dv a : Nat) (v : Line) : Dev :=
  if d.usesCache h t.d then d.cacheFill (h / 8) t.ctx (cacheKey dv a t.d.chain) v else d

/-! ### One line (R140, R141) -/

/-- The right a direction needs. -/
def Desc.need (ds : Desc) : Need := if ds.dir = 0 then .rd else if ds.dir = 1 then .wr else .add

/-- A far line's outcome once translated: OUT_ADD is confined to HBM data space; an aperture of another device refuses it itself
(R141, R213). -/
def Dev.farLine (d : Dev) (h : Nat) (t : Transfer) (n : Nat) : Dev × Xl :=
  match d.translate (h / 8) t.ctx (t.d.farAddr t.far n) t.d.need with
  | (d, .ok dv a) =>
    if t.d.dir = 2 ∧ (0x40000000000 ≤ a ∨ (dv = d.selfId ∧ 2 ^ 41 ≤ a)) then (d, .forbidden (d.shiftAt h t.ctx (t.d.farAddr t.far n)))
    else (d, .ok dv a)
  | r => r

/-- Remember where the first far byte lies when it is in a scratchpad (R135). -/
def Transfer.noteFirst (t : Transfer) (n dv a : Nat) : Transfer :=
  if n = 0 ∧ 0x80000000000 ≤ a ∧ a < 0x80080000000 then { t with first := some (dv, a) } else t

/-- Put a transfer back, with line `n` passed. -/
def Dev.passed (d : Dev) (h p : Nat) (t : Transfer) (n : Nat) : Dev := d.setPlace h p (some { t with next := n + 1 })

/-- The hearth's step is aborting: what would halt is handled natively (R167). -/
def Dev.abortingAt (d : Dev) (h : Nat) : Bool := match (d.hearth h).run with
  | some r => r.aborting
  | none => true

/-- A line whose translation failed. -/
def Dev.badLine (d : Dev) (h p : Nat) (t : Transfer) (n : Nat) (x : Xl) : Dev :=
  match x with
  | .absent => (d.lineLost h t n).passed h p t n
  | .unmapped | .forbidden _ =>
    if t.d.faultHalt && !t.nativeRest && !d.abortingAt h then d.haltAt h p t n x.shift
    else let (d, t) := d.lineFault h t n x.shift; d.passed h p t n
  | _ => d

/-- A line that its page's contents make faulting (R141). -/
def Dev.lineInvalid (d : Dev) (h : Nat) (t : Transfer) (n : Nat) : Dev × Transfer :=
  d.lineFault h t n (d.shiftAt h t.ctx (t.d.farAddr t.far n))

/-- A line of an IN transfer from this device (R141, R144, R294). -/
def Dev.moveIn (d : Dev) (h p : Nat) (t : Transfer) (n a : Nat) (words : List SramOutcome) : Dev :=
  let key := cacheKey d.selfId a t.d.chain
  match if d.usesCache h t.d then d.cacheFind (h / 8) t.ctx key else none with
  | some v => ((d.lineIn h t n v).bump Obj.CACHE_BYTES t.ctx 64).passed h p t n
  | none =>
    match d.localRead a t.d.chain (some t.ctx) words h with
    | (d', .wait) => d'
    | (d', .line v) =>
      let d' := match d'.area a with
        | .host _ => d'.chargeFabric t.ctx 64
        | _ => d'
      ((d'.cacheKeep h t d.selfId a v).lineIn h t n v).passed h p t n
    | (d', .absent) => (d'.lineLost h t n).passed h p t n
    | (d', .invalid) => let (d', t) := d'.lineInvalid h t n; d'.passed h p t n

/-- The scratchpad line an OUT or OUT_ADD transfer sends, read whole with its mark (R149). -/
def Dev.sourceLine (d : Dev) (h : Nat) (t : Transfer) (n : Nat) (words : List SramOutcome) : Dev × Line :=
  let l := t.lineOf n
  let d := d.meetSram h (((words.zipIdx).filter fun w => w.1 ≠ .clean && decide (w.2 < 8)).map fun w => (8 * l + w.2, w.1))
  (d, (d.hearth h).line l)

/-- Store or add a line on this device. A line of the hearth's own scratchpad is no remote write. -/
def Dev.putLine (d : Dev) (h : Nat) (t : Transfer) (a : Nat) (v : Line) : Dev × Acc :=
  if t.d.dir = 2 then d.localAdd a (t.d.addFmt = 1) v (some t.ctx) h
  else match d.area a with
    | .scr h' off => if h' = h then (d.modHearth h fun x => x.setLine (off / 64) v, .ok) else d.localWrite a v [] (some t.ctx) h
    | .host _ => match d.localWrite a v [] (some t.ctx) h with
      | (d, .ok) => (d.chargeFabric t.ctx 64, .ok)
      | r => r
    | _ => d.localWrite a v [] (some t.ctx) h

/-- Whether a transfer completes at hand-over: MODE 1 within the group (R145). -/
def Transfer.handsOver (t : Transfer) : Bool := t.d.dir ≠ 0 && t.d.mode = 1 && !t.forced

/-- A line that must wait goes on along its path inside the device, behind what waits there already, where its transfer completes at
hand-over (R145, R220, R225). -/
def Dev.queueLine (d : Dev) (t : Transfer) (a : Nat) (v : Line) : Dev :=
  let req := fun (sec : Nat) (win : Option (Nat × Nat)) =>
    (⟨sec, win, t.d.dir ≠ 2, if t.d.dir = 2 then some (t.d.addFmt = 1) else none, v.bytes, [], v.ash, some t.ctx, .demand, [], 0⟩ : HbmWait)
  match d.area a with
  | .hbm st sec => d.offer st (req sec none)
  | .aper st w l => d.offer st (req (d.srcSec st (.aper w l)) (some (w, l)))
  | .slow s l => d.modStoker s fun x => { x with waiting := x.waiting ++ [⟨l, true, v.bytes, v.ash, t.ctx, []⟩] }
  | .scr h off => d.toEdge h (.write h off (fit 0 64 v.bytes) v.ash)
  | _ => d

/-- A line of an OUT or OUT_ADD transfer to this device (R141, R153, R294). -/
def Dev.moveOut (d : Dev) (h p : Nat) (t : Transfer) (n a : Nat) (words : List SramOutcome) : Dev :=
  let (d', v) := d.sourceLine h t n words
  match d'.putLine h t a v with
  | (d2, .wait) =>
    if t.handsOver then ((d2.queueLine t a v).bump Obj.STREAM_BYTES_OUT h 64).passed h p (t.noteFirst n d.selfId a) n
    else (d.putLine h t a v).1
  | (d', r) =>
    let d' := d'.bump Obj.STREAM_BYTES_OUT h 64
    let own := match d'.area a with
      | .scr h' _ => decide (h' = h)
      | _ => false
    match r with
    | .ok => d'.passed h p (if own then t else t.noteFirst n d'.selfId a) n
    | .refused => (d'.lineLost h t n).passed h p (t.noteFirst n d'.selfId a) n
    | .invalid => let (d', t) := d'.lineInvalid h t n; d'.passed h p t n
    | _ => (d'.lineLost h t n).passed h p t n

/-- A line whose far side is on another device: a READ_REQ, WRITE or ADD frame (R277, R288, R332). -/
def Dev.moveFar (d : Dev) (h p : Nat) (t : Transfer) (n dv a : Nat) (words : List SramOutcome) : Dev :=
  let ds := t.d
  let hit := if ds.dir = 0 && d.usesCache h ds then d.cacheFind (h / 8) t.ctx (cacheKey dv a ds.chain) else none
  match hit with
  | some v => ((d.lineIn h t n v).bump Obj.CACHE_BYTES t.ctx 64).passed h p t n
  | none =>
    let (tag, d) := match t.tag with
      | some g => (g, d)
      | none => d.freshTag
    let (d, v) := if ds.dir = 0 then (d, (⟨[], false⟩ : Line)) else d.sourceLine h t n words
    let f := { Frame.plain (if ds.dir = 0 then 4 else if ds.dir = 1 then 1 else 3) (if ds.dir = 2 then 1 else 0) dv d.selfId a 0 tag with
      last := decide (n + 1 = ds.total), srcCtx := Fin.ofNat 16 t.ctx, attr := if ds.dir = 2 then Fin.ofNat 4 ds.addFmt else 0,
      payload := v.bytes, ash := if ds.dir = 0 then [] else [v.ash] }
    match d.sendLine f (n % ds.rowLines ≠ 0) with
    | none => ((d.countUnroutable dv).lineLost h t n).passed h p t n
    | some d =>
      let d := d.await tag (some (.xfer h p))
      let d := if ds.dir = 0 then d else (d.bump Obj.STREAM_BYTES_OUT h 64).chargeFabric t.ctx 64
      let other := ds.dir ≠ 0 && ds.mode = 1 && dv / 512 ≠ d.selfId / 512
      let d := if other && !t.forced then
          (d.bump Obj.REARM_FORCED_DRAINS h).raiseOnce h Once.rearm.num Event.rearmForced
        else d
      let t := { t with tag := some tag, waiting := t.waiting ++ [(n, a)], forced := t.forced || other }
      d.passed h p (if ds.dir = 0 then t else t.noteFirst n dv a) n

/-! ### Epochs (R147) -/

/-- Transfers in places that fired before `t` with the same descriptor under another EPOCH (R147). DEDUCED (log entry 13): any other EPOCH
of a transfer that fired before is an earlier one. -/
def Hearth.earlierOf (x : Hearth) (t : Transfer) : List Transfer :=
  x.places.filterMap fun q => match q.2 with
    | some o => if o.flue.isNone && o.descIdx = t.descIdx && decide (o.order < t.order) && o.d.epoch ≠ t.d.epoch then some o else none
    | none => none

/-- A transfer of the hearth under an earlier epoch of the same descriptor that has not completed under R146: in a place, or handed over and
not yet acknowledged. -/
def Dev.earlierEpoch (d : Dev) (h : Nat) (t : Transfer) : Bool :=
  !((d.hearth h).earlierOf t).isEmpty ||
  d.net.awaits.any fun e => match e.2 with
    | some (.handed h' n ep _ o) => h' = h && n = t.descIdx && ep ≠ t.d.epoch && decide (o < t.order)
    | _ => false

/-- Record the EPOCH of a transfer started with a descriptor (R147). -/
def Dev.recordEpoch (d : Dev) (h : Nat) (t : Transfer) : Dev :=
  d.modHearth h fun x => { x with epochs := tset none x.epochs t.descIdx (some t.d.epoch) }

/-- Whether a transfer may not yet start: one that fired before it has not started, but for those held under R147 (R137, log entry 13),
or, under MODE 1, lines of a transfer of an earlier epoch are still to be queued (R147). -/
def Hearth.startWaits (x : Hearth) (t : Transfer) : Bool :=
  !t.started &&
    ((x.places.any fun q => match q.2 with
      | some o => !o.started && !o.held && decide (o.order < t.order)
      | none => false) ||
     (t.d.mode = 1 && (x.earlierOf t).any fun o => !o.moved))

/-- Whether a transfer that fires is held in its place (R147). -/
def Dev.heldAtFire (d : Dev) (h : Nat) (t : Transfer) : Bool :=
  t.d.mode = 2 && (match tget none (d.hearth h).epochs t.descIdx with
    | some e => e ≠ t.d.epoch
    | none => false) && d.earlierEpoch h t

/-- Move the next line of the transfer in a place. -/
def Dev.moveLine (d : Dev) (h p : Nat) (t : Transfer) (words : List SramOutcome) : Dev :=
  let n := t.next
  if t.moved then d
  else if t.ahead.contains n then d.passed h p t n
  else match d.farLine h t n with
    | (_, .wait) => d
    | (d, .ok dv a) =>
      if dv ≠ d.selfId then d.moveFar h p t n dv a words
      else if t.d.dir = 0 then d.moveIn h p t n a words
      else d.moveOut h p t n a words
    | (d, x) => d.badLine h p t n x

/-! ### Completion (R135, R144 to R146) -/

/-- Whether a transfer has completed (R144 to R146). -/
def Transfer.complete (t : Transfer) : Bool :=
  if t.flue.isSome then t.done else t.moved && t.halted.isNone && !t.held && (t.waiting.isEmpty || t.handsOver)

/-- The arrival notice of a transfer whose first far byte lies in a scratchpad: applied here or sent behind the data (R135, R277). -/
def Dev.transferNotice (d : Dev) (t : Transfer) : Dev :=
  if t.d.dir = 0 then d
  else match t.first with
    | none => d
    | some (dv, a) =>
      if dv = d.selfId then d.arrival (bits a 30 21) (bits a 20 6)
      else d.sendAnswer { Frame.plain 6 (if t.d.dir = 2 then 1 else 0) dv d.selfId a 0 (t.tag.getD 0) with srcCtx := Fin.ofNat 16 t.ctx }

/-- A transfer's end: its tag is released, or goes on being watched for a later epoch; its place is freed and its entry completes. -/
def Dev.endTransfer (d : Dev) (h p : Nat) (t : Transfer) : Dev :=
  let d := match t.tag with
    | none => d
    | some g => d.await g (if t.waiting.isEmpty || t.flue.isSome then none
        else some (.handed h t.descIdx t.d.epoch t.waiting.length t.order))
  let d := if t.flue.isSome then d else d.transferNotice t
  (d.setPlace h p none).completeEntry h t.id true

end Sys2Proof.Machine
end

