-- ==== Sys2Proof/Machine/FabricOps.lean ====
section
/-! DEFINITION. Frames at a port and at their destination (R276 to R279, R284, R288 to R290), answers (R294, R295), distances (R300). -/

namespace Sys2Proof.Machine

/-! ### Parts of a frame -/

/-- Lines a frame names (R275). -/
def Frame.nLines (f : Frame) : Nat := f.linesM1.val + 1

/-- Line `k` of a frame's payload with its ash bit. -/
def Frame.lineAt (f : Frame) (k : Nat) : Line := ⟨fit 0 64 ((f.payload.drop (64 * k)).take 64), f.ash.getD k false⟩

/-- Whether an ash map follows the payload (R275). -/
def Frame.mapped (f : Frame) : Bool := f.ash.any id

/-- One bit as a number. -/
def bitNat (b : Bool) : Nat := if b then 1 else 0

/-- The header of a frame (R275). -/
def Frame.header (f : Frame) : Nat :=
  f.ftype.val * 2 ^ 252 + f.vl.val * 2 ^ 250 + f.keyIdx.val * 2 ^ 249 + bitNat f.last * 2 ^ 248 + f.dstId % 2 ^ 20 * 2 ^ 228 +
    f.srcId % 2 ^ 20 * 2 ^ 208 + f.addr % 2 ^ 44 * 2 ^ 164 + f.linesM1.val * 2 ^ 156 + f.xferTag % 2 ^ 16 * 2 ^ 140 +
    f.srcCtx.val * 2 ^ 136 + f.attr.val * 2 ^ 134 + f.hops.val * 2 ^ 130 + bitNat f.nbr * 2 ^ 129 + bitNat (Frame.mapped f) * 2 ^ 128 +
    f.ext % 2 ^ 64 * 2 ^ 64 + f.linkSeq % 2 ^ 64

/-- The ash map: bit i is the ash bit of payload line i (R149, R275). -/
def Frame.ashMap (f : Frame) : Nat := (f.ash.zipIdx).foldl (fun v x => if x.1 then v + 2 ^ x.2 else v) 0

/-- What a frame carries encrypted: payload and ash map (R275, R296). -/
def Frame.body (f : Frame) : List Byte := f.payload ++ if Frame.mapped f then leBytes 32 (Frame.ashMap f) else []

/-- The nonce of a frame: the session's salt, then LINK_SEQ (R296); the 36 bytes are key, then salt (R427). -/
def Frame.nonce (f : Frame) (session : Nat) : List Byte := leBytes 4 (session / 2 ^ 256) ++ leBytes 8 f.linkSeq

/-- The bytes of a frame on a link under the 36 bytes of its session: the header in clear and authenticated, the rest encrypted, the tag
(R275, R296). -/
def Frame.wire (f : Frame) (session : Nat) : List Byte :=
  let head := leBytes 32 (Frame.header f)
  let nonce := Frame.nonce f session
  head ++ Config.gcmText (session % 2 ^ 256) nonce (Frame.body f) ++
    leBytes 16 (Config.gcmTag (session % 2 ^ 256) nonce head (Frame.body f))

/-- Bytes of a frame on the link: header, payload, ash map where it has one, tag (R275). -/
def Frame.size (f : Frame) : Nat := 48 + f.payload.length + if Frame.mapped f then 32 else 0

/-- Credits of 64 bytes a frame takes: its bytes in the receive buffer (R278, log entry 18). -/
def Frame.cost (f : Frame) : Nat := (Frame.size f + 63) / 64

/-- Whether a frame's type is known and its VL its own (R276). -/
def Frame.laneOk (f : Frame) : Bool :=
  match f.ftype.val with
  | 1 | 2 | 4 | 5 | 7 => f.vl = 0
  | 3 => f.vl = 1
  | 6 => decide (f.vl.val ≤ (if bit f.ext 63 then 0 else 1))
  | 0xB => decide (f.vl.val ≤ 2)
  | 8 | 9 => f.vl = 2
  | 0xA => f.vl = 3
  | 0xF => true
  | _ => false

/-- The ABSENT answer to a frame that has no route, as if its destination had sent it: a READ_RESP to a READ_REQ, an ACK on the frame's VL
to any other (R276, R288; DEDUCED, log entry 52: to an OD_REQ too). -/
def Frame.absentAnswer (f : Frame) : Frame :=
  { Frame.plain (if f.ftype = 4 then 5 else 0xB) (if f.ftype = 4 then 0 else f.vl.val) f.srcId f.dstId f.addr f.linesM1.val f.xferTag with
    srcCtx := f.srcCtx, attr := 2 }

/-! ### Host loads (R309, R312) -/

/-- A host access that fails: counted and reported (R309). -/
def Dev.hostError (d : Dev) : Dev := (d.bump Obj.HOST_ERRORS).raise Event.hostAccessError .global 0

/-- A host load that returns all ones (R309). -/
def Dev.loadFails (d : Dev) (len : Nat) : Dev := (d.hostError).answer 0 0 (List.replicate len 0xFF)

/-- Whether a local address lies in the dictionary window. -/
def inOdWindow (a : Nat) : Bool := decide (0xC0000000000 ≤ a) && decide (a < 0xC0080000000)

/-- Bytes that one piece of a host access covers: a slot of a dictionary window, a line elsewhere (R308). -/
def pieceOf (a : Nat) : Nat := if inOdWindow a then 8 else 64

/-- Whether a host store to a device is not yet acknowledged (R312). -/
def Dev.storePending (d : Dev) (dst : Nat) : Bool :=
  d.net.awaits.any fun e => match e.2 with
    | some (.hostStore x) => x = dst
    | some (.hostLost x st _) => st && x = dst
    | _ => false

/-- Whether the bridge may send a held request: a load for another group waits for the earlier stores to its device (R312). -/
def Dev.mayRelease (d : Dev) (r : HeldReq) : Bool :=
  match r.what with
  | .hostLoad dst .. => dst / 512 = d.selfId / 512 || !d.storePending dst
  | _ => true

/-- Send a host request under a fresh tag, which a dictionary request carries as its REQ_ID too. One that has no route is counted and
answered absent (R288): a load then returns all ones, a store is acknowledged so. -/
def Dev.sendHost (d : Dev) (r : HeldReq) (fs : List Frame) : Dev :=
  let (tag, d) := d.freshTag
  let r' := fs.foldl (fun (s : Dev × Bool) f =>
    let f := { f with xferTag := tag,
                      payload := if f.ftype = 8 then fit 0 24 f.payload ++ leBytes 2 tag ++ f.payload.drop 26 else f.payload }
    match s.1.trySend f with
    | some d => (d, s.2)
    | none => (s.1.countUnroutable f.dstId, false)) (d, true)
  if r'.2 then r'.1.await tag (some r.what)
  else match r.what with
    | .hostLoad _ _ _ len _ => r'.1.loadFails len
    | _ => r'.1

/-- Type of the object at a slot. -/
def slotType (index sub : Nat) : Option OType := (lookupObj index sub).map fun o => o.1.typ

/-- The OD_REQ header by which the bridge reads a slot of another device: a scalar is read, of a STRING the bytes, whose count is wanted, and
a DOMAIN is described (R344, DESIGN CHOICE, log entry 31). -/
def slotAsk (index sub : Nat) : List Byte :=
  match slotType index sub with
  | some .string => odHeader 1 0 index sub 0 0 256
  | some .domain => odHeader 3 0 index sub 0 0 0
  | _ => odHeader 1 0 index sub 0 0 0

/-- The eight bytes of a slot from the OD_RESP to `slotAsk`: `w` is its header, `bs` what follows (R344). -/
def slotAnswer (w : Nat) (bs : List Byte) : List Byte :=
  match slotType (bits w 239 220) (bits w 219 212) with
  | some .string => leBytes 8 (bits w 159 144 * 2 ^ 32)
  | some .domain => leBytes 8 (leNat (bs.take 4) * 2 ^ 32)
  | _ => bs.take (min 8 (bits w 159 144))

/-- The frames of a held request: a load of a dictionary window asks slot by slot. -/
def HeldReq.frames (r : HeldReq) : List Frame :=
  match r.what with
  | .hostLoad _ a off len _ =>
    if inOdWindow a then (List.range ((off + len + 7) / 8)).map fun k =>
      let x := a - 0xC0000000000 + 8 * k
      { r.frame with payload := fit 0 64 (slotAsk (x / 2048) (x / 8 % 256)) }
    else [r.frame]
  | _ => [r.frame]

/-- Send the held requests that may go, in order, up to the first that must wait (R312). -/
def Dev.releaseFrom (d : Dev) : List HeldReq → Dev × List HeldReq
  | [] => (d, [])
  | r :: rs => if d.mayRelease r then (d.sendHost r r.frames).releaseFrom rs else (d, r :: rs)

/-- Send what R312 no longer holds. -/
def Dev.releaseHeld (d : Dev) : Dev :=
  let (d, rest) := d.releaseFrom d.host.held
  { d with host := { d.host with held := rest } }

/-- Accept a host request: behind what is held it waits its turn (R312). -/
def Dev.acceptHost (d : Dev) (r : HeldReq) : Dev :=
  ({ d with host := { d.host with held := d.host.held ++ [r] } }).releaseHeld

/-- Loads held for a device of another group whose store was never acknowledged return all ones (R312). -/
def Dev.failHeld (d : Dev) (dst : Nat) : Dev :=
  let isIt := fun (r : HeldReq) => match r.what with
    | .hostLoad x .. => decide (x = dst) && decide (dst / 512 ≠ d.selfId / 512)
    | _ => false
  let lost := d.host.held.filter isIt
  let d := { d with host := { d.host with held := d.host.held.filter fun r => !isIt r } }
  (lost.foldl (fun d r => match r.what with
    | .hostLoad _ _ _ len _ => d.loadFails len
    | _ => d) d).releaseHeld

/-- The pieces of a load joined, once every one has been answered. -/
def joinPieces (a n : Nat) (got : List (Nat × List Byte)) : Option (List Byte) :=
  let step := pieceOf a
  let ps := (List.range n).map fun k => (got.find? fun g => g.1 = a + step * k).map (·.2)
  if ps.all (·.isSome) then some (ps.flatMap fun p => fit 0 step (p.getD [])) else none

/-- Pieces of a host load from `a`. -/
def piecesOf (a off len : Nat) : Nat := (off + len + pieceOf a - 1) / pieceOf a

/-- Pieces of a host load still to come. -/
def piecesLeft (a off len : Nat) (got : List (Nat × List Byte)) : Nat := piecesOf a off len - got.length

/-- An answer of `n` lines to a host load already answered: its tag is free once none is to come (R309). -/
def Dev.lateLoad (d : Dev) (tag dst left n : Nat) : Dev := d.await tag (if left ≤ n then none else some (.hostLate dst (left - n)))

/-- An answer of `n` lines to a host request that a link loss has overtaken: absorbed and counted (R311). -/
def Dev.lostAnswer (d : Dev) (tag dst : Nat) (store : Bool) (left n : Nat) : Dev :=
  ((d.await tag (if left ≤ n then none else some (.hostLost dst store (left - n)))).bump Obj.HOST_ERRORS).releaseHeld

/-- `n` pieces of a host load arrive: their addresses and bytes; none where their status is not DONE (R309). -/
def Dev.loadPiece (d : Dev) (tag dst a off len : Nat) (got : List (Nat × List Byte)) (n : Nat) (piece : Option (List (Nat × List Byte))) :
    Dev :=
  match piece with
  | none => (d.lateLoad tag dst (piecesLeft a off len got) n).loadFails len
  | some ps =>
    let got := got ++ ps
    match joinPieces a (piecesOf a off len) got with
    | none => d.await tag (some (.hostLoad dst a off len got))
    | some bs => (d.await tag none).answer 0 0 ((bs.drop off).take len)

/-! ### Answers to this device's requests (R294, R295) -/

/-- A transfer whose first far line is answered absent or as faulting sends no notice (R135). -/
def Transfer.noNotice (t : Transfer) (n : Nat) : Transfer := if n = 0 then { t with first := none } else t

/-- Line `k` of an answer to a transfer's lines; whether the transfer waits for it. -/
def Dev.answerLine (d : Dev) (h : Nat) (t : Transfer) (f : Frame) (k : Nat) : Dev × Transfer × Bool :=
  let a := f.addr + 64 * k
  match t.waiting.find? fun w => w.2 = a with
  | none => (d, t, false)
  | some w =>
    let t := { t with waiting := t.waiting.erase w }
    match f.attr.val with
    | 0 =>
      if f.ftype = 5 then
        let v := Frame.lineAt f k
        (((d.cacheKeep h t f.srcId a v).lineIn h t w.1 v).chargeFabric t.ctx 64, t, true)
      else (d, t, true)
    | 1 => (d.lineLost h t w.1, t, true)
    | 3 => let (d, t) := d.lineInvalid h t w.1; (d, t.noNotice w.1, true)
    | _ => (d.lineLost h t w.1, t.noNotice w.1, true)

/-- An answer to lines of the transfer in a place. -/
def Dev.answerXfer (d : Dev) (h p : Nat) (f : Frame) : Dev :=
  match (d.hearth h).place p with
  | none => d.bump Obj.LATE_ANSWERS
  | some t =>
    if t.tag ≠ some f.xferTag then d.bump Obj.LATE_ANSWERS
    else
      let (d, t, hit) := (List.range (Frame.nLines f)).foldl (fun (r : Dev × Transfer × Bool) k =>
        let (d, t, b) := r.1.answerLine h r.2.1 f k
        (d, t, r.2.2 || b)) (d, t, false)
      if hit then d.setPlace h p (some t) else d.bump Obj.LATE_ANSWERS

/-- The transfer a run-ahead fetch stands for. -/
def Ahead.transfer (a : Ahead) : Transfer :=
  { id := 0, ctx := a.ctx, desc := a.desc, descIdx := 0, line0 := a.line0, far := a.far, next := 0, waiting := a.lines, tag := some a.tag,
    ahead := [], held := false, halted := none, nativeRest := false, faultPages := [], first := none, forced := false, flue := none,
    done := false, order := 0, started := true }

/-- Lines of a run-ahead fetch are dropped, once for the answer (R119). -/
def Dev.dropAhead (d : Dev) (h : Nat) (a : Ahead) : Dev :=
  ((d.bump Obj.HEARTH_RUNAHEAD_DROPS h).bump Obj.CTX_RUNAHEAD_DROPS a.ctx).raiseOnce h Once.drop.num Event.runAheadDrop

/-- Replace a run-ahead fetch in flight, or end it, noting lines delivered. -/
def Dev.putAhead (d : Dev) (h : Nat) (a : Ahead) (lines : List (Nat × Nat)) (got : List Nat) : Dev :=
  let d := d.modHearth h fun x => { x with bellows := { x.bellows with
    delivered := if got.isEmpty then x.bellows.delivered else x.bellows.delivered ++ [⟨a.ordinal, a.desc, a.far, a.line0, got⟩],
    inflight := if lines.isEmpty then x.bellows.inflight.erase a
      else x.bellows.inflight.map fun b => if b = a then { a with lines := lines } else b } }
  if lines.isEmpty then d.await a.tag none else d

/-- An answer to a run-ahead fetch (R117, R119). -/
def Dev.answerAhead (d : Dev) (h : Nat) (f : Frame) : Dev :=
  match (d.hearth h).bellows.inflight.find? fun a => a.tag = f.xferTag with
  | none => (d.await f.xferTag none).bump Obj.LATE_ANSWERS
  | some a =>
    let hits := (List.range (Frame.nLines f)).filterMap fun k => (a.lines.find? fun w => w.2 = f.addr + 64 * k).map fun w => (k, w)
    if hits.isEmpty then d.bump Obj.LATE_ANSWERS
    else
      let ok := f.attr = 0 && f.ftype = 5
      let t := a.transfer
      let d := if ok then hits.foldl (fun d w =>
          let v := Frame.lineAt f w.1
          let d := d.cacheKeep h t f.srcId w.2.2 v
          let d := if a.cacheOnly then d else d.ownLine h (t.lineOf w.2.1) v
          (d.bump Obj.RUNAHEAD_BYTES h 64).chargeFabric a.ctx 64) d
        else d.dropAhead h a
      d.putAhead h a (a.lines.filter fun w => !hits.any fun x => x.2 = w) (if ok && !a.cacheOnly then hits.map (·.2.1) else [])

/-- An answer to lines of a scale-slot exchange: a line not read, or not written, is affected (R78). -/
def Dev.answerScale (d : Dev) (h : Nat) (f : Frame) : Dev :=
  match (d.hearth h).exch with
  | none => (d.await f.xferTag none).bump Obj.LATE_ANSWERS
  | some e =>
    let ks := List.range (Frame.nLines f)
    let l := if f.ftype = 5 then e.reads else e.writes
    let hits := ks.filterMap fun k => (l.find? fun w => w.2 = f.addr + 64 * k).map fun w => (k, w)
    if hits.isEmpty then d.bump Obj.LATE_ANSWERS
    else
      let rest := l.filter fun w => !hits.any fun x => x.2 = w
      let e := if f.ftype = 5 then { e with
            reads := rest
            got := e.got ++ hits.map fun x => (x.2.1, if f.attr = 0 then some (Frame.lineAt f x.1) else none) }
        else { e with writes := rest, badOut := e.badOut || f.attr ≠ 0 }
      let d := d.modHearth h fun x => { x with exch := some e }
      if f.ftype = 5 then match (d.hearth h).run with
        | some r => d.chargeFabric r.ctx f.payload.length
        | none => d
      else d

/-- Part of a MODE 1 transfer already handed over is acknowledged: it is watched for a later epoch only (R145, R147). -/
def Dev.answerHanded (d : Dev) (tag h desc epoch left order n : Nat) : Dev :=
  d.await tag (if left ≤ n then none else some (.handed h desc epoch (left - n) order))

/-- An ACK or READ_RESP for this device (R294); one that nothing waits for is absorbed and counted (R295). -/
def Dev.takeAnswer (d : Dev) (f : Frame) : Dev :=
  match tget none d.net.awaits f.xferTag with
  | none => d.bump Obj.LATE_ANSWERS
  | some (.xfer h p) => d.answerXfer h p f
  | some (.flue h p) =>
    let d := d.await f.xferTag none
    match (d.hearth h).place p with
    | some t => if t.tag = some f.xferTag then d.setPlace h p (some { t with done := true }) else d
    | none => d
  | some (.handed h n e left o) => d.answerHanded f.xferTag h n e left o (Frame.nLines f)
  | some (.ahead h) => d.answerAhead h f
  | some (.scale h) => d.answerScale h f
  | some (.hostLoad dst a off len got) =>
    d.loadPiece f.xferTag dst a off len got (Frame.nLines f) (if f.attr = 0 && f.ftype = 5 then
      some ((List.range (Frame.nLines f)).map fun k => (f.addr + 64 * k, (Frame.lineAt f k).bytes)) else none)
  | some (.hostLate dst left) => d.lateLoad f.xferTag dst left (Frame.nLines f)
  | some (.hostLost dst st left) => d.lostAnswer f.xferTag dst st left (Frame.nLines f)
  | some (.hostStore _) => (d.await f.xferTag none).releaseHeld
  | some (.probe _) => d
  | some (.stale _) => d.bump Obj.RESET_ABSORBED

/-! ### Frames without a route, frames passed on (R288, R290) -/

/-- A frame that cannot be sent on: counted, discarded, and answered ABSENT where its type is answered (R288). -/
def Dev.unroutableFrame (d : Dev) (f : Frame) : Dev :=
  let d := d.countUnroutable f.dstId
  if Frame.unanswered f then d
  else if d.ownId = some f.srcId then d.takeAnswer (Frame.absentAnswer f)
  else d.sendAnswer (Frame.absentAnswer f)

/-- A frame for another device is passed on with HOPS one higher (R288, R290). -/
def Dev.forward (d : Dev) (f : Frame) : Dev :=
  if f.hops = 15 then d.unroutableFrame f
  else
    let f := { f with hops := f.hops + 1 }
    match d.trySend f with
    | some d => d
    | none => d.unroutableFrame f

/-- Frames that waited for a new route of member `m` take it (R289). -/
def Dev.releaseRoute (d : Dev) (m : Nat) : Dev :=
  let mine := fun (q : Nat × Frame) => decide (q.1 = waitQueue) && decide (q.2.dstId % 512 = m)
  let fs := d.net.queue.filter mine
  let d := d.modNet fun n => { n with newRoutes := tset none n.newRoutes m none, queue := n.queue.filter fun q => !mine q }
  fs.foldl (fun d q => match d.trySend q.2 with
    | some d => d
    | none => d.unroutableFrame q.2) d

/-- A route change is in force once no frame for the member is queued under the old entry (R289). -/
def Dev.settleRoutes (d : Dev) : Dev :=
  (d.net.newRoutes.map (·.1)).foldl (fun d m =>
    if d.net.queue.any fun q => q.1 ≠ waitQueue && !q.2.nbr && q.2.dstId % 512 = m && q.2.dstId / 512 = d.selfId / 512 then d
    else d.releaseRoute m) d

/-! ### Arrival at a port (R276, R279, R284, R297) -/

/-- Credits of a VL's receive buffer (R278). -/
def vlCredits (vl : Nat) : Nat := if vl < 2 then 16384 else 512

/-- Credits the frames in a port's receive buffer of a VL take (R278). -/
def Port.held (x : Port) (vl : Nat) : Nat := ((x.rx.filter fun r => r.frame.vl.val = vl).map fun r => Frame.cost r.frame).foldl (· + ·) 0

/-- The LINK_SEQ due next under a key slot: a new slot starts from 0 (R279, R427). -/
def Port.dueSeq (x : Port) (k : Nat) : Nat := if k = x.keyRx then x.seqRx else 0

/-- A frame as the link delivers it, and whether the port takes it: not without a session or a key for its slot, nor with another LINK_SEQ
than the one due, of which a later one asks for a replay (R279), nor beyond the receive buffer, to which no credit led (R278). The first
frame under a new slot discards the old receiving key (R297). -/
def Dev.linkIn (d : Dev) (p : Nat) (f : Frame) : Dev × Bool :=
  let x := d.port p
  let k := f.keyIdx.val
  match tget none x.keySlots k with
  | none => (d, false)
  | some ses =>
    if !d.portUp p || ses.rx.isNone || decide (vlCredits f.vl.val < x.held f.vl.val + Frame.cost f) then (d, false)
    else if f.linkSeq ≠ x.dueSeq k then
      (if f.linkSeq < x.dueSeq k then d else d.setPort p { x with replayFrom := some (x.replayFrom.getD (x.dueSeq k)) }, false)
    else
      let slots := if k = x.keyRx then x.keySlots else tmod none x.keySlots x.keyRx fun o => o.map fun y => { y with rx := none }
      (d.setPort p { x with seqRx := f.linkSeq + 1, replayFrom := none, keyRx := k, keySlots := slots }, true)

/-- Whether a tag is of work charged to a context slot (R332, R333). -/
def Dev.ownWork (d : Dev) (tag : Nat) : Bool :=
  match tget none d.net.awaits tag with
  | some (.xfer ..) | some (.flue ..) | some (.handed ..) | some (.ahead _) | some (.scale _) => true
  | _ => false

/-- Note a frame's payload as its slot's through a port, where it is this device's own work, else as charged to none (R333). -/
def Dev.notePort (d : Dev) (p : Nat) (f : Frame) (own : Bool) : Dev :=
  if own && d.ownWork f.xferTag then d.noteUnit (unitPort p) f.srcCtx.val f.payload.length
  else { d with attrib := tmod 0 d.attrib (uncharged p) (· + f.payload.length) }

/-- Count a frame received (R313, R333). -/
def Dev.countRx (d : Dev) (p : Nat) (f : Frame) : Dev :=
  ((d.bump Obj.FRAMES_RX p).bump Obj.PAYLOAD_BYTES_RX p f.payload.length).notePort p f (f.ftype = 5 && d.ownId = some f.dstId)

/-- Credits of a VL go back to the neighbour (R278). -/
def Dev.giveBack (d : Dev) (p : Nat) (f : Frame) : Dev :=
  d.modPort p fun x => { x with returned := tmod 0 x.returned f.vl.val (· + Frame.cost f) }

/-- A frame arrives at a port, and whether it is one to be served here: counted, dropped on a wrong VL, not taken before this device has an
ID (R284), or passed on. -/
def Dev.arrive (d : Dev) (p : Nat) (f : Frame) : Dev × Bool :=
  match d.linkIn p f with
  | (d, false) => (d, false)
  | (d, true) =>
    let d := d.countRx p f
    if !Frame.laneOk f then ((d.bump Obj.FRAMES_DROPPED p).giveBack p f, false)
    else if d.ownId.isNone && !(f.nbr && decide (2 ≤ f.vl.val)) then (d.giveBack p f, false)
    else if !f.nbr && d.ownId ≠ some f.dstId then ((d.forward f).giveBack p f, false)
    else (d, true)

/-! ### Requests served here (R282, R293) -/

/-- An outcome as the status of an answer (R275). -/
def Acc.code : Acc → Nat
  | .ok | .wait => 0
  | .refused => 1
  | .absent => 2
  | .invalid => 3

/-- Apply the lines of a frame that are still to be served, in order, up to the first that has to wait: whether none has; the status is
the gravest of the lines'. -/
def Dev.eachLine (d : Dev) (r : RxFrame) (g : Dev → Nat → Line → Dev × Acc) : Dev × RxFrame × Bool :=
  (List.range (Frame.nLines r.frame - r.next)).foldl (fun (s : Dev × RxFrame × Bool) _ =>
    if !s.2.2 then s
    else
      let k := s.2.1.next
      match g s.1 (r.frame.addr + 64 * k) (Frame.lineAt r.frame k) with
      | (d, .wait) => (d, s.2.1, false)
      | (d, a) => (d, { s.2.1 with next := k + 1, status := max s.2.1.status a.code }, true)) (d, r, true)

/-- A WRITE frame into a scratchpad is one remote write (R134, log entry 19). -/
def Dev.scrFrame (d : Dev) (h l : Nat) (f : Frame) : Dev × Nat :=
  if !d.hearthOpen h then (d, 2)
  else if !d.remoteOk h l (l + f.linesM1.val) then (d.remoteRefuse h, 1)
  else ((List.range (Frame.nLines f)).foldl (fun d k => d.modHearth h fun x => x.setLine (l + k) (Frame.lineAt f k)) d, 0)

/-- What is left of a frame in a receive buffer, none where it has been served; it is acknowledged then (R293). -/
def Dev.ackServed (d : Dev) (r : RxFrame) (done : Bool) : Dev × Option RxFrame :=
  if done then (d.sendAnswer (d.ackOf r.frame r.status), none) else (d, some r)

/-- A WRITE frame at its destination (R282, R283). -/
def Dev.serveWrite (d : Dev) (p : Nat) (r : RxFrame) : Dev × Option RxFrame :=
  match d.area r.frame.addr with
  | .scr h off =>
    if d.hearthOpen h && !d.clockOn (h / 64) then (d.wakeRegion (h / 64), some r)
    else let (d, st) := d.scrFrame h (off / 64) r.frame; d.ackServed { r with status := st } true
  | _ => let (d, r, ok) := d.eachLine r fun d a v => d.localWrite a v [] none (whoPort p); d.ackServed r ok

/-- A WRITE_PARTIAL frame: the bytes of one line that EXT selects (R275, R282). -/
def Dev.servePartial (d : Dev) (p : Nat) (r : RxFrame) : Dev × Option RxFrame :=
  if r.frame.linesM1 ≠ 0 then d.ackServed { r with status := 3 } true
  else
    let (d, r, ok) := d.eachLine r fun d a v => d.localWrite a v ((List.range 64).map fun b => bit r.frame.ext b) none (whoPort p)
    d.ackServed r ok

/-- An ADD frame: lines are added to HBM data space; apertures refuse them (R213, R282). -/
def Dev.serveAdd (d : Dev) (p : Nat) (r : RxFrame) : Dev × Option RxFrame :=
  let (d, r, ok) := d.eachLine r fun d a v => d.localAdd a (r.frame.attr = 1) v none (whoPort p)
  d.ackServed r ok

/-- What the code finds in the eight words of line `k`. -/
def RxFrame.words (r : RxFrame) (k : Nat) : List SramOutcome :=
  (List.range 8).map fun j => ((r.errs.find? fun e => e.1 = 8 * k + j).map (·.2)).getD .clean

/-- Read the lines of a READ_REQ that are still to be read, up to the first that has to wait: whether none has. -/
def Dev.readLines (d : Dev) (p : Nat) (r : RxFrame) : Dev × RxFrame × Bool :=
  (List.range (Frame.nLines r.frame - r.got.length)).foldl (fun (s : Dev × RxFrame × Bool) _ =>
    if !s.2.2 then s
    else
      let k := s.2.1.got.length
      let put := fun (d : Dev) (st : Nat) (v : Line) => (d, { s.2.1 with got := s.2.1.got ++ [(st, v)] }, true)
      match s.1.localRead (r.frame.addr + 64 * k) 0 none (r.words k) (whoPort p) with
      | (d, .wait) => (d, s.2.1, false)
      | (d, .line v) => put d 0 v
      | (d, .absent) => put d 2 Line.zerosAsh
      | (d, .invalid) => put d 3 Line.zerosAsh) (d, r, true)

/-- Runs of lines of one status, with the first line's number. -/
def statusRuns : Nat → List (Nat × Line) → List (Nat × Nat × List Line)
  | _, [] => []
  | k, (st, v) :: rest =>
    match statusRuns (k + 1) rest with
    | (k', st', vs) :: more => if st = st' then (k, st, v :: vs) :: more else (k, st, [v]) :: (k', st', vs) :: more
    | [] => [(k, st, [v])]

/-- The READ_RESP frames of a READ_REQ, one for each run of lines of one status (R276, R282). -/
def Dev.readResps (d : Dev) (f : Frame) (ls : List (Nat × Line)) : List Frame :=
  (statusRuns 0 ls).map fun r =>
    { Frame.plain 5 0 f.srcId d.selfId (f.addr + 64 * r.1) (r.2.2.length - 1) f.xferTag with
      srcCtx := f.srcCtx, attr := Fin.ofNat 4 r.2.1,
      payload := if r.2.1 = 0 then r.2.2.flatMap (·.bytes) else [], ash := if r.2.1 = 0 then r.2.2.map (·.ash) else [] }

/-- A NOTICE at its destination (R135, R277, R461). -/
def Dev.takeNotice (d : Dev) (f : Frame) : Dev :=
  match d.area f.addr with
  | .scr h off => if bit f.ext 63 then d.noticeCounter h (bits f.ext 62 57) else d.arrival h (off / 64)
  | _ => d

/-! ### Distances (R300) -/

/-- Record a member's class. -/
def Dev.setClass (d : Dev) (m c : Nat) : Dev :=
  let b := (d.domByte Obj.DISTANCE_MAP (m / 4)).toNat
  d.domWrite Obj.DISTANCE_MAP (m / 4) [BitVec.ofNat 8 (setBits b (2 * (m % 4) + 1) (2 * (m % 4)) c)]

/-- A member that answers no probe: HOP_MAP 0xFF, and a class the spec does not state (free value 24). -/
def Dev.noDistance (d : Dev) (m : Nat) : Dev :=
  let (c, d) := d.draw 24
  (d.domWrite Obj.HOP_MAP m [0xFF]).setClass m (c % 4)

/-- The answer to a member's probe: HOPS plus 1, class 1 from a neighbour, else 2. -/
def Dev.setDistance (d : Dev) (m hops : Nat) : Dev :=
  (d.domWrite Obj.HOP_MAP m [BitVec.ofNat 8 (hops + 1)]).setClass m (if hops = 0 then 1 else 2)

/-- Probe one member: a read of its DEVICE_ID_ACTIVE (log entry 20). -/
def Dev.probe (d : Dev) (own m : Nat) : Dev :=
  if m = own % 512 then d.setClass m 0
  else
    let (tag, d) := d.freshTag
    let f := { Frame.plain 8 2 (own / 512 * 512 + m) own 0 0 0 with
      xferTag := tag, payload := fit 0 64 (odHeader 1 0 0x4000 2 tag 0 0), ash := [false] }
    match d.trySend f with
    | some d => d.await tag (some (.probe m))
    | none => d.noDistance m

/-- Recompute the classes: every reachable member is probed. -/
def Dev.distances (d : Dev) : Dev :=
  match d.ownId with
  | none => d
  | some own =>
    let d := d.modNet fun n => { n with awaits := n.awaits.filter fun e => match e.2 with
      | some (.probe _) => false
      | _ => true }
    (List.range 512).foldl (fun d m => d.probe own m) d

/-! ### OD_RESP and event notices (R300, R363, R370) -/

/-- An event notice of another device. -/
def Dev.remoteEvent (d : Dev) (src seq : Nat) : Dev := d.raise Event.remote .global 0 none src seq

/-- An OD_RESP for this device. One that nothing waits for is discarded. -/
def Dev.takeOdResp (d : Dev) (f : Frame) : Dev :=
  let w := leNat (f.payload.take 32)
  let tag := bits w 207 192
  if bits w 255 248 = 6 then d.remoteEvent f.srcId (bits (leNat ((f.payload.drop 32).take 32)) 191 160)
  else match tget none d.net.awaits tag with
    | some (.probe m) => if f.srcId % 512 = m then (d.await tag none).setDistance m f.hops.val else d
    | some (.hostLoad dst a off len got) =>
      let slot := 0xC0000000000 + bits w 239 220 * 2048 + bits w 219 212 * 8
      d.loadPiece tag dst a off len got 1 (if bits w 247 240 = 0 then some [(slot, slotAnswer w (f.payload.drop 32))] else none)
    | some (.hostLate dst left) => d.lateLoad tag dst left 1
    | some (.hostLost dst st left) => d.lostAnswer tag dst st left 1
    | some (.hostStore _) => (d.await tag none).releaseHeld
    | _ => d

/-! ### The receive buffers (R278) -/

/-- A READ_REQ at its destination: its lines are read and sent back (R276, R282). -/
def Dev.serveRead (d : Dev) (p : Nat) (r : RxFrame) : Dev × Option RxFrame :=
  let (d, r, ok) := d.readLines p r
  if ok then ((d.readResps r.frame r.got).foldl Dev.sendAnswer d, none) else (d, some r)

/-- A FLUE_WRITE frame at the flue's home: the first frame of a write takes its turn among `rivals` at the router (R162), whose region's
clock must run (R374). -/
def Dev.serveFlue (d : Dev) (p : Nat) (r : RxFrame) (rivals : List Nat) : Dev × Option RxFrame :=
  let f := (flueExt r.frame).1
  let home := d.flueFrameHome r.frame
  if d.hearthOpen home && !d.clockOn (home / 64) then (d.wakeRegion (home / 64), some r)
  else if (d.flueBegun r.frame).isSome then (d.flueFrame r.frame, none)
  else
    let (d, won) := d.askFlue f (whoPort p) rivals
    if won then (d.flueFrame r.frame, none) else (d, some r)

/-- Serve a frame in a port's receive buffer: what is left of it where it has to wait. -/
def Dev.serveFrame (d : Dev) (p : Nat) (r : RxFrame) (rivals : List Nat) : Dev × Option RxFrame :=
  match r.frame.ftype.val with
  | 1 => d.serveWrite p r
  | 2 => d.servePartial p r
  | 3 => d.serveAdd p r
  | 4 => d.serveRead p r
  | 5 | 0xB => (d.takeAnswer r.frame, none)
  | 6 => (d.takeNotice r.frame, none)
  | 7 => d.serveFlue p r rivals
  | 9 => (d.takeOdResp r.frame, none)
  | _ => (d, none)

/-- Serve one frame of the buffers: those of its VL that wait stay before it. -/
def Dev.serveNext (d : Dev) (p : Nat) (rivals : List Nat) (r : RxFrame) : Dev :=
  let stay := fun (d : Dev) (r : RxFrame) => d.modPort p fun x => { x with rx := x.rx ++ [r] }
  if (d.port p).rx.any fun q => q.frame.vl = r.frame.vl then stay d r
  else
    let (e, left) := { d with crc := r.crc }.serveFrame p r rivals
    let e := { e with crc := [] }
    match left with
    | some r => stay e r
    | none => e.giveBack p r.frame

/-- Serve the frames of a port's receive buffers in arrival order within each VL (R292). -/
def Dev.serveRx (d : Dev) (p : Nat) : Dev := (d.port p).rx.foldl (fun d r => d.serveNext p [] r) (d.modPort p fun x => { x with rx := [] })

/-- A frame arrives at a port; one to be served here is, behind those of its VL that wait. -/
def Dev.receive (d : Dev) (p : Nat) (r : RxFrame) (rivals : List Nat) : Dev :=
  match d.arrive p r.frame with
  | (d, false) => d
  | (d, true) => d.serveNext p rivals r

end Sys2Proof.Machine
end

