-- ==== Sys2Proof/Machine/SchedOps.lean ====
section
/-! DEFINITION. Placements and the scheduler's pass (R328 to R330), idle causes (R232, R233), the scale-slot exchange (R77, R78, R317). -/

namespace Sys2Proof.Machine

/-! ### Placements (R328, R337) -/

/-- Logical hearths of alternative `k` of slot `c`. -/
def Dev.placement (d : Dev) (c k : Nat) : List Nat :=
  (List.range 128).flatMap fun j =>
    let b := (d.domByte Obj.PLACEMENT j c k).toNat
    if b = 0 then [] else ((List.range 8).filter fun i => bit b i).map (8 * j + ·)

/-- Lines of a hearth in retained weight regions of slot `c` (R129). -/
def Dev.retained (d : Dev) (h c : Nat) : Nat :=
  ((List.range 16).map fun n =>
    let w := d.get Obj.REGION h n
    if regKind w = 1 && bit w 30 && bits w 29 25 = c then bits w 48 34 + 1 else 0).foldl (· + ·) 0

/-- Score of a set of hearths. -/
def Dev.score (d : Dev) (c : Nat) (hs : List Nat) : Nat := (hs.map fun h => d.retained h c).foldl (· + ·) 0

/-- Eligible alternatives with their hearths and scores. -/
def Dev.eligible (d : Dev) (c : Nat) : List (Nat × List Nat × Nat) :=
  (List.range 4).filterMap fun k =>
    let hs := d.placement c k
    if hs.isEmpty || hs.any d.hearthAbsent then none else some (k, hs, d.score c hs)

/-- The alternative with the highest score, the lowest index on a tie. -/
def bestOf : List (Nat × List Nat × Nat) → Option (Nat × List Nat × Nat)
  | [] => none
  | a :: as => match bestOf as with
    | none => some a
    | some b => if b.2.2 ≤ a.2.2 then some a else some b

/-- Hearths that a running step holds. -/
def Dev.heldHearths (d : Dev) : List Nat :=
  (List.range 16).flatMap fun c => match (d.ctx c).run with
    | some r => r.hearths.filter fun h => !r.ended.contains h
    | none => []

/-! ### The pass (R329, R330, R379) -/

/-- The pass so far: the device, hearths reserved, and the slot that reserved them. -/
structure Pass where
  dev : Dev
  reserved : List Nat
  by_ : Option Nat
  deriving DecidableEq, Repr

/-- Start slot `c`'s next step: its regions take PHASE_AT_START and wake, and each hearth will get its start command (R324, R374, R379). -/
def Dev.startStep (d : Dev) (c : Nat) (a : Nat × List Nat × Nat) : Dev :=
  let d := d.put Obj.PENDING_STEPS (d.get Obj.PENDING_STEPS c - 1) c
  let d := d.put Obj.LAST_PLACEMENT a.1 c
  let d := d.setCtx c { d.ctx c with run := some ⟨a.1, a.2.1, [], none⟩ }
  let d := { d with schedPtr := tset 0 d.schedPtr (d.get Obj.PRIORITY c) ((c + 1) % 16) }
  let d := { d with stks := (List.range 32).foldl (fun t st =>
    if (d.stack st).misused.contains c then tmod Stack.fresh t st fun x => { x with misused := x.misused.filter (· ≠ c) } else t) d.stks }
  let gs := (List.range 16).filter fun g => a.2.1.any fun h => h / 64 = g
  let d := gs.foldl (fun d g => ((d.put Obj.CURRENT_PHASE (d.get Obj.PHASE_AT_START g) g).retarget g).clockStart g) d
  d.refreshCtx c

/-- The pass over one waiting slot. -/
def Pass.visit (p : Pass) (c : Nat) : Pass :=
  let d := p.dev
  let es := d.eligible c
  match bestOf es with
  | none =>
    let d := (d.setCtx c { d.ctx c with halted := true }).refreshCtx c
    { p with dev := d.raise Event.placementFailed .ctx c (some c) }
  | some best =>
    let held := d.heldHearths
    let fs := es.filter fun a => a.2.1.all fun h => d.hState h = hIdle && !held.contains h && !p.reserved.contains h
    if fs.any fun a => a.1 = best.1 then { p with dev := d.startStep c best }
    else
      let late := decide ((d.ctx c).since + d.get Obj.AFFINITY_WAIT c ≤ d.tick)
      match if late then bestOf fs else none with
      | some a => { p with dev := d.startStep c a }
      | none => if p.reserved.isEmpty then { p with reserved := best.2.1, by_ := some c } else p

/-- Waiting slots in rank order (R329). -/
def Dev.ranked (d : Dev) : List Nat :=
  [3, 2, 1, 0].flatMap fun pr =>
    ((List.range 16).map fun i => (tget 0 d.schedPtr pr + i) % 16).filter fun c => d.get Obj.CTX_STATE c = 2 && d.get Obj.PRIORITY c = pr

/-- The scheduler's pass at the end of a tick (R330). -/
def Dev.schedule (d : Dev) : Dev :=
  let p := d.ranked.foldl Pass.visit ⟨d, [], none⟩
  p.dev.put Obj.RESERVED_BY (p.by_.getD 0xFF)

/-! ### Idle causes (R232, R233) -/

/-- The governing wait condition's counter (R232). -/
def Dev.governing (d : Dev) (h : Nat) : Option Nat :=
  let x := d.hearth h
  match x.window.find? fun e => e.st = .waiting with
  | some e => (e.hdr.waits.find? fun w => !w.met e.i e.t (x.visible w.ctr)).map (·.ctr)
  | none =>
    let hd := Header.ofWord (d.tableEntry h x.walk.pos)
    let filling : Bool := match x.run with
      | some r => r.released && !r.needExchange && !r.stopped && x.window.all fun e => e.kind ≠ .stepEnd
      | none => false
    match if filling then EKind.ofCode hd.kind else none with
    | some .loop | some .branch => (hd.waits.find? fun w => !w.met x.walk.i x.walk.t (x.counter w.ctr)).map (·.ctr)
    | _ => none

/-- Cause code of a counter under the maps latched at step start. -/
def StepRun.cause (r : StepRun) (c : Nat) : Nat :=
  if c < 32 then bits r.causeLo (2 * c + 1) (2 * c) else bits r.causeHi (2 * (c - 32) + 1) (2 * (c - 32))

/-- The hearth counter and the slot's sum into which a tick goes. -/
def Dev.tickCause (d : Dev) (h : Nat) (busy throttled : Bool) : ObjDef × Option ObjDef :=
  if busy then (Obj.HEARTH_BUSY_TICKS, some Obj.CTX_BUSY_TICKS)
  else match (d.hearth h).run with
    | none => (Obj.IDLE_NO_STEP, none)
    | some r =>
      let code := match d.governing h with
        | some c => r.cause c
        | none => 0
      if d.get Obj.HALTED_STREAMS h ≠ 0 || code = 3 then (Obj.HEARTH_IDLE_HOST, some Obj.CTX_IDLE_HOST)
      else if throttled then (Obj.HEARTH_IDLE_THROTTLED, some Obj.CTX_IDLE_THROTTLED)
      else if code = 1 then (Obj.HEARTH_IDLE_PEER, some Obj.CTX_IDLE_PEER)
      else if code = 2 then (Obj.HEARTH_IDLE_FLUE, some Obj.CTX_IDLE_FLUE)
      else (Obj.HEARTH_IDLE_MEMORY, some Obj.CTX_IDLE_MEMORY)

/-- Count a tick of one hearth. -/
def Dev.countTick (d : Dev) (h : Nat) (busy throttled : Bool) : Dev :=
  if d.hState h = hAbsent then d
  else
    let (o, sum) := d.tickCause h busy throttled
    let d := d.bump o h
    match sum, d.hearthCtx h with
    | some s, some c => d.bump s c
    | _, _ => d

/-! ### The scale-slot exchange (R68, R77, R78) -/

/-- OLDEST_ENTRY: table index of the oldest entry in the window, 0 where there is none (R127). -/
def Hearth.oldestEntry (x : Hearth) : Nat :=
  match x.window with
  | e :: _ => e.idx
  | [] => 0

/-- LOOP_INDICES: I3..I0 at the fill stage (R127). -/
def Hearth.loopIndices (x : Hearth) : Nat := (List.range 4).foldl (fun v k => v + tget 0 x.walk.i k % 2 ^ 16 * 2 ^ (16 * k)) 0

/-- Line `n` of a hearth's save area. -/
def Hearth.scaleLine (x : Hearth) (n : Nat) : List Byte :=
  if n < 16 then (List.range 8).flatMap fun j => leBytes 8 (x.slot (8 * n + j)).word
  else (fit 0 16 (x.slot (n - 16)).hist).flatMap fun v => leBytes 4 v

/-- Lines of a save area. -/
def scaleLines : Nat := 144

/-- Address of line `n` of hearth `h`'s save area for slot `c` (R317). -/
def Dev.saveVa (d : Dev) (c h n : Nat) : Nat := (d.get Obj.SCALE_SAVE_VA c + 16384 * h + 64 * n) % 2 ^ 64

/-- A line of the exchange for another device, sent as a frame of one transfer. -/
def Dev.scaleFrame (d : Dev) (c h n dv a : Nat) (v : Option Line) (e : Exchange) : Dev × Exchange :=
  let (tag, d) := if e.tag = 65536 then d.freshTag else (e.tag, d)
  let f := { Frame.plain (if v.isSome then 1 else 4) 0 dv d.selfId a 0 tag with
    last := decide (n + 1 = scaleLines), srcCtx := Fin.ofNat 16 c,
    payload := match v with
      | some l => l.bytes
      | none => [],
    ash := if v.isSome then [false] else [] }
  match d.sendLine f (n ≠ 0) with
  | some d =>
    let d := (d.await tag (some (.scale h))).chargeFabric c f.payload.length
    (d, if v.isSome then { e with tag := tag, writes := e.writes ++ [(n, a)] } else { e with tag := tag, reads := e.reads ++ [(n, a)] })
  | none => (d.countUnroutable dv, if v.isSome then { e with badOut := true } else { e with got := e.got ++ [(n, none)] })

/-- Write line `n` of the outgoing slot's area, and whether it has not had to wait. -/
def Dev.saveLine (d : Dev) (c o h n : Nat) (e : Exchange) : Dev × Exchange × Bool :=
  let v : Line := ⟨(d.hearth h).scaleLine n, false⟩
  match d.translate (h / 8) o (d.saveVa o h n) .wr with
  | (d, .wait) => (d, e, false)
  | (d, .ok dv a) =>
    if dv ≠ d.selfId then let (d, e) := d.scaleFrame c h n dv a (some v) e; (d, e, true)
    else match d.localWrite a v [] (some c) h with
      | (d, .wait) => (d, e, false)
      | (d, .ok) => (d, e, true)
      | (d, _) => (d, { e with badOut := true }, true)
  | (d, _) => (d, { e with badOut := true }, true)

/-- Read line `n` of the incoming slot's area, and whether it has not had to wait. -/
def Dev.loadLine (d : Dev) (c h n : Nat) (e : Exchange) : Dev × Exchange × Bool :=
  match d.translate (h / 8) c (d.saveVa c h n) .rd with
  | (d, .wait) => (d, e, false)
  | (d, .ok dv a) =>
    if dv ≠ d.selfId then let (d, e) := d.scaleFrame c h n dv a none e; (d, e, true)
    else match d.localRead a 0 (some c) [] h with
      | (d, .wait) => (d, e, false)
      | (d, .line v) => (d, { e with got := e.got ++ [(n, some v)] }, true)
      | (d, _) => (d, { e with got := e.got ++ [(n, none)] }, true)
  | (d, _) => (d, { e with got := e.got ++ [(n, none)] }, true)

/-- The exchange goes on from the line it has reached, up to the first that has to wait (R77). -/
def Dev.scaleOn (d : Dev) (c h : Nat) (e : Exchange) : Dev × Exchange :=
  let r := (List.range (2 * scaleLines - e.next)).foldl (fun (s : Dev × Exchange × Bool) _ =>
    if !s.2.2 then s
    else
      let n := s.2.1.next
      let (d, e, ok) := match (s.1.hearth h).lastCtx with
        | some o => if n < scaleLines then s.1.saveLine c o h n s.2.1 else s.1.loadLine c h (n - scaleLines) s.2.1
        | none => s.1.loadLine c h (n - scaleLines) s.2.1
      (d, { e with next := if ok then n + 1 else n }, ok)) (d, e, true)
  (r.1, r.2.1)

/-- The line read for a position of the area, none where it was affected (R78). -/
def Exchange.line (e : Exchange) (n : Nat) : Option Line :=
  match e.got.find? fun g => g.1 = n with
  | some (_, some v) => if v.ash then none else some v
  | _ => none

/-- The slots an exchange leaves: fresh where the state word's or the history's line was affected. -/
def Exchange.slots (e : Exchange) : Tab ScaleSlot :=
  (List.range 128).foldl (fun t i =>
    let s := match e.line (i / 8), e.line (16 + i) with
      | some a, some b => ScaleSlot.ofWord (leNat ((a.bytes.drop (8 * (i % 8))).take 8))
          ((List.range 16).map fun j => leNat ((b.bytes.drop (4 * j)).take 4))
      | _, _ => ScaleSlot.fresh
    tset ScaleSlot.fresh t i s) []

/-- A hearth latches its L objects and its entry point, and may begin its part, which an empty table ends (R231, R324). -/
def Dev.latchStart (d : Dev) (h : Nat) (r : StepRun) : Dev :=
  let mode := d.get Obj.WEIGHT_READ_MODE h = 1
  let may := d.banked h || d.hState h = hTesting || d.get Obj.RECOVERY_REPLAY h = 1
  let d := if mode && !may then d.raise Event.transposedRefused .hearth h (some r.ctx) else d
  let vec := d.get Obj.ENTRY_VEC r.ctx
  let d := if bit vec 31 then d.put Obj.ENTRY_POINT ((d.hearth h).num (bits vec 20 0) 2) h else d
  let at_ := d.get Obj.ENTRY_POINT h
  let r := { r with
    empty := decide (d.get Obj.TABLE_ENTRIES h = 0), budget := d.get Obj.REPLAY_BUDGET h, stallLimit := d.get Obj.STALL_LIMIT h,
    transposed := mode && may, causeLo := d.get Obj.CAUSE_MAP_LO h, causeHi := d.get Obj.CAUSE_MAP_HI h, needExchange := false }
  let d := d.modHearth h fun x =>
    { x with run := some r, walk := Walk.start at_, bellows := { Bellows.fresh with walk := Walk.start at_ } }
  if r.empty then d.endPart h r.ctx else d

/-- The end of an exchange: the slots are in, each affected area is reported once, and the hearth goes on to latch (R78, R324). -/
def Dev.endExchange (d : Dev) (h : Nat) (r : StepRun) (e : Exchange) : Dev :=
  let badIn := (List.range scaleLines).any fun n => (e.line n).isNone
  let d := if e.badOut then d.raise Event.scaleSaveFault .hearth h (d.hearth h).lastCtx else d
  let d := if badIn then d.raise Event.scaleSaveFault .hearth h (some r.ctx) else d
  ((d.await e.tag none).modHearth h fun x => { x with slots := e.slots, slotBad := [], exch := none }).latchStart h r

/-- The exchange that a part of a step owes: the outgoing slot's lines, if a step ran before, then the incoming slot's. It ends once every
line has been moved and every answer of another device is in (R77). -/
def Dev.exchange (d : Dev) (h : Nat) (r : StepRun) (sram : List (Nat × SramOutcome)) : Dev :=
  let x := d.hearth h
  let (d, e) := match x.exch with
    | some e => (d, e)
    | none =>
      if x.lastCtx.isSome then (d.meetSlots h (List.range 1152) sram, ⟨65536, 0, [], [], [], false⟩)
      else (d, ⟨65536, scaleLines, [], [], [], false⟩)
  let (d, e) := d.scaleOn r.ctx h e
  if e.next = 2 * scaleLines && e.writes.isEmpty && e.reads.isEmpty then d.endExchange h r e
  else d.modHearth h fun x => { x with exch := some e }

end Sys2Proof.Machine
end

