-- ==== Sys2Proof/Machine/Contexts.lean ====
section
/-! DEFINITION. Commands of context slots, steps and accounts (R316, R322 to R333). -/

namespace Sys2Proof.Machine

/-- Answer a write with a status. -/
def Dev.withStatus (r : Dev × Nat) : Dev := r.1.answer r.2

/-- LAUNCH (R323). -/
def execLaunch (c : Fin 16) (countM1 : Fin 256) (s : State) : Host.Outcome State Fault Refusal :=
  s.onDev fun d => d.gated fun d => Dev.withStatus (d.ctxLaunch c.val (countM1.val + 1))

/-- ABORT (R323). -/
def execAbort (c : Fin 16) (s : State) : Host.Outcome State Fault Refusal :=
  s.onDev fun d => d.gated fun d => (d.ctxAbort c.val).answer 0

/-- CANCEL (R323). -/
def execCancel (c : Fin 16) (s : State) : Host.Outcome State Fault Refusal :=
  s.onDev fun d => d.gated fun d => (d.ctxCancel c.val).answer 0

/-- RESUME (R323). -/
def execResume (c : Fin 16) (s : State) : Host.Outcome State Fault Refusal :=
  s.onDev fun d => d.gated fun d => (d.ctxResume c.val).answer 0

/-- CTX_ENABLE_WRITE: a BOOL, so that other values than 0 and 1 are invalid (R316, R341). -/
def execCtxEnableWrite (c : Fin 16) (v : Nat) (s : State) : Host.Outcome State Fault Refusal :=
  s.onDev fun d => d.gated fun d => if 1 < v then d.answer 4 else (d.writeCtxEnable c.val v).answer 0

/-- The values that C objects show until the next boundary (R437): those stored, and those a hearth computes. -/
def Dev.boundary (d : Dev) : Tab Nat :=
  let put := fun (m : Tab Nat) (k v : Nat) => tset 0 m k (if v = 0 then 0 else v + 1)
  d.hearths.foldl (fun (m : Tab Nat) (e : Nat × Hearth) =>
    let m := put (put m (Obj.OLDEST_ENTRY.key e.1 0) e.2.oldestEntry) (Obj.LOOP_INDICES.key e.1 0) e.2.loopIndices
    (List.range 64).foldl (fun m c => put m (Obj.COUNTER.key e.1 c) (e.2.counter c)) m) d.od

/-- Whether the tick is busy for a hearth: its data path worked in a command of the tick, or goes on with work begun earlier (R232). -/
def Dev.tickBusy (d : Dev) (h : Nat) (on : Bool) : Bool :=
  d.worked.contains h ||
    (on && (!(d.hearth h).jobs.isEmpty || (d.hearth h).window.any fun e => e.st = .firing && e.kind = .vector))

/-- Whether the tick is throttled for a hearth: its region's clock was stopped for a move or the damper, or the firing duty withheld it
(R232, R377, R382, R385). -/
def Dev.tickHeld (d : Dev) (h : Nat) (withheld : Bool) : Bool :=
  d.clockHeld.contains (h / 64) || d.get Obj.CLOCK_STATE (h / 64) = 3 || (withheld && decide (d.get Obj.FIRING_DUTY < 16))

/-- SCHEDULER_PASS: every hearth counts the tick, the scheduler passes over the waiting slots, and the tick ends (R232, R330); at every 50,000th
the values that R352 shows in confidential mode are kept. -/
def Dev.cmdPass (d : Dev) (busy throttled : List Nat) : Dev :=
  let d := (List.range 1024).foldl (fun d h => d.countTick h (d.tickBusy h (busy.contains h)) (d.tickHeld h (throttled.contains h))) d
  let d := d.schedule
  let d := { d with tick := d.tick + 1, worked := [], clockHeld := [] }
  if d.tick % 50000 = 0 ∧ d.get Obj.CONFIDENTIAL_ACTIVE = 1 then { d with coarse := d.boundary } else d

/-! ### The start and end of a step (R324, R325) -/

/-- The slot whose running step has a hearth that has not taken its start command. -/
def Dev.startingCtx (d : Dev) (h : Nat) : Option Nat :=
  (List.range 16).find? fun c => match (d.ctx c).run with
    | some r => r.aborted.isNone && r.hearths.contains h && !r.ended.contains h
    | none => false

/-- The slot's cache lines are discarded when its first hearth in a cluster starts (R151, R324). -/
def Dev.discardCache (d : Dev) (h c : Nat) : Dev :=
  match (d.ctx c).run with
  | none => d
  | some r =>
    let others := r.hearths.filter fun x => x / 8 = h / 8 && x ≠ h
    if others.any fun x => r.ended.contains x || d.hearthCtx x = some c then d
    else d.setCluster (h / 8) { d.cluster (h / 8) with cache := (d.cluster (h / 8)).cache.filter fun e => e.1 ≠ c }

/-- A hearth takes its start command: the release stagger and the exchange of its scale slots may still hold its part, and what it latches
it latches after the exchange (R77, R324, R387). -/
def Dev.startHearth (d : Dev) (h c : Nat) : Dev :=
  let d := d.discardCache h c
  let x := d.hearth h
  let r : StepRun :=
    { ctx := c, empty := false, budget := 0, stallLimit := 0, transposed := false, causeLo := 0, causeHi := 0,
      needExchange := x.lastCtx ≠ some c, released := decide (d.get Obj.RELEASE_STAGGER_EN = 0), stopped := false, aborting := false }
  let d := d.setHearth h { x with run := some r, once := [] }
  let d := (d.put Obj.HEARTH_STATE hFiring h).put Obj.RUNNING_CTX c h
  if r.needExchange then d else d.latchStart h r

/-- HEARTH_START_COMMAND: not before its region's clock runs (R324, R374). -/
def Dev.cmdStartHearth (d : Dev) (h : Nat) : Dev :=
  match d.startingCtx h with
  | none => d
  | some c =>
    if d.hState h ≠ hIdle || (d.hearth h).run.isSome || decide (d.get Obj.CLOCK_STATE (h / 64) < 2) then d else d.startHearth h c

/-- HEARTH_START_COMMAND (R324). -/
def execHearthStartCommand (h : Fin 1024) (s : State) : Host.Outcome State Fault Refusal := s.onDev fun d => d.cmdStartHearth h.val

/-- SCALE_SLOT_EXCHANGE (R77). -/
def Dev.cmdExchange (d : Dev) (h : Nat) (sram : List (Nat × SramOutcome)) : Dev :=
  match (d.hearth h).run with
  | some r => if r.needExchange && !r.aborting then d.exchange h r sram else d
  | none => d

/-- SCALE_SLOT_EXCHANGE (R77). -/
def execScaleSlotExchange (h : Fin 1024) (sram : List (Nat × SramOutcome)) (crc : List (Nat × Nat)) (s : State) :
    Host.Outcome State Fault Refusal :=
  s.onDev fun d => d.withCrc crc fun d => d.cmdExchange h.val sram

/-- CLUSTER_RELEASE: the cluster's slot of the stagger has come, and its hearths may begin (R387). -/
def Dev.cmdRelease (d : Dev) (cl : Nat) : Dev :=
  (hearthsOfCluster cl).foldl (fun d h => match (d.hearth h).run with
    | some r => if r.released then d else d.modHearth h fun x => { x with run := some { r with released := true } }
    | none => d) d

/-- CLUSTER_RELEASE (R387). -/
def execClusterRelease (cl : Fin 128) (s : State) : Host.Outcome State Fault Refusal := s.onDev fun d => d.cmdRelease cl.val

/-- STEP_COMPLETE: every hearth has ended its part (R325). -/
def Dev.cmdStepComplete (d : Dev) (c : Nat) : Dev :=
  match (d.ctx c).run with
  | none => d
  | some r =>
    if !r.hearths.all fun h => r.ended.contains h then d
    else
      let d := d.setCtx c { d.ctx c with run := none }
      if r.aborted.isSome then (d.bump Obj.STEPS_ABORTED c).refreshCtx c
      else
        let d := d.bump Obj.STEPS_COMPLETED c
        let n := d.get Obj.STEP_NOTIFY c
        let d := if bit n 35 then d.arrival (bits n 34 25) (bits n 24 10) else d
        (d.raise Event.stepComplete .ctx c (some c)).refreshCtx c

/-- STEP_COMPLETE (R325). -/
def execStepComplete (c : Fin 16) (s : State) : Host.Outcome State Fault Refusal := s.onDev fun d => d.cmdStepComplete c.val

/-! ### Translation caches (R322) -/

/-- A write to a BOOL that acts on 1 and not on 0 (R341). -/
def Dev.onOne (d : Dev) (v : Nat) (f : Dev → Dev) : Dev := if 1 < v then d.answer 4 else if v = 1 then (f d).answer 0 else d.answer 0

/-- TLB_INVALIDATE (R322). -/
def execTlbInvalidate (c : Fin 16) (v : Nat) (s : State) : Host.Outcome State Fault Refusal :=
  s.onDev fun d => d.gated fun d => d.onOne v fun d => d.put Obj.TLB_INVAL_PENDING 1 c.val

/-- TLB_INVALIDATE_DONE: every cache has dropped the slot's entries (R322). -/
def Dev.cmdTlbDone (d : Dev) (c : Nat) : Dev :=
  if d.get Obj.TLB_INVAL_PENDING c = 1 then (d.tlbDrop c).put Obj.TLB_INVAL_PENDING 0 c else d

/-- TLB_INVALIDATE_DONE (R322). -/
def execTlbInvalidateDone (c : Fin 16) (s : State) : Host.Outcome State Fault Refusal := s.onDev fun d => d.cmdTlbDone c.val

end Sys2Proof.Machine
end

