-- ==== Sys2Proof/Machine/Accounts.lean ====
section
/-! DEFINITION. Accounts (R332, R333, R337) and the clearing objects of every block. -/

namespace Sys2Proof.Machine

/-! ### Energy attribution (R333) -/

/-- Number of a unit in the activity counts; the remaining energy of the device has none. -/
def unitNumber : EnergyUnit → Option Nat
  | .region g => some (unitRegion g.val)
  | .stack st => some (unitStack st.val)
  | .stoker t => some (unitStoker t.val)
  | .port p => some (unitPort p.val)
  | .other => none

/-- Key of the microjoules that account `c` carries forward; 16 is the unattributed one. -/
def carryKey (c : Nat) : Nat := 2000 + c

/-- Add microjoules to an account: its object counts whole millijoules (R333). -/
def Dev.addEnergy (d : Dev) (c uj : Nat) : Dev :=
  let v := tget 0 d.attrib (carryKey c) + uj
  let d := { d with attrib := tset 0 d.attrib (carryKey c) (v % 1000) }
  if c < 16 then d.bump Obj.ENERGY_MJ c (v / 1000) else d.bump Obj.ENERGY_UNATTRIBUTED_MJ 0 (v / 1000)

/-- Work counted on a unit that belongs to no slot: transit payload of a port. -/
def Dev.unchargedWork (d : Dev) : EnergyUnit → Nat
  | .port p => tget 0 d.attrib (uncharged p.val)
  | _ => 0

/-- Divide one unit's energy among the slots by their work on it; what no share takes is unattributed. -/
def Dev.divideEnergy (d : Dev) (u : EnergyUnit) (uj : Nat) : Dev :=
  let d := match u with
    | .region g => d.bump Obj.REGION_ENERGY_UJ g.val uj
    | _ => d
  match unitNumber u with
  | none => d.addEnergy 16 uj
  | some n =>
    let work := (List.range 16).map fun c => tget 0 d.attrib (n * 16 + c)
    let total := work.foldl (· + ·) 0 + d.unchargedWork u
    let shares := work.map fun w => if total = 0 then 0 else uj * w / total
    let d := (shares.zipIdx).foldl (fun d x => d.addEnergy x.2 x.1) d
    d.addEnergy 16 (uj - shares.foldl (· + ·) 0)

/-- ENERGY_ATTRIBUTION: the end of an attribution interval; the counts of work start again. -/
def Dev.cmdEnergy (d : Dev) (units : List (EnergyUnit × Nat)) : Dev :=
  let d := units.foldl (fun d u => d.divideEnergy u.1 u.2) d
  { d with attrib := tdrop (fun k => k < 2000 || decide (3000 ≤ k)) d.attrib }

/-- ENERGY_ATTRIBUTION (R333). -/
def execEnergyAttribution (units : List (EnergyUnit × Nat)) (s : State) : Host.Outcome State Fault Refusal := s.onDev fun d => d.cmdEnergy units

/-! ### Snapshot and clears (R332, R333) -/

/-- The accounts 0x3_0002:01..0B of a slot. -/
def accountObjs : List ObjDef :=
  [Obj.GRATE_CYCLES, Obj.VECTOR_CYCLES, Obj.HBM_BYTES, Obj.CTX_SLOW_BYTES, Obj.FABRIC_BYTES, Obj.CACHE_BYTES, Obj.ENERGY_MJ,
   Obj.CTX_RUNAHEAD_DROPS, Obj.PAGE_FAULTS, Obj.STEPS_COMPLETED, Obj.STEPS_ABORTED]

/-- The sums 0x3_0003:01..06 of a slot. -/
def accountSums : List ObjDef :=
  [Obj.CTX_BUSY_TICKS, Obj.CTX_IDLE_HOST, Obj.CTX_IDLE_THROTTLED, Obj.CTX_IDLE_PEER, Obj.CTX_IDLE_FLUE, Obj.CTX_IDLE_MEMORY]

/-- Copy every account of a slot in one tick, with the tick (R333). -/
def Dev.snapshot (d : Dev) (c : Nat) : Dev :=
  let vals := (accountObjs ++ accountSums).map fun o => d.get o c
  let d := (vals.zipIdx).foldl (fun d x => d.put Obj.SNAP x.1 c x.2) d
  d.put Obj.SNAP_TICK d.tick c

/-- ACCOUNTS_SNAPSHOT (R333). -/
def execAccountsSnapshot (c : Fin 16) (v : Nat) (s : State) : Host.Outcome State Fault Refusal :=
  s.onDev fun d => d.gated fun d => d.onOne v fun d => d.snapshot c.val

/-- ACCOUNTS_CLEAR (R332). -/
def execAccountsClear (c : Fin 16) (v : Nat) (s : State) : Host.Outcome State Fault Refusal :=
  s.onDev fun d => d.gated fun d => d.onOne v fun d => d.zero (accountObjs ++ accountSums) c.val

/-- 0x2_0009:01..0B. -/
def arithCounters : List ObjDef :=
  [Obj.ACC_SATURATIONS, Obj.CONVERT_SATURATIONS, Obj.NONFINITE_INPUTS, Obj.ASH_LINES_WRITTEN, Obj.SCALE_CHECK_FAILS, Obj.SCALE_REPLAYS,
   Obj.SCALE_SATURATED_ENTRIES, Obj.FEEDER_STALL_CYCLES, Obj.FEEDER_READ_RETRIES, Obj.SRAM_CORRECTED, Obj.SRAM_UNCORRECTED]

/-- COUNTERS_CLEAR (R80). -/
def execCountersClear (h : Fin 1024) (v : Nat) (s : State) : Host.Outcome State Fault Refusal :=
  s.onDev fun d => d.gatedHearth h.val Obj.COUNTERS_CLEAR 0 v fun d => d.onOne v fun d => d.zero arithCounters h.val

/-- 0x2_0013:01..0A. -/
def seqCounters : List ObjDef :=
  [Obj.ENTRIES_FIRED, Obj.ENTRIES_RETIRED, Obj.BLOCK_PRODUCTS_SKIPPED, Obj.SKIP_CHECK_FAILS, Obj.SKIP_REPLAYS, Obj.SKIP_UNREPLAYED_ENTRIES,
   Obj.DEPENDENT_REEXECUTIONS, Obj.EGRESS_HOLD_CYCLES, Obj.RUNAHEAD_BYTES, Obj.HEARTH_RUNAHEAD_DROPS]

/-- SEQ_COUNTERS_CLEAR (R127). -/
def execSeqCountersClear (h : Fin 1024) (v : Nat) (s : State) : Host.Outcome State Fault Refusal :=
  s.onDev fun d => d.gatedHearth h.val Obj.SEQ_COUNTERS_CLEAR 0 v fun d => d.onOne v fun d => d.zero seqCounters h.val

/-- 0x2_001B:01..07. -/
def streamCounters : List ObjDef :=
  [Obj.STREAM_BYTES_IN, Obj.STREAM_BYTES_OUT, Obj.STREAM_FAULT_LINES, Obj.REMOTE_WRITES_REFUSED, Obj.ARRIVAL_NOTICES,
   Obj.REARM_FORCED_DRAINS, Obj.DRAIN_HOLD_CYCLES]

/-- STREAM_COUNTERS_CLEAR (R170). -/
def execStreamCountersClear (h : Fin 1024) (v : Nat) (s : State) : Host.Outcome State Fault Refusal :=
  s.onDev fun d => d.gatedHearth h.val Obj.STREAM_COUNTERS_CLEAR 0 v fun d => d.onOne v fun d => d.zero streamCounters h.val

/-- 0x2_0020:01..07. -/
def idleCounters : List ObjDef :=
  [Obj.HEARTH_BUSY_TICKS, Obj.IDLE_NO_STEP, Obj.HEARTH_IDLE_HOST, Obj.HEARTH_IDLE_THROTTLED, Obj.HEARTH_IDLE_PEER,
   Obj.HEARTH_IDLE_FLUE, Obj.HEARTH_IDLE_MEMORY]

/-- IDLE_COUNTERS_CLEAR (R234). -/
def execIdleCountersClear (h : Fin 1024) (v : Nat) (s : State) : Host.Outcome State Fault Refusal :=
  s.onDev fun d => d.gatedHearth h.val Obj.IDLE_COUNTERS_CLEAR 0 v fun d => d.onOne v fun d => d.zero idleCounters h.val

/-- 0x1_2002:01..0A. -/
def hbmCounters : List ObjDef :=
  [Obj.SECTORS_CORRECTED, Obj.SECTORS_UNCORRECTABLE, Obj.ASH_SECTORS_READ, Obj.CRC_REPLAYS, Obj.RETRAINS, Obj.RETRAIN_FAILURES,
   Obj.LATE_WRITES_ABSORBED, Obj.ASH_LIST_OVERFLOWS, Obj.TAG_FULL_CYCLES, Obj.SCRUB_PASSES]

/-- HBM_COUNTERS_CLEAR (R217). -/
def execHbmCountersClear (st : Fin 32) (v : Nat) (s : State) : Host.Outcome State Fault Refusal :=
  s.onDev fun d => d.gated fun d => d.onOne v fun d => d.zero hbmCounters st.val

/-- 0x1_2008:01..08. -/
def hobCounters : List ObjDef :=
  [Obj.CHAIN_ELEMENTS, Obj.ROW_RELOADS, Obj.HOB_MISUSE, Obj.FOLD_ADD_SECTORS, Obj.CKPT_BLOCKS_WRITTEN, Obj.CKPT_BLOCKS_ASH,
   Obj.CKPT_AGE_FLUSHES, Obj.JOBS_DONE]

/-- HOB_COUNTERS_CLEAR (R217). -/
def execHobCountersClear (st : Fin 32) (v : Nat) (s : State) : Host.Outcome State Fault Refusal :=
  s.onDev fun d => d.gated fun d => d.onOne v fun d => d.zero hobCounters st.val

/-- 0x3_2004:04..06. -/
def groupCounters : List ObjDef := [Obj.ROOT_FAILURES, Obj.STEP_SKEWS, Obj.SKIPPED_ELEMENTS]

/-- GROUP_COUNTERS_CLEAR (R244). -/
def execGroupCountersClear (g : Fin 4096) (v : Nat) (s : State) : Host.Outcome State Fault Refusal :=
  s.onDev fun d => d.gated fun d => d.onOne v fun d => d.zero groupCounters g.val

/-- 0x3_1011:01..07. -/
def stokerCounters : List ObjDef :=
  [Obj.ELEMENTS_UPDATED, Obj.ROOTS_COMPUTED, Obj.NEWTON_ITERATIONS, Obj.SLOW_CORRECTED, Obj.SLOW_UNCORRECTABLE, Obj.STOKER_SLOW_BYTES,
   Obj.STOKER_HBM_BYTES]

/-- STOKER_COUNTERS_CLEAR (R270). -/
def execStokerCountersClear (t : Fin 2) (v : Nat) (s : State) : Host.Outcome State Fault Refusal :=
  s.onDev fun d => d.gatedStoker t.val fun d => d.onOne v fun d => d.zero stokerCounters t.val

/-- 0x1_3001:01..0A. -/
def portCounters : List ObjDef :=
  [Obj.FRAMES_TX, Obj.FRAMES_RX, Obj.PAYLOAD_BYTES_TX, Obj.PAYLOAD_BYTES_RX, Obj.RETRIES, Obj.AUTH_FAILURES, Obj.NARROWINGS, Obj.REKEYS,
   Obj.FRAMES_DROPPED, Obj.CREDIT_STALLS]

/-- PORT_COUNTERS_CLEAR (R313). -/
def execPortCountersClear (p : Fin 16) (v : Nat) (s : State) : Host.Outcome State Fault Refusal :=
  s.onDev fun d => d.gated fun d => d.onOne v fun d => d.zero portCounters p.val

/-- 0x0_4001:03..06. -/
def fabricCounters : List ObjDef := [Obj.FRAMES_UNROUTABLE, Obj.FABRIC_TIMEOUTS, Obj.LATE_ANSWERS, Obj.HOST_ERRORS]

/-- FABRIC_COUNTERS_CLEAR (R314). -/
def execFabricCountersClear (v : Nat) (s : State) : Host.Outcome State Fault Refusal :=
  s.onDev fun d => d.gatedPilot fun d => d.onOne v fun d => d.zero fabricCounters

end Sys2Proof.Machine
end

