-- ==== Sys2Proof/Machine/Fabric.lean ====
section
/-! DEFINITION. Frames that arrive from another device, frames passed on and sent, credits, replays, timeouts (R275 to R295). -/

namespace Sys2Proof.Machine

/-- A frame as one of type `t`: a command names its frame's type. -/
def frameOf (t : Nat) (f : Frame) : Frame := { f with ftype := Fin.ofNat 16 t }

/-- A frame that meets no SRAM error. -/
def rxOf (f : Frame) (crc : List (Nat × Nat)) : RxFrame := ⟨f, [], crc, 0, 0, []⟩

/-- WRITE (R282): lines are written, or doorbells rung, and acknowledged (R283, R293). -/
def execWrite (p : Fin 16) (f : Frame) (crc : List (Nat × Nat)) (s : State) : Host.Outcome State Fault Refusal :=
  s.onDev fun d => d.receive p.val (rxOf (frameOf 1 f) crc) []

/-- WRITE_PARTIAL (R282): the bytes of one line that EXT selects (R275). -/
def execWritePartial (p : Fin 16) (f : Frame) (crc : List (Nat × Nat)) (s : State) : Host.Outcome State Fault Refusal :=
  s.onDev fun d => d.receive p.val (rxOf (frameOf 2 f) crc) []

/-- ADD (R282): lines are added to HBM data space; apertures refuse them (R213, R293). -/
def execAdd (p : Fin 16) (f : Frame) (crc : List (Nat × Nat)) (s : State) : Host.Outcome State Fault Refusal :=
  s.onDev fun d => d.receive p.val (rxOf (frameOf 3 f) crc) []

/-- READ_REQ (R282): lines are read and sent back (R276). -/
def execReadReq (p : Fin 16) (f : Frame) (errs : List (Nat × SramOutcome)) (crc : List (Nat × Nat)) (s : State) :
    Host.Outcome State Fault Refusal :=
  s.onDev fun d => d.receive p.val { rxOf (frameOf 4 f) crc with errs := errs } []

/-- READ_RESP (R294): lines delivered, or handled as their status says. -/
def execReadResp (p : Fin 16) (f : Frame) (s : State) : Host.Outcome State Fault Refusal :=
  s.onDev fun d => d.receive p.val (rxOf (frameOf 5 f) []) []

/-- NOTICE (R277): an arrival or drain notice (R135, R461). -/
def execNotice (p : Fin 16) (f : Frame) (s : State) : Host.Outcome State Fault Refusal :=
  s.onDev fun d => d.receive p.val (rxOf (frameOf 6 f) []) []

/-- FLUE_WRITE (R277): part of a proxied slot write reaches the flue's home. -/
def execFlueWrite (p : Fin 16) (f : Frame) (rivals : List (Fin 1046)) (s : State) : Host.Outcome State Fault Refusal :=
  s.onDev fun d => d.receive p.val (rxOf (frameOf 7 f) []) (rivals.map Fin.val)

/-- ACK (R293, R294). -/
def execAck (p : Fin 16) (f : Frame) (s : State) : Host.Outcome State Fault Refusal :=
  s.onDev fun d => d.receive p.val (rxOf (frameOf 0xB f) []) []

/-- OD_RESP (R363): the answer to a probe or to a host access of another dictionary, or an event notice (R300, R308, R370). -/
def execOdResp (p : Fin 16) (f : Frame) (s : State) : Host.Outcome State Fault Refusal :=
  s.onDev fun d => d.receive p.val (rxOf (frameOf 9 f) []) []

/-- UNKNOWN_FRAME: a frame of an unknown type or on a wrong VL is dropped and counted (R276). -/
def Dev.cmdUnknown (d : Dev) (p : Nat) (f : Frame) : Dev := if Frame.laneOk f then d else (d.arrive p f).1

/-- UNKNOWN_FRAME (R276). -/
def execUnknownFrame (p : Fin 16) (f : Frame) (s : State) : Host.Outcome State Fault Refusal := s.onDev fun d => d.cmdUnknown p.val f

/-- FRAME_FORWARD: a frame for another device goes on its way (R288, R290). -/
def Dev.cmdForward (d : Dev) (p : Nat) (f : Frame) : Dev := if f.nbr || d.ownId = some f.dstId then d else (d.arrive p f).1

/-- FRAME_FORWARD (R290). -/
def execFrameForward (p : Fin 16) (f : Frame) (s : State) : Host.Outcome State Fault Refusal := s.onDev fun d => d.cmdForward p.val f

/-! ### The link (R278, R279, R291) -/

/-- Credits a frame leaves untouched: 64 KiB of a data or reduce buffer is kept for frames in their destination group (R278). -/
def Dev.reserve (d : Dev) (f : Frame) : Nat := if f.vl.val < 2 && f.dstId / 512 ≠ d.selfId / 512 then 1024 else 0

/-- Whether a port's credits and its 2 MiB retry buffer let a frame go now (R278, R279). -/
def Dev.canSend (d : Dev) (p : Nat) (f : Frame) : Bool :=
  decide (Frame.cost f + d.reserve f ≤ d.creditsOf p f.vl.val) &&
    decide ((((d.port p).retry.map Frame.size).foldl (· + ·) 0) + Frame.size f ≤ 2097152)

/-- The first frame queued at a port on a VL. -/
def Dev.headOf (d : Dev) (p vl : Nat) : Option Frame := (d.net.queue.find? fun q => q.1 = p && q.2.vl.val = vl).map (·.2)

/-- The 36 bytes of key and salt that a port sends a frame under: zeros for SEC messages before its session (R296, R426). -/
def Port.txSession (x : Port) : Nat :=
  match tget none x.keySlots x.keyTx with
  | some s => s.tx
  | none => 0

/-- The frame a port sends next: security, then management, then data and reduce in rotation (R278). -/
def Dev.nextFrame (d : Dev) (p : Nat) : Option Frame :=
  let order := [3, 2] ++ (if (d.port p).vlPtr = 0 then [0, 1] else [1, 0])
  (order.filterMap fun v => d.headOf p v).find? fun f => d.canSend p f

/-- A frame as sent: under the port's key, with its LINK_SEQ (R279, R296). -/
def Port.stamp (x : Port) (f : Frame) : Frame := { f with keyIdx := Fin.ofNat 2 x.keyTx, linkSeq := x.seqTx }

/-- Send a frame: its credits are taken, it is kept for a replay, and what the transmitter counts is counted. -/
def Dev.transmit (d : Dev) (p : Nat) (f : Frame) : Dev :=
  let v := f.vl.val
  let d := d.modNet fun n => { n with queue := n.queue.erase (p, f) }
  let left := d.creditsOf p v - Frame.cost f
  let d := d.modPort p fun x => { x with
    credits := tset (if v < 2 then 16384 else 512) x.credits v left
    retry := x.retry ++ [x.stamp f]
    seqTx := x.seqTx + 1
    vlPtr := if v < 2 then (v + 1) % 2 else x.vlPtr
    keySlots := tmod none x.keySlots x.keyTx fun o => o.map fun y => { y with frames := y.frames + 1 } }
  let own := f.srcId = d.selfId && (f.ftype.val ≤ 3 || f.ftype = 7)
  (((d.bump Obj.FRAMES_TX p).bump Obj.PAYLOAD_BYTES_TX p f.payload.length).notePort p f own).settleRoutes

/-- The frame a port may send now: an UP port with a session its next one, an AUTHENTICATING or REJECTED port SEC messages alone (R296,
R299). -/
def Dev.dueFrame (d : Dev) (p : Nat) : Option Frame :=
  let x := d.port p
  let st := d.get Obj.PORT_STATE p
  if x.changing then none
  else if st = 4 then (if (tget none x.keySlots x.keyTx).isNone then none else d.nextFrame p)
  else if st = 3 || st = 6 then (d.headOf p 3).filter fun f => f.ftype = 0xA && d.canSend p f
  else none

/-- FRAME_TRANSMIT: a port sends the frame that is due; it answers with its bytes on the link. -/
def Dev.cmdTransmit (d : Dev) (p : Nat) : Dev :=
  match d.dueFrame p with
  | none => d
  | some f => (d.transmit p f).answer 0 0 (Frame.wire ((d.port p).stamp f) (d.port p).txSession)

/-- FRAME_TRANSMIT (R278). -/
def execFrameTransmit (p : Fin 16) (s : State) : Host.Outcome State Fault Refusal := s.onDev fun d => d.cmdTransmit p.val

/-- Frames still unconfirmed once those below `c` are confirmed, in LINK_SEQ order (R279). A number of the newer key confirms every
frame sent under the older. -/
def Port.confirm (x : Port) (c : Nat) : List Frame :=
  let old := fun (f : Frame) => f.keyIdx.val ≠ x.keyTx
  if (x.retry.any fun f => !old f && decide (f.linkSeq < c)) && (x.retry.all fun f => !old f || decide (c ≤ f.linkSeq)) then
    x.retry.filter fun f => !old f && decide (c ≤ f.linkSeq)
  else x.retry.dropWhile fun f => decide (f.linkSeq < c)

/-- CREDIT_RETURN: credits of a VL come back, and frames are confirmed (R278, R279). -/
def Dev.cmdCredit (d : Dev) (p vl n c : Nat) : Dev :=
  let full := if vl < 2 then 16384 else 512
  let now := min full (d.creditsOf p vl + n)
  d.modPort p fun x => { x with credits := tset full x.credits vl now, retry := x.confirm c }

/-- CREDIT_RETURN (R278). -/
def execCreditReturn (p : Fin 16) (vl : Fin 4) (credits confirmed : Nat) (s : State) : Host.Outcome State Fault Refusal :=
  s.onDev fun d => d.cmdCredit p.val vl.val credits confirmed

/-- The session a kept frame was sent under. -/
def Port.sessionOf (x : Port) (f : Frame) : Nat :=
  match tget none x.keySlots f.keyIdx.val with
  | some s => s.tx
  | none => 0

/-- REPLAY_REQUEST: the frames from a LINK_SEQ on are sent again, unchanged; those before it are confirmed (R279). It answers with their
bytes on the link. -/
def Dev.cmdReplay (d : Dev) (p seq : Nat) : Dev :=
  let l := (d.port p).confirm seq
  match l with
  | [] => d
  | f :: _ =>
    if f.linkSeq = seq then
      ((d.modPort p fun x => { x with retry := l }).bump Obj.RETRIES p).answer 0 0 (l.flatMap fun g => Frame.wire g ((d.port p).sessionOf g))
    else d

/-- REPLAY_REQUEST (R279). -/
def execReplayRequest (p : Fin 16) (seq : Nat) (s : State) : Host.Outcome State Fault Refusal := s.onDev fun d => d.cmdReplay p.val seq

/-- CREDIT_STALL: frames wait on a VL and no credit has come back for CREDIT_STALL_LIMIT ticks (R291). -/
def Dev.cmdCreditStall (d : Dev) (p vl : Nat) : Dev :=
  match d.headOf p vl with
  | none => d
  | some f =>
    if d.get Obj.CREDIT_STALL_LIMIT = 0 || decide (Frame.cost f + d.reserve f ≤ d.creditsOf p vl) then d
    else (d.bump Obj.CREDIT_STALLS p).raise Event.creditStall .port p

/-- CREDIT_STALL (R291). -/
def execCreditStall (p : Fin 16) (vl : Fin 4) (s : State) : Host.Outcome State Fault Refusal := s.onDev fun d => d.cmdCreditStall p.val vl.val

/-! ### Timeouts (R295) -/

/-- Count lines that timed out. -/
def Dev.timedOut (d : Dev) (n : Nat) : Dev := d.bump Obj.FABRIC_TIMEOUTS 0 n

/-- FABRIC_TIMEOUT: the oldest line waited for under a tag is absent, or every line of a host request (R295); an answer that comes later
finds nothing waiting for it. -/
def Dev.cmdTimeout (d : Dev) (tag : Nat) : Dev :=
  match tget none d.net.awaits tag with
  | some (.xfer h p) =>
    match (d.hearth h).place p with
    | some t => match t.waiting with
      | w :: rest => if t.tag = some tag then ((d.timedOut 1).lineLost h t w.1).setPlace h p (some ({ t with waiting := rest }.noNotice w.1)) else d
      | [] => d
    | none => d
  | some (.flue h p) =>
    match (d.hearth h).place p with
    | some t => match t.flue with
      | some o => ((d.timedOut (d.flueCfg o.flue).lines).await tag none).setPlace h p (some { t with done := true })
      | none => d
    | none => d
  | some (.handed h n e left o) => d.answerHanded tag h n e left o 1
  | some (.ahead h) =>
    match (d.hearth h).bellows.inflight.find? fun a => a.tag = tag with
    | some a => ((d.timedOut 1).dropAhead h a).putAhead h a a.lines.tail []
    | none => d
  | some (.hostLoad _ a off len got) => ((d.timedOut (piecesLeft a off len got)).await tag none).loadFails len
  | some (.hostLate _ left) => (d.timedOut left).await tag none
  | some (.hostLost dst st left) => let d := (d.timedOut left).await tag none; if st then d.failHeld dst else d
  | some (.hostStore dst) => ((d.timedOut 1).await tag none).failHeld dst
  | some (.scale h) =>
    match (d.hearth h).exch with
    | some e => match e.writes, e.reads with
      | _ :: ws, _ => (d.timedOut 1).modHearth h fun x => { x with exch := some { e with writes := ws, badOut := true } }
      | [], r :: rs => (d.timedOut 1).modHearth h fun x => { x with exch := some { e with reads := rs, got := e.got ++ [(r.1, none)] } }
      | [], [] => d
    | none => d
  | some (.stale _) => d.await tag none
  | some (.probe _) | none => d

/-- FABRIC_TIMEOUT (R295). -/
def execFabricTimeout (tag : Nat) (s : State) : Host.Outcome State Fault Refusal := s.onDev fun d => d.cmdTimeout tag

end Sys2Proof.Machine
end

