-- ==== Sys2Proof/Machine/StoreOps.lean ====
section
/-! DEFINITION. The ember store (R453 to R458): queueing operations on its two mirrors, the energy check, the order of service,
what an operation commits, and appends to the defect list (R404). -/

namespace Sys2Proof.Machine

/-- The class of R458 an operation is served in. -/
def StoreJob.cls : StoreJob → Nat
  | .defect _ | .bootCount _ | .secVersion _ => 1
  | .slotSelect _ | .persist .. | .slotProgram .. | .repair .. => 2
  | .persistErase .. | .slotErase .. | .logErase _ => 3
  | .logFirst n => if n = 0 then 2 else 1

/-- Whether an operation is an erase. -/
def StoreJob.isErase (j : StoreJob) : Bool := j.cls = 3

/-- Required charge in tenths of a millijoule (R457): a page program 13.5 mJ, a 64 KiB block erase 9 J. -/
def StoreJob.charge (j : StoreJob) : Nat := if j.isErase then 90000 else 135

/-- The item an operation makes valid in its mirror, as halfDone and repairs name it. -/
def StoreJob.item : StoreJob → Option (Nat × Nat)
  | .defect v => some (0, v)
  | .bootCount n => some (1, n)
  | .secVersion v => some (2, v)
  | .slotSelect s => some (3, s)
  | .slotProgram s off _ => some (5, s * 2 ^ 21 + off)
  | .repair k a => some (k, a)
  | .persist .. | .persistErase .. | .slotErase .. | .logErase _ | .logFirst _ => none

/-- Whether a mirror is in service (R454). -/
def Dev.mirrorUp (d : Dev) (m : Nat) : Bool := bit (d.get Obj.STORE_MIRROR_STATE) m

/-- Put an operation at the end of the queue. -/
def Dev.pushStore (d : Dev) (o : StoreOp) : Dev := { d with store := { d.store with queue := d.store.queue ++ [o] } }

/-- What the object that asked for an operation shows when it can never start or fails on its last mirror (R457). -/
def Dev.storeFailed (d : Dev) : StoreJob → Dev
  | .persistErase .. | .persist .. => d.put Obj.PERSIST_STATE 4
  | .slotSelect _ | .slotErase .. | .slotProgram .. => d.put Obj.FW_UPDATE_STATE 4
  | .defect _ => d.putBit Obj.DEFECT_STATUS 1 true
  | .bootCount _ | .secVersion _ | .repair .. | .logErase _ | .logFirst _ => d

/-- Queue a write of the store: first on mirror 0, on mirror 1 alone when mirror 0 has failed (R454); with both
failed it fails. -/
def Dev.queueStore (d : Dev) (j : StoreJob) : Dev :=
  if d.mirrorUp 0 then d.pushStore ⟨j, 0, false⟩ else if d.mirrorUp 1 then d.pushStore ⟨j, 1, false⟩ else d.storeFailed j

/-- The defect records queued and not yet written. -/
def Dev.queuedDefects (d : Dev) : List Nat :=
  ((d.store.queue ++ d.store.running.toList).filterMap fun o => match o.job with
    | .defect v => some v
    | _ => none).dedup

/-- A defect record (R404). -/
def defectRec (kind source index detail boot : Nat) : Nat :=
  (kind % 16) * 2 ^ 60 + (source % 16) * 2 ^ 56 + (index % 2 ^ 12) * 2 ^ 44 + (detail % 2 ^ 12) * 2 ^ 32 + boot % 2 ^ 32

/-- Whether a unit is on the defect list, written or queued. -/
def Dev.isListed (d : Dev) (v : Vault) (kind index : Nat) : Bool :=
  (v.defects ++ d.queuedDefects).any fun r => bits r 63 60 = kind && bits r 55 44 = index

/-- Queue a record for the defect list, which raises defect-added; a full list sets FULL and raises defect-list-full (R404).
A unit already listed is not appended again (R403); a record written on one mirror and queued for the other counts once. -/
def Dev.appendDefect (d : Dev) (v : Vault) (kind source index detail : Nat) : Dev :=
  if d.isListed v kind index then d
  else if 4096 ≤ v.defects.length + (d.queuedDefects.filter fun r => !v.defects.contains r).length then
    (d.putBit Obj.DEFECT_STATUS 0 true).raise Event.defectListFull .global 0
  else
    (d.queueStore (.defect (defectRec kind source index detail (d.get Obj.BOOT_COUNT)))).raise Event.defectAdded .global 0

/-! ### Service (R457, R458) -/

/-- The next operation the store would start: class 1, then class 2, then, with neither queued, an erase; deferred operations
wait for their retry. -/
def Dev.nextStore (d : Dev) : Option StoreOp :=
  let q := d.store.queue
  match q.find? fun o => o.job.cls = 1 && !o.deferred with
  | some o => some o
  | none => match q.find? fun o => o.job.cls = 2 && !o.deferred with
    | some o => some o
    | none => if q.any fun o => !o.job.isErase then none else q.find? fun o => o.job.isErase && !o.deferred

/-- The deferred operation tried again first. -/
def Dev.nextDeferred (d : Dev) : Option StoreOp :=
  let q := d.store.queue
  match q.find? fun o => o.job.cls = 1 && o.deferred with
  | some o => some o
  | none => match q.find? fun o => o.job.cls = 2 && o.deferred with
    | some o => some o
    | none => if q.any fun o => !o.job.isErase then none else q.find? fun o => o.job.isErase && o.deferred

/-- STORE_STATE of a running operation (R459). -/
def StoreJob.state (j : StoreJob) : Nat := if j.isErase then 2 else 1

/-- Try to start operation `o` with `mj` of usable energy measured before it (R457). A capacity not measured yet fails
nothing. -/
def Dev.tryStore (d : Dev) (o : StoreOp) (mj : Nat) : Dev :=
  let d := d.put Obj.HOLDUP_ENERGY_MJ mj
  let rest := d.store.queue.erase o
  if d.get Obj.HOLDUP_CAPACITY_MJ ≠ 0 ∧ 10 * d.get Obj.HOLDUP_CAPACITY_MJ < o.job.charge then
    ({ d with store := { d.store with queue := rest } }).storeFailed o.job
  else if 10 * mj < o.job.charge then
    let d := { d with store := { d.store with queue := d.store.queue.map fun x => if x = o then { x with deferred := true } else x } }
    let d := (d.put Obj.STORE_STATE 3).bump Obj.STORE_DEFERRALS
    let d := if o.deferred then d else d.raise Event.storeDeferred .global 0
    match o.job with
    | .defect _ => d.putBit Obj.DEFECT_STATUS 1 true
    | .persistErase .. | .persist .. => d.put Obj.PERSIST_STATE 3
    | .slotSelect _ | .slotErase .. | .slotProgram .. => d.put Obj.FW_UPDATE_STATE 2
    | _ => d
  else
    let d := { d with store := { d.store with queue := rest, running := some o } }
    let d := d.put Obj.STORE_STATE o.job.state
    match o.job with
    | .persistErase .. | .persist .. => d.put Obj.PERSIST_STATE 2
    | .slotSelect _ | .slotErase .. | .slotProgram .. => d.put Obj.FW_UPDATE_STATE 1
    | _ => d

/-- The vault after an operation has made its record valid in a mirror, the first or the second. A counter's value is the
highest of its records (R455). -/
def Vault.commit (v : Vault) (d : Dev) : StoreJob → Vault
  | .defect r => if v.defects.contains r ∨ 4096 ≤ v.defects.length then v else { v with defects := v.defects ++ [r] }
  | .bootCount n => { v with bootCount := max v.bootCount n }
  | .secVersion n => { v with secVersion := max v.secVersion n }
  | .slotSelect s => { v with activeSlot := s }
  | .persist a _ =>
    { v with persistOd := d.saveOd, persistDom := d.saveDom, persistValid := true, persistDefaults := false, persistArea := a }
  | .slotProgram s off bs =>
    { v with slotBytes := (bs.zipIdx).foldl (fun m b => tset 0 m (s * 2 ^ 21 + off + b.2) b.1) v.slotBytes }
  | .slotErase s b =>
    { v with slotBytes := tdrop (fun k => decide (k / 2 ^ 16 = s * 32 + b)) v.slotBytes,
             halfDone := v.halfDone.filter fun h => !(h.1 = 5 && decide (h.2.1 / 2 ^ 16 = s * 32 + b)) }
  | .persistErase .. | .repair .. | .logErase _ | .logFirst _ => v

/-- Items valid in one mirror alone, after an operation on mirror `m` has made `it` valid there. -/
def Vault.markItem (v : Vault) (m : Nat) (it : Option (Nat × Nat)) : Vault :=
  match it with
  | none => v
  | some (k, a) =>
    if v.halfDone.contains (k, a, m) then { v with halfDone := v.halfDone.erase (k, a, m) }
    else if v.halfDone.contains (k, a, 1 - m) then v
    else { v with halfDone := v.halfDone ++ [(k, a, 1 - m)] }

/-! ### The slot-select log and the counter log (R453, R455) -/

/-- The log an append goes to: 0 the slot-select log, 1 the counter log. -/
def StoreJob.log : StoreJob → Option Nat
  | .slotSelect _ => some 0
  | .bootCount _ | .secVersion _ => some 1
  | _ => none

/-- Records in a log of a mirror. -/
def Vault.logCount (v : Vault) (n m : Nat) : Nat := tget 0 v.logs (2 * n + m)

/-- An append has added a record to its log on mirror `m`. -/
def Vault.appended (v : Vault) (m : Nat) (j : StoreJob) : Vault :=
  match j.log with
  | some n => { v with logs := tmod 0 v.logs (2 * n + m) (· + 1) }
  | none => v

/-- A log is full on a mirror; how many records it holds the spec does not say (`Config.logRecords`, log entry 5). -/
def Vault.logFull (v : Vault) (n : Nat) : Bool := [0, 1].any fun m => decide (Config.logRecords n ≤ v.logCount n m)

/-- The items a log holds, as halfDone names them. -/
def Vault.logItems (v : Vault) (n : Nat) : List (Nat × Nat) :=
  if n = 0 then [(3, v.activeSlot)] else [(1, v.bootCount), (2, v.secVersion)]

/-- A log of mirror `m` is erased: its current values are missing there. -/
def Vault.logErased (v : Vault) (n m : Nat) : Vault :=
  { v with logs := tset 0 v.logs (2 * n + m) 0,
           halfDone := (v.halfDone ++ (v.logItems n).map fun i => (i.1, i.2, m)).dedup }

/-- The current values are the first records of a log of mirror `m`. -/
def Vault.logStarted (v : Vault) (n m : Nat) : Vault :=
  { v with logs := tset 0 v.logs (2 * n + m) (v.logItems n).length,
           halfDone := v.halfDone.filter fun h => !(decide (h.2.2 = m) && (v.logItems n).any fun i => i.1 = h.1) }

/-- A full log is compacted, one mirror at a time: erased, then its current values programmed (R455). -/
def Dev.compact (d : Dev) (v : Vault) (j : StoreJob) : Dev :=
  match j.log with
  | some n => if v.logFull n && !(d.store.queue.any fun o => o.job = .logErase n) then d.queueStore (.logErase n) else d
  | none => d

/-! ### The end of an operation (R454 to R457) -/

/-- Put an operation before the rest of the queue: what follows one that has just ended. -/
def Dev.pushFront (d : Dev) (o : StoreOp) : Dev := { d with store := { d.store with queue := o :: d.store.queue } }

/-- Whether a job belongs to a firmware update. -/
def StoreJob.isFw : StoreJob → Bool
  | .slotSelect _ | .slotErase .. | .slotProgram .. => true
  | _ => false

/-- A save has ended: CLEAN only with its record in both mirrors, DIRTY when a P object was written meanwhile (R350, R455). -/
def Dev.finishSave (d : Dev) (v : Vault) : Dev :=
  let both := [0, 1].all fun m => v.persistMirrors.contains (v.persistArea, m)
  (d.bump Obj.PERSIST_SAVES).put Obj.PERSIST_STATE (if !both then 4 else if d.store.touched then 1 else 0)

/-- What follows an operation on the last mirror that takes it. -/
def Dev.finishJob (d : Dev) (v : Vault) : StoreJob → Dev
  | .defect _ =>
    if d.store.queue.any fun o => o.deferred && o.job.cls = 1 && (match o.job with
      | .defect _ => true
      | _ => false)
    then d else d.putBit Obj.DEFECT_STATUS 1 false
  | .slotSelect _ => d.raise Event.fwUpdateDone .global 0
  | .persistErase _ q | .persist _ q => if q = d.store.saveSeq then d.finishSave v else d
  | _ => d

/-- STORE_STATE and FW_UPDATE_STATE with no operation running. -/
def Dev.showStore (d : Dev) : Dev :=
  let d := d.put Obj.STORE_STATE (if d.store.queue.any fun o => o.deferred then 3 else 0)
  let fw := d.get Obj.FW_UPDATE_STATE
  if (fw = 1 ∨ fw = 2) ∧ d.store.queue.all fun o => !o.job.isFw then d.put Obj.FW_UPDATE_STATE 3 else d

/-- An operation has ended without error on its mirror. -/
def storeEnded (v : Vault) (d : Dev) (o : StoreOp) : Vault × Dev :=
  let d := { d with store := { d.store with running := none } }
  let m := o.mirror
  let next := decide (m = 0) && d.mirrorUp 1
  match o.job with
  | .persistErase a q =>
    let v := { v with persistMirrors := v.persistMirrors.filter fun x => x ≠ (a, m) }
    if q ≠ d.store.saveSeq then (v, d.showStore)
    else
      let d := if next then d.pushFront ⟨.persistErase a q, 1, false⟩ else d
      (v, (d.pushFront ⟨.persist a q, m, false⟩).showStore)
  | .persist a q =>
    if q ≠ d.store.saveSeq then (v, d.showStore)
    else
      let v := v.commit d o.job
      let v := { v with persistMirrors := (a, m) :: v.persistMirrors.filter fun x => x ≠ (a, m) }
      (v, (if next then d else d.finishJob v o.job).showStore)
  | .repair k a =>
    let v := if k = 4 then { v with persistMirrors := (a, m) :: v.persistMirrors.filter fun x => x ≠ (a, m) }
             else { v with halfDone := v.halfDone.erase (k, a, m) }
    let d := (d.bump Obj.STORE_REPAIRS).raise Event.mirrorRepaired .global 0
    (v, (if k = 4 ∧ a = v.persistArea ∧ d.get Obj.PERSIST_STATE = 1 ∧ !d.store.touched then d.put Obj.PERSIST_STATE 0 else d).showStore)
  | .logErase n =>
    let d := if next then d.pushFront ⟨.logErase n, 1, false⟩ else d
    (v.logErased n m, (d.pushFront ⟨.logFirst n, m, false⟩).showStore)
  | .logFirst n => (v.logStarted n m, d.showStore)
  | j =>
    let v := ((v.commit d j).markItem m j.item).appended m j
    (v, (if next then d.pushFront ⟨j, 1, false⟩ else (d.finishJob v j).compact v j).showStore)

/-- What becomes of an operation of a mirror that has failed: made on the other mirror when it stood first, otherwise its job ends
with the mirror that holds it. -/
def Dev.reroute (v : Vault) (d : Dev) (o : StoreOp) : Dev :=
  match o.job with
  | .repair .. => d
  | j =>
    if o.mirror = 0 then if d.mirrorUp 1 then d.pushStore ⟨j, 1, false⟩ else d.storeFailed j
    else if d.mirrorUp 0 then d.finishJob v j else d.storeFailed j

/-- A mirror has reported an error: it is out of service until the next whole-device reset (R454). -/
def Dev.mirrorFailed (d : Dev) (v : Vault) (o : StoreOp) : Dev :=
  let m := o.mirror
  let mine := d.store.queue.filter fun x => x.mirror = m
  let d := { d with store := { d.store with running := none, queue := d.store.queue.filter fun x => x.mirror ≠ m } }
  let d := (d.putBit Obj.STORE_MIRROR_STATE m false).raise Event.storeMirrorFailed .global 0
  ((o :: mine).foldl (Dev.reroute v) d).showStore

end Sys2Proof.Machine
end

