-- ==== Sys2Proof/Machine/LinkOps.lean ====
section
/-! DEFINITION. Link ports: lanes and widths (R301, R302), leaving and entering UP, held frames (R303), the session exchange (R426, R427). -/

namespace Sys2Proof.Machine

/-! ### Lanes (R301, R313) -/

/-- The largest width of 8, 4, 2, 1 or no lanes that `n` good lanes allow. -/
def widthOf (n : Nat) : Nat := if 8 ≤ n then 8 else if 4 ≤ n then 4 else if 2 ≤ n then 2 else if 1 ≤ n then 1 else 0

/-- Lanes a mask names. -/
def laneList (m : Nat) : List Nat := (List.range 8).filter fun n => bit m n

/-- Width of the transmit direction, at most four lanes while a thermal throttle narrows it (R301, R390). -/
def Port.txWidth (x : Port) : Nat := min (widthOf (laneList x.txGood).length) (if x.throttled then 4 else 8)

/-- Width of the receive direction. -/
def Port.rxWidth (x : Port) : Nat := widthOf (laneList x.rxGood).length

/-- The `w` lowest-numbered lanes of a mask, as a mask. -/
def lowLanes (m w : Nat) : Nat := ((laneList m).take w).foldl (fun v n => setBit v n true) 0

/-- Code of one lane in LANE_STATE, in a port state. -/
def laneCode (st : Nat) (good : Bool) : Nat := if st = 0 then 0 else if st = 2 then 1 else if !good then 0 else if st = 5 then 3 else 2

/-- Show a port's lanes in TX_LANES, RX_LANES, LANES_DOWN and LANE_STATE. -/
def Dev.showLanes (d : Dev) (p : Nat) : Dev :=
  let x := d.port p
  let st := d.get Obj.PORT_STATE p
  let on := decide (st ≠ 0) && decide (st ≠ 2)
  let d := d.put Obj.TX_LANES (if on then lowLanes x.txGood x.txWidth else 0) p
  let d := d.put Obj.RX_LANES (if on then lowLanes x.rxGood x.rxWidth else 0) p
  let d := d.put Obj.LANES_DOWN (if on then (255 - x.rxGood % 256) * 256 + (255 - x.txGood % 256) else 0) p
  (List.range 8).foldl (fun d n => d.put Obj.LANE_STATE (laneCode st (bit x.txGood n) + 4 * laneCode st (bit x.rxGood n)) p n) d

/-- TRAINING or AUTHENTICATING. -/
def portTraining (st : Nat) : Bool := st = 2 || st = 3

/-- Set a port's state and show its lanes; the distance classes are recomputed when it enters or leaves UP (R300). -/
def Dev.setPortState (d : Dev) (p st : Nat) : Dev :=
  let was := d.portUp p
  let d := if portTraining (d.get Obj.PORT_STATE p) && !portTraining st then d.hasTrained (32 + p) else d
  let d := (d.put Obj.PORT_STATE st p).showLanes p
  if d.portUp p = was then d else d.distances

/-- A change of a port's good lanes or of its throttle once the port has trained: a direction narrows or widens; with no lane left in one
the port is down, unless it is REJECTED and stays so (R299, R301 to R303). -/
def Dev.changeLanes (d : Dev) (p : Nat) (f : Port → Port) : Dev :=
  let x := d.port p
  let y := f x
  let d := d.setPort p y
  if d.get Obj.PORT_STATE p < 3 then d.showLanes p
  else if (y.txWidth = 0 || y.rxWidth = 0) && d.get Obj.PORT_STATE p ≠ 6 then
    ((d.modPort p fun z => { z with changing := false }).setPortState p 1).raise Event.portDown .port p
  else
    let d := d.modPort p fun z => { z with changing := z.changing || decide (y.txWidth ≠ x.txWidth) }
    let d := d.showLanes p
    let d := if y.txWidth < x.txWidth then (d.bump Obj.NARROWINGS p).raise Event.narrowed .port p else d
    if y.rxWidth < x.rxWidth then (d.bump Obj.NARROWINGS p).raise Event.narrowed .port p else d

/-- Mark one lane of a direction good or down (R301). -/
def Port.setLane (x : Port) (rx : Bool) (lane : Nat) (good : Bool) : Port :=
  let rest := x.marked.filter fun m => m ≠ (rx, lane)
  let x := { x with marked := if good then rest else (rx, lane) :: rest }
  if rx then { x with rxGood := setBit x.rxGood lane good } else { x with txGood := setBit x.txGood lane good }

/-- The lanes of both directions that training leaves without signal: they are marked down (R301). -/
def untrained (tx rx : Nat) : List (Bool × Nat) :=
  ((List.range 8).filterMap fun n => if bit tx n then none else some (false, n)) ++
    (List.range 8).filterMap fun n => if bit rx n then none else some (true, n)

/-- Direction and lane at a fibre position, the halves exchanged or not (R445, R446). -/
def laneAt (swapped : Bool) (pos : Nat) : Bool × Nat :=
  let rx := decide (8 < pos) ≠ swapped
  (rx, if pos ≤ 8 then pos - 1 else 16 - pos)

/-! ### Replays and held frames (R279, R303) -/

/-- Replay the unconfirmed frames, if there are any. -/
def Dev.replay (d : Dev) (p : Nat) : Dev := if (d.port p).retry.isEmpty then d else d.bump Obj.RETRIES p

/-- Discard the frames a port holds: each is counted and answered as unroutable (R288, R303). -/
def Dev.discardHeld (d : Dev) (p : Nat) : Dev :=
  let fs := (d.port p).retry ++ (d.net.queue.filter fun q => q.1 = p).map (·.2)
  let d := d.modNet fun n => { n with queue := n.queue.filter fun q => q.1 ≠ p }
  let d := d.modPort p fun x => { x with retry := [] }
  (fs.foldl (fun d f =>
    let d := d.bump Obj.FRAMES_DROPPED p
    if f.nbr then d else d.unroutableFrame f) d).settleRoutes

/-! ### The session exchange (R426, R427) -/

/-- Send a SEC message to the neighbour: an NBR frame on the security VL (R426). The order of its bytes is the model's choice (log entry
52). -/
def Dev.sendSec (d : Dev) (p : Nat) (msg : List Byte) : Dev :=
  let n := (msg.length + 63) / 64
  d.sendNbr p { Frame.plain 0xA 3 0 d.selfId 0 (n - 1) 0 with payload := fit 0 (64 * n) msg }

/-- Whether a queued frame is a SEC message at port `p`. -/
def secAt (p : Nat) (q : Nat × Frame) : Bool := q.1 = p && q.2.ftype = 0xA

/-- Begin an exchange: this end draws its random value and its ephemeral key, and sends its OFFER. Messages of an earlier exchange that
have not left are gone. -/
def Dev.beginExchange (d : Dev) (p : Nat) (rekey : Bool) : Dev :=
  let n := d.free
  let d := d.modNet fun x => { x with queue := x.queue.filter fun q => !secAt p q }
  let d := ({ d with free := n + 2 }).modPort p fun x => { x with
    ownRandom := Config.portRandom p n, ownEphemeral := Config.portRandom p (n + 1), offer := none, ephemeral := none, rekeying := rekey }
  d.sendSec p (leBytes 32 (Config.portRandom p n) ++ leBytes 4 d.selfId ++ d.domRead Obj.IDENTITY_CERT_CHAIN 0 8192 ++
    d.domRead Obj.LINK_CERT 0 2048)

/-- A port whose neighbour fails a check is REJECTED (R299). -/
def Dev.reject (d : Dev) (p : Nat) : Dev :=
  let d := d.modPort p fun x => { x with offer := none, ephemeral := none, rekeying := false, keySlots := [] }
  (d.setPortState p 6).raise Event.portRejected .port p

/-- Whether a port exchanges SEC messages now: authenticating, or in a rekey over the running session. -/
def Dev.exchanging (d : Dev) (p : Nat) : Bool := d.get Obj.PORT_STATE p = 3 || (d.portUp p && (d.port p).rekeying)

/-- Whether a neighbour's group breaks the port's role (R285). -/
def Dev.breaksRole (d : Dev) (p dev : Nat) : Bool :=
  match d.ownId with
  | none => false
  | some own => if d.get Obj.PORT_ROLE p = 0 then dev / 512 ≠ own / 512 else dev / 512 = own / 512

/-- The number a serial number spells, its first byte most significant. -/
def serialNum (bs : List Byte) : Nat := leNat bs.reverse

/-- This device's serial number. -/
def Dev.ownSerial (d : Dev) : Nat := serialNum (d.domRead Obj.SERIAL_NUMBER 0 16)

/-- What both ends derive a session from, that of the end with the lower serial number first (R426, R427). -/
def Dev.sessionMaterial (d : Dev) (p : Nat) (o : Offer) (eph : Nat) : List Nat :=
  let x := d.port p
  let own := d.ownSerial
  let nb := serialNum o.serial
  if own < nb then [own, nb, x.ownEphemeral, eph, x.ownRandom, o.random] else [nb, own, eph, x.ownEphemeral, o.random, x.ownRandom]

/-- The keys of a session (R427): the end with the lower serial number sends under the first label, the other under the second. -/
def Dev.newSession (d : Dev) (p : Nat) (o : Offer) (eph : Nat) : Session :=
  let material := d.sessionMaterial p o eph
  let lo := Config.hkdf material 1
  let hi := Config.hkdf material 2
  if d.ownSerial < serialNum o.serial then ⟨lo, some hi, 0⟩ else ⟨hi, some lo, 0⟩

/-- This end's KEY: its ephemeral key and the identity key's signature over a digest of both OFFERs and the key (R426). -/
def Dev.keyMessage (d : Dev) (p : Nat) (o : Offer) : List Byte :=
  let x := d.port p
  let offers := if d.ownSerial < serialNum o.serial then [x.ownRandom, o.random] else [o.random, x.ownRandom]
  leBytes 97 x.ownEphemeral ++ Config.sign (leBytes 48 (Config.sha384 (offers.flatMap (leBytes 32) ++ leBytes 97 x.ownEphemeral)))

/-- This end's FINISH (R426). -/
def Dev.finishMessage (d : Dev) (p : Nat) (o : Offer) (eph : Nat) : List Byte := leBytes 48 (Config.finishMac (d.sessionMaterial p o eph))

/-- SEC messages still queued leave before a session changes what they are sent under. -/
def Dev.flushSec (d : Dev) (p : Nat) : Dev := (d.net.queue.filter (secAt p)).foldl (fun d q => d.transmit p q.2) d

/-- A first session: slot 0, LINK_SEQ from 0, full credits; frames other than SEC messages that were sent and not confirmed under an earlier
key go again, first. -/
def Dev.firstSession (d : Dev) (p : Nat) (s : Session) : Dev :=
  let again := ((d.port p).retry.filter fun f => f.ftype ≠ 0xA).map fun f => (p, f)
  let d := d.modNet fun n => { n with queue := again ++ n.queue }
  d.modPort p fun x =>
    { x with keySlots := [(0, some s)], keyTx := 0, keyRx := 0, seqTx := 0, seqRx := 0, replayFrom := none,
             credits := [], retry := [], authTicks := [], changing := false }

/-- The exchange succeeds: a first session brings the port UP; a rekey fills the other key slot (R297, R426). -/
def Dev.finishExchange (d : Dev) (p : Nat) (o : Offer) (eph : Nat) : Dev :=
  let s := d.newSession p o eph
  let x := d.port p
  let d := d.put Obj.NEIGHBOUR_ID (2 ^ 31 + o.devId % 2 ^ 20) p
  let clear := fun (d : Dev) => d.modPort p fun y => { y with offer := none, ephemeral := none, rekeying := false }
  if d.get Obj.PORT_STATE p = 3 then ((clear ((d.flushSec p).firstSession p s)).setPortState p 4)
  else
    let d := d.modPort p fun y => { y with keySlots := tset none y.keySlots ((x.keyTx + 1) % 2) (some s) }
    (clear d).bump Obj.REKEYS p

end Sys2Proof.Machine
end

