-- ==== Sys2Proof/Machine/BootOps.lean ====
section
/-! DEFINITION. Whole-device reset: the straps (R2, R442), what memory keeps (R412), measurements (R432), firmware manifests (R422, R423)
and the persistent record (R351). -/

namespace Sys2Proof.Machine

/-! ### Measurements (R432) -/

/-- The 48 bytes of a SHA-384 digest. -/
def digest (bs : List Byte) : List Byte := leBytes 48 (Config.sha384 bs)

/-- Extend measurement register `n` with D. -/
def Dev.extend (d : Dev) (n : Nat) (bs : List Byte) : Dev :=
  (d.domWrite Obj.MEAS_REGISTERS (48 * n) (digest (d.domRead Obj.MEAS_REGISTERS (48 * n) 48 ++ bs))).bump Obj.MEAS_EXTENDS

/-! ### The straps (R1 to R3, R442) -/

/-- A CLASS_SEL pin at a voltage in millivolts: its bit, and whether it is a strap fault. -/
def strapRead (mv : Nat) : Bool × Bool :=
  if mv < 300 then (false, false) else if 600 ≤ mv ∧ mv ≤ 1200 then (true, false) else (false, true)

/-- COOLING_CLASS of a strap code; 0b00 is invalid and acts as class A (R1, R3). -/
def classOf (code : Nat) : Nat := if code = 3 then 3 else if code = 2 then 2 else 1

/-- Envelope of a class in watts (R1). -/
def envelopeOf (c : Nat) : Nat := if c = 3 then 3600 else if c = 2 then 2600 else 1600

/-- Sample the straps. The invalid-strap status of R3 has no object of its own; here it is STRAP_CODE reading 0 while COOLING_CLASS reads 1
(DESIGN CHOICE, log entry 45). -/
def Vault.sample (v : Vault) (sel0 sel1 : Nat) : Vault :=
  let a := strapRead sel0
  let b := strapRead sel1
  let code := (if a.1 then 1 else 0) + (if b.1 then 2 else 0)
  { v with strapCode := code, strapFaults := (if a.2 then 1 else 0) + (if b.2 then 2 else 0), coolingClass := classOf code }

/-- The voltages of the CLASS_SEL pins at a whole-device reset whose command does not carry them (R2): free values (28). -/
def Dev.freePins (d : Dev) : (Nat × Nat) × Dev :=
  ((Config.free 28 d.free, Config.free 28 (d.free + 1)), { d with free := d.free + 2 })

/-! ### What memory keeps (R183, R412, R436) -/

/-- Sectors of a stack that a whole-device reset writes as ash: those of its ash list, of marked pseudo-channels, of write requests
still waiting, of failed channels and of segments owed; all of them on a stack that is OFF or still training. -/
def Dev.ashAtReset (d : Dev) (st sec : Nat) : Bool :=
  let x := d.stack st
  d.get Obj.STACK_STATE st ≤ 1 || x.ashList.contains sec || x.overflow.contains (pchOfSec sec) ||
  d.pch st (pchOfSec sec) = .failed || (x.waiting.any fun w => (w.write || w.fold.isSome) && w.sec = sec) ||
  (d.bundles.owedAsh.any fun o => o.1 = st && decide (o.2.1 ≤ sec) && decide (sec < o.2.1 + o.2.2))

/-- HBM as a whole-device reset with the input held leaves it. -/
def Dev.keptHbm (d : Dev) : Tab Sector := tdrop (fun k => d.ashAtReset (k / 2 ^ 30) (k % 2 ^ 30)) d.hbm

/-! ### Starting the Pilot (R394, R411, R450) -/

/-- Begin the power-on sequence: every register at its reset value, the straps sampled, the boot ROM loading the firmware. `keep`
says whether the memories of `d` are kept, `last` how the previous power-on ended. -/
def bootFrom (v : Vault) (d : Dev) (keep : Bool) (last sel0 sel1 : Nat) : Vault × Dev :=
  let v := v.sample sel0 sel1
  let rev := v.reversed
  let v := { v with lastShutdown := if rev then 4 else last, reversed := false, kept := keep }
  let p := d.power
  let n : Dev := { Dev.fresh with
    hbm := if keep then d.keptHbm else [], slow := if keep then d.slow else [], free := d.free,
    power := { Power.fresh with pin := if keep then p.pin else true, inputMv := if keep then p.inputMv else 54000 } }
  let n := n.put Obj.BOOT_STATE 1
  let n := if n.power.inputMv < 46000 then n.put Obj.INPUT_STATE 1 else n
  let n := n.put Obj.INPUT_VOLTAGE_MV n.power.inputMv
  let n := n.put Obj.POWER_CAP_W (envelopeOf v.coolingClass)
  let n := n.extend 0 (leBytes 48 (Config.romDigest (v.fuseBad ++ v.fuseCache.map (· + 1152))))
  let n := (List.range 2).foldl (fun n i =>
    if bit v.strapFaults i then
      ((n.putBit Obj.SIDEBAND_STATUS (2 + i) true).putBit Obj.SIDEBAND_FAULTS (2 + i) true).raise Event.strapFault .global 0
    else n) n
  let n := if v.strapCode = 0 then n.raise Event.invalidStrap .global 0 else n
  (v, if rev then n.raise Event.reversedInput .global 0 else n)

/-- The Pilot powers down: nothing runs until the next power-on (R452). -/
def pilotDown (d : Dev) : Dev := { Dev.fresh with free := d.free }

/-! ### Firmware slots (R422, R423) -/

/-- A little-endian field of a slot. -/
def Vault.slotNat (v : Vault) (slot off n : Nat) : Nat := leNat (readCells 0 v.slotBytes (slot * 2 ^ 21 + off) n)

/-- Length of a slot's manifest, signature included. -/
def Vault.manifestLen (v : Vault) (slot : Nat) : Nat := 160 + 48 * (v.slotNat slot 16 2 + v.slotNat slot 18 2) + 96

/-- The measurement of a slot's image. -/
def Vault.measurement (v : Vault) (slot : Nat) : List Byte := digest (readCells 0 v.slotBytes (slot * 2 ^ 21) (v.manifestLen slot))

/-- FW_REJECT_REASON of an image, 0 when it verifies, given the outcomes of the key, signature and chunk hash checks (R423, R438). -/
def Vault.verify (v : Vault) (revoked slot : Nat) (keyOk sigOk hashOk : Bool) : Nat :=
  let pc := v.slotNat slot 16 2
  let hc := v.slotNat slot 18 2
  if v.slotNat slot 0 4 ≠ 0x4D465A4B ∨ v.slotNat slot 4 2 ≠ 1 ∨ pc = 0 ∨ 64 < pc ∨ hc = 0 ∨ 24 < hc then 1
  else if 1 < v.slotNat slot 6 1 ∨ bit revoked (v.slotNat slot 6 1) ∨ !keyOk then 2
  else if !sigOk then 3
  else if v.slotNat slot 12 4 < v.secVersion then 4
  else if !hashOk then 5
  else 0

/-- The slot a whole-device reset runs: the active one if it verifies, otherwise the other; a slot left RECEIVING cannot verify
(R395, R424). -/
def Vault.runningSlot (v : Vault) (revoked : Nat) (ok0 ok1 : Bool) : Option Nat :=
  let ok := fun (s : Nat) => tget 0 v.slotState s ≠ 1 && (let c := if s = 0 then ok0 else ok1; v.verify revoked s c c c = 0)
  if ok v.activeSlot then some v.activeSlot else if ok (1 - v.activeSlot) then some (1 - v.activeSlot) else none

/-! ### The persistent record (R350, R351) -/

/-- The running values of every P object, as a save takes them; POWER_CAP_W always stands among them, for its reset value is the
envelope of the class sampled. -/
def Dev.persistVals (d : Dev) : Tab Nat :=
  tset 0 (d.od.filter fun e => isPKey e.1) (Obj.POWER_CAP_W.key 0 0) (d.get Obj.POWER_CAP_W + 1)

/-- The bytes of every P object of type STRING or DOMAIN. -/
def Dev.persistBytes (d : Dev) : Tab Byte := d.dom.filter fun e => isPKey (e.1 / 2 ^ 18)

/-- Load the P objects of the last complete record; its cap is held to the envelope of the class sampled (R384). -/
def Dev.loadRecord (d : Dev) (v : Vault) : Dev :=
  let env := d.get Obj.POWER_CAP_W
  let ods := v.persistOd.filter fun e => isPKey e.1
  let doms := v.persistDom.filter fun e => isPKey (e.1 / 2 ^ 18)
  let d := { d with od := ods.foldl (fun (m : Tab Nat) (e : Nat × Nat) => tset 0 m e.1 e.2) d.od,
                    dom := doms.foldl (fun (m : Tab Byte) (e : Nat × Byte) => tset 0 m e.1 e.2) d.dom }
  d.put Obj.POWER_CAP_W (min (d.get Obj.POWER_CAP_W) env)

/-- Load P objects at a whole-device reset, and say where they came from. -/
def Dev.loadPersist (d : Dev) (v : Vault) (recordOk : Bool) : Dev :=
  if v.persistDefaults then d.put Obj.PERSIST_SOURCE 2
  else if !v.persistValid then d
  else if recordOk then d.loadRecord v
  else (d.put Obj.PERSIST_SOURCE 1).raise Event.persistDefaults .global 0

/-- A P object has been written: DIRTY, unless a save runs or waits (R350). -/
def Dev.touchP (d : Dev) : Dev :=
  let st := d.get Obj.PERSIST_STATE
  let d := { d with store := { d.store with touched := true } }
  if st = 2 ∨ st = 3 then d else d.put Obj.PERSIST_STATE 1

end Sys2Proof.Machine
end

