-- ==== Sys2Proof/Machine/Hbm.lean ====
section
/-! DEFINITION. Commands of the memory stacks: requests to a base die, scrubbing, pseudo-channel power states, drain into HOLD,
power, retraining (R173 to R196). -/

namespace Sys2Proof.Machine

/-- Symbol errors that a stored sector has taken. -/
def Dev.takeErrors (d : Dev) (st sec : Nat) (errs : List (Nat × Nat)) : Dev :=
  if errs.isEmpty then d else
  let s := d.sector st sec
  d.setSector st sec { s with errs := addErrs s.errs (errs.filter fun e => decide (e.1 < 72)) }

/-- HBM_READ: a base die reads a sector for a request (R174, R179 to R182, R187, R193, R208). -/
def Dev.cmdHbmRead (d : Dev) (st sec : Nat) (rq : HbmReq) (errs : List (Nat × Nat)) (crc : Nat) (t : Turn) : Dev :=
  let d := d.takeErrors st sec errs
  d.request st t ⟨sec, none, false, none, [], [], false, rq.ctx.map Fin.val, rq.source, d.chainEntries st rq.chain.val, crc⟩

/-- HBM_READ (R193). -/
def execHbmRead (st : Fin 32) (sec : Nat) (rq : HbmReq) (errs : List (Nat × Nat)) (crcFails : Nat) (turn : Turn) (s : State) :
    Host.Outcome State Fault Refusal :=
  s.onDev fun d => d.cmdHbmRead st.val (sec % 2 ^ 30) rq errs crcFails turn

/-- HBM_WRITE: a base die stores a sector; a write whose fifth transfer attempt fails is stored as ash (R174, R194). -/
def Dev.cmdHbmWrite (d : Dev) (st sec : Nat) (v : Line) (mask : List Bool) (c : Option Nat) (crc : Nat) (t : Turn) : Dev :=
  d.request st t ⟨sec, none, true, none, v.bytes, mask, v.ash, c, .demand, [], crc⟩

/-- HBM_WRITE (R194). -/
def execHbmWrite (st : Fin 32) (sec : Nat) (data : List Byte) (mask : List Bool) (ash : Bool) (ctx : Option (Fin 16)) (crcFails : Nat)
    (turn : Turn) (s : State) : Host.Outcome State Fault Refusal :=
  s.onDev fun d => d.cmdHbmWrite st.val (sec % 2 ^ 30) ⟨data, ash⟩ mask (ctx.map Fin.val) crcFails turn

/-- Scrub position after sector `sec` is read: the next sector, with a pass counted at the end of the stack (R195). -/
def Dev.scrubAdvance (d : Dev) (st : Nat) : Dev :=
  let n := (d.stack st).scrubNext + 1
  if n < 2 ^ 30 then d.modStack st fun x => { x with scrubNext := n }
  else (d.modStack st fun x => { x with scrubNext := 0 }).bump Obj.SCRUB_PASSES st

/-- SCRUB_READ: the next sector of the scrub pass is read where its pseudo-channel keeps contents, in service, retraining or held; one
that is FAILED or OFF is passed over (R181, R195). -/
def Dev.cmdScrub (d : Dev) (st : Nat) (errs : List (Nat × Nat)) : Dev :=
  if d.get Obj.SCRUB_INTERVAL st = 0 then d
  else
    let sec := (d.stack st).scrubNext
    match d.pch st (pchOfSec sec) with
    | .failed | .off => d.scrubAdvance st
    | _ => (((d.takeErrors st sec errs).readSec st sec .scrub).1).scrubAdvance st

/-- SCRUB_READ (R195). -/
def execScrubRead (st : Fin 32) (errs : List (Nat × Nat)) (s : State) : Host.Outcome State Fault Refusal :=
  s.onDev fun d => d.cmdScrub st.val errs

/-- A pseudo-channel idle for its limit goes to a deeper state; 0 ticks of the limit count as elapsed (R181, log entry 2). -/
def Dev.cmdPchIdle (d : Dev) (st p : Nat) (v : Pch) : Dev :=
  match d.pch st p with
  | .active => d.setPch st p v
  | .powerDown => if v = .selfRefresh then d.setPch st p v else d
  | _ => d

/-- PSEUDO_CHANNEL_POWER_DOWN (R181). -/
def execPseudoChannelPowerDown (st : Fin 32) (pch : Fin 64) (s : State) : Host.Outcome State Fault Refusal :=
  s.onDev fun d => d.cmdPchIdle st.val pch.val .powerDown

/-- PSEUDO_CHANNEL_SELF_REFRESH (R181). -/
def execPseudoChannelSelfRefresh (st : Fin 32) (pch : Fin 64) (s : State) : Host.Outcome State Fault Refusal :=
  s.onDev fun d => d.cmdPchIdle st.val pch.val .selfRefresh

/-! ### Drain into HOLD -/

/-- Initialise every sector as ash and begin training (R185, R188). -/
def Dev.initStack (d : Dev) (st : Nat) : Dev :=
  let d := d.ashWhere st fun _ => true
  let d := (List.range 64).foldl (fun d p => d.setPch st p .off) d
  (d.modStack st fun x => { x with rowSlots := [], vecSlots := [] }).put Obj.STACK_STATE 1 st

/-- When every pseudo-channel of a draining stack that can is in HOLD: the stack is in HOLD, or, powered off, in OFF with its contents
lost, and initialised again where STACK_POWER_CTL has been set back to 1 meanwhile (R185, R188, log entry 49). -/
def Dev.drainEnd (d : Dev) (st : Nat) : Dev :=
  if (d.stack st).draining && (List.range 64).all fun p => d.pch st p = .hold || d.pch st p = .failed then
    let d := d.modStack st fun x => { x with draining := false, retraining := none, retrainQueue := [] }
    if (d.stack st).powerOff then
      let d := (List.range 64).foldl (fun d p => d.setPch st p .off) d
      let d := d.ashWhere st fun _ => true
      let d := (d.modStack st fun x =>
        { x with powerOff := false, ashList := [], overflow := [], rowSlots := [], vecSlots := [] }).put Obj.STACK_STATE 0 st
      if d.get Obj.STACK_POWER_CTL st = 1 then d.initStack st else d
    else d.put Obj.STACK_STATE 4 st
  else d

/-- Start a drain of every pseudo-channel of a stack (R183); `off` when it ends in OFF (R185). Requests without a tag are answered absent.
A drain begun in a drain or in HOLD belongs to the same hold. -/
def Dev.startDrain (d : Dev) (st : Nat) (off : Bool) : Dev :=
  let again := (d.stack st).draining || decide (d.get Obj.STACK_STATE st = 4)
  let d := d.modStack st fun x =>
    { x with draining := true, powerOff := x.powerOff || off, retrainQueue := [], holdNo := if again then x.holdNo else x.holdNo + 1,
             overflowRaised := again && x.overflowRaised }
  (d.letIn st).drainEnd st

/-- Writes that hold a tag of a pseudo-channel. -/
def Dev.writeTags (d : Dev) (st p : Nat) : List HbmWait :=
  (d.stack st).waiting.filter fun w => (w.write || w.fold.isSome) && pchOfSec w.sec = p

/-- Whether a pseudo-channel is on its way to HOLD. -/
def Dev.drains (d : Dev) (st p : Nat) : Bool :=
  (d.stack st).draining && d.pch st p ≠ .hold && d.pch st p ≠ .failed && d.pch st p ≠ .off

/-- A pseudo-channel enters HOLD: its reads have been served, its tags are free (R183). -/
def Dev.enterHold (d : Dev) (st p : Nat) : Dev :=
  let mine := fun (w : HbmWait) => decide (pchOfSec w.sec = p)
  let rs := (d.stack st).waiting.filter fun w => mine w && !w.write && w.fold.isNone
  let d := d.modStack st fun x => { x with waiting := x.waiting.filter fun w => !mine w }
  ((rs.foldl (fun d w => d.serveAs .serve st w) d).setPch st p .hold).drainEnd st

/-- HOLD_ENTER: a draining pseudo-channel with no write tag enters HOLD (R183). -/
def Dev.cmdHoldEnter (d : Dev) (st p : Nat) : Dev :=
  if d.drains st p ∧ (d.writeTags st p).isEmpty then d.enterHold st p else d

/-- HOLD_ENTER (R183). -/
def execHoldEnter (st : Fin 32) (pch : Fin 64) (s : State) : Host.Outcome State Fault Refusal :=
  s.onDev fun d => d.cmdHoldEnter st.val pch.val

/-- An abandoned tag's sector enters the ash list, or marks its pseudo-channel when the list is full (R183, R184). -/
def Dev.abandon (d : Dev) (st sec : Nat) : Dev :=
  let d := d.modStack st fun x => { x with abandoned := x.abandoned ++ [(sec, x.holdNo)] }
  let x := d.stack st
  if x.ashList.length < 4096 then d.setStack st { x with ashList := x.ashList ++ [sec] }
  else
    let p := pchOfSec sec
    let d := (d.setStack st { x with overflow := if x.overflow.contains p then x.overflow else x.overflow ++ [p] }).bump Obj.ASH_LIST_OVERFLOWS st
    if x.overflowRaised then d
    else (d.modStack st fun x => { x with overflowRaised := true }).raise Event.ashListOverflow .stack st

/-- HOLD_DRAIN_TIMEOUT: at tick 500 the remaining write tags are abandoned and the pseudo-channel enters HOLD (R183). -/
def Dev.cmdHoldTimeout (d : Dev) (st p : Nat) : Dev :=
  if d.drains st p then ((d.writeTags st p).foldl (fun d w => d.abandon st w.sec) d).enterHold st p else d

/-- HOLD_DRAIN_TIMEOUT (R183). -/
def execHoldDrainTimeout (st : Fin 32) (pch : Fin 64) (s : State) : Host.Outcome State Fault Refusal :=
  s.onDev fun d => d.cmdHoldTimeout st.val pch.val

/-- LATE_WRITE_ABSORBED: data for an abandoned tag is absorbed and counted; the first of the hold in which the tag was abandoned is
reported (R183). -/
def Dev.cmdLateWrite (d : Dev) (st sec : Nat) : Dev :=
  match (d.stack st).abandoned.find? fun a => a.1 = sec with
  | none => d
  | some a =>
    let raised := (d.stack st).lateRaised.contains a.2
    let d := d.modStack st fun x =>
      { x with abandoned := x.abandoned.erase a, lateRaised := if raised then x.lateRaised else a.2 :: x.lateRaised }
    let d := d.bump Obj.LATE_WRITES_ABSORBED st
    if raised then d else d.raise Event.lateWrite .stack st

/-- LATE_WRITE_ABSORBED (R183). -/
def execLateWriteAbsorbed (st : Fin 32) (sec : Nat) (s : State) : Host.Outcome State Fault Refusal :=
  s.onDev fun d => d.cmdLateWrite st.val (sec % 2 ^ 30)

/-- HOLD_END: the ash list and the marked pseudo-channels, and the segments a failed bundle load still owes, are written as
ash, and requests are accepted again; the stack is READY, or DEGRADED where a channel is FAILED (R183, R184, R188, R430). -/
def Dev.cmdHoldEnd (d : Dev) (st : Nat) : Dev :=
  if d.get Obj.STACK_STATE st ≠ 4 then d
  else
    let x := d.stack st
    let d := d.ashWhere st fun sec => x.ashList.contains sec || x.overflow.contains (pchOfSec sec)
    let owed := d.bundles.owedAsh.filter fun o => o.1 = st
    let d := d.ashWhere st fun sec => owed.any fun o => decide (o.2.1 ≤ sec) && decide (sec < o.2.1 + o.2.2)
    let d := { d with bundles := { d.bundles with owedAsh := d.bundles.owedAsh.filter fun o => o.1 ≠ st } }
    let d := d.modStack st fun x => { x with ashList := [], overflow := [], rowSlots := [], vecSlots := [] }
    let d := (List.range 64).foldl (fun d p => if d.pch st p = .hold then d.setPch st p .active else d) d
    d.put Obj.STACK_STATE (if (List.range 64).any fun p => d.pch st p = .failed then 3 else 2) st

/-- HOLD_END (R183). -/
def execHoldEnd (st : Fin 32) (s : State) : Host.Outcome State Fault Refusal := s.onDev fun d => d.cmdHoldEnd st.val

/-- STACK_POWER_OFF: a write of 0 to STACK_POWER_CTL drains every pseudo-channel, then OFF (R185). -/
def Dev.cmdStackOff (d : Dev) (st : Nat) : Dev :=
  let state := d.get Obj.STACK_STATE st
  let d := d.put Obj.STACK_POWER_CTL 0 st
  if state = 0 then d
  else if state = 1 then (((List.range 64).foldl (fun d p => d.setPch st p .off) d).put Obj.STACK_STATE 0 st).hasTrained st
  else d.startDrain st true

/-- STACK_POWER_OFF (R185). -/
def execStackPowerOff (st : Fin 32) (s : State) : Host.Outcome State Fault Refusal := s.onDev fun d => d.gated fun d => (d.cmdStackOff st.val).answer 0

/-- STACK_POWER_ON: a write of 1 to STACK_POWER_CTL initialises an OFF stack and trains it; one that is still draining into OFF once it
is there (R185, log entry 49). -/
def Dev.cmdStackOn (d : Dev) (st : Nat) : Dev :=
  let d := d.put Obj.STACK_POWER_CTL 1 st
  if d.get Obj.STACK_STATE st = 0 then d.initStack st else d

/-- STACK_POWER_ON (R185). -/
def execStackPowerOn (st : Fin 32) (s : State) : Host.Outcome State Fault Refusal := s.onDev fun d => d.gated fun d => (d.cmdStackOn st.val).answer 0

/-! ### Retraining -/

/-- RETRAIN_REQUEST: each set bit asks for a channel's retraining; an OFF stack answers instance-busy (R186, R354). -/
def Dev.cmdRetrainRequest (d : Dev) (st mask : Nat) : Dev :=
  if d.get Obj.STACK_STATE st = 0 then { d with reply := ⟨3, 0, []⟩ }
  else ((List.range 32).filter fun c => bit mask c).foldl (fun d c => d.askRetrain st c) { d with reply := ⟨0, 0, []⟩ }

/-- RETRAIN_REQUEST (R186). -/
def execRetrainRequest (st : Fin 32) (mask : Nat) (s : State) : Host.Outcome State Fault Refusal :=
  s.onDev fun d => d.gated fun d => d.cmdRetrainRequest st.val mask

/-- Serve the requests that waited for a channel, in the order they were accepted, also in a drain, for they hold tags (R180, R183, R186);
the tags they free are taken by requests at the region boundary. -/
def Dev.serveWaiting (d : Dev) (st ch : Nat) : Dev :=
  let mine := fun (w : HbmWait) => decide (chanOfSec w.sec = ch)
  let ws := (d.stack st).waiting.filter mine
  let d := d.modStack st fun x => { x with waiting := x.waiting.filter fun w => !mine w }
  (ws.foldl (fun d w => d.serveAs (d.chanGate st w.sec) st w) d).letIn st

/-- Take the next channel waiting to retrain (R186). -/
def Dev.nextRetrain (d : Dev) (st : Nat) : Dev :=
  match (d.stack st).retrainQueue with
  | [] => d.modStack st fun x => { x with retraining := none }
  | c :: rest => (d.modStack st fun x => { x with retraining := none, retrainQueue := rest }).beginRetrain st c

/-- CHANNEL_RETRAIN_DONE: the channel returns to ACTIVE, its waiting requests are served, the next queued channel begins. -/
def Dev.cmdRetrainDone (d : Dev) (st ch : Nat) : Dev :=
  if (d.stack st).retraining = some ch then
    let d := [2 * ch, 2 * ch + 1].foldl (fun d p => if d.pch st p = .retrain then d.setPch st p .active else d) d
    let t := toSigned 32 (d.get Obj.STACK_TEMP 0 st)
    let d := d.modStack st fun x => { x with trainTemp := tset 0 x.trainTemp ch t }
    (d.serveWaiting st ch).nextRetrain st
  else d

/-- CHANNEL_RETRAIN_DONE (R186). -/
def execChannelRetrainDone (st : Fin 32) (ch : Fin 32) (s : State) : Host.Outcome State Fault Refusal :=
  s.onDev fun d => d.cmdRetrainDone st.val ch.val

/-- CHANNEL_TRAIN_TIMEOUT: a third failed attempt puts the channel in FAILED, records it and degrades the stack (R187). -/
def Dev.cmdTrainTimeout (d : Dev) (v : Vault) (st ch : Nat) : Dev :=
  if (d.stack st).retraining = some ch then
    let n := tget 0 (d.stack st).attempts ch + 1
    let d := d.modStack st fun x => { x with attempts := tset 0 x.attempts ch n }
    if n < 3 then d
    else
      let d := (d.setChan st ch .failed).bump Obj.RETRAIN_FAILURES st
      let d := (d.raise Event.channelFailed .stack st).appendDefect v 3 3 (32 * st + ch) 0
      let d := d.put Obj.STACK_STATE 3 st
      ((d.serveWaiting st ch).nextRetrain st).drainEnd st
  else d

/-- CHANNEL_TRAIN_TIMEOUT (R187). -/
def execChannelTrainTimeout (st : Fin 32) (ch : Fin 32) (s : State) : Host.Outcome State Fault Refusal :=
  s.onDev fun d => d.cmdTrainTimeout s.vault st.val ch.val

end Sys2Proof.Machine
end

