-- ==== Sys2Proof/Machine/ResetOps.lean ====
section
/-! DEFINITION. What the reset levels below whole device clear and keep (R411 to R416), and the available pool (R399). -/

namespace Sys2Proof.Machine

/-! ### Parts -/

/-- Partition number of a region (R418). -/
def Dev.partOf (d : Dev) (g : Nat) : Nat := d.get Obj.REGION_PARTITION (g / 4) (g % 4)

/-- Regions of a partition. -/
def Dev.regionsOf (d : Dev) (n : Nat) : List Nat := (List.range 16).filter fun g => d.partOf g = n

/-- Logical hearths of a part. -/
def Dev.partHearths (d : Dev) : ResetPart → List Nat
  | .hearth h => [h.val]
  | .cluster c => hearthsOfCluster c.val
  | .partition n => (d.regionsOf n.val).flatMap hearthsOfRegion

/-- Size order of the levels. -/
def levelOf : ResetPart → Nat
  | .hearth _ => 0
  | .cluster _ => 1
  | .partition _ => 2

/-- Whether part `a` is `b` or lies in it. -/
def Dev.within (d : Dev) (a b : ResetPart) : Bool :=
  decide (levelOf a ≤ levelOf b) && (d.partHearths a).all fun h => (d.partHearths b).contains h

/-- A larger reset in progress covers a part, or the region of a hearth or cluster is still in a bring-up's start-up test (R416). -/
def Dev.resetBusy (d : Dev) (p : ResetPart) : Bool :=
  (d.resets.any fun r => decide (levelOf p < levelOf r.part) && d.within p r.part) ||
  (decide (levelOf p < 2) && (d.partHearths p).any fun h =>
    let g := h / 64
    d.get Obj.REGION_STATE g ≤ 2 || d.get Obj.TEST_ROUND g ≠ 0)

/-! ### The pool (R398, R399) -/

/-- Physical slot of a logical hearth in SLOT_MAP; 15 when it has none. -/
def Dev.slotOf (d : Dev) (h : Nat) : Nat := bits (d.get Obj.SLOT_MAP (h / 8)) (4 * (h % 8) + 3) (4 * (h % 8))

/-- Set a logical hearth's physical slot. -/
def Dev.setSlotOf (d : Dev) (h p : Nat) : Dev :=
  let d := d.put Obj.SLOT_MAP (setBits (d.get Obj.SLOT_MAP (h / 8)) (4 * (h % 8) + 3) (4 * (h % 8)) p) (h / 8)
  d.put Obj.PHYSICAL_HEARTH (if p < 9 then 9 * (h / 8) + p else 0xFFFF) h

/-- PHYS_STATUS of one physical slot of a cluster. -/
def Dev.setPhys (d : Dev) (c p v : Nat) : Dev := d.put Obj.PHYS_STATUS (setBits (d.get Obj.PHYS_STATUS c) (3 * p + 2) (3 * p) v) c

/-- In the available pool (R399). -/
def Dev.inPool (d : Dev) (h : Nat) : Bool := d.get Obj.FW_STATE h = 2 && (d.hState h = hIdle || d.hState h = hFiring)

/-- In the pool, absent, or with failed firmware. -/
def Dev.hearthSettled (d : Dev) (h : Nat) : Bool := d.inPool h || d.hearthAbsent h || d.get Obj.FW_STATE h = 3

/-- Mask of the chunks of the hearth image. -/
def Dev.chunkMask (d : Dev) : Nat := 2 ^ (d.get Obj.HEARTH_FW_CHUNKS) - 1

/-- Resets of hearths and clusters whose hearths are all settled end (R411, R414). -/
def Dev.settleResets (d : Dev) : Dev :=
  let ended := fun (d : Dev) (r : ResetRun) =>
    match r.part with
    | .partition _ => false
    | p => r.drained && r.testing.isEmpty && (d.partHearths p).all d.hearthSettled
  let done := d.resets.filter (ended d)
  let d := { d with resets := d.resets.filter fun r => !ended d r }
  done.foldl (fun d r => match r.part with
    | .hearth h => d.raise Event.resetComplete .hearth h.val
    | .cluster c => d.raise Event.resetComplete .cluster c.val
    | .partition _ => d) d

/-- Partition resets whose regions are all back in full service end (R411). -/
def Dev.settlePartitions (d : Dev) : Dev :=
  let ended := fun (d : Dev) (r : ResetRun) =>
    match r.part with
    | .partition n => r.drained && (d.regionsOf n.val).all fun g => d.get Obj.REGION_STATE g = 4
    | _ => false
  let done := d.resets.filter (ended d)
  let d := { d with resets := d.resets.filter fun r => !ended d r }
  done.foldl (fun d _ => d.raise Event.resetComplete .global 0) d

/-- A hearth has loaded its firmware and enters the pool; the first one of a region begins its banked service and with it a
lower target (R378, R399, R401). -/
def Dev.enterPool (d : Dev) (h : Nat) : Dev :=
  let g := h / 64
  let d := if d.get Obj.REGION_STATE g = 2 then (d.put Obj.REGION_STATE 3 g).retarget g else d
  let d := ((d.put Obj.FW_STATE 2 h).put Obj.HEARTH_STATE hIdle h).put Obj.HEARTH_SERVICE (if d.get Obj.REGION_STATE g = 4 then 0 else 1) h
  d.settleResets

/-- A hearth whose chunk has failed from both areas stays out of the pool (R410). -/
def Dev.fwFailed (d : Dev) (h : Nat) : Dev :=
  (((d.put Obj.FW_STATE 3 h).put Obj.HEARTH_STATE hTesting h).raise Event.fwFailed .hearth h).settleResets

/-! ### What a reset clears (R412, R413) -/

/-- Whatever a hearth waits for from the fabric is due to it under an earlier generation (R413). -/
def Await.toStale (hs : List Nat) (a : Await) : Await :=
  match a with
  | .xfer h _ | .flue h _ | .handed h .. | .ahead h | .scale h => if hs.contains h then .stale h else a
  | _ => a

/-- A hearth stops at once: window, counters, provisional slots, stream places, halted transfers and scale slots are gone, its control
store is to be loaded again, and its next step follows no step (R412, R413). Its scratchpad stays. -/
def Hearth.afterReset (x : Hearth) : Hearth :=
  { Hearth.fresh with scr := x.scr, ash := x.ash, nextId := x.nextId, srDraws := x.srDraws,
                      run := x.run.map fun r => { r with aborting := true } }

/-- Copies that a hearth of the part asked for go on without it. -/
def Flue.orphan (hs : List Nat) (x : Flue) : Flue :=
  { x with copies := x.copies.map fun c => if hs.contains c.hearth then { c with place := 32 } else c }

/-- The running steps whose placement holds a hearth. -/
def Dev.stepsOver (d : Dev) (h : Nat) : List Nat :=
  (List.range 16).filter fun c => (d.ctx c).run.any fun (r : CtxRun) => r.hearths.contains h

/-- One hearth of a part is reset; every running step whose placement holds it is aborted with cause host request (R413). -/
def Dev.resetHearth (d : Dev) (h : Nat) : Dev :=
  let d := d.modHearth h Hearth.afterReset
  let d := ((d.stepsOver h).foldl (fun d c => d.abortStep c 3) d).abortSettle h
  let d := d.modHearth h fun x => { x with lastCtx := none }
  let d := d.put Obj.RESET_GENERATION ((d.get Obj.RESET_GENERATION h + 1) % 16) h
  let d := (d.put Obj.HALTED_STREAMS 0 h).put Obj.FW_CHUNKS_MISSING d.chunkMask h
  if d.hearthAbsent h then d
  else (((d.put Obj.FW_STATE 0 h).put Obj.HEARTH_STATE hResetting h).put Obj.RUNNING_CTX 0xFF h).put Obj.TEST_RESULT 0 h

/-- Every hearth of a part is reset, and what is still due to them becomes stale. -/
def Dev.resetHearths (d : Dev) (hs : List Nat) : Dev :=
  let d := hs.foldl Dev.resetHearth d
  let d := d.modNet fun n => { n with awaits := n.awaits.map fun e => (e.1, e.2.map (Await.toStale hs)) }
  { d with flues := d.flues.map fun e => (e.1, Flue.orphan hs e.2) }

/-- The rotating pointers of resources that a reset covers are 0 (R335). -/
def Dev.zeroPointers (d : Dev) (covers : Nat → Bool) : Dev := { d with arb := d.arb.filter fun e => !covers e.1 }

/-- A cluster's router, caches and the flues it holds are reset (R161, R335, R412). -/
def Dev.resetCluster (d : Dev) (c : Nat) : Dev :=
  let d := ((d.setCluster c Cluster.fresh).put Obj.MULTICAST_DONE 0 c).zeroPointers fun r => decide (r < 65536) && decide (r / 512 = c)
  ((d.flues.map (·.1)).filter fun f => f / 512 = c).foldl (fun d f => d.modFlue f Flue.reset) d

/-- A stack of a partition: partial blocks flushed as ash, armed windows disarmed and doorbells dropped, then drained into HOLD (R183,
R206, R412). -/
def Dev.resetStack (d : Dev) (st : Nat) : Dev :=
  let d := (List.range 16).foldl (fun d w => d.flushWindow st w) d
  let d := (d.modStack st fun x => { x with bmax := [], doorbells := [], rowSlots := [], vecSlots := [] }).zeroPointers (· = arbStack st)
  if d.get Obj.STACK_STATE st ≤ 1 then d else d.startDrain st false

/-- The hearth a request at a region boundary is for. -/
def EdgeReq.hearth : EdgeReq → Nat
  | .write h .. => h
  | .notice h _ => h
  | .counter h _ => h

/-- What waits at a region boundary for the hearths of a part meets the part's proxy (R413). -/
def Dev.drainEdge (d : Dev) (hs : List Nat) : Dev :=
  ((hs.map (· / 64)).dedup).foldl (fun d g =>
    let q := tget [] d.edge g
    (q.filter fun r => hs.contains r.hearth).foldl Dev.edgeNow
      { d with edge := tset [] d.edge g (q.filter fun r => !hs.contains r.hearth) }) d

/-- A reset takes effect over a part; smaller ones in progress there end without an event (R413, R416). -/
def Dev.beginReset (d : Dev) (p : ResetPart) : Dev :=
  let hs := d.partHearths p
  let d := { d with resets := d.resets.filter fun r => !d.within r.part p }
  let d := (d.resetHearths hs).drainEdge hs
  let d := match p with
    | .hearth _ => d
    | .cluster c => d.resetCluster c.val
    | .partition n => (d.regionsOf n.val).foldl (fun d g =>
        let d := (clustersOfRegion g).foldl Dev.resetCluster d
        let d := (d.resetStack (2 * g)).resetStack (2 * g + 1)
        (d.put Obj.REGION_STATE 5 g).put Obj.TEST_ROUND 0 g) d
  { d with resets := d.resets ++ [⟨p, false, hs.filter fun h => !d.hearthAbsent h⟩] }

end Sys2Proof.Machine
end

