-- ==== Sys2Proof/Machine/Bringup.lean ====
section
/-! DEFINITION. Power-on, region bring-up, the start-up test, hearth firmware, Ready and banked service (R394 to R410). -/

namespace Sys2Proof.Machine

/-! ### Power-on and the Pilot firmware (R394, R395) -/

/-- POWER_ON: the boot ROM starts and samples the straps. -/
def State.cmdPowerOn (s : State) (sel0 sel1 : Nat) : State :=
  if s.dev.get Obj.BOOT_STATE ≠ 0 then s
  else
    let b := bootFrom s.vault s.dev false s.vault.lastShutdown sel0 sel1
    { s with vault := b.1, dev := b.2 }

/-- POWER_ON (R394). -/
def execPowerOn (sel0 sel1 : Nat) (s : State) : Host.Outcome State Fault Refusal := .next (s.cmdPowerOn sel0 sel1)

/-- CONFIDENTIAL_REQUEST takes effect: a change makes every stack ash and zeroes the slow tiers (R436). -/
def confidentialLoad (v : Vault) (d : Dev) : Vault × Dev :=
  let want := decide (d.get Obj.CONFIDENTIAL_REQUEST = 1)
  let d := d.put Obj.CONFIDENTIAL_ACTIVE (if want then 1 else 0)
  if want = v.confidential then (v, d) else ({ v with confidential := want, kept := false }, { d with hbm := [], slow := [] })

/-- Compare the mirrors: a repair is queued for each item that one of them lacks (R456). -/
def Dev.compareMirrors (d : Dev) (v : Vault) : Dev :=
  let areas := (v.persistMirrors.map (·.1)).dedup
  let owed := v.halfDone ++ areas.flatMap fun a => ([0, 1].filter fun m => !v.persistMirrors.contains (a, m)).map fun m => (4, a, m)
  let d := owed.foldl (fun (d : Dev) (h : Nat × Nat × Nat) => d.pushStore ⟨.repair h.1 h.2.1, h.2.2, false⟩) d
  if v.persistValid && !([0, 1].all fun m => v.persistMirrors.contains (v.persistArea, m)) then d.put Obj.PERSIST_STATE 1 else d

/-- Everything that starts together at tick 752,000 (R394). -/
def Dev.startUnits (d : Dev) : Dev :=
  let d := (List.range 16).foldl (fun d g => (d.put Obj.REGION_STATE 1 g).put Obj.CLOCK_STATE 1 g) d
  let d := (List.range 2).foldl (fun d t => d.put Obj.STOKER_STATE 1 t) d
  let d := (List.range 1024).foldl (fun d h => d.put Obj.FW_CHUNKS_MISSING d.chunkMask h) d
  (List.range 16).foldl (fun d p => (d.put Obj.PORT_STATE (if d.get Obj.PORT_CTL p = 1 then 2 else 0) p).showLanes p) d

/-- The Pilot firmware of a slot runs: P objects, device ID, bridge, boot count, confidential mode, measurements, mirrors. -/
def runFirmware (v : Vault) (d : Dev) (slot : Nat) (recordOk : Bool) : Vault × Dev :=
  let v := { v with slotState := tset 0 v.slotState slot 4 }
  let ver := v.slotNat slot 8 4
  let d := (((d.put Obj.BOOT_STATE 2).put Obj.FW_ACTIVE_SLOT slot).put Obj.FW_VERSION ver).put Obj.HEARTH_FW_VERSION ver
  let d := (d.put Obj.HEARTH_FW_CHUNKS (v.slotNat slot 18 2)).extend 1 (v.measurement slot)
  let d := d.loadPersist v recordOk
  let v := { v with persistDefaults := false }
  let d := d.put Obj.DEVICE_ID_ACTIVE (d.get Obj.DEVICE_ID)
  let d := if d.get Obj.BRIDGE_ENABLE = 1 then d.put Obj.HOST_LINK_STATE 1 else d
  let n := (v.bootCount + 1) % 2 ^ 32
  let d := (d.put Obj.BOOT_COUNT n).queueStore (.bootCount n)
  let (v, d) := confidentialLoad v d
  let d := d.extend 2 (digest (Config.recordBytes v.persistOd v.persistDom ++ leBytes 1 (d.get Obj.PERSIST_SOURCE)))
  let d := d.extend 3 (digest (leBytes 1 (d.get Obj.CONFIDENTIAL_ACTIVE) ++ leBytes 4 (d.get Obj.DEVICE_ID_ACTIVE) ++
    leBytes 1 (d.get Obj.BRIDGE_ENABLE) ++ leBytes 1 v.coolingClass))
  (v, (d.compareMirrors v).startUnits)

/-- FIRMWARE_VERIFIED: the image of the active slot runs, or that of the other; with neither the device is in RECOVERY (R395). -/
def State.cmdFirmware (s : State) (ok0 ok1 recordOk : Bool) : State :=
  if s.dev.get Obj.BOOT_STATE ≠ 1 then s
  else match s.vault.runningSlot (s.dev.get Obj.FW_KEY_REVOKED) ok0 ok1 with
    | none => { s with dev := (s.dev.put Obj.BOOT_STATE 4).put Obj.FW_ACTIVE_SLOT s.vault.activeSlot }
    | some slot =>
      let r := runFirmware s.vault s.dev slot recordOk
      { s with vault := r.1, dev := r.2 }

/-- FIRMWARE_VERIFIED (R395). -/
def execFirmwareVerified (crypto0 crypto1 persistOk : Bool) (s : State) : Host.Outcome State Fault Refusal :=
  .next (s.cmdFirmware crypto0 crypto1 persistOk)

/-! ### A region's bring-up (R396, R403) -/

/-- Physical slots that round `r` tests. -/
def roundSlots (r : Nat) : List Nat := [r - 1, r + 2, r + 5]

/-- A test round of a region begins. -/
def Dev.beginRound (d : Dev) (g r : Nat) : Dev :=
  let d := d.put Obj.TEST_ROUND r g
  (clustersOfRegion g).foldl (fun d c => (roundSlots r).foldl (fun d p => d.setPhys c p 1) d) d

/-- A stack of a region that brings itself up: it leaves HOLD as it is, its failed channels to train again; kept memory trains; a new
stack is initialised; one whose STACK_POWER_CTL is 0 stays OFF (R185, R187, R394, R415). -/
def Dev.bringStack (d : Dev) (v : Vault) (st : Nat) : Dev :=
  let state := d.get Obj.STACK_STATE st
  if d.get Obj.STACK_POWER_CTL st = 0 then d
  else if 2 ≤ state then
    (d.cmdHoldEnd st).modStack st fun x => { x with failedRetry := (List.range 64).any fun p => decide (tget Pch.off x.pch p = .failed) }
  else if v.kept then d.put Obj.STACK_STATE 1 st
  else d.initStack st

/-- REGION_PLL_LOCKED: a starting region runs at OP4, or at OP0 under or after an edge of the damper (R385), its hearths under test; a region
woken from sleep runs at its target. -/
def Dev.cmdPllLocked (d : Dev) (v : Vault) (g : Nat) : Dev :=
  if d.power.tripped then d
  else if d.get Obj.REGION_STATE g = 1 ∧ d.get Obj.CLOCK_STATE g = 1 then
    let op := if d.damperLow || d.power.critical || d.power.clamped.contains g then 0 else 4
    let d := ((d.put Obj.CLOCK_STATE 2 g).put Obj.REGION_OP op g).modPower fun p => { p with clamped := p.clamped.filter fun x => x ≠ g }
    let d := (d.put Obj.REGION_STATE 2 g).regionRuns g
    let d := { d with testSeen := d.testSeen.filter fun p => decide (p / 72 ≠ g), fwAreas := tset 0 d.fwAreas g (d.get Obj.FW_AREA_PA g + 1) }
    let d := (hearthsOfRegion g).foldl (fun d h =>
      ((((d.setHearth h Hearth.fresh).put Obj.HEARTH_STATE hTesting h).put Obj.FW_STATE 0 h).put Obj.TEST_RESULT 1 h).setSlotOf h 15) d
    let d := (clustersOfRegion g).foldl (fun d c =>
      (List.range 9).foldl (fun d p => d.setPhys c p (if v.fuseBad.contains (9 * c + p) then 3 else 0)) (d.put Obj.CACHE_STATE 0 c)) d
    let d := (d.bringStack v (2 * g)).bringStack v (2 * g + 1)
    d.beginRound g 1
  else if d.get Obj.CLOCK_STATE g = 1 then (d.clockRunning g).regionRuns g
  else d

/-- REGION_PLL_LOCKED (R396). -/
def execRegionPllLocked (g : Fin 16) (s : State) : Host.Outcome State Fault Refusal := s.onDev fun d => d.cmdPllLocked s.vault g.val

/-- Reconcile one physical hearth after its test (R403). -/
def Dev.reconcile (d : Dev) (v : Vault) (failed : List (Nat × Nat)) (p : Nat) : Dev :=
  let fuse := v.fuseBad.contains p
  let bad := failed.find? fun e => e.1 = p
  let listed := d.isListed v 1 p
  let d := { d with testSeen := p :: d.testSeen }
  let d := match bad with
    | some e => if fuse then d else d.appendDefect v 1 1 p e.2
    | none => if fuse then d.domWrite Obj.FUSE_ONLY_MAP (p / 8) [BitVec.ofNat 8 (setBit (d.domByte Obj.FUSE_ONLY_MAP (p / 8)).toNat (p % 8) true)]
              else if listed then d.domWrite Obj.LIST_ONLY_MAP (p / 8) [BitVec.ofNat 8 (setBit (d.domByte Obj.LIST_ONLY_MAP (p / 8)).toNat (p % 8) true)]
              else d
  d.setPhys (p / 9) (p % 9) (if fuse then 3 else if bad.isSome then 4 else if listed then 5 else 2)

/-- Reconcile a cluster cache (R403, R406); the maps FUSE_ONLY and LIST_ONLY name hearths alone (R417). -/
def Dev.reconcileCache (d : Dev) (v : Vault) (bad : List Nat) (c : Nat) : Dev :=
  let fuse := v.fuseCache.contains c
  let listed := d.isListed v 2 c
  let isBad := bad.contains c
  let d := if isBad && !fuse then d.appendDefect v 2 1 c 0 else d
  d.put Obj.CACHE_STATE (if fuse || isBad || listed then 2 else 1) c

/-- PHYS_STATUS good. -/
def Dev.physGood (d : Dev) (c p : Nat) : Bool := bits (d.get Obj.PHYS_STATUS c) (3 * p + 2) (3 * p) = 2

/-- A logical hearth is mapped onto physical slot `p`, its test passed; it awaits its firmware (R398). -/
def Dev.mapHearth (d : Dev) (h p : Nat) : Dev := (d.setSlotOf h p).put Obj.TEST_RESULT 2 h

/-- The slots a round decides: those it tested and found good; after round 3 the spare takes the lowest undecided slot, and the others
are absent (R16, R398). -/
def Dev.mapRound (d : Dev) (c r : Nat) : Dev :=
  let d := (roundSlots r).foldl (fun d p => if p < 8 ∧ d.physGood c p then d.mapHearth (8 * c + p) p else d) d
  if r ≠ 3 then d
  else
    let open_ := (List.range 8).filter fun s => d.slotOf (8 * c + s) = 15
    let (d, rest) := if d.physGood c 8 then match open_ with
        | [] => (d, [])
        | s :: rest => (d.mapHearth (8 * c + s) 8, rest)
      else (d, open_)
    rest.foldl (fun d s => (d.put Obj.HEARTH_STATE hAbsent (8 * c + s)).put Obj.TEST_RESULT 3 (8 * c + s)) d

/-- TEST_ROUND_END: the round's results are reconciled, slots are mapped, and the next round begins. -/
def Dev.cmdRoundEnd (d : Dev) (v : Vault) (g : Nat) (failed : List (Nat × Nat)) (badCaches : List Nat) : Dev :=
  let r := d.get Obj.TEST_ROUND g
  if r = 0 then d
  else
    let d := (clustersOfRegion g).foldl (fun d c =>
      let d := (roundSlots r).foldl (fun d p => d.reconcile v failed (9 * c + p)) d
      let d := if r = 1 then d.reconcileCache v badCaches c else d
      d.mapRound c r) d
    if r < 3 then d.beginRound g (r + 1) else d.put Obj.TEST_ROUND 0 g

/-- TEST_ROUND_END (R396). -/
def execTestRoundEnd (g : Fin 16) (failed : List (Nat × Nat)) (badCaches : List Nat) (s : State) : Host.Outcome State Fault Refusal :=
  s.onDev fun d => d.cmdRoundEnd s.vault g.val failed badCaches

/-! ### Stacks (R187, R188) -/

/-- A channel's training has failed for the third time (R187). -/
def Dev.channelFails (d : Dev) (v : Vault) (st ch : Nat) : Dev :=
  let d := (d.setChan st ch .failed).bump Obj.RETRAIN_FAILURES st
  (d.raise Event.channelFailed .stack st).appendDefect v 3 3 (32 * st + ch) 0

/-- STACK_TRAINING_DONE: initialisation and training end, or the channels that had failed have trained again, their contents ash. -/
def Dev.cmdTrained (d : Dev) (v : Vault) (st : Nat) (failed : List Nat) : Dev :=
  let temp := toSigned 32 (d.get Obj.STACK_TEMP 0 st)
  let state := d.get Obj.STACK_STATE st
  if state = 1 then
    let d := (List.range 32).foldl (fun d ch => if failed.contains ch then d.channelFails v st ch else d.setChan st ch .active) d
    let d := d.modStack st fun x => { x with trainTemp := (List.range 32).foldl (fun t ch => tset 0 t ch temp) [] }
    (d.put Obj.STACK_STATE (if (List.range 32).any fun ch => failed.contains ch then 3 else 2) st).hasTrained st
  else if (d.stack st).failedRetry ∧ state = 3 then
    let old := (List.range 32).filter fun ch => d.pch st (2 * ch) = .failed
    let good := old.filter fun ch => !failed.contains ch
    let d := d.ashWhere st fun sec => good.contains (chanOfSec sec)
    let d := good.foldl (fun d ch => d.setChan st ch .active) d
    let d := d.modStack st fun x => { x with failedRetry := false, trainTemp := good.foldl (fun t ch => tset 0 t ch temp) x.trainTemp }
    if old.all fun ch => !failed.contains ch then d.put Obj.STACK_STATE 2 st else d
  else d

/-- STACK_TRAINING_DONE (R188). -/
def execStackTrainingDone (st : Fin 32) (failed : List Nat) (s : State) : Host.Outcome State Fault Refusal :=
  s.onDev fun d => d.cmdTrained s.vault st.val failed

/-! ### Hearth firmware (R407 to R410) -/

/-- Chunk `i` of the running hearth image. -/
def Vault.hearthChunk (v : Vault) (slot i : Nat) : List Byte := readCells 0 v.slotBytes (slot * 2 ^ 21 + 0x102000 + 16384 * i) 16384

/-- Start of a region's firmware area: the FW_AREA_PA in force since the region's bring-up (R418). -/
def Dev.fwArea (d : Dev) (g : Nat) : Nat :=
  match tget 0 d.fwAreas g with
  | 0 => Obj.FW_AREA_PA.resetVal g 0
  | a + 1 => a

/-- Write one chunk into a region's firmware area (R407); a line that must wait does so as any request to its stack (R25, R186). -/
def Dev.writeFwChunk (d : Dev) (v : Vault) (g i : Nat) : Dev :=
  let bs := v.hearthChunk (d.get Obj.FW_ACTIVE_SLOT) i
  let a := d.fwArea g + 16384 * i
  if 2 ^ 41 < a + 16384 then d
  else (List.range 256).foldl (fun d k =>
    let (st, sec) := d.decodePA (a + 64 * k)
    d.offer st ⟨sec, none, true, none, (bs.drop (64 * k)).take 64, [], false, none, .demand, [], 0⟩) d

/-- FW_AREA_WRITTEN: one pass writes the image into the area of every region that has a READY stack and none yet; an
area has room for 24 chunks (R407, R422). -/
def Dev.cmdAreaWritten (d : Dev) (v : Vault) : Dev :=
  let gs := (List.range 16).filter fun g =>
    d.get Obj.FW_AREA_STATE g = 0 && decide (2 ≤ d.get Obj.REGION_STATE g) &&
    (d.get Obj.STACK_STATE (2 * g) = 2 || d.get Obj.STACK_STATE (2 * g + 1) = 2)
  gs.foldl (fun d g => ((List.range (min 24 (d.get Obj.HEARTH_FW_CHUNKS))).foldl (fun d i => d.writeFwChunk v g i) d).put Obj.FW_AREA_STATE 1 g) d

/-- FW_AREA_WRITTEN (R407). -/
def execFwAreaWritten (s : State) : Host.Outcome State Fault Refusal := s.onDev fun d => d.cmdAreaWritten s.vault

/-- `n` reads of chunk `i` fail its hash: each is counted and reported, and the Pilot rewrites the chunk, from the fourth on in the area of
the region beside this one (R410). -/
def Dev.hashFails (d : Dev) (v : Vault) (cl i n : Nat) : Dev :=
  (List.range n).foldl (fun d k =>
    ((d.bump Obj.FW_HASH_FAILURES).raise Event.fwHashFailure .cluster cl).writeFwChunk v (if k < 3 then cl / 8 else (cl / 8).xor 1) i) d

/-- Chunk `i` stands in a region's firmware area as it was written (R410). -/
def Dev.areaIntact (d : Dev) (v : Vault) (g i : Nat) : Bool :=
  let bs := v.hearthChunk (d.get Obj.FW_ACTIVE_SLOT) i
  (List.range 256).all fun k =>
    let (st, sec) := d.decodePA (d.fwArea g + 16384 * i + 64 * k)
    let x := d.peek st sec
    decide (x.bytes = (bs.drop (64 * k)).take 64) && !x.ash

/-- Reads of chunk `i` that fail its hash: at least one where its area no longer holds it (R407, R410). -/
def Dev.chunkFails (d : Dev) (v : Vault) (g i n : Nat) : Nat := min 6 (if d.areaIntact v g i then n else max 1 n)

/-- A checked chunk is written into a hearth's control store. -/
def Dev.loadChunk (d : Dev) (v : Vault) (h i : Nat) : Dev :=
  let bs := v.hearthChunk (d.get Obj.FW_ACTIVE_SLOT) i
  (d.modHearth h fun x => { x with cstore := tset [] x.cstore i bs }).put Obj.FW_CHUNKS_MISSING (setBit (d.get Obj.FW_CHUNKS_MISSING h) i false) h

/-- Whether a hearth holds a logical slot, has passed its test, and is not loaded: it is to be given firmware (R408, R409). -/
def Dev.wantsFw (d : Dev) (h : Nat) : Bool :=
  decide (d.slotOf h < 9) && decide (d.get Obj.FW_STATE h < 2) && (d.hState h = hTesting || d.hState h = hResetting) &&
  !(d.resets.any fun r => (d.partHearths r.part).contains h && levelOf r.part < 2 && (!r.drained || r.testing.contains h))

/-- CLUSTER_MULTICAST: every chunk is read, hashed and written into the tested hearths' control stores (R408); a chunk that fails three
times from each area fails every hearth waiting for it (R410). -/
def Dev.cmdMulticast (d : Dev) (v : Vault) (cl : Nat) (fails : List (Nat × Nat)) : Dev :=
  let g := cl / 8
  if d.get Obj.FW_AREA_STATE g ≠ 1 ∨ d.get Obj.MULTICAST_DONE cl = 1 ∨ !d.testSeen.contains (9 * cl) then d
  else
    let hs := (hearthsOfCluster cl).filter d.wantsFw
    let failsOf : Nat → Nat := fun i => ((fails.filter fun e => e.1 = i).map (·.2)).foldl (· + ·) 0
    let d := hs.foldl (fun d h => d.put Obj.FW_STATE 1 h) d
    let d := (List.range (d.get Obj.HEARTH_FW_CHUNKS)).foldl (fun (d : Dev) i =>
      let n := d.chunkFails v g i (failsOf i)
      let d := d.hashFails v cl i n
      if 6 ≤ n then d else hs.foldl (fun d h => d.loadChunk v h i) d) d
    let d := d.put Obj.MULTICAST_DONE 1 cl
    hs.foldl (fun d h => if d.get Obj.FW_CHUNKS_MISSING h = 0 then d.enterPool h else d.fwFailed h) d

/-- CLUSTER_MULTICAST (R408). -/
def execClusterMulticast (cl : Fin 128) (fails : List (Nat × Nat)) (s : State) : Host.Outcome State Fault Refusal :=
  s.onDev fun d => d.cmdMulticast s.vault cl.val fails

/-- Lowest chunk a hearth lacks. -/
def Dev.nextChunk (d : Dev) (h : Nat) : Option Nat := (List.range 24).find? fun i => bit (d.get Obj.FW_CHUNKS_MISSING h) i

/-- CHUNK_PULL: the router serves one pull, in the rotating order of R335; with no chunk missing the hearth enters the pool (R409). -/
def Dev.cmdPull (d : Dev) (v : Vault) (cl fails : Nat) : Dev :=
  if d.get Obj.FW_AREA_STATE (cl / 8) ≠ 1 ∨ d.get Obj.MULTICAST_DONE cl = 0 then d
  else
    let req := (List.range 8).filter fun s => d.wantsFw (8 * cl + s)
    match rotPick 8 (d.cluster cl).pullPtr req with
    | none => d
    | some s =>
      let h := 8 * cl + s
      let d := d.setCluster cl { d.cluster cl with pullPtr := (s + 1) % 8 }
      match d.nextChunk h with
      | none => d.enterPool h
      | some i =>
        let n := d.chunkFails v (cl / 8) i fails
        let d := ((d.put Obj.FW_STATE 1 h).bump Obj.MISSED_CHUNK_FETCHES cl).hashFails v cl i n
        if 6 ≤ n then
          (((List.range 8).map (8 * cl + ·)).filter fun x => d.wantsFw x && bit (d.get Obj.FW_CHUNKS_MISSING x) i).foldl Dev.fwFailed d
        else
          let d := d.loadChunk v h i
          if d.get Obj.FW_CHUNKS_MISSING h = 0 then d.enterPool h else d

/-- CHUNK_PULL (R409). -/
def execChunkPull (cl : Fin 128) (fails : Nat) (s : State) : Host.Outcome State Fault Refusal :=
  s.onDev fun d => d.cmdPull s.vault cl.val fails

/-! ### Ready and full service (R400, R401) -/

/-- PORT_PRESENCE_TIMEOUT: a port still training has seen no neighbour and is not present for Ready. -/
def execPortPresenceTimeout (p : Fin 16) (s : State) : Host.Outcome State Fault Refusal :=
  s.onDev fun d => if d.get Obj.PORT_STATE p.val = 2 then d.modPort p.val fun x => { x with present := false } else d

/-- Every present stack and port has finished training: its state has left it once (R400). -/
def Dev.allTrained (d : Dev) : Bool :=
  ((List.range 32).all fun st => d.get Obj.STACK_POWER_CTL st = 0 || d.trained.contains st) &&
  ((List.range 16).all fun p => d.get Obj.PORT_CTL p = 0 || !(d.port p).present || d.trained.contains (32 + p))

/-- DEVICE_READY: the first tick in which everything present has finished training. -/
def Dev.cmdReady (d : Dev) : Dev :=
  if d.get Obj.BOOT_STATE = 2 ∧ d.get Obj.DEVICE_READY = 0 ∧ d.allTrained then
    (((d.put Obj.DEVICE_READY 1).put Obj.READY_TICK d.tick).put Obj.BOOT_STATE 3).raise Event.ready .global 0
  else d

/-- DEVICE_READY (R400). -/
def execDeviceReady (s : State) : Host.Outcome State Fault Refusal := s.onDev Dev.cmdReady

/-- REGION_FULL_SERVICE: a region in banked service on a Ready device, all its hearths settled and none FIRING. -/
def Dev.cmdFullService (d : Dev) (g : Nat) : Dev :=
  if d.get Obj.REGION_STATE g = 3 ∧ d.get Obj.DEVICE_READY = 1 ∧
      ((hearthsOfRegion g).all fun h => d.hearthSettled h && d.hState h ≠ hFiring) then
    let d := (d.put Obj.REGION_STATE 4 g).put Obj.REGION_UP_TICK d.tick g
    let d := (hearthsOfRegion g).foldl (fun d h => d.put Obj.HEARTH_SERVICE 0 h) d
    ((d.raise Event.regionFullService .region g).retarget g).settlePartitions
  else d

/-- REGION_FULL_SERVICE (R401). -/
def execRegionFullService (g : Fin 16) (s : State) : Host.Outcome State Fault Refusal := s.onDev fun d => d.cmdFullService g.val

end Sys2Proof.Machine
end

