-- ==== Sys2Proof/Machine/Firmware.lean ====
section
/-! DEFINITION. Firmware update (R424, R425), bundles (R428 to R431) and quotes (R433 to R435). -/

namespace Sys2Proof.Machine

/-! ### Firmware update (R424) -/

/-- Bytes of FW_STAGE and of a page program. -/
def stageBytes : Nat := 131072

/-- The inactive slot. -/
def Dev.idleSlot (d : Dev) : Nat := 1 - d.get Obj.FW_ACTIVE_SLOT

/-- FW_SLOT_STATE of the inactive slot. -/
def State.idleState (s : State) : Nat := tget 0 s.vault.slotState s.dev.idleSlot

/-- Set the inactive slot's state. -/
def State.setIdle (s : State) (v : Nat) : State :=
  { s with vault := { s.vault with slotState := tset 0 s.vault.slotState s.dev.idleSlot v } }

/-- Answer a command. -/
def State.answer (s : State) (st : Nat) : State := { s with dev := s.dev.answer st }

/-- A firmware update is programming, erasing or deferred. -/
def Dev.fwBusy (d : Dev) : Bool := d.get Obj.FW_UPDATE_STATE = 1 || d.get Obj.FW_UPDATE_STATE = 2

/-- BEGIN: the inactive slot is RECEIVING and is erased block by block. -/
def State.fwBegin (s : State) : State :=
  if s.dev.fwBusy then s.answer 3
  else if s.dev.fwPending then s.answer 4
  else
    let d := { s.dev with fwPending := true }.put Obj.FW_UPDATE_STATE 1
    let d := (List.range 32).foldl (fun d b => d.queueStore (.slotErase s.dev.idleSlot b)) d
    ({ s with dev := d }.setIdle 1).answer 0

/-- PROGRAM: the staged bytes go to a slot offset, page by page. -/
def State.fwProgram (s : State) (off : Nat) : State :=
  let off := off % 2 ^ 21
  if s.dev.fwBusy then s.answer 3
  else if s.idleState ≠ 1 ∨ off % stageBytes ≠ 0 then s.answer 4
  else
    let bs := s.dev.domRead Obj.FW_STAGE 0 stageBytes
    let d := s.dev.put Obj.FW_UPDATE_STATE 1
    let d := (List.range 512).foldl (fun d k =>
      d.queueStore (.slotProgram s.dev.idleSlot (off + 256 * k) ((bs.drop (256 * k)).take 256))) d
    { s with dev := d }.answer 0

/-- VERIFY: the slot is VERIFIED with its measurement pending, or REJECTED with the reason (R423). -/
def State.fwVerify (s : State) (keyOk sigOk hashOk : Bool) : State :=
  if s.dev.fwBusy then s.answer 3
  else if s.idleState ≠ 1 then s.answer 4
  else
    let r := s.vault.verify (s.dev.get Obj.FW_KEY_REVOKED) s.dev.idleSlot keyOk sigOk hashOk
    let d := (s.dev.put Obj.FW_UPDATE_STATE 3).put Obj.FW_REJECT_REASON r
    if r = 0 then ({ s with dev := d.domWrite Obj.PENDING_MEASUREMENT 0 (s.vault.measurement s.dev.idleSlot) }.setIdle 2).answer 0
    else ({ s with dev := d.raise Event.fwRejected .global 0 }.setIdle 3).answer 0

/-- ACTIVATE: a slot-select record is appended; the slot runs from the next whole-device reset. -/
def State.fwActivate (s : State) : State :=
  if s.dev.fwBusy then s.answer 3
  else if s.idleState ≠ 2 then s.answer 4
  else { s with dev := (s.dev.put Obj.FW_UPDATE_STATE 1).queueStore (.slotSelect s.dev.idleSlot) }.answer 0

/-- ABORT: the slot is EMPTY and nothing is pending. -/
def State.fwAbort (s : State) : State :=
  if s.dev.fwBusy then s.answer 3
  else if s.idleState = 0 ∨ s.idleState = 4 then s.answer 4
  else
    let d := { s.dev with fwPending := false }.put Obj.FW_UPDATE_STATE 0
    ({ s with dev := d.domWrite Obj.PENDING_MEASUREMENT 0 (List.replicate 48 0) }.setIdle 0).answer 0

/-- A write to FW_CONFIRM raises the security version to that of the running manifest (R425). -/
def State.fwConfirm (s : State) (v : Nat) : State :=
  if 1 < v then s.answer 4
  else
    let sv := s.vault.slotNat (s.dev.get Obj.FW_ACTIVE_SLOT) 12 4
    if v = 1 ∧ s.vault.secVersion < sv then { s with dev := s.dev.queueStore (.secVersion sv) }.answer 0 else s.answer 0

/-- A command the management core serves, on the whole state (R372, R395). -/
def State.served (s : State) (f : State → State) : State :=
  if s.dev.get Obj.BOOT_STATE < 2 ∨ s.dev.pathFull 2 ∨ s.dev.pilot.restarting then s.answer 7 else f s

/-- BEGIN (R424). -/
def execFwBegin (s : State) : Host.Outcome State Fault Refusal := .next (s.served State.fwBegin)
/-- PROGRAM (R424). -/
def execFwProgram (off : Nat) (s : State) : Host.Outcome State Fault Refusal := .next (s.served fun s => s.fwProgram off)
/-- VERIFY (R424). -/
def execFwVerify (keyOk sigOk hashOk : Bool) (s : State) : Host.Outcome State Fault Refusal :=
  .next (s.served fun s => s.fwVerify keyOk sigOk hashOk)
/-- ACTIVATE (R424). -/
def execFwActivate (s : State) : Host.Outcome State Fault Refusal := .next (s.served State.fwActivate)
/-- ABORT of a firmware update (R424). -/
def execFwUpdateAbort (s : State) : Host.Outcome State Fault Refusal := .next (s.served State.fwAbort)
/-- FW_CONFIRM (R425). -/
def execFwConfirm (v : Nat) (s : State) : Host.Outcome State Fault Refusal := .next (s.served fun s => s.fwConfirm v)

/-! ### Bundles (R428 to R431) -/

/-- Bytes of HBM data space, in order. -/
def Dev.dataBytes (d : Dev) (a n : Nat) : List Byte :=
  ((List.range ((a % 64 + n + 63) / 64)).flatMap fun k =>
    let (st, sec) := d.decodePA (a / 64 * 64 + 64 * k)
    (d.peek st sec).bytes).drop (a % 64) |>.take n

/-- Whether every line of a range of data space is served. -/
def Dev.dataServed (d : Dev) (a n : Nat) : Bool :=
  (List.range ((a % 64 + n + 63) / 64)).all fun k =>
    let (st, sec) := d.decodePA (a / 64 * 64 + 64 * k)
    !decide (d.gate st sec = .absent)

/-- The segment records of a header: DEST_PA and LENGTH (R428). -/
def segRecords (hdr : List Byte) (members segs : Nat) : List (Nat × Nat) :=
  (List.range segs).map fun i =>
    let r := hdr.drop (160 + 96 * members + 48 * i)
    (leNat (r.take 8), leNat ((r.drop 8).take 8))

/-- A segment as a sector range of one stack, if it lies wholly on one, in SINGLE pairs (R176, R429). -/
def Dev.segRange (d : Dev) (pa len : Nat) : Option (Nat × Nat × Nat) :=
  let single := fun (a : Nat) => bit (d.get Obj.HBM_SEG_MODE (bits a 40 37)) (bits a 36 31)
  let last := pa + (len - 1)
  let a := d.decodePA pa
  if 2 ^ 41 ≤ last ∨ pa % 4096 ≠ 0 ∨ len % 64 ≠ 0 ∨ 2 ^ 30 < len ∨ !single pa ∨ !single last ∨ (d.decodePA last).1 ≠ a.1 then none
  else some (a.1, a.2, len / 64)

/-- Two sector ranges share a sector. -/
def segsMeet (a b : Nat × Nat × Nat) : Bool :=
  a.1 = b.1 && decide (a.2.1 < b.2.1 + b.2.2) && decide (b.2.1 < a.2.1 + a.2.2)

/-- No range of a list meets another one of it. -/
def segsApart : List (Nat × Nat × Nat) → Bool
  | [] => true
  | x :: xs => xs.all (fun y => !segsMeet x y) && segsApart xs

/-- Segments of the bundles loaded. -/
def Dev.bundleSegs (d : Dev) : List (Nat × Nat × Nat) := d.bundles.loaded.flatMap fun e => (e.2.map Bundle.segs).getD []

/-- Number of bundles loaded. -/
def Dev.bundleCount (d : Dev) : Nat := (d.bundles.loaded.filter fun e => e.2.isSome).length

/-- Change the bundle state. -/
def Dev.modBundles (d : Dev) (f : Bundles → Bundles) : Dev := { d with bundles := f d.bundles }

/-- A load fails with a cause (R430, R438). -/
def Dev.bundleFails (d : Dev) (result : Nat) : Dev :=
  (((d.put Obj.BUNDLE_STATE 4).put Obj.BUNDLE_RESULT result).modBundles fun b => { b with loading := none }).raise Event.bundleFailed .global 0

/-- Steps 1 and 2 of a load (R429): the header is read, its member record found, the key unwrapped, the layout checked. -/
def Dev.startLoad (d : Dev) (a : Nat) (unwrapOk : Bool) : Dev :=
  let d := (d.put Obj.BUNDLE_STATE 1).put Obj.BUNDLE_RESULT 0
  let fixedPart := d.dataBytes a 160
  let members := leNat ((fixedPart.drop 6).take 2)
  let segs := leNat ((fixedPart.drop 8).take 4)
  let malformed := decide (leNat (fixedPart.take 4) ≠ 0x4E425A4B) || decide (leNat ((fixedPart.drop 4).take 2) ≠ 1) ||
    members = 0 || decide (512 < members) || segs = 0 || decide (4096 < segs)
  let len := 160 + 96 * members + 48 * segs
  if !d.dataServed a 160 then d.bundleFails 5
  else if malformed then d.bundleFails 3
  else if !d.dataServed a len then d.bundleFails 5
  else
    let hdr := d.dataBytes a len
    let mine := (List.range members).any fun m => decide ((hdr.drop (160 + 96 * m)).take 48 = leBytes 48 Config.leafDigest)
    let ranges := (segRecords hdr members segs).map fun r => d.segRange r.1 r.2
    let ok := ranges.filterMap id
    if !mine then d.bundleFails 1
    else if !unwrapOk then d.bundleFails 2
    else if (ranges.any Option.isNone) || !segsApart ok || (ok.any fun x => d.bundleSegs.any fun y => segsMeet x y) then d.bundleFails 3
    else
      let ext := digest ((hdr.drop 16).take 16 ++ digest hdr)
      (d.put Obj.BUNDLE_STATE 2).modBundles fun b => { b with loading := some ⟨0, a, ext, ok⟩ }

/-- A write to BUNDLE_LOAD (R429, R430). -/
def Dev.writeBundleLoad (d : Dev) (a : Nat) (unwrapOk : Bool) : Dev × Nat :=
  let st := d.get Obj.BUNDLE_STATE
  if st = 1 ∨ st = 2 ∨ 16 ≤ d.bundleCount then (d, 3)
  else if a % 4096 ≠ 0 ∨ 2 ^ 41 ≤ a then (d, 4)
  else (d.startLoad a unwrapOk, 0)

/-- BUNDLE_LOAD (R429). -/
def execBundleLoad (addr : Nat) (unwrapOk : Bool) (s : State) : Host.Outcome State Fault Refusal :=
  s.onDev fun d => d.gatedPilot fun d => let (d, r) := d.writeBundleLoad addr unwrapOk; d.answer r

/-- Decrypt a segment in place; a sector of a FAILED channel takes nothing (R187). -/
def Dev.decryptSegment (d : Dev) (hdr : List Byte) (i : Nat) (r : Nat × Nat × Nat) : Dev :=
  let cipher := (List.range r.2.2).flatMap fun k => (d.peek r.1 (r.2.1 + k)).bytes
  let plain := Config.unwrapSegment hdr i cipher
  (List.range r.2.2).foldl (fun d k =>
    if d.secFailed r.1 (r.2.1 + k) then d else d.setSector r.1 (r.2.1 + k) ⟨fit 0 64 (plain.drop (64 * k)), false, []⟩) d

/-- The stack of every segment of a bundle serves requests (R429, R430). -/
def Dev.segsServed (d : Dev) (b : Bundle) : Bool := b.segs.all fun r => !decide (d.gate r.1 r.2.1 = .absent)

/-- BUNDLE_LOADED: every tag has passed: a handle is issued and M4 extended (R429). It cannot come about while the stack of a segment
answers absent: the load fails then (R430). -/
def Dev.cmdBundleLoaded (d : Dev) : Dev :=
  match d.bundles.loading with
  | none => d
  | some b =>
    if !d.segsServed b then d
    else
      let head := d.dataBytes b.header 160
      let hdr := d.dataBytes b.header (160 + 96 * leNat ((head.drop 6).take 2) + 48 * leNat ((head.drop 8).take 4))
      let d := (b.segs.zipIdx).foldl (fun d r => d.decryptSegment hdr r.2 r.1) d
      let slot := ((List.range 16).find? fun n => (tget none d.bundles.loaded n).isNone).getD 0
      let h := d.bundles.nextHandle
      let d := d.modBundles fun x =>
        { x with loading := none, nextHandle := h + 1, loaded := tset none x.loaded slot (some { b with handle := h }) }
      let d := ((d.put Obj.BUNDLE_HANDLE h 0 slot).put Obj.BUNDLE_LAST_HANDLE h).extend 4 b.ext
      ((d.put Obj.BUNDLE_STATE 3).put Obj.BUNDLE_RESULT 0).raise Event.bundleLoaded .global 0

/-- BUNDLE_LOADED (R429). -/
def execBundleLoaded (s : State) : Host.Outcome State Fault Refusal := s.onDev Dev.cmdBundleLoaded

/-- Write a segment as ash, or owe it where its stack is in HOLD (R430). -/
def Dev.ashSegment (d : Dev) (r : Nat × Nat × Nat) : Dev :=
  if d.get Obj.STACK_STATE r.1 = 4 ∨ (d.stack r.1).draining then d.modBundles fun b => { b with owedAsh := b.owedAsh ++ [r] }
  else d.ashWhere r.1 fun sec => decide (r.2.1 ≤ sec) && decide (sec < r.2.1 + r.2.2)

/-- The segments decrypted or in progress when a load fails: on each stack a first part of its segments in record order, how many being
a free value (26). -/
def Dev.begunSegments (d : Dev) (b : Bundle) : List (Nat × Nat × Nat) :=
  (List.range 32).flatMap fun st =>
    let mine := b.segs.filter fun r => r.1 = st
    mine.take (Config.free 26 (d.free + st) % (mine.length + 1))

/-- BUNDLE_LOAD_FAILURE: a tag, or an absent response, ends the load; what was decrypted becomes ash (R430). -/
def Dev.cmdLoadFailure (d : Dev) (cause : Nat) : Dev :=
  match d.bundles.loading with
  | none => d
  | some b => ({ (d.begunSegments b).foldl Dev.ashSegment d with free := d.free + 32 }).bundleFails (4 + cause)

/-- BUNDLE_LOAD_FAILURE (R430). -/
def execBundleLoadFailure (cause : Fin 2) (s : State) : Host.Outcome State Fault Refusal := s.onDev fun d => d.cmdLoadFailure cause.val

/-- A write to BUNDLE_RELEASE: the bundle's segments become ash and its handle slot is free (R431). -/
def Dev.writeBundleRelease (d : Dev) (handle : Nat) : Dev × Nat :=
  match (List.range 16).find? fun n => (tget none d.bundles.loaded n).any fun b => b.handle = handle with
  | none => (d, 4)
  | some n =>
    let segs := ((tget none d.bundles.loaded n).map Bundle.segs).getD []
    let d := segs.foldl Dev.ashSegment d
    ((d.modBundles fun b => { b with loaded := tset none b.loaded n none }).put Obj.BUNDLE_HANDLE 0 0 n, 0)

/-- BUNDLE_RELEASE (R431). -/
def execBundleRelease (handle : Nat) (s : State) : Host.Outcome State Fault Refusal :=
  s.onDev fun d => d.gatedPilot fun d => let (d, r) := d.writeBundleRelease handle; d.answer r

/-! ### Quotes (R433 to R435) -/

/-- A number whose set bits are those of a list. -/
def bitsOfList (l : List Nat) : Nat := l.foldl (fun v n => setBit v n true) 0

/-- Bytes 0..527 of a quote, taken in the tick that accepts its request. -/
def State.quoteBody (s : State) (nonce : List Byte) : List Byte :=
  let d := s.dev
  let regions := d.resets.flatMap fun r => match r.part with
    | .partition n => (List.range 16).filter fun g => d.get Obj.REGION_PARTITION (g / 4) (g % 4) = n.val
    | _ => []
  let clusters := d.resets.filterMap fun r => match r.part with
    | .cluster c => some c.val
    | _ => none
  let hearths := d.resets.filterMap fun r => match r.part with
    | .hearth h => some h.val
    | _ => none
  let flags := bitsOfList ((if d.fwPending then [0] else []) ++ (if d.get Obj.CONFIDENTIAL_ACTIVE = 1 then [1] else []) ++
    (if d.resets.isEmpty then [] else [2]) ++ (if d.get Obj.BOOT_STATE = 4 then [3] else []) ++
    (if d.get Obj.PILOT_STATE = 2 then [4] else []))
  leBytes 4 0x54515A4B ++ leBytes 2 1 ++ leBytes 2 flags ++ leBytes 4 (d.get Obj.DEVICE_ID_ACTIVE) ++ leBytes 4 (d.get Obj.BOOT_COUNT) ++
  leBytes 8 d.tick ++ fit 0 32 nonce ++ d.domRead Obj.SERIAL_NUMBER 0 16 ++ leBytes 4 s.vault.secVersion ++
  leBytes 4 (d.get Obj.MEAS_EXTENDS) ++ d.domRead Obj.MEAS_REGISTERS 0 240 ++ d.domRead Obj.PENDING_MEASUREMENT 0 48 ++
  leBytes 2 (bitsOfList regions) ++ leBytes 6 0 ++ leBytes 16 (bitsOfList clusters) ++ leBytes 128 (bitsOfList hearths) ++ leBytes 8 0

/-- A write of a nonce to QUOTE_REQ_n (R433). -/
def State.writeQuote (s : State) (n : Nat) (nonce : List Byte) : State × Nat :=
  if nonce.length ≠ 32 then (s, 5)
  else if s.dev.get Obj.QUOTE_STATUS 0 n = 1 then (s, 3)
  else
    let d := { s.dev with quotes := tset [] s.dev.quotes n (s.quoteBody nonce) }
    ({ s with dev := d.put Obj.QUOTE_STATUS 1 0 n }, 0)

/-- QUOTE_REQ (R433). -/
def execQuoteReq (n : Fin 4) (nonce : List Byte) (s : State) : Host.Outcome State Fault Refusal :=
  .next (s.served fun s => let (s, r) := s.writeQuote n.val nonce; s.answer r)

/-- QUOTE_READY: the signed quote is readable (R433, R434). -/
def Dev.cmdQuoteReady (d : Dev) (n : Nat) : Dev :=
  if d.get Obj.QUOTE_STATUS 0 n ≠ 1 then d
  else
    let body := tget [] d.quotes n
    let d := { d with quotes := tset [] d.quotes n [] }
    (d.domWrite Obj.QUOTE 0 (body ++ fit 0 96 (Config.sign body)) 0 n).put Obj.QUOTE_STATUS 2 0 n

/-- QUOTE_READY (R433). -/
def execQuoteReady (n : Fin 4) (s : State) : Host.Outcome State Fault Refusal := s.onDev fun d => d.cmdQuoteReady n.val

end Sys2Proof.Machine
end

