-- ==== Sys2Proof/Machine/Sequencer.lean ====
section
/-! DEFINITION. Commands of the firing sequencer: the fill stage, control entries, NOP, COUNTER and STEP_END, retirement, the
bellows' walk, stalls, aborts and the draught watchdog (R83 to R128, R167 to R169). -/

namespace Sys2Proof.Machine

/-! ### The fill stage (R103, R105, R113) -/

/-- Whether a hearth's fill stage reads entries: its part has begun, nothing has stopped it, the window has room and holds no
STEP_END. -/
def Dev.mayFill (d : Dev) (h : Nat) : Bool :=
  let x := d.hearth h
  match x.run with
  | some r => r.released && !r.needExchange && !r.stopped && !r.aborting && decide (x.window.length < 64) &&
      x.window.all fun e => e.kind ≠ .stepEnd
  | none => false

/-- The window entry that the fill stage makes of the table entry it reads: the loop values in force are captured (R84, R91). -/
def Hearth.newEntry (x : Hearth) (raw : Nat) : WEntry :=
  { id := x.nextId, idx := x.walk.pos, raw := raw, i := x.walk.i, t := x.walk.t, ordinal := x.walk.ordinal, st := .waiting,
    slot := none, mask := [], inc := [], place := none, replay := false, replayExp := none, tagWord := none, ranges := ([], []), prov := [] }

/-- Whether the entry at a walk position is one the fill stage takes. DESIGN CHOICE (log entry 46): a TABLE_ENTRIES above the 16,384 of
R83 is taken as it stands. -/
def Dev.readable (d : Dev) (h : Nat) (w : Walk) : Bool :=
  decide (w.pos < d.get Obj.TABLE_ENTRIES h) && d.legalEntry h w (d.tableEntry h w.pos)

/-- A read of table entry `idx` through port 6 meets what the code finds in its words (R80). -/
def Dev.entrySram (d : Dev) (h idx : Nat) (sram : List (Nat × SramOutcome)) : Dev := d.fetchSram h (d.get Obj.TABLE_BASE h + 32 * idx) 32 sram

/-- FILL_STAGE_READ: the next table entry enters the window; an illegal one stops the fill stage. LOOP and BRANCH entries are left
to their own commands. -/
def Dev.cmdFill (d : Dev) (h : Nat) (sram : List (Nat × SramOutcome)) : Dev :=
  if !d.mayFill h then d
  else
    let d := d.entrySram h (d.hearth h).walk.pos sram
    let x := d.hearth h
    if !d.readable h x.walk then d.illegal h x.walk.pos
    else
      let raw := d.tableEntry h x.walk.pos
      match EKind.ofCode (bits raw 255 252) with
      | some .loop | some .branch => d
      | _ => d.setHearth h { x with window := x.window ++ [x.newEntry raw], nextId := x.nextId + 1, walk := x.walk.advance (x.walk.pos + 1) }

/-- FILL_STAGE_READ (R103). -/
def execFillStageRead (h : Fin 1024) (sram : List (Nat × SramOutcome)) (s : State) : Host.Outcome State Fault Refusal :=
  s.onDev fun d => d.cmdFill h.val sram

/-- The control entry of kind `k` that the fill stage stands at, legal and with its wait conditions met by committed values. DESIGN
CHOICE (log entry 46): the fill stage keeps no copy of a control entry it waits at and reads its bytes again as it resolves it; R84
speaks of the entries placed in the window. -/
def Dev.controlAt (d : Dev) (h : Nat) (k : EKind) : Option Nat :=
  let x := d.hearth h
  let raw := d.tableEntry h x.walk.pos
  if d.mayFill h && d.readable h x.walk && EKind.ofCode (bits raw 255 252) = some k &&
      x.waitsCommitted (.ofWord raw) x.walk.i x.walk.t then some raw else none

/-- The fill stage's read of the entry it stands at, where it may read. -/
def Dev.fillSram (d : Dev) (h : Nat) (sram : List (Nat × SramOutcome)) : Dev := if d.mayFill h then d.entrySram h (d.hearth h).walk.pos sram else d

/-- LOOP: the fill stage resolves a LOOP entry. -/
def Dev.cmdLoop (d : Dev) (h : Nat) (sram : List (Nat × SramOutcome)) : Dev :=
  let d := d.fillSram h sram
  match d.controlAt h .loop with
  | none => d
  | some raw =>
    let b := LoopBody.ofWord raw
    d.modHearth h fun x => { x with walk := x.walk.loop b (x.passes b) }

/-- LOOP (R103). -/
def execLoop (h : Fin 1024) (sram : List (Nat × SramOutcome)) (s : State) : Host.Outcome State Fault Refusal :=
  s.onDev fun d => d.cmdLoop h.val sram

/-- Bellows that followed another way than the fill stage took restart at its position; what they have in flight then fills the
cluster cache alone (R118). -/
def Bellows.resolve (b : Bellows) (ordinal : Nat) (taken : Bool) (w : Walk) : Bellows :=
  match b.branches.find? fun x => x.1 = ordinal with
  | none => b
  | some x =>
    if x.2.1 = taken then { b with branches := b.branches.filter fun x => x.1 ≠ ordinal }
    else { b with walk := w, branches := [], delivered := b.delivered.filter fun e => decide (e.ordinal ≤ ordinal),
                  inflight := b.inflight.map fun e => if e.ordinal ≤ ordinal then e else { e with cacheOnly := true } }

/-- BRANCH: the fill stage resolves a BRANCH entry. -/
def Dev.cmdBranch (d : Dev) (h : Nat) (sram : List (Nat × SramOutcome)) : Dev :=
  let d := d.fillSram h sram
  match d.controlAt h .branch with
  | none => d
  | some raw =>
    let b := BranchBody.ofWord raw
    d.modHearth h fun x =>
      let taken := b.holds (x.branchVal x.walk b)
      let w := x.walk.advance (if taken then b.target else x.walk.pos + 1)
      { x with walk := w, bellows := x.bellows.resolve x.walk.ordinal taken w }

/-- BRANCH (R103). -/
def execBranch (h : Fin 1024) (sram : List (Nat × SramOutcome)) (s : State) : Host.Outcome State Fault Refusal :=
  s.onDev fun d => d.cmdBranch h.val sram

/-! ### NOP, COUNTER, STEP_END (R106, R111) -/

/-- NOP: signals as it fires and completes; it retires at once unless it is provisional. -/
def Dev.cmdNop (d : Dev) (h : Nat) : Dev :=
  d.fireIf h (fun e => e.kind = .nop) fun d e => d.completeEntry h e.id true

/-- NOP (R106). -/
def execNop (h : Fin 1024) (s : State) : Host.Outcome State Fault Refusal := s.onDev fun d => d.cmdNop h.val

/-- COUNTER: adds ADD to counter CTR, then as a NOP. -/
def Dev.cmdCounter (d : Dev) (h : Nat) : Dev :=
  d.fireIf h (fun e => e.kind = .counter) fun d e =>
    let (c, a) := counterBody e.raw
    (d.modHearth h fun x => x.increment e.id c a).completeEntry h e.id true

/-- COUNTER (R97). -/
def execCounter (h : Fin 1024) (s : State) : Host.Outcome State Fault Refusal := s.onDev fun d => d.cmdCounter h.val

/-- The history of a slot at the end of a step (R76). -/
def ScaleSlot.stepEnd (s : ScaleSlot) : ScaleSlot :=
  if s.used then
    { s with hist := (s.stepMax :: s.hist).take 16, stepMax := 0, curValid := false, used := false, replayed := false, ashSeen := false }
  else s

/-- The slots that the end of a step updates (R76). -/
def Hearth.usedSlots (x : Hearth) : List Nat := (x.slots.filter fun s => s.2.used).map (·.1)

/-- Every slot of a hearth at the end of a step (R76). -/
def Hearth.slotsEnd (x : Hearth) : Hearth := x.usedSlots.foldl (fun x k => x.writeSlot k true ScaleSlot.stepEnd) x

/-- STEP_END: alone in the window it fires, completes and retires: the counters are cleared, the scale histories updated, and the
hearth ends its part (R101, R106, R325). -/
def Dev.cmdStepEnd (d : Dev) (h : Nat) (sram : List (Nat × SramOutcome)) : Dev :=
  d.fireIf h (fun e => e.kind = .stepEnd) fun d _ =>
    let c := (d.hearthCtx h).getD 0
    let d := d.bump Obj.ENTRIES_RETIRED h
    let d := d.meetSlots h ((d.hearth h).usedSlots.flatMap wordsOfSlot) sram
    (d.modHearth h fun x => { x.slotsEnd with counters := [] }).endPart h c

/-- STEP_END (R106). -/
def execStepEnd (h : Fin 1024) (sram : List (Nat × SramOutcome)) (s : State) : Host.Outcome State Fault Refusal :=
  s.onDev fun d => d.cmdStepEnd h.val sram

/-- ENTRY_RETIRE: a complete entry retires once every entry in its dependency mask has (R112). -/
def Dev.cmdRetire (d : Dev) (h id : Nat) : Dev :=
  match (d.hearth h).entryOf id with
  | some e => if e.st = .complete ∧ e.free then d.retire h id else d
  | none => d

/-- ENTRY_RETIRE (R112). -/
def execEntryRetire (h : Fin 1024) (id : Nat) (s : State) : Host.Outcome State Fault Refusal := s.onDev fun d => d.cmdRetire h.val id

/-! ### The bellows (R115) -/

/-- Where the bellows stand: never behind the fill stage. -/
def Hearth.bellowsAt (x : Hearth) : Walk := if x.bellows.walk.ordinal < x.walk.ordinal then x.walk else x.bellows.walk

/-- Branches the bellows have passed that the fill stage has not yet resolved. -/
def Hearth.openBranches (x : Hearth) : List (Nat × Bool × Bool) := x.bellows.branches.filter fun b => decide (x.walk.ordinal ≤ b.1)

/-- Cache-only mode: a branch passed on LIKELY is still unresolved (R115). -/
def Hearth.cacheOnly (x : Hearth) : Bool := x.openBranches.any fun b => b.2.2

/-- Whether the bellows may work on a hearth. -/
def Dev.mayBlow (d : Dev) (h : Nat) : Bool :=
  match (d.hearth h).run with
  | some r => r.released && !r.needExchange && !r.aborting && !r.stopped
  | none => false

/-- Whether the bellows may read the next entry: within 512 dynamic entries of the fill stage (R115). -/
def Dev.blows (d : Dev) (h : Nat) : Bool :=
  d.mayBlow h && decide ((d.hearth h).bellowsAt.ordinal < (d.hearth h).walk.ordinal + 512)

/-- A STREAM entry that the bellows fetch: RUNAHEAD_OK, a legal descriptor filling this scratchpad; in cache-only mode a cacheable
one (R116). -/
def Dev.fetches (d : Dev) (h : Nat) (raw : Nat) : Bool :=
  let b := StreamBody.ofWord raw
  let ds := d.descriptor h b.desc
  b.runahead && !ds.illegal && ds.dir = 0 && (!(d.hearth h).cacheOnly || d.usesCache h ds)

/-- Put the bellows at a position. -/
def Dev.moveBellows (d : Dev) (h : Nat) (w : Walk) : Dev :=
  d.modHearth h fun x => { x with bellows := { x.bellows with walk := w, branches := x.openBranches } }

/-- BELLOWS_WALK: the bellows pass the next dynamic entry, at most 512 beyond the fill stage. They stop at a STREAM entry they
fetch, which BELLOWS_FETCH passes. -/
def Dev.cmdWalk (d : Dev) (h : Nat) (sram : List (Nat × SramOutcome)) : Dev :=
  let d := if d.blows h then d.entrySram h (d.hearth h).bellowsAt.pos sram else d
  let x := d.hearth h
  let w := x.bellowsAt
  if !d.blows h || !d.readable h w then d
  else
    let raw := d.tableEntry h w.pos
    let hd := Header.ofWord raw
    match EKind.ofCode hd.kind with
    | some .loop =>
      if x.waitsCommitted hd w.i w.t then d.moveBellows h (w.loop (.ofWord raw) (x.passes (.ofWord raw))) else d
    | some .branch =>
      let b := BranchBody.ofWord raw
      let met := x.waitsCommitted hd w.i w.t
      let taken := if met then b.holds (x.branchVal w b) else b.likely
      let d := d.moveBellows h (w.advance (if taken then b.target else w.pos + 1))
      d.modHearth h fun x => { x with bellows := { x.bellows with branches := x.bellows.branches ++ [(w.ordinal, taken, !met)] } }
    | some .stream =>
      if d.fetches h raw then d else d.moveBellows h (w.advance (w.pos + 1))
    | _ => d.moveBellows h (w.advance (w.pos + 1))

/-- BELLOWS_WALK (R115). -/
def execBellowsWalk (h : Fin 1024) (sram : List (Nat × SramOutcome)) (s : State) : Host.Outcome State Fault Refusal :=
  s.onDev fun d => d.cmdWalk h.val sram

/-! ### Stalls and aborts -/

/-- Counters of an entry's wait conditions that are not met (R368). -/
def Hearth.unmet (x : Hearth) (e : WEntry) : List Nat :=
  (e.hdr.waits.filter fun w => !w.met e.i e.t (x.visible w.ctr)).map (·.ctr)

/-- The oldest waiting entry. -/
def Hearth.oldestWaiting (x : Hearth) : Option WEntry := x.window.find? fun e => e.st = .waiting

/-- DETAIL_HI of firing-stall (R368). -/
def stallBits (cs : List Nat) : Nat := cs.foldl (fun v c => setBit v (if c < 32 then c else 31) true) 0

/-- The stall of a hearth: the event is raised and the step aborts (R114). The count does not advance while a transfer of the hearth is
halted (R155). -/
def Dev.stall (d : Dev) (h : Nat) : Dev :=
  let x := d.hearth h
  match x.run with
  | none => d
  | some r =>
    if r.aborting || r.stallLimit = 0 || x.window.isEmpty || d.get Obj.HALTED_STREAMS h ≠ 0 then d
    else
      let (idx, hi) := match x.oldestWaiting with
        | some e => (e.idx, stallBits (x.unmet e))
        | none => (((x.window.map (·.idx)).headD 0), 0)
      (d.raise Event.firingStall .hearth h (some r.ctx) idx hi).abortStep r.ctx 1

/-- STEP_ABORT (R167). -/
def execStepAbort (c : Fin 16) (cause : Fin 4) (s : State) : Host.Outcome State Fault Refusal :=
  s.onDev fun d => d.abortStep c.val cause.val

/-! ### The draught watchdog (R168, R169) -/

/-- Flues whose FLUE_CFG is not at its reset value, in increasing number: every enabled flue is among them. -/
def Dev.setFlues (d : Dev) : List Nat :=
  (d.od.filter fun e => decide (0x40000 * 256 ≤ e.1) && decide (e.1 < 0x50000 * 256) && e.1 % 256 = 1).map fun e => e.1 / 256 - 0x40000

/-- Whether the flue is a candidate behind hearth `h`: enabled, draining to a counter in `cs` of `h` (R168). -/
def Dev.feedsBack (d : Dev) (h : Nat) (cs : List Nat) (g : Nat) : Bool :=
  let c := d.flueCfg g
  let p := d.get Obj.FLUE_PEER g
  c.enable && !c.proxy && bits p 63 44 = d.selfId && bits p 43 34 = h && c.drainEn && cs.contains c.drainCtr

/-- The first member of a list that `f` maps to something. -/
def firstSome {α β : Type} (f : α → Option β) : List α → Option β
  | [] => none
  | a :: l => match f a with
    | some b => some b
    | none => firstSome f l

/-- The search of R168 from a chain of full flues; a chain holds no flue twice, so its length bounds the depth. -/
def Dev.draughtFrom (d : Dev) : Nat → List Nat → Option (List Nat)
  | 0, _ => none
  | n + 1, chain =>
    let h := d.flueHome (chain.getLastD 0)
    match (d.hearth h).oldestWaiting with
    | none => none
    | some e =>
      firstSome (fun g =>
        if chain.contains g then some (chain.dropWhile (· ≠ g))
        else if d.flueFull g then Dev.draughtFrom d n (chain ++ [g]) else none)
        (d.setFlues.filter (d.feedsBack h ((d.hearth h).unmet e)))

/-- Record and report a cycle, and abort the steps of the slots that own its flues (R169). -/
def Dev.reportDraught (d : Dev) (cyc : List Nat) : Dev :=
  let d := (d.put Obj.DRAUGHT_LENGTH cyc.length).bump Obj.DRAUGHT_EVENTS
  let d := (List.range 8).foldl (fun d i => d.put Obj.DRAUGHT_FLUE (cyc.getD i 0) 0 i) d
  let d := d.raise Event.draught .global 0 none cyc.length (cyc.headD 0)
  ((cyc.map fun f => (d.flueCfg f).ctx).dedup).foldl (fun d c => d.abortStep c 2) d

/-- DRAUGHT_CHECK: a flue full for DRAUGHT_LIMIT ticks starts the search. -/
def Dev.cmdDraught (d : Dev) (f : Nat) : Dev :=
  if d.get Obj.DRAUGHT_LIMIT = 0 || !(d.flueCfg f).enable || (d.flueCfg f).proxy || !d.flueFull f then d
  else match d.draughtFrom (d.setFlues.length + 1) [f] with
    | some cyc => d.reportDraught cyc
    | none => d

/-- FIRING_STALL: nothing has fired, completed or retired for STALL_LIMIT ticks. The watchdog acts first on the flues whose DRAUGHT_LIMIT
ends in the same tick, and a step it aborts raises no firing stall (R114, R169). -/
def Dev.cmdStall (d : Dev) (h : Nat) (stuck : List Nat) : Dev := (stuck.foldl (fun d f => d.cmdDraught f) d).stall h

/-- FIRING_STALL (R114). -/
def execFiringStall (h : Fin 1024) (stuck : List (Fin 65536)) (s : State) : Host.Outcome State Fault Refusal :=
  s.onDev fun d => d.cmdStall h.val (stuck.map (·.val))

/-- DRAUGHT_CHECK (R168). -/
def execDraughtCheck (f : Fin 65536) (s : State) : Host.Outcome State Fault Refusal := s.onDev fun d => d.cmdDraught f.val

end Sys2Proof.Machine
end

