-- ==== Sys2Proof/Machine/Streams.lean ====
section
/-! DEFINITION. Commands of the stream engine, of FLUE entries, of entry completion and of the bellows' fetches (R112, R115 to R119,
R137 to R156, R160 to R165). -/

namespace Sys2Proof.Machine

/-! ### STREAM -/

/-- The far byte a STREAM entry starts at (R97, R140). -/
def StreamBody.far (b : StreamBody) (ds : Desc) (i t : Tab Nat) : Nat :=
  (ds.farBase + b.remOffset + 4096 * b.remStride * wrapVal (loopVal i t b.remSel) b.remWrap) % 2 ^ 64

/-- The 256 bits of descriptor `n`. -/
def Dev.descWord (d : Dev) (h n : Nat) : Nat := (d.hearth h).num (d.get Obj.DESC_TABLE_BASE h + 32 * n) 32

/-- A STREAM entry fires: its descriptor is copied into the lowest free place; what the bellows delivered is not fetched again and what
they have in flight for it is waited for (R117, R137, R138, R147). -/
def Dev.startStream (d : Dev) (h : Nat) (e : WEntry) (sram : List (Nat × SramOutcome)) : Dev :=
  let x := d.hearth h
  match x.freePlace with
  | none => d
  | some p =>
    let b := StreamBody.ofWord e.raw
    let d := d.fetchSram h (d.get Obj.DESC_TABLE_BASE h + 32 * b.desc) 32 sram
    let x := d.hearth h
    let ds := d.descriptor h b.desc
    let w := d.descWord h b.desc
    let line0 := b.loc.line e.i e.t
    let far := b.far ds e.i e.t
    let fl := x.bellows.inflight.find? fun a => decide (a.ordinal = e.ordinal) && !a.cacheOnly && a.desc = w && a.far = far && a.line0 = line0
    let mine := fun (a : Blown) => decide (a.ordinal = e.ordinal) && a.desc = w && a.far = far && a.line0 = line0
    let flying := match fl with
      | some a => a.lines
      | none => []
    let t : Transfer :=
      { id := e.id, ctx := (d.hearthCtx h).getD 0, desc := w, descIdx := b.desc, line0 := line0,
        far := far, next := 0, waiting := flying, tag := fl.map (·.tag),
        ahead := (x.bellows.delivered.filter mine).flatMap (·.lines) ++ flying.map (·.1), held := false, halted := none,
        nativeRest := false, faultPages := [], first := none, forced := false, flue := none, done := false, order := x.nextFire,
        started := false }
    let d := d.setHearth h { x with nextFire := x.nextFire + 1, bellows := { x.bellows with
      delivered := x.bellows.delivered.filter fun a => decide (a.ordinal ≠ e.ordinal),
      inflight := match fl with
        | some a => x.bellows.inflight.erase a
        | none => x.bellows.inflight } }
    let d := match fl with
      | some a => d.await a.tag (some (.xfer h p))
      | none => d
    let hold := d.heldAtFire h t
    (if hold then d else d.recordEpoch h t).setPlace h p (some { t with held := hold })

/-- STREAM (R140). -/
def execStream (h : Fin 1024) (sram : List (Nat × SramOutcome)) (s : State) : Host.Outcome State Fault Refusal :=
  s.onDev fun d => d.fireIf h.val (fun e => e.kind = .stream) fun d e => d.startStream h.val e sram

/-- STREAM_LINE: the transfer in a place moves its next line. Transfers start in firing order (R137); one held under R147 starts once the
earlier epoch has completed. -/
def Dev.cmdLine (d : Dev) (h p : Nat) (words : List SramOutcome) : Dev :=
  match (d.hearth h).place p with
  | none => d
  | some t =>
    if t.flue.isSome || t.halted.isSome then d
    else if t.held then
      if d.earlierEpoch h t then d.bump Obj.DRAIN_HOLD_CYCLES h
      else
        let t := { t with held := false, started := true }
        ((d.recordEpoch h t).setPlace h p (some t)).moveLine h p t words
    else if (d.hearth h).startWaits t then d
    else
      let t := { t with started := true }
      (d.setPlace h p (some t)).moveLine h p t words

/-- STREAM_LINE (R141). -/
def execStreamLine (h : Fin 1024) (place : Fin 32) (words : List SramOutcome) (crc : List (Nat × Nat)) (s : State) :
    Host.Outcome State Fault Refusal :=
  s.onDev fun d => d.withCrc crc fun d => d.cmdLine h.val place.val words

/-- A write to STREAM_RESUME: a halted transfer continues at its line, or handles the rest natively (R156). -/
def Dev.resumeStream (d : Dev) (h p : Nat) (abort : Bool) : Dev :=
  match (d.hearth h).place p with
  | none => d
  | some t =>
    if t.halted.isNone then d
    else
      let t := { t with halted := none, nativeRest := t.nativeRest || abort }
      ((d.putBit Obj.HALTED_STREAMS p false h).setPlace h p (some t)).moveLine h p t []

/-- STREAM_RESUME (R156). -/
def execStreamResume (h : Fin 1024) (place : Fin 32) (s : State) : Host.Outcome State Fault Refusal :=
  s.onDev fun d => d.gatedHearth h.val Obj.STREAM_RESUME 0 place.val fun d => (d.resumeStream h.val place.val false).answer 0

/-- STREAM_RESUME_ABORT (R156). -/
def execStreamResumeAbort (h : Fin 1024) (place : Fin 32) (s : State) : Host.Outcome State Fault Refusal :=
  s.onDev fun d => d.gatedHearth h.val Obj.STREAM_RESUME 0 (2 ^ 63 + place.val) fun d => (d.resumeStream h.val place.val true).answer 0

/-! ### FLUE entries (R160 to R165) -/

/-- The place a FLUE entry takes. -/
def Dev.flueTransfer (d : Dev) (h : Nat) (e : WEntry) (b : FlueBody) (f : Nat) (write : Bool) : Transfer :=
  { id := e.id, ctx := (d.hearthCtx h).getD 0, desc := 0, descIdx := 0, line0 := b.loc.line e.i e.t, far := 0, next := 0, waiting := [],
    tag := none, ahead := [], held := false, halted := none, nativeRest := false, faultPages := [], first := none, forced := false,
    flue := some ⟨f, write⟩, done := false, order := (d.hearth h).nextFire, started := true }

/-- The transfer of a FLUE entry has its number in the firing order. -/
def Dev.countFire (d : Dev) (h : Nat) : Dev := d.modHearth h fun x => { x with nextFire := x.nextFire + 1 }

/-- A write or read the router calls misused, for the slot of the issuing step (R165). -/
def FlueCfg.misused (c : FlueCfg) (ctx : Nat) : Bool := !c.enable || c.ctx ≠ ctx

/-- Lines of the scratchpad from line `l`, wrapping. -/
def Hearth.lines (x : Hearth) (l n : Nat) : List Line := (List.range n).map fun i => x.line (l + i)

/-- The FLUE_WRITE frames of a proxied write with stamp `stamp` (R275, R277). -/
def Dev.proxyFrames (d : Dev) (peer stamp tag ctx : Nat) (ls : List Line) : List Frame :=
  let n := ls.length
  (List.range ((n + 255) / 256)).map fun k =>
    let part := (ls.drop (256 * k)).take 256
    { Frame.plain 7 0 (bits peer 63 44) d.selfId (64 * 256 * k) (part.length - 1) tag with
      last := decide (n ≤ 256 * (k + 1)), srcCtx := Fin.ofNat 16 ctx,
      ext := bits peer 15 0 * 2 ^ 48 + (n - 1) % 2048 * 2 ^ 37 + stamp % 2 ^ 37,
      payload := part.flatMap fun l => fit 0 64 l.bytes, ash := part.map (·.ash) }

/-- A write through a proxy: stamped from the proxy's own PUT and sent to the flue's home (R160, R277). -/
def Dev.proxyWrite (d : Dev) (h p f : Nat) (t : Transfer) (ls : List Line) : Dev :=
  let peer := d.get Obj.FLUE_PEER f
  let stamp := (d.flue f).put
  let d := d.modFlue f fun x => { x with put := stamp + 1 }
  let (tag, d) := d.freshTag
  let frs := d.proxyFrames peer stamp tag t.ctx ls
  if bits peer 63 44 = d.selfId then
    (frs.foldl Dev.flueFrame (d.askFlue (bits peer 15 0) h []).1).setPlace h p (some { t with done := true })
  else
    let r := frs.foldl (fun (r : Dev × Bool) fr =>
      match r.1.trySend fr with
      | some d => (d.chargeFabric t.ctx fr.payload.length, r.2)
      | none => (r.1.countUnroutable fr.dstId, false)) (d, true)
    if r.2 then (r.1.await tag (some (.flue h p))).setPlace h p (some { t with tag := some tag })
    else r.1.setPlace h p (some { t with done := true })

/-- A local write request at the home router (R162): an accepted one copies the lines read now into the buffer its handle names. -/
def Dev.localFlueWrite (d : Dev) (h p f : Nat) (t : Transfer) (ls : List Line) : Dev :=
  if !d.hearthOpen (d.flueHome f) then d.setPlace h p (some { t with done := true })
  else match d.flueWrite f with
    | (d, .accepted i) =>
      let c : FCopy := ⟨i, true, false, h, p, d.flueBuf f i, ls, d.get Obj.FLUE_CFG f, d.get Obj.FLUE_PEER f⟩
      (d.modFlue f fun x => { x with copies := x.copies ++ [c] }).setPlace h p (some t)
    | (d, _) => d.setPlace h p (some { t with done := true })

/-- FLUE_ENTRY_WRITE: a FLUE entry with FOP write fires. -/
def Dev.startFlueWrite (d : Dev) (h : Nat) (e : WEntry) (sram : List (Nat × SramOutcome)) : Dev :=
  match (d.hearth h).freePlace with
  | none => d
  | some p =>
    let b := FlueBody.ofWord e.raw
    let f := b.number e.i e.t
    let c := d.flueCfg f
    let d := d.readSram h e sram
    let t := d.flueTransfer h e b f true
    let d := d.countFire h
    let ls := (d.hearth h).lines t.line0 c.lines
    let d := d.bump Obj.STREAM_BYTES_OUT h (64 * c.lines)
    if c.misused t.ctx then
      let d := d.flueEvent f Event.flueMisuse
      (if c.proxy then d else d.fillNotice f).setPlace h p (some { t with done := true })
    else if c.proxy then d.proxyWrite h p f t ls
    else d.localFlueWrite h p f t ls

/-- The FLUE entry with operation `fop` that the next scan picks. -/
def Dev.flueNext (d : Dev) (h fop : Nat) : Option WEntry :=
  if !d.mayFire h then none
  else (d.scanFrom h (d.hearth h).window false false).1.filter fun e => e.kind = EKind.flue && (FlueBody.ofWord e.raw).fop = fop

/-- A FLUE entry fires when the flue's router accepts it: not in a cycle that a rival wins, nor before the clock of the flue's region runs
(R162, R335, R374). -/
def Dev.fireFlue (d : Dev) (h fop : Nat) (rivals : List Nat) (fire : Dev → WEntry → Dev) : Dev :=
  let take := fun (d : Dev) (ok : Bool) => d.fireIf h (fun e => ok && e.kind = EKind.flue && (FlueBody.ofWord e.raw).fop = fop) fire
  match d.flueNext h fop with
  | none => take d true
  | some e =>
    let f := (FlueBody.ofWord e.raw).number e.i e.t
    if f / 4096 ≠ h / 64 && d.flueSleeps f then d.wakeRegion (f / 4096)
    else let (d, won) := d.askFlue f h rivals; take d won

/-- FLUE_ENTRY_WRITE (R162). -/
def execFlueEntryWrite (h : Fin 1024) (sram : List (Nat × SramOutcome)) (rivals : List (Fin 1046)) (s : State) :
    Host.Outcome State Fault Refusal :=
  s.onDev fun d => d.fireFlue h.val 1 (rivals.map Fin.val) fun d e => d.startFlueWrite h.val e sram

/-- Deliver lines into a FLUE read's LOCAL range (R65, R164). -/
def Dev.flueDeliver (d : Dev) (h line : Nat) (ls : List Line) : Dev :=
  ((ls.zipIdx).foldl (fun d v => d.ownLine h (line + v.2) v.1) d).bump Obj.STREAM_BYTES_IN h (64 * ls.length)

/-- FLUE_ENTRY_READ: a FLUE entry with FOP read fires; every line of the slot's buffer is read now (R149, R162). -/
def Dev.startFlueRead (d : Dev) (h : Nat) (e : WEntry) (sram : List (Nat × SramOutcome)) : Dev :=
  match (d.hearth h).freePlace with
  | none => d
  | some p =>
    let b := FlueBody.ofWord e.raw
    let f := b.number e.i e.t
    let c := d.flueCfg f
    let t := d.flueTransfer h e b f false
    let d := d.countFire h
    if c.misused t.ctx || c.proxy || h ≠ d.flueHome f then
      let d := (d.flueEvent f Event.flueMisuse).flueDeliver h t.line0 (List.replicate c.lines Line.zerosAsh)
      (if c.proxy then d else d.drainNotice f).setPlace h p (some { t with done := true })
    else
      let (d, i, filled, ash) := d.flueRead f
      let buf := d.flueBuf f i
      let d := d.meetSram h (sram.filter fun w => decide (8 * buf ≤ w.1) && decide (w.1 < 8 * (buf + c.lines)))
      let ls := ((d.hearth h).lines buf c.lines).map fun l => ({ l with ash := l.ash || ash } : Line)
      let cp : FCopy := ⟨i, false, !filled, h, p, t.line0, ls, d.get Obj.FLUE_CFG f, d.get Obj.FLUE_PEER f⟩
      (d.modFlue f fun x => { x with copies := x.copies ++ [cp] }).setPlace h p (some t)

/-- FLUE_ENTRY_READ (R162). -/
def execFlueEntryRead (h : Fin 1024) (sram : List (Nat × SramOutcome)) (rivals : List (Fin 1046)) (s : State) :
    Host.Outcome State Fault Refusal :=
  s.onDev fun d => d.fireFlue h.val 0 (rivals.map Fin.val) fun d e => d.startFlueRead h.val e sram

/-- The operation of a FLUE entry in a place has ended. -/
def Dev.flueDone (d : Dev) (h p f : Nat) (write : Bool) : Dev :=
  match (d.hearth h).place p with
  | some t => if t.flue = some ⟨f, write⟩ then d.setPlace h p (some { t with done := true }) else d
  | none => d

/-- The first copy of a slot in one direction, taken out of the flue. -/
def Dev.takeCopy (d : Dev) (f slot : Nat) (write : Bool) : Option (Dev × FCopy) :=
  ((d.flue f).copies.find? fun c => c.slot = slot && c.write = write).map fun c =>
    (d.modFlue f fun x => { x with copies := x.copies.erase c }, c)

/-- A line of a write copy lands in its home hearth, or is absorbed and counted there once a reset has drained (R413). -/
def Dev.copyLine (d : Dev) (h l : Nat) (v : Line) : Dev :=
  if d.hearthDrained h then (d.bump Obj.RESET_ABSORBED).modHearth h fun x => x.setLine l { x.line l with ash := true } else d.modHearth h fun x => x.setLine l v

/-- FLUE_WRITE_COPY_END: the last line lands in the slot's buffer, the slot is filled, and the fill notice is yielded (R162, R163). -/
def Dev.cmdWriteCopyEnd (d : Dev) (f slot : Nat) : Dev :=
  match d.takeCopy f slot true with
  | none => d
  | some (d, c) =>
    let cfg := FlueCfg.ofWord c.cfg
    let d := (c.data.zipIdx).foldl (fun d v => d.copyLine (cfg.home f) (c.line + v.2) v.1) d
    (d.flueFilled f slot c.stale cfg).flueDone c.hearth c.place f true

/-- FLUE_WRITE_COPY_END (R162). -/
def execFlueWriteCopyEnd (f : Fin 65536) (slot : Fin 256) (s : State) : Host.Outcome State Fault Refusal :=
  s.onDev fun d => d.cmdWriteCopyEnd f.val slot.val

/-- FLUE_READ_COPY_END: the last line reaches the reader, the slot is empty, and the drain notice is yielded (R162, R163). A reader
that a reset has taken away receives nothing. -/
def Dev.cmdReadCopyEnd (d : Dev) (f slot : Nat) : Dev :=
  match d.takeCopy f slot false with
  | none => d
  | some (d, c) =>
    let d := if c.place < 32 then d.flueDeliver c.hearth c.line c.data else d
    (d.flueDrained f slot c.stale (.ofWord c.cfg) c.peer).flueDone c.hearth c.place f false

/-- FLUE_READ_COPY_END (R162). -/
def execFlueReadCopyEnd (f : Fin 65536) (slot : Fin 256) (s : State) : Host.Outcome State Fault Refusal :=
  s.onDev fun d => d.cmdReadCopyEnd f.val slot.val

/-! ### ENTRY_COMPLETE (R111, R112) -/

/-- ENTRY_COMPLETE: a firing VECTOR, STREAM or FLUE entry completes once its last write or transfer has ended, and signals. -/
def Dev.cmdComplete (d : Dev) (h id : Nat) : Dev :=
  let x := d.hearth h
  match x.entryOf id with
  | none => d
  | some e =>
    if e.st ≠ .firing then d
    else match e.kind with
      | .vector => d.completeEntry h id true
      | .stream | .flue =>
        match (List.range 32).find? fun p => match x.place p with
            | some t => decide (t.id = id) && t.complete
            | none => false with
        | some p => match x.place p with
          | some t => d.endTransfer h p t
          | none => d
        | none => d
      | _ => d

/-- ENTRY_COMPLETE (R112). -/
def execEntryComplete (h : Fin 1024) (id : Nat) (s : State) : Host.Outcome State Fault Refusal := s.onDev fun d => d.cmdComplete h.val id

/-! ### BELLOWS_FETCH (R116 to R119) -/

/-- What a run-ahead fetch has done so far: pages dropped (with their offset bits), lines delivered, lines asked of another device, their tag. -/
structure Blow where
  pages : List (Nat × Nat)
  got : List Nat
  asked : List (Nat × Nat)
  tag : Option Nat
  deriving DecidableEq, Repr

/-- Drop a run-ahead fetch for a page (R119). -/
def Dev.dropPage (d : Dev) (h c va shift : Nat) (b : Blow) : Dev × Blow :=
  let d := (d.bump Obj.HEARTH_RUNAHEAD_DROPS h).bump Obj.CTX_RUNAHEAD_DROPS c
  (d.raiseOnce h Once.drop.num Event.runAheadDrop, { b with pages := b.pages ++ [(pageOf shift va, shift)] })

/-- The page of an address has been dropped. -/
def Blow.dropped (b : Blow) (va : Nat) : Bool := b.pages.any fun g => pageOf g.2 va = g.1

/-- A line that the bellows have: into the cluster cache when the source is cacheable, and into the scratchpad but in cache-only mode. -/
def Dev.blowLine (d : Dev) (h : Nat) (t : Transfer) (n dv a : Nat) (only : Bool) (v : Line) (b : Blow) : Dev × Blow :=
  let d := (d.cacheKeep h t dv a v).bump Obj.RUNAHEAD_BYTES h 64
  if only then (d, b) else (d.ownLine h (t.lineOf n) v, { b with got := b.got ++ [n] })

/-- Fetch one line ahead. A line that has to wait starts the clock it waits for and is left to the demand transfer. -/
def Dev.fetchAhead (d : Dev) (h : Nat) (t : Transfer) (only : Bool) (b : Blow) (n : Nat) : Dev × Blow :=
  let va := t.d.farAddr t.far n
  if b.dropped va then (d, b)
  else match d.farLine h t n with
    | (_, .wait) => (d, b)
    | (d, .ok dv a) =>
      match if d.usesCache h t.d then d.cacheFind (h / 8) t.ctx (cacheKey dv a t.d.chain) else none with
      | some v => if only then (d, b) else ((d.bump Obj.CACHE_BYTES t.ctx 64).ownLine h (t.lineOf n) v, { b with got := b.got ++ [n] })
      | none =>
        if dv = d.selfId then
          match d.localRead a t.d.chain (some t.ctx) [] h with
          | (d', .line v) =>
            let d' := match d'.area a with
              | .host _ => d'.chargeFabric t.ctx 64
              | _ => d'
            d'.blowLine h t n dv a only v b
          | (d', .wait) => (d', b)
          | (d', _) => d'.dropPage h t.ctx va (d'.shiftAt h t.ctx va) b
        else
          let (tag, d) := match b.tag with
            | some g => (g, d)
            | none => d.freshTag
          let f := { Frame.plain 4 0 dv d.selfId a 0 tag with last := decide (n + 1 = t.d.total), srcCtx := Fin.ofNat 16 t.ctx }
          match d.sendLine f (n % t.d.rowLines ≠ 0) with
          | some d => (d.await tag (some (.ahead h)), { b with asked := b.asked ++ [(n, a)], tag := some tag })
          | none => (d.countUnroutable dv).dropPage h t.ctx va (d.shiftAt h t.ctx va) b
    | (d, x) => d.dropPage h t.ctx va x.shift b

/-- The transfer that a STREAM entry the bellows have reached would make. -/
def Dev.aheadTransfer (d : Dev) (h : Nat) (b : StreamBody) (w : Walk) : Transfer :=
  { id := 0, ctx := (d.hearthCtx h).getD 0, desc := d.descWord h b.desc, descIdx := b.desc, line0 := b.loc.line w.i w.t,
    far := b.far (d.descriptor h b.desc) w.i w.t, next := 0, waiting := [], tag := none, ahead := [], held := false, halted := none,
    nativeRest := false, faultPages := [], first := none, forced := false, flue := none, done := false, order := 0, started := true }

/-- BELLOWS_FETCH: at a STREAM entry they fetch, with its wait conditions met by committed values, the bellows fetch the transfer and
move on. In cache-only mode they fill the cluster cache alone and do not wait. -/
def Dev.cmdFetch (d : Dev) (h : Nat) (sram : List (Nat × SramOutcome)) : Dev :=
  let d := if d.blows h then d.entrySram h (d.hearth h).bellowsAt.pos sram else d
  let x := d.hearth h
  let w := x.bellowsAt
  let raw := d.tableEntry h w.pos
  let only := x.cacheOnly
  if !d.blows h || !d.readable h w || EKind.ofCode (bits raw 255 252) ≠ some .stream ||
      !d.fetches h raw || !(only || x.waitsCommitted (.ofWord raw) w.i w.t) then d
  else
    let b := StreamBody.ofWord raw
    let d := d.fetchSram h (d.get Obj.DESC_TABLE_BASE h + 32 * b.desc) 32 sram
    let t := d.aheadTransfer h b w
    let (d, r) := (List.range t.d.total).foldl (fun (s : Dev × Blow) n => s.1.fetchAhead h t only s.2 n) (d, ⟨[], [], [], none⟩)
    let d := d.modHearth h fun x => { x with bellows := { x.bellows with
      delivered := if r.got.isEmpty then x.bellows.delivered else x.bellows.delivered ++ [⟨w.ordinal, t.desc, t.far, t.line0, r.got⟩],
      inflight := match r.tag with
        | some g => x.bellows.inflight ++ [⟨g, w.ordinal, t.ctx, t.desc, t.far, t.line0, r.asked, only⟩]
        | none => x.bellows.inflight } }
    d.moveBellows h (w.advance (w.pos + 1))

/-- BELLOWS_FETCH (R116). -/
def execBellowsFetch (h : Fin 1024) (sram : List (Nat × SramOutcome)) (crc : List (Nat × Nat)) (s : State) :
    Host.Outcome State Fault Refusal :=
  s.onDev fun d => d.withCrc crc fun d => d.cmdFetch h.val sram

end Sys2Proof.Machine
end

