-- ==== Sys2Proof/Machine/Flues.lean ====
section
/-! DEFINITION. Commands that reach a hearth or a flue from outside: remote writes, arrival notices, FLUE_CFG and FLUE_DOORBELL
(R129 to R136, R157 to R166). -/

namespace Sys2Proof.Machine

/-- REMOTE_WRITE: the cluster router accepts a remote write or refuses it whole (R134); one that finds the region's clock stopped waits
for it (R25, R374). -/
def Dev.cmdRemoteWrite (d : Dev) (h off : Nat) (bs : List Byte) (ash : Bool) : Dev :=
  if scrBytes < off + bs.length then d.answer Answer.invalid.code
  else if d.hearthOpen h && !d.clockOn (h / 64) then d.toEdge h (.write h off bs ash)
  else let (d, a) := d.remoteWrite h off bs ash; d.answer a.code

/-- REMOTE_WRITE (R134). -/
def execRemoteWrite (h : Fin 1024) (off : Nat) (data : List Byte) (ash : Bool) (s : State) : Host.Outcome State Fault Refusal :=
  s.onDev fun d => d.cmdRemoteWrite h.val off data ash

/-- ARRIVAL_NOTICE (R135). -/
def execArrivalNotice (h : Fin 1024) (line : Fin 32768) (s : State) : Host.Outcome State Fault Refusal :=
  s.onDev fun d => d.arrival h.val line.val

/-- Whether a step of slot `c` is running on the device. -/
def Dev.ctxRunning (d : Dev) (c : Nat) : Bool := (d.ctx c).run.isSome

/-- Whether a flue is busy for RWI writes (R171). -/
def Dev.flueBusy (d : Dev) (f : Nat) : Bool := (d.flueCfg f).enable && d.ctxRunning (d.flueCfg f).ctx

/-- The bits of FLUE_CFG that are not reserved: in a proxy only ENABLE, PROXY, CTX and SLOT_LINES_M1 (R158). -/
def flueCfgBits (v : Nat) : Nat :=
  if bit v 62 then bits v 63 58 * 2 ^ 58 + bits v 46 36 * 2 ^ 36 else bits v 63 7 * 2 ^ 7

/-- A write to FLUE_CFG resets the flue, and the new configuration applies to it (R158, R161). -/
def Dev.writeFlueCfg (d : Dev) (f v : Nat) : Dev × Nat :=
  if d.flueBusy f then (d, 3)
  else
    let c := (d.flueCfg f).ctx
    (((d.modFlue f Flue.reset).put Obj.FLUE_CFG (flueCfgBits v) f).abortReport c, 0)

/-- A write to an object of flue `f` waits for its region's clock (R365). -/
def Dev.inFlueRegion (d : Dev) (f : Nat) (o : ObjDef) (v : Nat) (g : Dev → Dev) : Dev := d.gated fun d => d.inRegion (f / 4096) o f 0 v g

/-- FLUE_CFG_WRITE (R158). -/
def execFlueCfgWrite (f : Fin 65536) (v : Nat) (s : State) : Host.Outcome State Fault Refusal :=
  s.onDev fun d => d.inFlueRegion f.val Obj.FLUE_CFG v fun d => let (d, r) := d.writeFlueCfg f.val v; d.answer r

/-- A write to FLUE_DOORBELL with an operation and a count. A doorbell that loses to a rival in its cycle changes nothing but the
pointer; it is given again (R162, log entry 8). -/
def Dev.cmdFlueBell (d : Dev) (f op countM1 : Nat) (t : Turn) : Dev :=
  let v := op * 2 ^ 60 + countM1 * 2 ^ 52
  d.inFlueRegion f Obj.FLUE_DOORBELL v fun d =>
    let (d, won) := d.askFlue f t.who.val (t.rivals.map Fin.val)
    if won then let (d, r) := d.flueDoorbell f v; d.answer r else d

/-- FLUE_FILL (R166). -/
def execFlueFill (f : Fin 65536) (countM1 : Fin 256) (turn : Turn) (s : State) : Host.Outcome State Fault Refusal :=
  s.onDev fun d => d.cmdFlueBell f.val 1 countM1.val turn

/-- FLUE_DRAIN (R166). -/
def execFlueDrain (f : Fin 65536) (countM1 : Fin 256) (turn : Turn) (s : State) : Host.Outcome State Fault Refusal :=
  s.onDev fun d => d.cmdFlueBell f.val 2 countM1.val turn

/-- FLUE_RESET (R161). -/
def execFlueReset (f : Fin 65536) (turn : Turn) (s : State) : Host.Outcome State Fault Refusal :=
  s.onDev fun d => d.cmdFlueBell f.val 3 0 turn

end Sys2Proof.Machine
end

