-- ==== Sys2Proof/Machine/Hob.lean ====
section
/-! DEFINITION. Commands of the hob engines: apertures, fold-add, windows, doorbells (R197 to R219). -/

namespace Sys2Proof.Machine

/-- APERTURE_WRITE: engine 1 takes a sector into its partial buffer; while the buffer is full, or its channel retrains, the sector waits
with its tag (R186, R206). -/
def Dev.cmdAperWrite (d : Dev) (st w line : Nat) (v : Line) (crc : Nat) (t : Turn) : Dev :=
  d.request st t ⟨d.srcSec st (.aper w line), some (w, line), true, none, v.bytes, [], v.ash, none, .demand, [], crc⟩

/-- APERTURE_WRITE (R206). -/
def execApertureWrite (st : Fin 32) (win : Fin 16) (line : Nat) (data : List Byte) (ash : Bool) (crcFails : Nat) (turn : Turn) (s : State) :
    Host.Outcome State Fault Refusal :=
  s.onDev fun d => d.cmdAperWrite st.val win.val (line % 2 ^ 26) ⟨data, ash⟩ crcFails turn

/-- CKPT_AGE_FLUSH: a partial block without a sector for CKPT_STALE ticks is compressed with its missing values ash (R206). -/
def Dev.cmdAgeFlush (d : Dev) (st w b : Nat) : Dev :=
  if d.get Obj.CKPT_STALE st = 0 ∨ (tget none (d.stack st).partials (partKey w b)).isNone then d
  else (d.flushBlock st w b).bump Obj.CKPT_AGE_FLUSHES st

/-- CKPT_AGE_FLUSH (R206). -/
def execCkptAgeFlush (st : Fin 32) (win : Fin 16) (block : Nat) (s : State) : Host.Outcome State Fault Refusal :=
  s.onDev fun d => d.cmdAgeFlush st.val win.val (block % 2 ^ 22)

/-- APERTURE_READ: engine 0 decodes a checkpoint block and runs the chain the request names (R207, R208). -/
def Dev.cmdAperRead (d : Dev) (st w line : Nat) (rq : HbmReq) (crc : Nat) (t : Turn) : Dev :=
  d.request st t ⟨d.srcSec st (.aper w line), some (w, line), false, none, [], [], false, rq.ctx.map Fin.val, rq.source,
    d.chainEntries st rq.chain.val, crc⟩

/-- APERTURE_READ (R207). -/
def execApertureRead (st : Fin 32) (win : Fin 16) (line : Nat) (rq : HbmReq) (crcFails : Nat) (turn : Turn) (s : State) :
    Host.Outcome State Fault Refusal :=
  s.onDev fun d => d.cmdAperRead st.val win.val (line % 2 ^ 26) rq crcFails turn

/-- FOLD_ADD: engine 1 adds a line into a sector; while the channel retrains the request waits with its tag (R213, R186). -/
def Dev.cmdFoldAdd (d : Dev) (st sec : Nat) (bf16 : Bool) (v : Line) (crc : Nat) (t : Turn) : Dev :=
  d.request st t ⟨sec, none, false, some bf16, v.bytes, [], v.ash, none, .demand, [], crc⟩

/-- FOLD_ADD (R213). -/
def execFoldAdd (st : Fin 32) (sec : Nat) (bf16 : Bool) (data : List Byte) (ash : Bool) (crcFails : Nat) (turn : Turn) (s : State) :
    Host.Outcome State Fault Refusal :=
  s.onDev fun d => d.cmdFoldAdd st.val (sec % 2 ^ 30) bf16 ⟨data, ash⟩ crcFails turn

/-- CKPT_WIN_WRITE: the window's partial blocks are flushed under the old setting and the new one applies (R204, R206). -/
def Dev.cmdCkptWin (d : Dev) (st w v : Nat) : Dev :=
  { (d.flushWindow st w).put Obj.CKPT_WIN (v / 8 * 8) st w with reply := ⟨0, 0, []⟩ }

/-- CKPT_WIN_WRITE (R204). -/
def execCkptWinWrite (st : Fin 32) (win : Fin 16) (v : Nat) (s : State) : Host.Outcome State Fault Refusal :=
  s.onDev fun d => d.gated fun d => d.cmdCkptWin st.val win.val v

/-- A write to HOB_DOORBELL whose OP field reads `op`, with the status it completes with (R215). -/
def Dev.cmdHobBell (d : Dev) (st op v : Nat) : Dev :=
  let (d, r) := d.hobBell st (setBits (v % 2 ^ 64) 63 60 op)
  { d with reply := ⟨r, 0, []⟩ }

/-- RUN_JOB (R214). -/
def execRunJob (st : Fin 32) (v : Nat) (s : State) : Host.Outcome State Fault Refusal := s.onDev fun d => d.gated fun d => d.cmdHobBell st.val 1 v

/-- ARM_BMAX (R212). -/
def execArmBmax (st : Fin 32) (v : Nat) (s : State) : Host.Outcome State Fault Refusal := s.onDev fun d => d.gated fun d => d.cmdHobBell st.val 2 v

/-- CLOSE_BMAX (R212). -/
def execCloseBmax (st : Fin 32) (v : Nat) (s : State) : Host.Outcome State Fault Refusal := s.onDev fun d => d.gated fun d => d.cmdHobBell st.val 3 v

/-- FLUSH_CKPT (R219). -/
def execFlushCkpt (st : Fin 32) (v : Nat) (s : State) : Host.Outcome State Fault Refusal := s.onDev fun d => d.gated fun d => d.cmdHobBell st.val 4 v

/-- HOB_DOORBELL_DONE: engine 1 finishes the doorbell at the front, sends its notice, and takes up the next (R214, R215). The
notice of ARM_BMAX is sent at the write-out instead. -/
def Dev.cmdHobDone (d : Dev) (st : Nat) : Dev :=
  match (d.stack st).doorbells with
  | [] => d
  | v :: rest =>
    let d := match bits v 63 60 with
      | 1 => match hobJobOf (v / 2 ^ 64) with
        | some j => d.runJob st j
        | none => d
      | _ => d
    let d := d.modStack st fun x => { x with doorbells := rest }
    let d := if bits v 63 60 = 2 then d else d.hobNotice v
    match rest with
    | [] => d
    | w :: _ => d.beginBell st w

/-- HOB_DOORBELL_DONE (R215). -/
def execHobDoorbellDone (st : Fin 32) (s : State) : Host.Outcome State Fault Refusal := s.onDev fun d => d.cmdHobDone st.val

/-- HOB_CLOCK_STOP: neither engine has had work for 500 ticks (R374). -/
def Dev.cmdHobClockStop (d : Dev) (st : Nat) : Dev :=
  let x := d.stack st
  if x.doorbells.isEmpty ∧ x.partials.isEmpty then d.setStack st { x with hobClock := false } else d

/-- HOB_CLOCK_STOP (R374). -/
def execHobClockStop (st : Fin 32) (s : State) : Host.Outcome State Fault Refusal := s.onDev fun d => d.cmdHobClockStop st.val

end Sys2Proof.Machine
end

