-- ==== Sys2Proof/Machine/Links.lean ====
section
/-! DEFINITION. Commands of the link ports: corrupted frames, rekeys and sessions (R279, R296 to R299, R426), training and lanes (R301 to
R305, R446, R447), routes and distances (R286, R287, R289, R300). -/

namespace Sys2Proof.Machine

/-! ### Sessions -/

/-- Sixteen tag failures within 50,000 ticks discard both keys, and the port authenticates again (R298). -/
def Dev.authFailed (d : Dev) (p : Nat) : Dev :=
  let ticks := ((d.port p).authTicks ++ [d.tick]).filter fun t => decide (d.tick < t + 50000)
  let d := (d.bump Obj.AUTH_FAILURES p).modPort p fun x => { x with authTicks := ticks }
  if ticks.length < 16 then d
  else ((d.modPort p fun x => { x with keySlots := [], authTicks := [], replayFrom := none }).setPortState p 3).beginExchange p false

/-- CORRUPTED_FRAME at a port that has trained: it and every later frame are discarded until the replay (R279). -/
def Dev.cmdCorrupted (d : Dev) (p : Nat) (auth : Bool) : Dev :=
  if d.get Obj.PORT_STATE p < 3 then d
  else
    let d := d.modPort p fun x => { x with replayFrom := some (x.replayFrom.getD x.seqRx) }
    if auth then d.authFailed p else d

/-- CORRUPTED_FRAME (R279). -/
def execCorruptedFrame (p : Fin 16) (authFail : Bool) (s : State) : Host.Outcome State Fault Refusal :=
  s.onDev fun d => d.cmdCorrupted p.val authFail

/-- KEY_SLOT_CHANGE: traffic moves to the other key slot, between two frames; LINK_SEQ restarts (R297, R427). -/
def Dev.cmdKeySlot (d : Dev) (p slot : Nat) : Dev :=
  let x := d.port p
  if (tget none x.keySlots slot).isNone || slot = x.keyTx then d
  else d.setPort p { x with keyTx := slot, seqTx := 0 }

/-- KEY_SLOT_CHANGE (R297). -/
def execKeySlotChange (p : Fin 16) (slot : Fin 2) (s : State) : Host.Outcome State Fault Refusal :=
  s.onDev fun d => d.cmdKeySlot p.val slot.val

/-- REKEY: REKEY_INTERVAL seconds or 2^40 frames are over, and a new exchange begins over the running session (R297). -/
def Dev.cmdRekey (d : Dev) (p : Nat) : Dev := if d.portUp p && !(d.port p).rekeying then d.beginExchange p true else d

/-- REKEY (R297). -/
def execRekey (p : Fin 16) (s : State) : Host.Outcome State Fault Refusal := s.onDev fun d => d.cmdRekey p.val

/-- A SEC message of `lines` payload lines arrives at a port that has trained, in LINK_SEQ order: it is counted (R313; log entry 52). -/
def Dev.secIn (d : Dev) (p lines : Nat) : Dev :=
  if d.get Obj.PORT_STATE p < 3 then d
  else
    let d := (d.bump Obj.FRAMES_RX p).bump Obj.PAYLOAD_BYTES_RX p (64 * lines)
    let d := { d with attrib := tmod 0 d.attrib (uncharged p) (· + 64 * lines) }
    d.modPort p fun x => { x with seqRx := x.seqRx + 1, replayFrom := none }

/-- SEC_OFFER: the neighbour's OFFER; over a running session it begins a rekey here too. It is answered with this end's KEY (R426, R427). -/
def Dev.cmdOffer (d : Dev) (p : Nat) (o : Offer) (chain cert : Bool) (lines : Nat) : Dev :=
  let d := d.secIn p lines
  let d := if d.portUp p && !(d.port p).rekeying then d.beginExchange p true else d
  if !d.exchanging p then d
  else if !chain || !cert then d.reject p
  else (d.modPort p fun x => { x with offer := some o, ephemeral := none }).sendSec p (d.keyMessage p o)

/-- SEC_OFFER (R426). -/
def execSecOffer (p : Fin 16) (random devId : Nat) (serial : List Byte) (chainOk linkCertOk : Bool) (lines : Nat) (s : State) :
    Host.Outcome State Fault Refusal :=
  s.onDev fun d => d.cmdOffer p.val ⟨random, devId, serial⟩ chainOk linkCertOk lines

/-- SEC_KEY: the neighbour's KEY; its signature is checked, then the roles (R285, R426). It is answered with this end's FINISH. -/
def Dev.cmdKey (d : Dev) (p eph : Nat) (sigOk : Bool) (lines : Nat) : Dev :=
  let d := d.secIn p lines
  if !d.exchanging p then d
  else match (d.port p).offer with
    | none => d
    | some o =>
      if !sigOk || d.breaksRole p o.devId then d.reject p
      else (d.modPort p fun x => { x with ephemeral := some eph }).sendSec p (d.finishMessage p o eph)

/-- SEC_KEY (R426). -/
def execSecKey (p : Fin 16) (ephemeral : Nat) (sigOk : Bool) (lines : Nat) (s : State) : Host.Outcome State Fault Refusal :=
  s.onDev fun d => d.cmdKey p.val ephemeral sigOk lines

/-- SEC_FINISH: the last check; the session's keys are derived (R426, R427). -/
def Dev.cmdFinish (d : Dev) (p : Nat) (macOk : Bool) (lines : Nat) : Dev :=
  let d := d.secIn p lines
  if !d.exchanging p then d
  else match (d.port p).offer, (d.port p).ephemeral with
    | some o, some e => if macOk then d.finishExchange p o e else d.reject p
    | _, _ => d

/-- SEC_FINISH (R426). -/
def execSecFinish (p : Fin 16) (macOk : Bool) (lines : Nat) (s : State) : Host.Outcome State Fault Refusal :=
  s.onDev fun d => d.cmdFinish p.val macOk lines

/-! ### Training and lanes -/

/-- Record the fibre halves: 1 normal, 2 exchanged (R446). -/
def Dev.setHalves (d : Dev) (p v : Nat) : Dev := d.put Obj.FIBRE_STATE (setBits (d.get Obj.FIBRE_STATE 0 p) 1 0 v) 0 p

/-- Clear the dark bits of positions whose lanes have trained (R304, R447). -/
def clearDark (v : Nat) (lit : Bool × Nat → Bool) : Nat :=
  (List.range 16).foldl (fun v i => if lit (laneAt (bits v 1 0 = 2) (i + 1)) then setBit v (16 + i) false else v) v

/-- Training of a port has ended with these good lanes: down, back to UP with its session, or authenticating. -/
def Dev.portTrained (d : Dev) (p tx rx : Nat) : Dev :=
  let d := d.modPort p fun x => { x with txGood := tx % 256, rxGood := rx % 256, changing := false, marked := untrained tx rx }
  let x := d.port p
  if x.txWidth = 0 || x.rxWidth = 0 then d.setPortState p 1
  else if x.keySlots.isEmpty then (d.setPortState p 3).beginExchange p false
  else (d.setPortState p 4).replay p

/-- PORT_TRAINED: the lanes have trained, the halves exchanged where light fell on the transmit half alone; equal random values are
drawn again (R446). -/
def Dev.cmdPortTrained (d : Dev) (p tx rx own other : Nat) (swap : Bool) : Dev :=
  let st := d.get Obj.PORT_STATE p
  if d.get Obj.PORT_CTL p = 0 || !(st = 1 || st = 2) then d
  else if swap && own = other then d
  else
    let exchange := swap && decide (own < other)
    let d := d.setHalves p (if exchange then 2 else 1)
    let d := d.put Obj.FIBRE_STATE (clearDark (d.get Obj.FIBRE_STATE 0 p) fun l => bit (if l.1 then rx else tx) l.2) 0 p
    let d := if exchange then d.raise Event.fibresSwapped .port p else d
    d.portTrained p tx rx

/-- PORT_TRAINED (R446). -/
def execPortTrained (p : Fin 16) (tx rx own other : Nat) (lightOnTx : Bool) (s : State) : Host.Outcome State Fault Refusal :=
  s.onDev fun d => d.cmdPortTrained p.val tx rx own other lightOnTx

/-- FIBRE_DARK: no light at a position; its lane is down and the fibre is reported open (R447), without detail (R368). -/
def Dev.cmdFibreDark (d : Dev) (p pos : Nat) : Dev :=
  if pos = 0 || decide (16 < pos) then d
  else
    let v := d.get Obj.FIBRE_STATE 0 p
    let l := laneAt (bits v 1 0 = 2) pos
    ((d.put Obj.FIBRE_STATE (setBit v (15 + pos) true) 0 p).raise Event.fibreOpen .port p).changeLanes p fun x => x.setLane l.1 l.2 false

/-- FIBRE_DARK (R447). -/
def execFibreDark (p : Fin 16) (position : Nat) (s : State) : Host.Outcome State Fault Refusal := s.onDev fun d => d.cmdFibreDark p.val position

/-- LANE_DOWN (R301 to R303). -/
def execLaneDown (p : Fin 16) (rx : Bool) (lane : Fin 8) (s : State) : Host.Outcome State Fault Refusal :=
  s.onDev fun d => d.changeLanes p.val fun x => x.setLane rx lane.val false

/-- WIDTH_CHANGE_DONE: frames go on, from the first unconfirmed one (R302). -/
def Dev.cmdWidthDone (d : Dev) (p : Nat) : Dev :=
  if (d.port p).changing then (d.modPort p fun x => { x with changing := false }).replay p else d

/-- WIDTH_CHANGE_DONE (R302). -/
def execWidthChangeDone (p : Fin 16) (s : State) : Host.Outcome State Fault Refusal := s.onDev fun d => d.cmdWidthDone p.val

/-- PORT_DOWN_HOLD_EXPIRY: a port that has not returned to UP discards what it holds, and with it the session those frames were
numbered under (R303, log entry 21). -/
def Dev.cmdHoldExpiry (d : Dev) (p : Nat) : Dev :=
  if d.portUp p then d
  else (d.discardHeld p).modPort p fun x => { x with keySlots := [] }

/-- PORT_DOWN_HOLD_EXPIRY (R303). -/
def execPortDownHoldExpiry (p : Fin 16) (s : State) : Host.Outcome State Fault Refusal := s.onDev fun d => d.cmdHoldExpiry p.val

/-- LANE_RETRY: lanes that train again are good, and their fibres no longer dark (R304). -/
def Dev.cmdLaneRetry (d : Dev) (p : Nat) (lanes : List (Bool × Nat)) : Dev :=
  if !d.portUp p then d
  else
    (d.put Obj.FIBRE_STATE (clearDark (d.get Obj.FIBRE_STATE 0 p) lanes.contains) 0 p).changeLanes p fun x => lanes.foldl (fun x l => if l.2 < 8 then x.setLane l.1 l.2 true else x) x

/-- LANE_RETRY (R304). -/
def execLaneRetry (p : Fin 16) (trained : List (Bool × Nat)) (s : State) : Host.Outcome State Fault Refusal :=
  s.onDev fun d => d.cmdLaneRetry p.val trained

/-- LANE_IDLE: an UP port that has had nothing to send or receive for LANE_IDLE ticks goes idle (R305). -/
def Dev.cmdLaneIdle (d : Dev) (p : Nat) : Dev :=
  if d.get Obj.PORT_STATE p = 4 && d.get Obj.LANE_IDLE p ≠ 0 && (d.port p).retry.isEmpty && !(d.net.queue.any fun q => q.1 = p) then
    d.setPortState p 5
  else d

/-- LANE_IDLE (R305). -/
def execLaneIdle (p : Fin 16) (s : State) : Host.Outcome State Fault Refusal := s.onDev fun d => d.cmdLaneIdle p.val

/-- LANE_WAKE (R305). -/
def Dev.cmdLaneWake (d : Dev) (p : Nat) : Dev := if d.get Obj.PORT_STATE p = 5 then d.setPortState p 4 else d

/-- LANE_WAKE (R305). -/
def execLaneWake (p : Fin 16) (s : State) : Host.Outcome State Fault Refusal := s.onDev fun d => d.cmdLaneWake p.val

/-- Enable a port: a disabled one trains (R299, R313). -/
def Dev.enablePort (d : Dev) (p : Nat) : Dev :=
  let d := d.put Obj.PORT_CTL 1 p
  if d.get Obj.PORT_STATE p = 0 then d.setPortState p 2 else d

/-- PORT_ENABLE (R299). -/
def execPortEnable (p : Fin 16) (s : State) : Host.Outcome State Fault Refusal := s.onDev fun d => d.gated fun d => ((d.enablePort p.val).touchP).answer 0

/-- Disable a port: lanes unpowered, held frames answered under R288; its session and the exchange of its halves are gone (R313, R446). -/
def Dev.disablePort (d : Dev) (p : Nat) : Dev :=
  let d := ((d.put Obj.PORT_CTL 0 p).setPortState p 0).discardHeld p
  let x := d.port p
  let d := d.setPort p { Port.fresh with present := x.present, throttled := x.throttled, rx := x.rx }
  ((d.put Obj.NEIGHBOUR_ID 0 p).put Obj.FIBRE_STATE 0 0 p).showLanes p

/-- PORT_DISABLE (R313). -/
def execPortDisable (p : Fin 16) (s : State) : Host.Outcome State Fault Refusal := s.onDev fun d => d.gated fun d => ((d.disablePort p.val).touchP).answer 0

/-- LANE_DEFECT_RECORD: a lane that has stayed down for 60 s is recorded, SOURCE 5 (R404, R405). -/
def execLaneDefectRecord (p : Fin 16) (rx : Bool) (lane : Fin 8) (s : State) : Host.Outcome State Fault Refusal :=
  s.onDev fun d =>
    let x := d.port p.val
    if bit (if rx then x.rxGood else x.txGood) lane.val || !x.marked.contains (rx, lane.val) then d
    else d.appendDefect s.vault 4 5 (p.val * 16 + (if rx then 8 else 0) + lane.val) 0

/-! ### Routes and distances -/

/-- A write to ROUTE_IN_GROUP, with its status: a byte other than 0xFF names an in-group port (R286); a changed member's new route
waits for the frames queued under the old one (R289). -/
def Dev.writeRouteIn (d : Dev) (off : Nat) (bs : List Byte) : Dev × Nat :=
  if 512 < off + bs.length then (d, 6)
  else if bs.any fun b => b ≠ 0xFF && (decide (16 ≤ b.toNat) || d.get Obj.PORT_ROLE b.toNat = 1) then (d, 4)
  else
    let d := (bs.zipIdx).foldl (fun (d : Dev) (x : Byte × Nat) =>
      let m := off + x.2
      if d.domByte Obj.ROUTE_IN_GROUP m = x.1 then d
      else (d.domWrite Obj.ROUTE_IN_GROUP m [x.1]).modNet fun n => { n with newRoutes := tset none n.newRoutes m (some x.1.toNat) }) d
    (d.settleRoutes.distances, 0)

/-- ROUTE_IN_GROUP_WRITE (R289). -/
def execRouteInGroupWrite (off : Nat) (data : List Byte) (s : State) : Host.Outcome State Fault Refusal :=
  s.onDev fun d => d.gatedPilot fun d => let (d, st) := d.writeRouteIn off data; (if st = 0 then d.touchP else d).answer st

/-- A write to ROUTE_CROSS_GROUP, in force at once (R287, R289). -/
def Dev.writeRouteCross (d : Dev) (off : Nat) (bs : List Byte) : Dev × Nat :=
  if 4096 < off + bs.length then (d, 6) else ((d.domWrite Obj.ROUTE_CROSS_GROUP off bs).distances, 0)

/-- ROUTE_CROSS_GROUP_WRITE (R289). -/
def execRouteCrossGroupWrite (off : Nat) (data : List Byte) (s : State) : Host.Outcome State Fault Refusal :=
  s.onDev fun d => d.gatedPilot fun d => let (d, st) := d.writeRouteCross off data; (if st = 0 then d.touchP else d).answer st

/-- DISTANCE_PROBE_TIMEOUT: a member that has not answered its probe within 50,000 ticks (R300). -/
def Dev.cmdProbeTimeout (d : Dev) (m : Nat) : Dev :=
  match d.net.awaits.find? fun e => e.2 = some (.probe m) with
  | some e => (d.await e.1 none).noDistance m
  | none => d

/-- DISTANCE_PROBE_TIMEOUT (R300). -/
def execDistanceProbeTimeout (m : Fin 512) (s : State) : Host.Outcome State Fault Refusal := s.onDev fun d => d.cmdProbeTimeout m.val

end Sys2Proof.Machine
end

