-- ==== Sys2Proof/Machine/Power.lean ====
section
/-! DEFINITION. Clocks on demand, moves, phases, the power controller, DAMPER_N and temperature (R374 to R391). -/

namespace Sys2Proof.Machine

/-! ### Region clocks (R374, R375, R377) -/

/-- A region is idle (R375): no hearth FIRING, no request at its stacks or at its boundary, no transfer or flue copy in its routers. -/
def Dev.regionIdle (d : Dev) (g : Nat) : Bool :=
  ((hearthsOfRegion g).all fun h => d.hState h ≠ hFiring) &&
  ([2 * g, 2 * g + 1].all fun st => (d.stack st).waiting.isEmpty && (d.stack st).boundary.isEmpty) &&
  ((d.hearths.filter fun e => e.1 / 64 = g).all fun e => e.2.places.isEmpty) &&
  ((d.flues.filter fun e => e.1 / 4096 = g).all fun e => e.2.copies.isEmpty && e.2.arrivals.isEmpty) && (tget [] d.edge g).isEmpty

/-- REGION_CLOCK_STOP: the region has been idle for REGION_IDLE ticks. -/
def Dev.cmdClockStop (d : Dev) (g : Nat) : Dev :=
  if d.get Obj.REGION_IDLE ≠ 0 ∧ d.get Obj.CLOCK_STATE g = 2 ∧ d.inService g ∧ d.regionIdle g then d.put Obj.CLOCK_STATE 0 g else d

/-- REGION_CLOCK_STOP (R375). -/
def execRegionClockStop (g : Fin 16) (s : State) : Host.Outcome State Fault Refusal := s.onDev fun d => d.cmdClockStop g.val

/-- REGION_CLOCK_START: the PLL locks and the region runs at its target point. -/
def Dev.cmdClockStart (d : Dev) (g : Nat) : Dev :=
  if d.get Obj.CLOCK_STATE g ≤ 1 ∧ d.inService g ∧ !d.power.tripped then (d.clockRunning g).regionRuns g else d

/-- REGION_CLOCK_START (R374, R375). -/
def execRegionClockStart (g : Fin 16) (s : State) : Host.Outcome State Fault Refusal := s.onDev fun d => d.cmdClockStart g.val

/-- OP_MOVE_DONE: the region runs at the point it moved to, and moves on if its target stands elsewhere now. -/
def Dev.cmdMoveDone (d : Dev) (g : Nat) : Dev :=
  if d.get Obj.CLOCK_STATE g = 3 then ((d.put Obj.REGION_OP (tget 0 d.power.dest g) g).put Obj.CLOCK_STATE 2 g).regionRuns g else d

/-- OP_MOVE_DONE (R377). -/
def execOpMoveDone (g : Fin 16) (s : State) : Host.Outcome State Fault Refusal := s.onDev fun d => d.cmdMoveDone g.val

/-- PHASE_DOORBELL (R379), which the management core serves (R372). -/
def execPhaseDoorbell (v : Nat) (s : State) : Host.Outcome State Fault Refusal :=
  s.onDev fun d => d.gatedPilot fun d => Dev.withStatus (d.phaseBell v)

/-! ### DAMPER_N (R385, R386) -/

/-- DAMPER_N_FALL (R385): the pin, or the internal net, falls. -/
def execDamperNFall (internal : Bool) (s : State) : Host.Outcome State Fault Refusal :=
  s.onDev fun d => d.setDamper (d.power.pin && internal) (d.power.net && !internal)

/-- DAMPER_N_RISE (R386): the pin, or the internal net, rises. -/
def execDamperNRise (internal : Bool) (s : State) : Host.Outcome State Fault Refusal :=
  s.onDev fun d => d.setDamper (d.power.pin || !internal) (d.power.net || internal)

/-- DAMPER_RELEASE: DAMPER_HOLD has run out since the rise; the release is staggered (R387). -/
def Dev.cmdDamperRelease (d : Dev) : Dev :=
  if d.power.rise.isSome ∧ !d.damperLow then ((d.modPower fun p => { p with rise := none }).stagger).retargetAll else d

/-- DAMPER_RELEASE (R386). -/
def execDamperRelease (s : State) : Host.Outcome State Fault Refusal := s.onDev fun d => d.cmdDamperRelease

/-! ### Loss of power (R390, R452) -/

/-- The compute dies, stacks, Stokers and optical engines lose power, and with it their contents. -/
def Dev.powerLoss (d : Dev) : Dev :=
  let d := { d with hearths := [], clusters := [], flues := [], hbm := [], slow := [], stks := [], stokers := [], ports := [],
                    net := ⟨[], [], d.net.nextTag, [], d.net.routePtr, d.net.unroutableTick⟩, resets := [] }
  let d := (List.range 16).foldl (fun d g => (d.put Obj.REGION_STATE 0 g).put Obj.CLOCK_STATE 0 g) d
  let d := (List.range 1024).foldl (fun d h => (d.put Obj.HEARTH_STATE hAbsent h).put Obj.RUNNING_CTX 0xFF h) d
  let d := (List.range 32).foldl (fun d st => d.put Obj.STACK_STATE 0 st) d
  let d := (List.range 2).foldl (fun d t => d.put Obj.STOKER_STATE 0 t) d
  (List.range 16).foldl (fun d p => if d.get Obj.PORT_STATE p = 0 then d else (d.put Obj.PORT_STATE 1 p).showLanes p) d

/-! ### Temperature (R389, R390) -/

/-- Every sensor. -/
def allSensors : List Sensor :=
  (List.range 16).map (fun g => .region (Fin.ofNat 16 g)) ++ (List.range 32).map (fun g => .stack (Fin.ofNat 32 g)) ++
  (List.range 2).map (fun g => .stoker (Fin.ofNat 2 g)) ++ (List.range 16).map (fun g => .port (Fin.ofNat 16 g))

/-- Throttle, critical and trip thresholds in tenths of a degree (R389). -/
def thresholds : Sensor → Int × Int × Int
  | .region _ => (1000, 1100, 1200)
  | .stack _ => (900, 1000, 1100)
  | .stoker _ => (1000, 1100, 1200)
  | .port _ => (750, 850, 950)

/-- What a sensor last read. -/
def Dev.temp (d : Dev) : Sensor → Int
  | .region g => toSigned 32 (d.get Obj.REGION_TEMP (g.val / 4) (g.val % 4))
  | .stack st => toSigned 32 (d.get Obj.STACK_TEMP 0 st.val)
  | .stoker t => toSigned 32 (d.get Obj.STOKER_TEMP 0 t.val)
  | .port p => toSigned 32 (d.get Obj.PORT_TEMP 0 p.val)

/-- Keep a reading. -/
def Dev.putTemp (d : Dev) (s : Sensor) (t : Int) : Dev :=
  match s with
  | .region g => d.put Obj.REGION_TEMP (ofSigned 32 t) (g.val / 4) (g.val % 4)
  | .stack st => d.put Obj.STACK_TEMP (ofSigned 32 t) 0 st.val
  | .stoker x => d.put Obj.STOKER_TEMP (ofSigned 32 t) 0 x.val
  | .port p => d.put Obj.PORT_TEMP (ofSigned 32 t) 0 p.val

/-- A stack's channels whose temperature has moved by 10 °C since they last trained ask for a retraining (R186). -/
def Dev.tempRetrain (d : Dev) (st : Nat) : Dev :=
  let t := toSigned 32 (d.get Obj.STACK_TEMP 0 st)
  (List.range 32).foldl (fun d ch =>
    let x := d.stack st
    if 100 ≤ (t - tget 0 x.trainTemp ch).natAbs ∧ x.retraining ≠ some ch then d.askRetrain st ch else d) d

/-- A sensor exceeds its throttle threshold. -/
def Dev.hot (d : Dev) (s : Sensor) : Bool := decide ((thresholds s).1 < d.temp s)
/-- A sensor is at least 3 °C below its throttle threshold. -/
def Dev.cool (d : Dev) (s : Sensor) : Bool := decide (d.temp s + 30 ≤ (thresholds s).1)

/-- The sensors that act on a region's THERMAL_CEILING. -/
def regionSensors (g : Nat) : List Sensor := [.region (Fin.ofNat 16 g), .stack (Fin.ofNat 32 (2 * g)), .stack (Fin.ofNat 32 (2 * g + 1))]

/-- The throttle of a region's ceiling in one period. -/
def Dev.throttleRegion (d : Dev) (g : Nat) : Dev :=
  let ss := regionSensors g
  let c := d.get Obj.THERMAL_CEILING g
  if ss.any d.hot then (d.put Obj.THERMAL_CEILING (c - 1) g).modPower fun p => { p with cool := tset 0 p.cool g 0 }
  else if ss.all d.cool then
    let n := tget 0 d.power.cool g + 1
    let d := d.modPower fun p => { p with cool := tset 0 p.cool g (min n 5) }
    if 5 ≤ n ∧ c < 15 then d.put Obj.THERMAL_CEILING (c + 1) g else d
  else d.modPower fun p => { p with cool := tset 0 p.cool g 0 }

/-- The throttle of a Stoker, ended at the 3 °C margin. -/
def Dev.throttleStoker (d : Dev) (t : Nat) : Dev :=
  let s := Sensor.stoker (Fin.ofNat 2 t)
  let rest := d.power.hotStokers.filter fun x => x ≠ t
  if d.hot s then d.modPower fun p => { p with hotStokers := t :: rest }
  else if d.cool s then d.modPower fun p => { p with hotStokers := rest }
  else d

/-- The throttle of a port's transmitter, ended at the 3 °C margin. -/
def Dev.throttlePort (d : Dev) (p : Nat) : Dev :=
  let s := Sensor.port (Fin.ofNat 16 p)
  let want := d.hot s || ((d.port p).throttled && !d.cool s)
  if (d.port p).throttled = want then d else d.changeLanes p fun x => { x with throttled := want }

/-- The thermal-throttle event: at the first throttle of a sensor in 50,000 ticks. -/
def Dev.throttleEvent (d : Dev) : Dev :=
  let now := allSensors.filter d.hot
  let due := (now.any fun s => !d.power.hot.contains s) && (match d.power.throttleTick with
    | none => true
    | some t => decide (t + 50000 ≤ d.tick))
  let d := d.modPower fun p => { p with hot := now }
  if due then (d.modPower fun p => { p with throttleTick := some d.tick }).raise Event.thermalThrottle .global 0 else d

/-- A critical temperature begins or ends, and with it THERM_ALERT_N, which a trip keeps asserted; the release is staggered (R387, R390). -/
def Dev.criticalCheck (d : Dev) : Dev :=
  if allSensors.any fun s => decide ((thresholds s).2.1 < d.temp s) then
    if d.power.critical then d
    else
      let d := (d.modPower fun p => { p with critical := true, thermAlert := true }).put Obj.FIRING_DUTY 1
      (((d.ceilingsZero.clampAll).stokerRate)).raise Event.thermalCritical .global 0
  else if d.power.critical ∧ allSensors.all fun s => decide (d.temp s + 50 ≤ (thresholds s).2.1) then
    ((d.modPower fun p => { p with critical := false, thermAlert := p.tripped }).stokerRate).stagger
  else d

/-- A trip: power is removed, and only a whole-device reset restores service. -/
def Dev.tripCheck (d : Dev) : Dev :=
  if !d.power.tripped && allSensors.any fun s => decide ((thresholds s).2.2 < d.temp s) then
    ((d.powerLoss.modPower fun p => { p with tripped := true, thermAlert := true, thermTrip := true }).putBit Obj.POWER_STATUS 6 true).raise Event.thermalTrip .global 0
  else d

/-- Everything temperature does in a control period. -/
def Dev.thermal (d : Dev) (temps : List (Sensor × Int)) : Dev :=
  let d := temps.foldl (fun d x => d.putTemp x.1 x.2) d
  let d := (List.range 32).foldl Dev.tempRetrain d
  let d := (List.range 16).foldl Dev.throttleRegion d
  let d := (List.range 2).foldl Dev.throttleStoker d
  let d := if d.power.tripped then d else (List.range 16).foldl Dev.throttlePort d
  ((d.stokerRate).throttleEvent.criticalCheck).tripCheck

/-! ### Readings (R391, R392) -/

/-- Mean of one column of the last periods. -/
def meanOf (rows : List (List Nat)) (k : Nat) : Nat := (rows.map fun r => r.getD k 0).foldl (· + ·) 0 / rows.length

/-- To the nearest 10 W. -/
def near10W (mw : Nat) : Nat := (mw + 5000) / 10000 * 10000

/-- Keep a period's powers and show the readings; in confidential mode they change once in 1,000 periods (R391). -/
def Dev.readings (d : Dev) (m s : Nat) (dies : List Nat) : Dev :=
  let p := d.power
  let past := ((m :: s :: fit 0 4 dies) :: p.past).take 100
  let sums := [p.ivalSum.getD 0 0 + m, p.ivalSum.getD 1 0 + s]
  let n := p.ivalPeriods + 1
  let em := p.energyMod + m
  let es := p.energySil + s
  let d := d.modPower fun p =>
    { p with past := past, ivalSum := if n = 1000 then [] else sums, ivalPeriods := n % 1000, energyMod := em % 100000,
             energySil := es % 100000 }
  let d := (d.bump Obj.MODULE_ENERGY_MJ 0 (em / 100000)).bump Obj.SILICON_ENERGY_MJ 0 (es / 100000)
  let d := (List.range 4).foldl (fun d i => d.put Obj.DIE_POWER_MW (meanOf past (2 + i)) i) d
  if d.get Obj.CONFIDENTIAL_ACTIVE = 1 then
    if n = 1000 then
      (d.put Obj.MODULE_POWER_MW (near10W (sums.getD 0 0 / 1000))).put Obj.SILICON_POWER_MW (near10W (sums.getD 1 0 / 1000))
    else d
  else (d.put Obj.MODULE_POWER_MW (meanOf past 0)).put Obj.SILICON_POWER_MW (meanOf past 1)

/-! ### The controller (R381 to R384, R440) -/

/-- The limit in milliwatts: the cap, and in the low input range no more than the input voltage × 78 A (R440). -/
def Dev.powerLimit (d : Dev) : Nat :=
  let cap := 1000 * d.get Obj.POWER_CAP_W
  if d.get Obj.INPUT_STATE = 1 then min cap (78 * d.power.inputMv) else cap

/-- Where a region's power ceiling may stand at most: at OP4 while PILOT_STATE is DEGRADED (R372). -/
def Dev.ceilingTop (d : Dev) : Nat := if d.get Obj.PILOT_STATE = 2 then 4 else 15

/-- The region whose ceiling a step up raises: the lowest ceiling below OP_LIMIT, lowest index first. -/
def Dev.lowest (d : Dev) : Option Nat :=
  ((List.range 16).filter fun g => d.get Obj.POWER_CEILING g < min d.ceilingTop (d.get Obj.OP_LIMIT g)).foldl
    (fun b g => match b with
      | none => some g
      | some x => if d.get Obj.POWER_CEILING g < d.get Obj.POWER_CEILING x then some g else some x) none

/-- A step down (R381, R382). -/
def Dev.stepDown (d : Dev) : Dev :=
  let top := (List.range 16).foldl (fun m g => max m (d.get Obj.POWER_CEILING g)) 0
  if top = 0 then d.put Obj.FIRING_DUTY (max 1 (d.get Obj.FIRING_DUTY - 1))
  else if (List.range 16).any fun g => decide (0 < d.get Obj.REGION_OP g) then
    (List.range 16).foldl (fun d g => if d.get Obj.POWER_CEILING g = top then d.put Obj.POWER_CEILING (top - 1) g else d) d
  else d

/-- A step up (R381), withheld while the damper or a critical temperature holds (R386, R390). -/
def Dev.stepUp (d : Dev) : Dev :=
  if d.damped then d
  else if d.get Obj.FIRING_DUTY < 16 then d.bump Obj.FIRING_DUTY
  else match d.lowest with
    | some g => d.bump Obj.POWER_CEILING g
    | none => d

/-- The controller's action at the end of a period of mean module input power `m`. -/
def Dev.control (d : Dev) (m : Nat) : Dev :=
  let limit := d.powerLimit
  let floor := decide (d.get Obj.FIRING_DUTY = 1)
  if limit < m then
    let n := if floor then d.power.overAtFloor + 1 else 0
    let d := d.modPower fun p => { p with under := 0, okPeriods := 0, overAtFloor := min n 100 }
    let d := d.stepDown
    if n = 100 ∧ !bit (d.get Obj.POWER_STATUS) 2 then (d.putBit Obj.POWER_STATUS 2 true).raise Event.capUnattainable .global 0 else d
  else
    let low := decide (50 * m < 49 * limit)
    let u := if low then d.power.under + 1 else 0
    let k := d.power.okPeriods + 1
    let d := d.modPower fun p => { p with under := min u 5, okPeriods := min k 100, overAtFloor := 0 }
    let d := if 100 ≤ k then d.putBit Obj.POWER_STATUS 2 false else d
    if 5 ≤ u then d.stepUp else d

/-- POWER_STATUS (R392). -/
def Dev.powerStatus (d : Dev) : Nat :=
  let v := d.get Obj.POWER_STATUS
  let v := setBit v 0 ((List.range 16).any fun g => decide (d.get Obj.POWER_CEILING g < d.get Obj.OP_LIMIT g))
  let v := setBit v 1 (decide (d.get Obj.FIRING_DUTY < 16))
  setBit (setBit (setBit v 3 d.damperLow) 4 (!d.power.hot.isEmpty)) 5 d.power.critical

/-- CONTROL_PERIOD: temperatures, readings, the controller, and the moves that follow. -/
def Dev.cmdControl (d : Dev) (m s : Nat) (dies : List Nat) (temps : List (Sensor × Int)) : Dev :=
  (((d.thermal temps).readings m s dies).control m).retargetAll

/-- CONTROL_PERIOD (R381, R389). -/
def execControlPeriod (moduleMw siliconMw : Nat) (dieMw : List Nat) (temps : List (Sensor × Int)) (s : State) :
    Host.Outcome State Fault Refusal := s.onDev fun d => d.cmdControl moduleMw siliconMw dieMw temps

end Sys2Proof.Machine
end

