-- ==== Sys2Proof/Machine/Resets.lean ====
section
/-! DEFINITION. The four reset levels and DEFECT_ADD (R404, R411 to R417). -/

namespace Sys2Proof.Machine

/-! ### Whole device (R411, R412) -/

/-- A whole-device reset. Memory is kept while the 54 V input is held, unless a trip has removed its power (R390). -/
def State.wholeReset (s : State) (last sel0 sel1 : Nat) : State :=
  let b := bootFrom s.vault s.dev (!s.dev.power.tripped && !s.dev.power.onBank) (if s.dev.power.tripped then 5 else last) sel0 sel1
  { s with vault := b.1, dev := b.2 }

/-- RESET_N (R411): low, then released; an unpowered module has nothing to reset. -/
def execResetN (sel0 sel1 : Nat) (s : State) : Host.Outcome State Fault Refusal :=
  .next (if s.dev.get Obj.BOOT_STATE = 0 ∨ s.dev.power.onBank then s else s.wholeReset 0 sel0 sel1)

/-- A write to WHOLE_RESET, the pins sampled at the reset it starts (R411, R417). -/
def State.writeWholeReset (s : State) (v sel0 sel1 : Nat) : State :=
  if s.dev.get Obj.BOOT_STATE < 2 ∨ s.dev.pathFull 2 ∨ s.dev.pilot.restarting then { s with dev := s.dev.answer 7 }
  else if v ≠ 0x5A5A then { s with dev := s.dev.answer 4 }
  else s.wholeReset 1 sel0 sel1

/-- WHOLE_RESET (R411). -/
def execWholeReset (v sel0 sel1 : Nat) (s : State) : Host.Outcome State Fault Refusal := .next (s.writeWholeReset v sel0 sel1)

/-! ### Smaller parts (R413 to R416) -/

/-- Start a reset unless a larger one covers its part; the status of the write. -/
def Dev.startReset (d : Dev) (p : ResetPart) : Dev × Nat := if d.resetBusy p then (d, 3) else (d.beginReset p, 0)

/-- A write to PARTITION_RESET: a partition with no region has no effect (R417). -/
def Dev.writePartitionReset (d : Dev) (n : Nat) : Dev × Nat :=
  if h : n < 8 then if (d.regionsOf n).isEmpty then (d, 0) else d.startReset (.partition ⟨n, h⟩) else (d, 4)

/-- PARTITION_RESET (R413). -/
def execPartitionReset (n : Nat) (s : State) : Host.Outcome State Fault Refusal :=
  s.onDev fun d => d.gatedPilot fun d => let (d, r) := d.writePartitionReset n; d.answer r

/-- A write to CLUSTER_RESET. -/
def Dev.writeClusterReset (d : Dev) (cl : Fin 128) (v : Nat) : Dev × Nat :=
  if 1 < v then (d, 4) else if v = 0 then (d, 0) else d.startReset (.cluster cl)

/-- CLUSTER_RESET (R413). -/
def execClusterReset (cl : Fin 128) (v : Nat) (s : State) : Host.Outcome State Fault Refusal :=
  s.onDev fun d => d.gated fun d => d.inRegion (cl.val / 8) Obj.CLUSTER_RESET cl.val 0 v fun d => let (d, r) := d.writeClusterReset cl v; d.answer r

/-- A write to HEARTH_RESET. -/
def Dev.writeHearthReset (d : Dev) (h : Fin 1024) (v : Nat) : Dev × Nat :=
  if 1 < v then (d, 4) else if v = 0 then (d, 0) else d.startReset (.hearth h)

/-- HEARTH_RESET (R413, R416). -/
def execHearthReset (h : Fin 1024) (v : Nat) (s : State) : Host.Outcome State Fault Refusal :=
  s.onDev fun d => d.gatedHearth h.val Obj.HEARTH_RESET 0 v fun d => let (d, r) := d.writeHearthReset h v; d.answer r

/-- After its drain a region of a partition brings itself up again (R415). -/
def Dev.restartRegion (d : Dev) (g : Nat) : Dev :=
  let d := (d.put Obj.REGION_STATE 1 g).put Obj.CLOCK_STATE 1 g
  (hearthsOfRegion g).foldl (fun d h => d.put Obj.HEARTH_STATE hResetting h) d

/-- RESET_DRAIN_TIMEOUT: the requests left are answered absent and counted; the reset tests, or the region's bring-up, begin (R413 to
R415). -/
def Dev.cmdDrainTimeout (d : Dev) (p : ResetPart) (n : Nat) : Dev :=
  if d.resets.any fun (r : ResetRun) => r.part = p && !r.drained then
    let d := d.bump Obj.RESET_DRAIN_ANSWERED 0 n
    let d := { d with resets := d.resets.map fun (r : ResetRun) => if r.part = p then { r with drained := true } else r }
    match p with
    | .partition k => (d.regionsOf k.val).foldl Dev.restartRegion d
    | _ => (((d.partHearths p).filter fun h => !d.hearthAbsent h).foldl (fun (d : Dev) h => d.put Obj.TEST_RESULT 1 h) d).settleResets
  else d

/-- RESET_DRAIN_TIMEOUT (R413). -/
def execResetDrainTimeout (part : ResetPart) (unanswered : Nat) (s : State) : Host.Outcome State Fault Refusal :=
  s.onDev fun d => d.cmdDrainTimeout part unanswered

/-- A hearth that fails its reset test is recorded with SOURCE 2 and is absent at once (R18, R414). -/
def Dev.resetTestFails (d : Dev) (v : Vault) (h fail : Nat) : Dev :=
  let p := d.slotOf h
  let d := d.appendDefect v 1 2 (9 * (h / 8) + p) fail
  let d := (d.setPhys (h / 8) p 4).setSlotOf h 15
  (d.put Obj.HEARTH_STATE hAbsent h).put Obj.TEST_RESULT (fail % 2 ^ 16 * 2 ^ 16 + 3) h

/-- RESET_TEST_DONE: a hearth under reset test passes and awaits its firmware, or fails. -/
def Dev.cmdTestDone (d : Dev) (v : Vault) (h fail : Nat) : Dev :=
  let mine := fun (r : ResetRun) => r.drained && r.testing.contains h && levelOf r.part < 2
  if d.resets.any mine then
    let d := { d with resets := d.resets.map fun (r : ResetRun) => if mine r then { r with testing := r.testing.erase h } else r }
    (if fail = 0 then d.put Obj.TEST_RESULT 2 h else d.resetTestFails v h fail).settleResets
  else d

/-- RESET_TEST_DONE (R414). -/
def execResetTestDone (h : Fin 1024) (fail : Nat) (s : State) : Host.Outcome State Fault Refusal :=
  s.onDev fun d => d.cmdTestDone s.vault h.val fail

/-! ### DEFECT_ADD (R404, R417) -/

/-- A write to DEFECT_ADD: a record of a physical hearth or a cluster cache, SOURCE 4; other kinds and units that do not exist are
invalid. -/
def Dev.writeDefectAdd (d : Dev) (vt : Vault) (v : Nat) : Dev × Nat :=
  let k := bits v 63 60
  let i := bits v 55 44
  if (k = 1 ∧ i < 1152) ∨ (k = 2 ∧ i < 128) then (d.appendDefect vt k 4 i (bits v 43 32), 0) else (d, 4)

/-- DEFECT_ADD (R417). -/
def execDefectAdd (v : Nat) (s : State) : Host.Outcome State Fault Refusal :=
  s.onDev fun d => d.gatedPilot fun d => let (d, r) := d.writeDefectAdd s.vault v; d.answer r

end Sys2Proof.Machine
end

