-- ==== Sys2Proof/Machine/StokerRules.lean ====
section
/-! DEFINITION. The update rules of the Stokers in FP32 (R258 to R264): two-moment, sign-momentum, and the matrix arithmetic, inverse
roots and diagonal fallback of the Kronecker-factored rule. -/

namespace Sys2Proof.Machine

/-- a / b as R258 forms it. -/
def fdivr (a b : Nat) : Nat := fmul a (frecip b)

/-- beta^t by repeated squaring, bits of t from the most significant (R258). -/
def fpow (b t : Nat) : Nat :=
  ((List.range (Nat.log2 t + 1)).reverse).foldl (fun p i =>
    let p := fmul p p
    if t.testBit i then fmul p b else p) one32

/-- 1 − beta, rounded once. -/
def fcompl (b : Nat) : Nat := fsub one32 b

/-- Hyperparameters a group's elementwise rules use, latched at its start (R244). -/
structure Hyper where
  lr : Nat
  beta1 : Nat
  beta2 : Nat
  eps : Nat
  decay : Nat
  gscale : Nat
  deriving DecidableEq, Repr

/-- Factor 1 / (1 − beta^t) of R259. -/
def biasOf (b t : Nat) : Nat := frecip (fcompl (fpow b t))

/-- Two-moment rule (R259) on weight `w`, gradient `g` and state m, v. -/
def twoMoment (p : Hyper) (t w g : Nat) (st : List Nat) : Nat × List Nat :=
  let m := st.getD 0 0
  let v := st.getD 1 0
  let w := fsub w (fmul (fmul p.lr p.decay) w)
  let m := fadd (fmul p.beta1 m) (fmul (fcompl p.beta1) g)
  let v := fadd (fmul p.beta2 v) (fmul (fmul (fcompl p.beta2) g) g)
  let den := fadd (fsqrt (fmul v (biasOf p.beta2 t))) p.eps
  (fsub w (fmul (fmul p.lr (fmul m (biasOf p.beta1 t))) (frecip den)), [m, v])

/-- sign(c) of R260; a NaN stays a NaN. -/
def fsign (c : Nat) : Nat := if isNan c then nan32 else if fabs c = 0 then 0 else if neg32 c then fneg one32 else one32

/-- Sign-momentum rule (R260). -/
def signMomentum (p : Hyper) (w g : Nat) (st : List Nat) : Nat × List Nat :=
  let m := st.getD 0 0
  let c := fadd (fmul p.beta1 m) (fmul (fcompl p.beta1) g)
  let w := fsub w (fmul p.lr (fadd (fsign c) (fmul p.decay w)))
  (w, [fadd (fmul p.beta2 m) (fmul (fcompl p.beta2) g)])

/-- Elementwise part of the Kronecker rule (R261) for the element `u` of U. -/
def kronElem (p : Hyper) (w u : Nat) (st : List Nat) : Nat × List Nat :=
  let m := fadd (fmul p.beta1 (st.getD 0 0)) (fmul (fcompl p.beta1) u)
  (fsub w (fmul p.lr (fadd m (fmul p.decay w))), [m])

/-! ### Matrices, row after row -/

/-- A matrix as its rows. -/
abbrev Mat := List (List Nat)

/-- Cut a row-major list into rows of `c`. -/
def toRows (c : Nat) : Nat → List Nat → Mat
  | 0, _ => []
  | r + 1, l => l.take c :: toRows c r (l.drop c)

/-- Entry (i, j). -/
def Mat.at (m : Mat) (i j : Nat) : Nat := (m.getD i []).getD j 0

/-- Columns of a matrix with `c` columns. -/
def Mat.transpose (c : Nat) (m : Mat) : Mat := (List.range c).map fun j => m.map fun r => r.getD j 0

/-- Sum of products in increasing index order, each multiply-accumulate rounded once (R258). -/
def dot (a b : List Nat) : Nat := (List.zipWith Prod.mk a b).foldl (fun s x => ffma x.1 x.2 s) 0

/-- Product of a matrix and one with `c` columns. -/
def Mat.mul (c : Nat) (a b : Mat) : Mat := let t := b.transpose c; a.map fun r => t.map fun k => dot r k

/-- Apply a function of row, column and entry. -/
def Mat.mapIdx2 (f : Nat → Nat → Nat → Nat) (m : Mat) : Mat :=
  (m.zipIdx).map fun r => (r.1.zipIdx).map fun x => f r.2 x.2 x.1

/-- x times the identity of order n. -/
def scaledId (n x : Nat) : Mat := (List.range n).map fun i => (List.range n).map fun j => if i = j then x else 0

/-- fb × F + S (R261). -/
def Mat.decay (fb : Nat) (f s : Mat) : Mat := f.mapIdx2 fun i j x => fadd (fmul fb x) (s.at i j)

/-- x × M, each element rounded once. -/
def Mat.times (x : Nat) (m : Mat) : Mat := m.mapIdx2 fun _ _ v => fmul x v

/-- Sum of the diagonal in index order. -/
def Mat.trace (m : Mat) : Nat := (List.range m.length).foldl (fun s i => fadd s (m.at i i)) 0

/-- FP32 of a natural number. -/
def fnat (n : Nat) : Nat := round32 false n 1

/-- Pivots of the L D Lᵀ factoring (R262), one row at a time: rows of L so far with their pivots. Each is formed by multiply-accumulates
in increasing index order. -/
def ldlRow (b : Mat) (acc : List (List Nat) × List Nat) (i : Nat) : List (List Nat) × List Nat :=
  let (ls, ds) := acc
  let row := (List.range i).foldl (fun (r : List Nat) j =>
    let lj := ls.getD j []
    let s := (List.range j).foldl (fun s k => ffma (fneg (r.getD k 0)) (fmul (lj.getD k 0) (ds.getD k 0)) s) (b.at i j)
    r ++ [fdivr s (ds.getD j 0)]) []
  let d := (List.range i).foldl (fun s k => ffma (fneg (row.getD k 0)) (fmul (row.getD k 0) (ds.getD k 0)) s) (b.at i i)
  (ls ++ [row], ds ++ [d])

/-- Pivots D of a matrix. -/
def pivots (b : Mat) : List Nat := ((List.range b.length).foldl (ldlRow b) ([], [])).2

/-- Frobenius norm, summed row after row. -/
def frobenius (b : Mat) : Nat := fsqrt ((b.flatten).foldl (fun s x => ffma x x s) 0)

/-- T^p by repeated squaring, bits of p from the most significant (R262). -/
def Mat.pow (n p : Nat) (t : Mat) : Mat :=
  ((List.range (Nat.log2 p)).reverse).foldl (fun x i =>
    let x := Mat.mul n x x
    if p.testBit i then Mat.mul n x t else x) t

/-- Whether every entry of M is within `tol` of the identity. -/
def Mat.nearId (m : Mat) (tol : Nat) : Bool :=
  ((m.mapIdx2 fun i j x => fabs (fsub x (if i = j then one32 else 0))).flatten).all fun e => !isNan e && !isNan tol && !fgt e tol

/-- The coupled Newton iteration of R262 with `k` iterations left: the root if it converges, and the iterations made. -/
def newton (n p tol : Nat) : Nat → Mat → Mat → Nat → Option Mat × Nat
  | 0, _, _, made => (none, made)
  | k + 1, x, m, made =>
    let t := m.mapIdx2 fun i j v => fdivr (fsub (if i = j then fnat (p + 1) else 0) v) (fnat p)
    let x := Mat.mul n x t
    let m := Mat.mul n (t.pow n p) m
    if m.nearId tol then (some x, made + 1) else newton n p tol k x m (made + 1)

/-- The settings of a group's inverse roots. -/
structure RootCfg where
  p : Nat
  damping : Nat
  floor : Nat
  tol : Nat
  deriving DecidableEq, Repr

/-- Where y^p × x stands against 1, for positive finite FP32 numbers: the product as a fraction. -/
def rootProduct (p x y : Nat) : Nat × Nat :=
  match dec32 x, dec32 y with
  | .fin _ m e, .fin _ n k => scale2 (n ^ p * m) ((p : Int) * k + e)
  | _, _ => (2, 1)

/-- The greatest finite FP32 number that is not above x^(−1/p), bit by bit. -/
def rootFloor (p x : Nat) : Nat :=
  ((List.range 31).reverse).foldl (fun y i =>
    let z := y + 2 ^ i
    let r := rootProduct p x z
    if z < 0x7F800000 ∧ r.1 ≤ r.2 then z else y) 0

/-- x^(−1/p) of a positive x in FP32 (R262, R264): exact where it can be, otherwise one of its two neighbours, for the spec states no
rounding (log entry 5). -/
def invRoot (p x : Nat) : Nat :=
  if isNan x then nan32
  else if !isFin x then 0
  else if fabs x = 0 then inf32 false
  else
    let y := rootFloor p (fabs x)
    let r := rootProduct p (fabs x) y
    if r.1 ≠ r.2 ∧ Config.rootUp p x = true then y + 1 else y

/-- Whether an FP32 number is at or below zero. -/
def fnonpos (x : Nat) : Bool := !isNan x && (neg32 x || fabs x = 0)

/-- inverse_root of R262: the root, or none where it fails, and the Newton iterations made. -/
def inverseRoot (c : RootCfg) (a : Mat) : Option Mat × Nat :=
  let n := a.length
  if (a.flatten).any fun x => !isFin x then (none, 0)
  else
    let tau := fdivr a.trace (fnat n)
    if fnonpos tau then (none, 0)
    else
      let b := a.mapIdx2 fun i j x => if i = j then fadd x (fmul c.damping tau) else x
      if (pivots b).any fun d => fgt (fmul c.floor tau) d then (none, 0)
      else
        let f := frobenius b
        newton n c.p c.tol 30 (scaledId n (invRoot c.p f)) (b.mapIdx2 fun _ _ x => fdivr x f) 0

/-- Diagonal factors dL or dR of the fallback (R264). -/
def fallbackDiag (c : RootCfg) (f : Mat) : List Nat :=
  let tr := f.trace
  (List.range f.length).map fun j =>
    let base := fadd (f.at j j) (fdivr (fmul c.damping tr) (fnat f.length))
    if !isFin base || fnonpos base then one32 else invRoot c.p base

/-- U of the fallback: rows scaled by dL, columns by dR (R264). -/
def fallbackU (dl dr : List Nat) (g : Mat) : Mat := g.mapIdx2 fun i j x => fmul (fmul (dl.getD i one32) x) (dr.getD j one32)

end Sys2Proof.Machine
end

