-- ==== Sys2Proof/Machine/Stokers.lean ====
section
/-! DEFINITION. Commands of the Stokers: doorbells, the update, norm and reset of a group, vector code, the slow tier, sleep and training
(R236 to R272). -/

namespace Sys2Proof.Machine

/-- An element as an update reads it: gradient, high and low half, states (raw), whether any of it is ash, and whether the gradient is. -/
structure UElem where
  grad : Nat
  high : Nat
  low : Nat
  states : List Nat
  bad : Bool
  gradAsh : Bool
  deriving DecidableEq, Repr

/-- The result of an element: its new weight and states in FP32; none where it is skipped. -/
abbrev UResult := Option (Nat × List Nat)

/-- Bytes of several runs of elements read from data space. -/
def Dev.getRuns (d : Dev) (c : GCfg) (base s : Nat) (runs : List (Nat × Nat)) : Dev × List (Nat × Bool) × SAcc :=
  runs.foldl (fun (r : Dev × List (Nat × Bool) × SAcc) ab =>
    if r.2.2 ≠ .ok then r
    else
      let (d, bs, a) := r.1.stokerGet c.t c.ctx (base + s * ab.1) (s * ab.2)
      (d, r.2.1 ++ elemsOf s bs, a)) (d, [], .ok)

/-- Bytes of several runs of elements read from the slow tier. -/
def Dev.loadRuns (d : Dev) (c : GCfg) (base s : Nat) (runs : List (Nat × Nat)) (errs : List (Nat × SramOutcome)) :
    Dev × List (Nat × Bool) :=
  runs.foldl (fun (r : Dev × List (Nat × Bool)) ab =>
    let (d, bs) := r.1.stokerLoad c.t c.ctx (base + s * ab.1) (s * ab.2) errs
    (d, r.2 ++ elemsOf s bs)) (d, [])

/-- Base of state array `k` (R248). -/
def GCfg.stateBase (c : GCfg) (k : Nat) : Nat := c.state + k * c.n * c.mb

/-- Read the elements of a chunk, given as runs of consecutive elements (R256). -/
def Dev.readChunk (d : Dev) (c : GCfg) (runs : List (Nat × Nat)) (errs : List (Nat × SramOutcome)) : Dev × List UElem × SAcc :=
  match d.getRuns c c.grad c.gb runs with
  | (d, gs, .ok) =>
    match d.getRuns c c.high 2 runs with
    | (d, hs, .ok) =>
      let (d, ls) := d.loadRuns c c.low 2 runs errs
      let (d, sts) := (List.range c.ns).foldl (fun (r : Dev × List (List (Nat × Bool))) k =>
        let (d, l) := r.1.loadRuns c (c.stateBase k) c.mb runs errs
        (d, r.2 ++ [l])) (d, [])
      let el := (gs.zipIdx).map fun gi =>
        let i := gi.2
        let h := hs.getD i (0, true)
        let l := ls.getD i (0, true)
        let ss := sts.map fun s => s.getD i (0, true)
        (⟨gi.1.1, h.1, l.1, ss.map (·.1), gi.1.2 || h.2 || l.2 || ss.any (·.2), gi.1.2⟩ : UElem)
      (d, el, .ok)
    | (d, _, a) => (d, [], a)
  | (d, _, a) => (d, [], a)

/-- A raw gradient or moment of `s` bytes widened to FP32 (R258). -/
def widenOf (s raw : Nat) : Nat := widen (s = 2) raw

/-- The weight of an element (R243). -/
def UElem.weight (e : UElem) : Nat := e.high * 65536 + e.low

/-- The scaled gradient of an element (R256). -/
def UElem.scaled (e : UElem) (c : GCfg) (gscale : Nat) : Nat := fmul gscale (widenOf c.gb e.grad)

/-- The states of an element in FP32. -/
def UElem.wide (e : UElem) (c : GCfg) : List Nat := e.states.map (widenOf c.mb)

/-- Whether an element is skipped for what is read: g, w or a state is ash or non-finite (R256). -/
def UElem.skips (e : UElem) (c : GCfg) (gscale : Nat) : Bool :=
  e.bad || !isFin (e.scaled c gscale) || !isFin e.weight || (e.wide c).any fun s => !isFin s

/-- A result taken only when it is finite throughout (R256). -/
def finiteResult (r : Nat × List Nat) : UResult := if isFin r.1 && r.2.all isFin then some r else none

/-- Narrow the states of results in processing order, one random value per narrowed value (R258, R268); the count of draws made. -/
def narrowStates (c : GCfg) (seed : Nat) : Nat → List UResult → List UResult × Nat
  | k, [] => ([], k)
  | k, none :: l => let (r, k) := narrowStates c seed k l; (none :: r, k)
  | k, some (w, ss) :: l =>
    let draw := c.mb = 2 && c.sr
    let out := (ss.zipIdx).map fun s =>
      if c.mb = 2 then (Fmt.bf16.convert s.1 0 (if draw then some (Config.srDraw seed (k + s.2)) else none)).raw else s.1
    let (r, k) := narrowStates c seed (if draw then k + ss.length else k) l
    (some (w, out) :: r, k)

/-- Bytes of an array of results: `f` picks the element's value, of `s` bytes; skipped elements are left alone. -/
def resultBytes (s : Nat) (f : Nat × List Nat → Nat) (rs : List UResult) : List (Option Byte) :=
  rs.flatMap fun r => match r with
    | some x => (leBytes s (f x)).map some
    | none => List.replicate s none

/-- Write an array of results to data space, run after run. -/
def Dev.putRuns (d : Dev) (c : GCfg) (base s : Nat) (runs : List (Nat × Nat)) (bs : List (Option Byte)) : Dev × SAcc :=
  (runs.foldl (fun (r : (Dev × SAcc) × List (Option Byte)) ab =>
    (thenDo r.1 fun d => d.stokerPut c.t c.ctx (base + s * ab.1) (r.2.take (s * ab.2)), r.2.drop (s * ab.2))) ((d, .ok), bs)).1

/-- Write an array of results to the slow tier, run after run. -/
def Dev.saveRuns (d : Dev) (c : GCfg) (base s : Nat) (runs : List (Nat × Nat)) (bs : List (Option Byte)) : Dev :=
  (runs.foldl (fun (r : Dev × List (Option Byte)) ab =>
    (r.1.stokerSave c.t c.ctx (base + s * ab.1) (r.2.take (s * ab.2)), r.2.drop (s * ab.2))) (d, bs)).1

/-- Count skipped elements, the first of an update being reported (R256); `before` is how many it had skipped. -/
def Dev.countSkipped (d : Dev) (g before n : Nat) : Dev :=
  if n = 0 then d
  else
    let d := d.bump Obj.SKIPPED_ELEMENTS g n
    if before = 0 then d.raise Event.elementsSkipped .group g else d

/-- Write a chunk's results: high halves, then low halves and states, then `more`, then zeros over the gradient (R256). -/
def Dev.writeChunk (d : Dev) (c : GCfg) (runs : List (Nat × Nat)) (rs : List UResult) (before : Nat) (more : Dev → Dev) :
    Dev × SAcc :=
  thenDo (d.putRuns c c.high 2 runs (resultBytes 2 (fun x => x.1 / 65536) rs)) fun d =>
    let d := d.saveRuns c c.low 2 runs (resultBytes 2 (fun x => x.1 % 65536) rs)
    let (rs', k) := narrowStates c (d.get Obj.STOKER_SR_SEED c.t) (d.stoker c.t).srDraws rs
    let d := d.modStoker c.t fun x => { x with srDraws := k }
    let d := (List.range c.ns).foldl (fun d j => d.saveRuns c (c.stateBase j) c.mb runs (resultBytes c.mb (fun x => x.2.getD j 0) rs')) d
    let d := more d
    thenDo (if c.zero then d.putRuns c c.grad c.gb runs (List.replicate (c.gb * rs.length) (some 0)) else (d, .ok)) fun d =>
      let n := (rs.filter Option.isNone).length
      ((d.bump Obj.ELEMENTS_UPDATED c.t (rs.length - n)).countSkipped c.g before n, .ok)

/-! ### Headers (R255) -/

/-- STEP_STAMP and VALID of a header line. -/
def headerOf (bs : List (Byte × Bool)) : Nat × Bool :=
  let v := leNat (bs.map (·.1))
  (v % 2 ^ 64, bit v 64)

/-- Headers of a group, 64 bytes each. -/
def Dev.readHeaders (d : Dev) (c : GCfg) : Dev × List (List (Byte × Bool)) × SAcc :=
  let (d, bs, a) := d.stokerGet c.t c.ctx c.hdr (64 * c.shards)
  (d, pieces 64 c.shards bs, a)

/-- Check the headers against STEP_COUNT: the first mismatch is recorded and reported (R255). -/
def Dev.checkHeaders (d : Dev) (c : GCfg) (hs : List (List (Byte × Bool))) : Dev :=
  let n := d.get Obj.STEP_COUNT c.g
  match hs.find? fun h => h.any (·.2) || !(headerOf h).2 || (headerOf h).1 ≠ n with
  | none => d
  | some h =>
    let stamp := if !h.any (·.2) && (headerOf h).2 then (headerOf h).1 else 2 ^ 64 - 1
    let d := (d.putBit Obj.GROUP_STATUS 0 true c.g).bump Obj.STEP_SKEWS c.g
    (d.put Obj.LAST_STAMP stamp c.g).raise Event.stepSkew .group c.g none stamp

/-- Write every header with VALID 0, the rest of it as read at the start (R255). -/
def Dev.clearHeaders (d : Dev) (c : GCfg) (hs : List (List Byte)) : Dev × SAcc :=
  d.stokerPut c.t c.ctx c.hdr ((hs.flatMap fun h => leBytes 64 (setBit (leNat h) 64 false)).map some)

/-! ### The Kronecker-factored rule (R261 to R264) -/

/-- Slow-tier addresses of block `n`'s matrices: L, R and their roots. -/
def Dev.blockBase (d : Dev) (g n : Nat) : Nat × Nat × Nat × Nat :=
  let (br, bc) := d.blockDims g
  let a := d.get Obj.PRECOND_TA g + 8 * n * (br * br + bc * bc)
  (a, a + 4 * br * br, a + 4 * (br * br + bc * bc), a + 4 * (br * br + bc * bc) + 4 * br * br)

/-- Read a square matrix of order `n`; an element whose word is poison or uncorrectable has a free value (20), log entry 5. -/
def Dev.loadMat (d : Dev) (c : GCfg) (a n : Nat) (errs : List (Nat × SramOutcome)) : Dev × Mat :=
  let (d, bs) := d.stokerLoad c.t c.ctx a (4 * n * n) errs
  let es := (elemsOf 4 bs).zipIdx.map fun e => if e.1.2 then Config.free 20 (d.free + e.2) % 2 ^ 32 else e.1.1
  let d := if bs.any (·.2) then { d with free := d.free + n * n } else d
  (d, toRows n n es)

/-- Write a matrix. -/
def Dev.saveMat (d : Dev) (c : GCfg) (a : Nat) (m : Mat) : Dev :=
  d.stokerSave c.t c.ctx a ((m.flatten.flatMap fun x => leBytes 4 x).map some)

/-- CONSEC_FAILS. -/
def Dev.consecFails (d : Dev) (g : Nat) : Nat := bits (d.get Obj.GROUP_STATUS g) 15 8

/-- Set CONSEC_FAILS. -/
def Dev.setFails (d : Dev) (g n : Nat) : Dev := d.put Obj.GROUP_STATUS (setBits (d.get Obj.GROUP_STATUS g) 15 8 n) g

/-- A factor's root failed; `first` says that it is the update's first: CONSEC_FAILS counts the root step, and at FAIL_LIMIT the fallback is
entered (R263). -/
def Dev.rootFailed (d : Dev) (g : Nat) (first : Bool) : Dev :=
  let d := d.bump Obj.ROOT_FAILURES g
  if !first then d
  else
    let d := (d.setFails g (min 255 (d.consecFails g + 1))).raise Event.rootFailure .group g
    let lim := d.get Obj.FAIL_LIMIT g
    if lim ≠ 0 ∧ lim ≤ d.consecFails g ∧ !d.groupBit g 1 then
      (d.putBit Obj.GROUP_STATUS 1 true g).raise Event.fallbackEntered .group g
    else d

/-- Root settings of a group. -/
def Dev.rootCfg (d : Dev) (g : Nat) : RootCfg :=
  ⟨d.get Obj.ROOT_P g, d.get Obj.DAMPING g, d.get Obj.DAMP_FLOOR g, d.get Obj.NEWTON_TOL g⟩

/-- What an update carries from chunk to chunk: elements skipped, and factors failed in this root step. -/
structure Carry where
  skipped : Nat
  failed : Nat
  deriving DecidableEq, Repr

/-- Try the root of one factor; the root in force afterwards, and whether it is new. -/
def Dev.tryRoot (d : Dev) (c : GCfg) (k : Carry) (f old : Mat) : Dev × Carry × Mat × Bool :=
  let (r, made) := inverseRoot (d.rootCfg c.g) f
  let d := (d.bump Obj.ROOTS_COMPUTED c.t).bump Obj.NEWTON_ITERATIONS c.t made
  match r with
  | some x => (d, k, x, true)
  | none => (d.rootFailed c.g (k.failed = 0), { k with failed := k.failed + 1 }, old, false)

/-- Runs of block (I, J): one for each of its rows. -/
def Dev.blockRuns (d : Dev) (g n : Nat) : List (Nat × Nat) :=
  let (br, bc) := d.blockDims g
  let cols := d.get Obj.MAT_COLS g
  let i := n / (cols / bc)
  let j := n % (cols / bc)
  (List.range br).map fun r => ((i * br + r) * cols + j * bc, bc)

/-- Hyperparameters of a group. -/
def Dev.hyper (d : Dev) (g : Nat) : Hyper :=
  ⟨d.get Obj.LR g, d.get Obj.BETA1 g, d.get Obj.BETA2 g, d.get Obj.EPS g, d.get Obj.WEIGHT_DECAY g, d.get Obj.GRAD_SCALE g⟩

/-- One block of the Kronecker rule (R261); products are associated from left to right (R258). -/
def Dev.updateBlock (d : Dev) (c : GCfg) (due : Bool) (errs : List (Nat × SramOutcome)) (k : Carry) (n : Nat) : Dev × Carry × SAcc :=
  let runs := d.blockRuns c.g n
  let p := d.hyper c.g
  let (br, bc) := d.blockDims c.g
  match d.readChunk c runs errs with
  | (d, els, .ok) =>
    let gb := toRows bc br (els.map fun e => let g := e.scaled c p.gscale; if e.gradAsh || !isFin g then 0 else g)
    let (la, ra, lra, rra) := d.blockBase c.g n
    let (d, l) := d.loadMat c la br errs
    let (d, r) := d.loadMat c ra bc errs
    let (d, lr) := d.loadMat c lra br errs
    let (d, rr) := d.loadMat c rra bc errs
    let gt := gb.transpose bc
    let fb := d.get Obj.FACTOR_BETA c.g
    let l := l.decay fb (Mat.mul br (gb.times (fcompl fb)) gt)
    let r := r.decay fb (Mat.mul bc (gt.times (fcompl fb)) gb)
    let (d, k, lr, newL, rr, newR) :=
      if due && !d.groupBit c.g 1 then
        let (d, k, lr, a) := d.tryRoot c k l lr
        let (d, k, rr, b) := d.tryRoot c k r rr
        (d, k, lr, a, rr, b)
      else (d, k, lr, false, rr, false)
    let u := if d.groupBit c.g 1 then fallbackU (fallbackDiag (d.rootCfg c.g) l) (fallbackDiag (d.rootCfg c.g) r) gb
      else Mat.mul bc (Mat.mul bc lr gb) rr
    let us := u.flatten
    let rs := (els.zipIdx).map fun ei =>
      if ei.1.skips c p.gscale then none else finiteResult (kronElem p ei.1.weight (us.getD ei.2 0) (ei.1.wide c))
    let more := fun (d : Dev) =>
      let d := (d.saveMat c la l).saveMat c ra r
      let d := if newL then d.saveMat c lra lr else d
      if newR then d.saveMat c rra rr else d
    let (d, a) := d.writeChunk c runs rs k.skipped more
    (d, { k with skipped := k.skipped + (rs.filter Option.isNone).length }, a)
  | (d, _, a) => (d, k, a)

/-- One chunk of an elementwise rule (R256, R259, R260). -/
def Dev.updateElems (d : Dev) (c : GCfg) (t : Nat) (errs : List (Nat × SramOutcome)) (k : Carry) (n : Nat) : Dev × Carry × SAcc :=
  let runs := [(4096 * n, min 4096 (c.n - 4096 * n))]
  let p := d.hyper c.g
  match d.readChunk c runs errs with
  | (d, els, .ok) =>
    let rs := els.map fun e =>
      if e.skips c p.gscale then none
      else finiteResult (if c.rule = 0 then twoMoment p t e.weight (e.scaled c p.gscale) (e.wide c)
        else signMomentum p e.weight (e.scaled c p.gscale) (e.wide c))
    let (d, a) := d.writeChunk c runs rs k.skipped id
    (d, { k with skipped := k.skipped + (rs.filter Option.isNone).length }, a)
  | (d, _, a) => (d, k, a)

/-- An access that waits starts the clocks of the regions whose stacks hold the group's ranges (R374). -/
def Dev.wakeStacks (d : Dev) (c : GCfg) : Dev :=
  let gs := c.hbmRanges.flatMap fun r => (List.range ((r.1 + r.2 - 1) / 2 ^ 37 + 1 - r.1 / 2 ^ 37)).map (r.1 / 2 ^ 37 + ·)
  gs.foldl (fun d g => if g < 16 then d.wakeRegion g else d) d

/-! ### Groups -/

/-- Mark group `g` as processed now, or no longer (R246, R270). -/
def Dev.markRunning (d : Dev) (t g : Nat) (on : Bool) : Dev :=
  (d.putBit Obj.GROUP_STATUS 4 on g).put Obj.CURRENT_GROUP (if on then g else 0xFFFF) t

/-- An update that is interrupted (R257). -/
def Dev.interrupt (d : Dev) (t g : Nat) : Dev :=
  ((d.markRunning t g false).putBit Obj.GROUP_STATUS 2 true g).raise Event.groupInconsistent .group g

/-- Chunks of an update (R256). -/
def Dev.chunkCount (d : Dev) (c : GCfg) : Nat :=
  if c.rule = 2 then
    let (br, bc) := d.blockDims c.g
    d.get Obj.MAT_ROWS c.g / br * (d.get Obj.MAT_COLS c.g / bc)
  else if c.rule = 3 then (c.n + 1023) / 1024
  else (c.n + 4095) / 4096

/-- The end of a complete update: headers invalid, STEP_COUNT = t, CONSEC_FAILS 0 at a root step without failure (R256, R263). -/
def Dev.finishUpdate (d : Dev) (c : GCfg) (t : Nat) (clean : Bool) (hs : List (List Byte)) : Dev × SAcc :=
  thenDo (d.clearHeaders c hs) fun d =>
    let d := d.put Obj.STEP_COUNT t c.g
    let d := if clean then d.setFails c.g 0 else d
    (d.markRunning c.t c.g false, .ok)

/-- The L objects of a group as latched, in the order of its block (R244). -/
def Dev.latchGroup (d : Dev) (g : Nat) : List Nat :=
  [d.get Obj.LR g, d.get Obj.BETA1 g, d.get Obj.BETA2 g, d.get Obj.EPS g, d.get Obj.WEIGHT_DECAY g, d.get Obj.GRAD_SCALE g,
    d.get Obj.ROOT_INTERVAL g, d.get Obj.FACTOR_BETA g, d.get Obj.DAMPING g, d.get Obj.DAMP_FLOOR g, d.get Obj.NEWTON_TOL g,
    d.get Obj.FAIL_LIMIT g, d.get Obj.CYCLE_BUDGET g] ++ (List.range 8).map fun i => d.get Obj.ARG g i

/-- Deal the chunks that can be to free cores, chunk n to core n modulo 8: their elements, recombined, scaled and widened, are placed in
the core's local memory and the program starts (R266, log entry 50). -/
def Dev.dealChunks (d : Dev) (c : GCfg) (r : CodeRun) (errs : List (Nat × SramOutcome)) : Dev × CodeRun × SAcc :=
  (List.range 8).foldl (fun (x : Dev × CodeRun × SAcc) k =>
    let (d, r, a) := x
    if a ≠ .ok || (tget none r.cores k).isSome then x
    else match r.left.find? fun n => n % 8 = k with
      | none => x
      | some n =>
        match d.readChunk c [(1024 * n, min 1024 (c.n - 1024 * n))] errs with
        | (d, els, .ok) =>
          let es := els.map fun e =>
            if e.skips c (r.latched.getD 5 0) then (⟨0, 0, List.replicate c.ns 0, true⟩ : CoreElem)
            else ⟨e.weight, e.scaled c (r.latched.getD 5 0), e.wide c, false⟩
          (d, { r with left := r.left.erase n, cores := tset none r.cores k (some (n, es)) }, .ok)
        | (d, _, a) => (d, r, a)) (d, r, .ok)

/-- Whether roots are due at update t of a group (R261). -/
def Dev.rootsDue (d : Dev) (c : GCfg) (t : Nat) : Bool :=
  let k := d.get Obj.ROOT_INTERVAL c.g
  (d.stoker c.t).forced.contains c.g || t = 1 || (k ≠ 0 && t % k = 0)

/-- The update of one group: of an elementwise or Kronecker group the whole, of a vector-code group its beginning (R256, R266). `sramAt`
is the chunk in which the working SRAM meets an uncorrectable error. -/
def Dev.updateGroup (d : Dev) (g : Nat) (sramAt : Option Nat) (errs : List (Nat × SramOutcome)) : Dev × SAcc :=
  let c := d.gcfg g
  let t := d.get Obj.STEP_COUNT g + 1
  let due := c.rule = 2 && d.rootsDue c t
  let d := (d.markRunning c.t g true).modStoker c.t fun x => { x with forced := x.forced.filter (· ≠ g) }
  match d.readHeaders c with
  | (d, hs, .ok) =>
    let d := d.checkHeaders c hs
    let n := d.chunkCount c
    if c.rule = 3 then
      if sramAt.isSome then (d, .broken)
      else
        let (d, r, a) := d.dealChunks c ⟨g, t, List.range n, [], 0, d.latchGroup g, hs.map (·.map (·.1))⟩ errs
        (d.modStoker c.t fun x => { x with code := some r }, a)
    else
      let r := (List.range n).foldl (fun (r : Dev × Carry × SAcc) i =>
        if r.2.2 ≠ .ok then r
        else if sramAt = some i then (r.1, r.2.1, .broken)
        else if c.rule = 2 then r.1.updateBlock c due errs r.2.1 i
        else r.1.updateElems c t errs r.2.1 i) (d, ⟨0, 0⟩, .ok)
      thenDo (r.1, r.2.2) fun d => d.finishUpdate c t (due && r.2.1.failed = 0) (hs.map (·.map (·.1)))
  | (d, _, a) => (d, a)

/-- The gradient norm of one group (R253): none where it stops. -/
def Dev.normGroup (d : Dev) (g : Nat) (sramAt : Option Nat) : Dev × SAcc × Nat :=
  let c := d.gcfg g
  let scale := d.get Obj.GRAD_SCALE g
  (List.range ((c.n + 4095) / 4096)).foldl (fun (r : Dev × SAcc × Nat) i =>
    if r.2.1 ≠ .ok then r
    else if sramAt = some i then (r.1, .broken, 0)
    else
      let (d, bs, a) := r.1.stokerGet c.t c.ctx (c.grad + c.gb * 4096 * i) (c.gb * min 4096 (c.n - 4096 * i))
      if a ≠ .ok then (d, a, 0)
      else
        let sq := (elemsOf c.gb bs).map fun e =>
          let x := fmul scale (widenOf c.gb e.1)
          if e.2 || !isFin (widenOf c.gb e.1) then 0 else fmul x x
        (d, .ok, fadd r.2.2 ((pairSum 12 (fit 0 4096 sq)).headD 0))) (d, .ok, 0)

/-- The reset of one group's optimiser state (R254). -/
def Dev.resetGroup (d : Dev) (g : Nat) : Dev :=
  let c := d.gcfg g
  let zeros (n : Nat) : List (Option Byte) := List.replicate n (some 0)
  let d := (List.range c.ns).foldl (fun d k => d.stokerSave c.t c.ctx (c.stateBase k) (zeros (c.mb * c.n))) d
  let d := if c.rule = 2 then
      let (br, bc) := d.blockDims g
      (List.range (d.chunkCount c)).foldl (fun d n =>
        let (la, ra, lra, rra) := d.blockBase g n
        let d := d.stokerSave c.t c.ctx la (zeros (4 * br * br))
        let d := d.stokerSave c.t c.ctx ra (zeros (4 * bc * bc))
        (d.saveMat c lra (scaledId br one32)).saveMat c rra (scaledId bc one32)) d
    else d
  let d := d.put Obj.STEP_COUNT 0 g
  d.put Obj.GROUP_STATUS (setBits (setBits (d.get Obj.GROUP_STATUS g) 15 8 0) 2 0 0) g

/-! ### Commands -/

/-- Whether a doorbell passes over a group (R250). -/
def Dev.passesOver (d : Dev) (op g : Nat) : Bool := !d.groupOn g || (op = 1 && d.groupBit g 2)

/-- The next group of the doorbell in hand, when it asks for operation `op` and nothing is in progress, with the groups after it. -/
def Dev.nextGroup (d : Dev) (t op : Nat) : Option (Nat × Nat × List Nat) :=
  let x := d.stoker t
  match x.taken with
  | some (v, gs) =>
    if bits v 63 60 = op && x.code.isNone && d.get Obj.STOKER_STATE t = 2 then
      match gs.dropWhile (d.passesOver op) with
      | g :: rest => some (v, g, rest)
      | [] => none
    else none
  | none => none

/-- Record the groups left of the doorbell in hand. -/
def Dev.groupsLeft (d : Dev) (t v : Nat) (rest : List Nat) : Dev := d.modStoker t fun x => { x with taken := some (v, rest) }

/-- GROUP_UPDATE: the next group of an UPDATE is processed; while an access waits the group waits with it. -/
def Dev.cmdGroupUpdate (d : Dev) (t : Nat) (sramAt : Option Nat) (errs : List (Nat × SramOutcome)) : Dev :=
  match d.nextGroup t 1 with
  | none => d
  | some (v, g, rest) =>
    match d.updateGroup g sramAt errs with
    | (d, .ok) => d.groupsLeft t v rest
    | (d, .broken) => (d.interrupt t g).groupsLeft t v rest
    | (_, .waits) => d.wakeStacks (d.gcfg g)

/-- GROUP_UPDATE (R256). -/
def execGroupUpdate (t : Fin 2) (sramAt : Option Nat) (errs : List (Nat × SramOutcome)) (crc : List (Nat × Nat)) (s : State) :
    Host.Outcome State Fault Refusal :=
  s.onDev fun d => d.withCrc crc fun d => d.cmdGroupUpdate t.val sramAt errs

/-- Interrupt the vector-code update in progress. -/
def Dev.stopCode (d : Dev) (t g : Nat) : Dev := (d.modStoker t fun x => { x with code := none }).interrupt t g

/-- A core whose program has returned is dealt its next chunk; with none left and every core free the update ends (R256, R266). -/
def Dev.chunkOff (d : Dev) (t : Nat) (c : GCfg) (r : CodeRun) (errs : List (Nat × SramOutcome)) : Dev × SAcc :=
  let (d, r, a) := d.dealChunks c r errs
  thenDo (d, a) fun d =>
    if r.left.isEmpty && r.cores.isEmpty then
      thenDo (d.finishUpdate c r.t false r.headers) fun d => (d.modStoker t fun x => { x with code := none }, .ok)
    else (d.modStoker t fun x => { x with code := some r }, .ok)

/-- The core that runs a chunk, with its local memory. -/
def CodeRun.coreOf (r : CodeRun) (chunk : Nat) : Option (Nat × List CoreElem) :=
  match tget none r.cores (chunk % 8) with
  | some (n, es) => if n = chunk then some (chunk % 8, es) else none
  | none => none

/-- PROGRAM_CHUNK_DONE: the results that a core returns are written; `sram` says that the working SRAM meets an uncorrectable error on the
way, which interrupts the group after the chunks written so far (R256, R257, R266). -/
def Dev.cmdChunkDone (d : Dev) (t chunk : Nat) (ws : List Nat) (sts : List (List Nat)) (errs : List (Nat × SramOutcome)) (sram : Bool) : Dev :=
  match (d.stoker t).code with
  | none => d
  | some r =>
    match r.coreOf chunk with
    | none => d
    | some (k, els) =>
      if sram then d.stopCode t r.group
      else
        let c := d.gcfg r.group
        let runs := [(1024 * chunk, min 1024 (c.n - 1024 * chunk))]
        let rs : List UResult := (els.zipIdx).map fun ei =>
          if ei.1.skip then none
          else finiteResult (ws.getD ei.2 0 % 2 ^ 32, (List.range c.ns).map fun j => (sts.getD j []).getD ei.2 0 % 2 ^ 32)
        let r' := { r with cores := tset none r.cores k none, skipped := r.skipped + (rs.filter Option.isNone).length }
        match thenDo (d.writeChunk c runs rs r.skipped id) fun d => d.chunkOff t c r' errs with
        | (d, .ok) => d
        | (d, .broken) => d.stopCode t r.group
        | (_, .waits) => d.wakeStacks c

/-- PROGRAM_CHUNK_DONE (R266). -/
def execProgramChunkDone (t : Fin 2) (chunk : Nat) (weights : List Nat) (states : List (List Nat)) (errs : List (Nat × SramOutcome))
    (sram : Bool) (crc : List (Nat × Nat)) (s : State) : Host.Outcome State Fault Refusal :=
  s.onDev fun d => d.withCrc crc fun d => d.cmdChunkDone t.val chunk weights states errs sram

/-- PROGRAM_FAULTED: the faulting chunk writes nothing and the group is interrupted (R267). -/
def Dev.cmdProgramFaulted (d : Dev) (t chunk : Nat) : Dev :=
  match (d.stoker t).code with
  | some r => if (r.coreOf chunk).isSome then (d.raise Event.programFault .group r.group).stopCode t r.group else d
  | none => d

/-- PROGRAM_FAULTED (R267). -/
def execProgramFaulted (t : Fin 2) (chunk : Nat) (s : State) : Host.Outcome State Fault Refusal := s.onDev fun d => d.cmdProgramFaulted t.val chunk

/-- GROUP_NORM: the next group of a NORM is summed; a sum that stops reads as the default NaN. -/
def Dev.cmdGroupNorm (d : Dev) (t : Nat) (sramAt : Option Nat) : Dev :=
  match d.nextGroup t 2 with
  | none => d
  | some (v, g, rest) =>
    match (d.markRunning t g true).normGroup g sramAt with
    | (_, .waits, _) => d.wakeStacks (d.gcfg g)
    | (d, a, sum) => ((d.put Obj.GRAD_SQ_SUM (if a = .ok then sum else nan32) g).markRunning t g false).groupsLeft t v rest

/-- GROUP_NORM (R253). -/
def execGroupNorm (t : Fin 2) (sramAt : Option Nat) (crc : List (Nat × Nat)) (s : State) : Host.Outcome State Fault Refusal :=
  s.onDev fun d => d.withCrc crc fun d => d.cmdGroupNorm t.val sramAt

/-- GROUP_RESET_STATE: the next group of a RESET_STATE is reset. -/
def Dev.cmdGroupReset (d : Dev) (t : Nat) : Dev :=
  match d.nextGroup t 3 with
  | none => d
  | some (v, g, rest) => (((d.markRunning t g true).resetGroup g).markRunning t g false).groupsLeft t v rest

/-- GROUP_RESET_STATE (R254). -/
def execGroupResetState (t : Fin 2) (s : State) : Host.Outcome State Fault Refusal := s.onDev fun d => d.cmdGroupReset t.val

/-- STOKER_DOORBELL_DONE: with every group of the doorbell finished its notice is sent and the next doorbell is taken (R250, R251). -/
def Dev.cmdStokerDone (d : Dev) (t : Nat) : Dev :=
  let x := d.stoker t
  match x.taken with
  | none => d
  | some (v, gs) =>
    if x.code.isNone && gs.all (d.passesOver (bits v 63 60)) then
      let d := d.setStoker t { x with taken := none }
      let d := if bit v 35 then d.arrival (bits v 34 25) (bits v 24 10) else d
      d.stokerTake t
    else d

/-- STOKER_DOORBELL_DONE (R251). -/
def execStokerDoorbellDone (t : Fin 2) (s : State) : Host.Outcome State Fault Refusal := s.onDev fun d => d.cmdStokerDone t.val

/-- A write to STOKER_DOORBELL whose OP field reads `op`, with the status it completes with. -/
def Dev.cmdStokerBell (d : Dev) (t op v : Nat) : Dev :=
  let (d, r) := d.stokerBell t (setBits (v % 2 ^ 64) 63 60 op)
  d.answer r

/-- UPDATE (R250). -/
def execUpdate (t : Fin 2) (v : Nat) (s : State) : Host.Outcome State Fault Refusal := s.onDev fun d => d.gated fun d => d.cmdStokerBell t.val 1 v

/-- NORM (R253). -/
def execNorm (t : Fin 2) (v : Nat) (s : State) : Host.Outcome State Fault Refusal := s.onDev fun d => d.gated fun d => d.cmdStokerBell t.val 2 v

/-- RESET_STATE (R254). -/
def execResetState (t : Fin 2) (v : Nat) (s : State) : Host.Outcome State Fault Refusal := s.onDev fun d => d.gated fun d => d.cmdStokerBell t.val 3 v

/-- GROUP_ENABLE (R247). -/
def execGroupEnable (g : Fin 4096) (v : Nat) (s : State) : Host.Outcome State Fault Refusal :=
  s.onDev fun d => d.gated fun d => let (d, r) := d.writeGroupCtl g.val (v % 2 ^ 64); d.answer r

/-- A write to GROUP_STATUS: busy while RUNNING; a 1 clears its bit; FALLBACK also zeroes CONSEC_FAILS and forces a root step (R246). -/
def Dev.writeGroupStatus (d : Dev) (g v : Nat) : Dev × Nat :=
  if d.groupBit g 4 then (d, 3)
  else
    let d := (List.range 3).foldl (fun d b => if bit v b then d.putBit Obj.GROUP_STATUS b false g else d) d
    let d := if bit v 1 then (d.setFails g 0).modStoker (g / 2048) fun x =>
        { x with forced := if x.forced.contains g then x.forced else x.forced ++ [g] }
      else d
    (d, 0)

/-- GROUP_STATUS_WRITE (R246). -/
def execGroupStatusWrite (g : Fin 4096) (v : Nat) (s : State) : Host.Outcome State Fault Refusal :=
  s.onDev fun d => d.gated fun d => let (d, r) := d.writeGroupStatus g.val v; d.answer r

/-- SLOW_TIER_READ (R239 to R242). -/
def execSlowTierRead (h : Fin 1024) (t : Fin 2) (line : Nat) (ctx : Fin 16) (words : List SramOutcome) (rivals : List (Fin 3)) (s : State) :
    Host.Outcome State Fault Refusal :=
  s.onDev fun d => d.slowRequest t.val (slowPort h.val) (rivals.map Fin.val) ⟨line % 2 ^ 32, false, [], false, ctx.val, words⟩

/-- SLOW_TIER_WRITE (R239 to R242). -/
def execSlowTierWrite (h : Fin 1024) (t : Fin 2) (line : Nat) (ctx : Fin 16) (data : List Byte) (ash : Bool) (rivals : List (Fin 3))
    (s : State) : Host.Outcome State Fault Refusal :=
  s.onDev fun d => d.slowRequest t.val (slowPort h.val) (rivals.map Fin.val) ⟨line % 2 ^ 32, true, data, ash, ctx.val, []⟩

/-- STOKER_SLEEP: a READY Stoker with nothing queued or in hand goes to sleep, unless SLEEP_IDLE is 0 (R242). -/
def Dev.cmdStokerSleep (d : Dev) (t : Nat) : Dev :=
  let x := d.stoker t
  if d.get Obj.STOKER_STATE t = 2 ∧ x.queue.isEmpty ∧ x.waiting.isEmpty ∧ x.taken.isNone ∧ d.get Obj.SLEEP_IDLE t ≠ 0 then d.put Obj.STOKER_STATE 3 t else d

/-- STOKER_SLEEP (R242). -/
def execStokerSleep (t : Fin 2) (s : State) : Host.Outcome State Fault Refusal := s.onDev fun d => d.cmdStokerSleep t.val

/-- STOKER_WAKE: an ASLEEP Stoker is READY again, serves the requests and takes a doorbell that waited (R242, R270). -/
def Dev.cmdStokerWake (d : Dev) (t : Nat) : Dev :=
  if d.get Obj.STOKER_STATE t = 3 then ((d.put Obj.STOKER_STATE 2 t).slowAdmit t).stokerTake t else d

/-- STOKER_WAKE (R242). -/
def execStokerWake (t : Fin 2) (s : State) : Host.Outcome State Fault Refusal := s.onDev fun d => d.cmdStokerWake t.val

/-- Failed attempts of a part of a Stoker: 0 its LPDDR5X, 1 and 2 its links. -/
def Stoker.failedAt (x : Stoker) (part : Nat) : Nat := tget 0 x.attempts part

/-- STOKER_READY: with its LPDDR5X and a link trained a Stoker is READY (R271). -/
def Dev.cmdStokerReady (d : Dev) (t links : Nat) : Dev :=
  let x := d.stoker t
  let up (l : Nat) : Bool := bit links l && decide (x.failedAt (l + 1) < 3)
  if d.get Obj.STOKER_STATE t = 1 ∧ x.failedAt 0 < 3 ∧ (up 0 || up 1) then ((d.put Obj.STOKER_STATE 2 t).slowAdmit t).stokerTake t else d

/-- STOKER_READY (R271). -/
def execStokerReady (t : Fin 2) (links : Nat) (s : State) : Host.Outcome State Fault Refusal := s.onDev fun d => d.cmdStokerReady t.val links

/-- STOKER_TRAIN_TIMEOUT: a failed attempt; the third of the LPDDR5X, or of the second link, fails the Stoker (R271). -/
def Dev.cmdStokerTimeout (d : Dev) (t part : Nat) : Dev :=
  if d.get Obj.STOKER_STATE t ≠ 1 then d
  else
    let d := d.modStoker t fun x => { x with attempts := tset 0 x.attempts part (min 3 (x.failedAt part + 1)) }
    let x := d.stoker t
    if x.failedAt 0 = 3 ∨ (x.failedAt 1 = 3 ∧ x.failedAt 2 = 3) then
      ((d.put Obj.STOKER_STATE 4 t).raise Event.stokerFailed .stoker t).slowAdmit t
    else d

/-- STOKER_TRAIN_TIMEOUT (R271). -/
def execStokerTrainTimeout (t : Fin 2) (part : Fin 3) (s : State) : Host.Outcome State Fault Refusal :=
  s.onDev fun d => d.cmdStokerTimeout t.val part.val

/-- A write to a Stoker's SR_SEED restarts its sequence (R268). -/
def Dev.writeStokerSeed (d : Dev) (t v : Nat) : Dev := (d.put Obj.STOKER_SR_SEED v t).modStoker t fun x => { x with srDraws := 0 }

/-- STOKER_SR_SEED_WRITE (R268). -/
def execStokerSrSeedWrite (t : Fin 2) (v : Nat) (s : State) : Host.Outcome State Fault Refusal :=
  s.onDev fun d => d.gatedStoker t.val fun d => (d.writeStokerSeed t.val v).answer 0

/-- A write to a hearth's SR_SEED restarts its sequence (R60). -/
def Dev.writeHearthSeed (d : Dev) (h v : Nat) : Dev := (d.put Obj.HEARTH_SR_SEED v h).modHearth h fun x => { x with srDraws := 0 }

/-- HEARTH_SR_SEED_WRITE (R60). -/
def execHearthSrSeedWrite (h : Fin 1024) (v : Nat) (s : State) : Host.Outcome State Fault Refusal :=
  s.onDev fun d => d.gatedHearth h.val Obj.HEARTH_SR_SEED 0 v fun d => (d.writeHearthSeed h.val v).answer 0

end Sys2Proof.Machine
end

