-- ==== Sys2Proof/Machine/DictOps.lean ====
section
/-! DEFINITION. Reading and writing objects by number (R339 to R352): values that objects compute, busy instances, write checks, and
the objects whose writes do more than store. -/

namespace Sys2Proof.Machine

/-! ### Values of objects -/

/-- FLUE_STATUS (R171). -/
def Dev.flueStatus (d : Dev) (f : Nat) : Nat :=
  let n := (d.flueCfg f).slots
  let x := d.flue f
  let field := fun (s : Nat) => s % n + if lapBit s n then 256 else 0
  let filled := ((List.range n).filter fun i => (x.slot i).st = .filled).length
  field x.put * 2 ^ 55 + field x.get * 2 ^ 46 + filled * 2 ^ 37

/-- FLUE_SLOT_STATE of the slot that FLUE_SLOT_SELECT names (R171). -/
def Dev.flueSlotState (d : Dev) (f : Nat) : Nat :=
  let i := d.get Obj.FLUE_SLOT_SELECT f
  if (d.flueCfg f).slots ≤ i then 0
  else
    let s := (d.flue f).slot i
    (match s.st with
     | .empty => 0
     | .filled => 1
     | .draining => 2) + (if s.ash then 4 else 0) + (if s.doneLap then 8 else 0) + if s.pending then 16 else 0

/-- How many logical hearths a condition holds of. -/
def countHearths (p : Nat → Bool) : Nat := ((List.range 1024).filter p).length

/-- Hearths with FW_STATE failed (R399). -/
def Dev.fwFailedAt (d : Dev) (h : Nat) : Bool := d.get Obj.FW_STATE h = 3 && !d.hearthAbsent h

/-- Values that the module's own records give: the straps and the ember store. -/
def Vault.valueOf (v : Vault) (o : ObjDef) (e : Nat) : Option Nat :=
  if o = Obj.COOLING_CLASS then some v.coolingClass
  else if o = Obj.STRAP_CODE then some v.strapCode
  else if o = Obj.ENVELOPE_W then some (envelopeOf v.coolingClass)
  else if o = Obj.DEFECT_COUNT then some v.defects.length
  else if o = Obj.SECURITY_VERSION then some v.secVersion
  else if o = Obj.FW_SLOT_STATE then some (tget 0 v.slotState e)
  else if o = Obj.LAST_SHUTDOWN then some v.lastShutdown
  else none

/-- Values of the device-global objects that the device computes (R127, R392, R399, R457). -/
def Dev.globalValue (d : Dev) (o : ObjDef) : Option Nat :=
  if o = Obj.TICK_COUNT then some (d.tick % 2 ^ 64)
  else if o = Obj.POWER_STATUS then some d.powerStatus
  else if o = Obj.POOL_HEARTHS then some (countHearths d.inPool)
  else if o = Obj.ABSENT_HEARTHS then some (countHearths d.hearthAbsent)
  else if o = Obj.FW_FAILED_HEARTHS then some (countHearths d.fwFailedAt)
  else if o = Obj.TESTING_HEARTHS then some (countHearths fun h => !d.inPool h && !d.hearthAbsent h && !d.fwFailedAt h)
  else if o = Obj.STORE_QUEUED then some d.store.queue.length
  else none

/-- Values of a hearth that it computes (R68, R127). -/
def Hearth.valueOf (x : Hearth) (o : ObjDef) (e : Nat) : Option Nat :=
  if o = Obj.WINDOW_OCCUPANCY then some x.window.length
  else if o = Obj.PROVISIONAL_OCCUPANCY then some (x.window.filter fun w => w.slot.isSome).length
  else if o = Obj.OLDEST_ENTRY then some x.oldestEntry
  else if o = Obj.LOOP_INDICES then some x.loopIndices
  else if o = Obj.COUNTER then some (x.counter e)
  else if o = Obj.SCALE_SLOT then some (x.slot e).word
  else none

/-- Values that other units compute (R171, R212, R215, R249, R374): ENABLE of word A of a block-maximum window shows whether it is
armed (log entry 28). -/
def Dev.unitValue (d : Dev) (o : ObjDef) (i e : Nat) : Option Nat :=
  if o = Obj.JOB_QUEUE_DEPTH then some (d.stack i).doorbells.length
  else if o = Obj.DOORBELL_QUEUE_DEPTH then some (d.stoker i).queue.length
  else if o = Obj.GATED_HEARTHS then some (9 - ((hearthsOfCluster i).filter fun h => d.hState h = hFiring).length)
  else if o = Obj.FLUE_STATUS then some (d.flueStatus i)
  else if o = Obj.FLUE_SLOT_STATE then some (d.flueSlotState i)
  else if o = Obj.BMAX_WIN then
    if e % 2 = 0 then some (setBit (d.get o i e) 63 (tget none (d.stack i).bmax (e / 2)).isSome) else none
  else none

/-- The value an element of an object has now. -/
def State.value (s : State) (o : ObjDef) (i e : Nat) : Nat :=
  let x := match o.kind with
    | .global => match s.vault.valueOf o e with
      | some v => some v
      | none => s.dev.globalValue o
    | .hearth => (s.dev.hearth i).valueOf o e
    | _ => s.dev.unitValue o i e
  x.getD (s.dev.get o i e)

/-- What an element of an object reads as: in confidential mode a C object reads in coarse form (R333, R352, R391, R437). -/
def State.shown (s : State) (o : ObjDef) (i e : Nat) : Nat :=
  let v := s.value o i e
  if !o.attrC || decide (s.dev.get Obj.CONFIDENTIAL_ACTIVE ≠ 1) || o = Obj.MODULE_POWER_MW || o = Obj.SILICON_POWER_MW then v
  else if o = Obj.MODULE_ENERGY_MJ || o = Obj.SILICON_ENERGY_MJ || o = Obj.ENERGY_MJ || o = Obj.ENERGY_UNATTRIBUTED_MJ then v / 1000 * 1000
  else match tget 0 s.dev.coarse (o.key i e) with
    | 0 => o.resetVal i e / 4096 * 4096
    | w + 1 => w / 4096 * 4096

/-- Objects hidden in confidential mode (R391). -/
def Dev.hides (d : Dev) (o : ObjDef) : Bool :=
  d.get Obj.CONFIDENTIAL_ACTIVE = 1 && (o = Obj.DIE_POWER_MW || o = Obj.REGION_ENERGY_UJ)

/-- The bytes a STRING or DOMAIN holds from byte `k`, up to `n` of them, stopping at its end (R356). -/
def State.blockBytes (s : State) (o : ObjDef) (i e k n : Nat) : List Byte :=
  let n := min n (o.size - k)
  if o = Obj.DEFECT_LIST then ((fit 0 32768 (s.vault.defects.flatMap (leBytes 8))).drop k).take n
  else s.dev.domRead o k n i e

/-! ### Idle or asleep (R346) -/

/-- A region is busy for RWI writes. -/
def Dev.regionBusy (d : Dev) (g : Nat) : Bool :=
  d.get Obj.CLOCK_STATE g ≠ 0 &&
    ((hearthsOfRegion g).any (fun h => d.hState h = hFiring) || [2 * g, 2 * g + 1].any fun st => !(d.stack st).waiting.isEmpty)

/-- A context slot is busy (R316). -/
def Dev.ctxBusy (d : Dev) (c : Nat) : Bool :=
  d.ctxRunning c || d.hearths.any fun (e : Nat × Hearth) => e.2.places.any fun p => p.2.any fun (t : Transfer) => t.ctx = c

/-- The instance of an RWI object is busy. -/
def Dev.rwiBusy (d : Dev) (o : ObjDef) (i e : Nat) : Bool :=
  match o.kind with
  | .global | .stoker => false
  | .die => d.regionBusy (4 * i + e)
  | .region => d.regionBusy i
  | .stack => d.get Obj.STACK_STATE i ≠ 0 && (!(d.stack i).waiting.isEmpty || !(d.stack i).doorbells.isEmpty)
  | .port => decide (1 < d.get Obj.PORT_STATE i)
  | .cluster => (hearthsOfCluster i).any fun h => d.hState h = hFiring
  | .hearth => d.hState i = hFiring
  | .ctx => d.ctxBusy i
  | .group => !d.groupIdle i
  | .flue => d.flueBusy i

/-- An absent hearth, or an OFF or FAILED Stoker, whose objects take no write (R354). -/
def Dev.instanceOff (d : Dev) (o : ObjDef) (i : Nat) : Bool :=
  match o.kind with
  | .hearth => d.hearthAbsent i
  | .stoker => d.get Obj.STOKER_STATE i = 0 || d.get Obj.STOKER_STATE i = 4
  | _ => false

/-- The region an object belongs to, if any (R365). -/
def ObjDef.regionOf (o : ObjDef) (i : Nat) : Option Nat :=
  match o.kind with
  | .region => some i
  | .cluster => some (i / 8)
  | .hearth => some (i / 64)
  | _ => none

/-- The region whose clock an access to an object needs: none for a read of an RO or CONST object (R365). -/
def ObjDef.needs (o : ObjDef) (i : Nat) (write : Bool) : List Nat :=
  if !write && (o.right = .ro || o.right = .const) then [] else (o.regionOf i).toList

/-! ### Write checks (R341) -/

/-- Whether a value is one that a type, or the codes of an ENUM8, forbids. -/
def ObjDef.forbids (o : ObjDef) (v : Nat) : Bool :=
  match o.typ with
  | .bool => decide (1 < v)
  | .f32 => bits v 30 23 = 255
  | .enum8 => decide (o.codes ≤ v) || (o = Obj.DP_GO && decide (v = 0))
  | _ => false

/-! ### Objects whose writes have rules of their own (R342) -/

/-- A region descriptor as (first line, last line); one of KIND 0 is no region (R129). -/
def regionSpan (v : Nat) : Nat × Nat := (bits v 63 49, bits v 63 49 + bits v 48 34)

/-- Whether R130 refuses a write to region descriptor `n`. -/
def Dev.regionRefused (d : Dev) (h n v : Nat) : Bool :=
  let k := bits v 33 31
  let o := bits v 29 25
  decide (5 < k) || (decide (15 < o) && decide (o < 31)) || decide (32767 < (regionSpan v).2) ||
  (k ≠ 0 && (List.range 16).any fun m =>
    let w := d.get Obj.REGION h m
    m ≠ n && bits w 33 31 ≠ 0 && decide ((regionSpan w).1 ≤ (regionSpan v).2) && decide ((regionSpan v).1 ≤ (regionSpan w).2))

/-- A write to SCALE_SLOT: INIT_EXP, HIST_COUNT and MARGIN; the other fields are RO (R68, R81). -/
def Dev.writeScaleSlot (d : Dev) (h n v : Nat) : Dev :=
  d.modHearth h fun x =>
    let s := x.slot n
    let e := toSigned 8 (bits v 23 16)
    let s := { s with initExp := if e = -128 then -127 else e, margin := bits v 10 9, hist := if bits v 15 11 = 0 then [] else s.hist }
    x.writeSlot n (bits v 15 11 = 0) fun _ => s

/-- PERSIST_SAVE takes the running value of every P object; a newer save replaces an older one (R350). -/
def Dev.persistSave (d : Dev) : Dev :=
  let q := d.store.saveSeq + 1
  let keep := fun (o : StoreOp) => match o.job with
    | .persist .. | .persistErase .. => false
    | _ => true
  { d with saveOd := d.persistVals, saveDom := d.persistBytes,
           store := { d.store with saveSeq := q, touched := false, queue := d.store.queue.filter keep } }.put Obj.PERSIST_STATE 2

/-- A write to PERSIST_SAVE on the whole state: the save goes to the area that does not hold the last complete record (R350, R455). -/
def State.persistSave (s : State) : State :=
  let d := s.dev.persistSave
  { s with dev := d.queueStore (.persistErase (1 - s.vault.persistArea) d.store.saveSeq) }

/-- A write to PERSIST_RESTORE_DEFAULTS marks the record (R351). -/
def State.restoreDefaults (s : State) : State := { s with vault := { s.vault with persistDefaults := true } }

/-- A write to FETCH_SEQ captures a record (R370). -/
def Dev.fetchSeq (d : Dev) (v : Nat) : Dev :=
  let v := v % 2 ^ 32
  let ahead := (v + 2 ^ 32 - d.get Obj.EVENT_NEXT_SEQ) % 2 ^ 32
  let r := if ahead < 2 ^ 31 then none else d.events.ring.find? fun r => r.seq = v
  let w := match r with
    | some r => r.toNat
    | none => 0
  let d := (List.range 4).foldl (fun d k => d.put Obj.FETCH_W (w / 2 ^ (64 * k)) 0 k) (d.put Obj.FETCH_SEQ v)
  d.put Obj.FETCH_STATUS (if r.isSome then 0 else if ahead < 2 ^ 31 then 2 else 1)

/-- DESC_RESULT and DESC_DEFAULT of the object at an index and subindex (R352, R360). -/
def State.describe (s : State) (index sub : Nat) : Nat × Nat :=
  if sub = 0 then
    match highestSub index with
    | some h => (2 ^ 60 + 1, h)
    | none => (2 ^ 53, 0)
  else match lookupObj index sub with
    | none => (2 ^ 53, 0)
    | some (o, i, e) =>
      if s.dev.hides o then (2 ^ 53, 0)
      else
        let flag := fun (b : Bool) (n : Nat) => if b then 2 ^ n else 0
        let size := if o.typ.isBlock then o.size else o.typ.bytes
        (o.typ.code * 2 ^ 60 + o.right.code * 2 ^ 57 + flag o.attrP 56 + flag o.attrC 55 + flag o.attrL 54 + size,
         if o.typ.isBlock then 0
         else if o = Obj.POWER_CAP_W then envelopeOf s.vault.coolingClass
         else (s.vault.valueOf o e).getD (o.resetVal i e))

/-- A write to DESC_TARGET (R360). -/
def State.descTarget (s : State) (v : Nat) : State :=
  let v := v % 2 ^ 28
  let r := s.describe (bits v 27 8) (bits v 7 0)
  { s with dev := ((s.dev.put Obj.DESC_TARGET v).put Obj.DESC_RESULT r.1).put Obj.DESC_DEFAULT r.2 }

/-- The counters each clearing object clears. -/
def clearTable : List (ObjDef × List ObjDef) :=
  [(Obj.COUNTERS_CLEAR, arithCounters), (Obj.SEQ_COUNTERS_CLEAR, seqCounters), (Obj.STREAM_COUNTERS_CLEAR, streamCounters),
   (Obj.IDLE_COUNTERS_CLEAR, idleCounters), (Obj.HBM_COUNTERS_CLEAR, hbmCounters), (Obj.HOB_COUNTERS_CLEAR, hobCounters),
   (Obj.GROUP_COUNTERS_CLEAR, groupCounters), (Obj.STOKER_COUNTERS_CLEAR, stokerCounters), (Obj.PORT_COUNTERS_CLEAR, portCounters),
   (Obj.FABRIC_COUNTERS_CLEAR, fabricCounters), (Obj.ACCOUNTS_CLEAR, accountObjs ++ accountSums)]

/-- FLUE_PEER's bits that are not reserved, by the flue's PROXY bit (R171). -/
def Dev.peerBits (d : Dev) (f v : Nat) : Nat :=
  if (d.flueCfg f).proxy then bits v 63 44 * 2 ^ 44 + bits v 15 0 else bits v 63 34 * 2 ^ 34

/-- What a write of `v` to BMAX_WIN stores: the reserved bits of words A and B read as zero (R8, R212). -/
def bmaxBits (e v : Nat) : Nat := if e % 2 = 0 then v / 2 ^ 13 * 2 ^ 13 else v / 2 ^ 4 * 2 ^ 4

/-- An entry of a hob table as stored: the reserved bits of its kind are zero (R8, R201, R202, R214). -/
def hobEntryKept (v : Nat) : Nat :=
  match bits v 127 124 with
  | 1 => v / 2 ^ 103 * 2 ^ 103
  | 2 => v / 2 ^ 62 * 2 ^ 62
  | 3 => v / 2 ^ 12 * 2 ^ 12
  | _ => v

/-- The entries of a hob table that a write of `n` bytes at `off` touches lose their reserved bits. -/
def Dev.trimHob (d : Dev) (o : ObjDef) (i e off n : Nat) : Dev :=
  (List.range ((off % 16 + n + 15) / 16)).foldl (fun d k =>
    let a := (off / 16 + k) * 16
    d.domWrite o a (leBytes 16 (hobEntryKept (leNat (d.domRead o a 16 i e)))) i e) d

/-- Doorbells and unit commands: the effect of a write by requester `who`, with its status. -/
def Dev.unitWrite (d : Dev) (vt : Vault) (o : ObjDef) (i e v who : Nat) : Option (Dev × Nat) :=
  if o = Obj.HOB_DOORBELL then some (d.hobBell i v)
  else if o = Obj.RETRAIN_REQUEST then some (let d := d.cmdRetrainRequest i v; (d, d.reply.status))
  else if o = Obj.STACK_POWER_CTL then some (if v = 0 then d.cmdStackOff i else d.cmdStackOn i, 0)
  else if o = Obj.CKPT_WIN then some (d.cmdCkptWin i e v, 0)
  else if o = Obj.BMAX_WIN then some (if (tget none (d.stack i).bmax (e / 2)).isSome then (d, 3) else (d.put o (bmaxBits e v) i e, 0))
  else if o = Obj.PORT_CTL then some (if v = 0 then d.disablePort i else d.enablePort i, 0)
  else if o = Obj.STOKER_DOORBELL then some (d.stokerBell i v)
  else if o = Obj.STOKER_SR_SEED then some (d.writeStokerSeed i v, 0)
  else if o = Obj.GROUP_CTL then some (d.writeGroupCtl i v)
  else if o = Obj.GROUP_STATUS then some (d.writeGroupStatus i v)
  else if o = Obj.FLUE_CFG then some (d.writeFlueCfg i v)
  else if o = Obj.FLUE_PEER then some (d.put o (d.peerBits i v) i, 0)
  else if o = Obj.FLUE_DOORBELL then some ((d.askFlue i who []).1.flueDoorbell i v)
  else if o = Obj.CLUSTER_RESET then some (d.writeClusterReset (Fin.ofNat 128 i) v)
  else if o = Obj.REGION_PARTITION then some (if 8 ≤ v ∧ v < 255 then (d, 4) else (d.put o v i e, 0))
  else if o = Obj.OP_LIMIT ∨ o = Obj.PHASE_OP then some ((d.put o (min v 15) i e).retarget i, 0)
  else if o = Obj.PHASE_DOORBELL then some (d.phaseBell v)
  else if o = Obj.POWER_CAP_W then some (if v < 400 then (d, 4) else (d.put o (min v (envelopeOf vt.coolingClass)), 0))
  else if o = Obj.PARTITION_RESET then some (d.writePartitionReset v)
  else if o = Obj.DEFECT_ADD then some (d.writeDefectAdd vt v)
  else none

/-- Objects of a hearth or a context slot: the effect of a write, with its status. -/
def Dev.hearthWrite (d : Dev) (o : ObjDef) (i e v : Nat) : Option (Dev × Nat) :=
  if o = Obj.HEARTH_SR_SEED then some (d.writeHearthSeed i v, 0)
  else if o = Obj.HEARTH_RESET then some (d.writeHearthReset (Fin.ofNat 1024 i) v)
  else if o = Obj.SCALE_SLOT then some (d.writeScaleSlot i e v, 0)
  else if o = Obj.REGION then some (if d.regionRefused i e v then (d, 4) else (d.put o (v / 2 ^ 17 * 2 ^ 17) i e, 0))
  else if o = Obj.STREAM_RESUME then some (d.resumeStream i (v % 32) (bit v 63), 0)
  else if o = Obj.WEIGHT_READ_MODE then some (if 1 < v then d else d.put o v i, 0)
  else if o = Obj.CTX_ENABLE then some (d.writeCtxEnable i v, 0)
  else if o = Obj.STEP_DOORBELL then some (d.stepBell i v)
  else if o = Obj.PRIORITY then some (d.put o (min v 3) i, 0)
  else if o = Obj.TLB_INVALIDATE then some (if v = 1 then d.put Obj.TLB_INVAL_PENDING 1 i else d, 0)
  else if o = Obj.ACCOUNTS_SNAPSHOT then some (if v = 1 then d.snapshot i else d, 0)
  else match clearTable.find? fun c => c.1 = o with
    | some c => some (if v = 1 then d.zero c.2 i else d, 0)
    | none => none

/-- A write to FW_UPDATE_CTL: its operation (R424); the outcomes of VERIFY's checks are free values (25). -/
def State.fwControl (s : State) (v : Nat) : State :=
  let flip := fun (k : Nat) => decide (Config.free 25 (s.dev.free + k) % 2 = 0)
  match bits v 63 60 with
  | 1 => s.fwBegin
  | 2 => s.fwProgram (bits v 20 0)
  | 3 => ({ s with dev := { s.dev with free := s.dev.free + 3 } }).fwVerify (flip 0) (flip 1) (flip 2)
  | 4 => s.fwActivate
  | 5 => s.fwAbort
  | _ => s.answer 4

/-- Commands to the management core that act on the whole module. -/
def State.pilotWrite (s : State) (o : ObjDef) (v : Nat) : Option (State × Nat) :=
  let withReply := fun (s : State) => (s, s.dev.reply.status)
  if o = Obj.PERSIST_SAVE then some (if v = 1 then s.persistSave else s, 0)
  else if o = Obj.PERSIST_RESTORE_DEFAULTS then some (if v = 1 then s.restoreDefaults else s, 0)
  else if o = Obj.DESC_TARGET then some (s.descTarget v, 0)
  else if o = Obj.FETCH_SEQ then some ({ s with dev := s.dev.fetchSeq v }, 0)
  else if o = Obj.FW_UPDATE_CTL then some (withReply (s.fwControl v))
  else if o = Obj.FW_CONFIRM then some (withReply (s.fwConfirm v))
  else if o = Obj.BUNDLE_LOAD then
    let r := ({ s.dev with free := s.dev.free + 1 }).writeBundleLoad v (decide (Config.free 25 s.dev.free % 2 = 0))
    some ({ s with dev := r.1 }, r.2)
  else if o = Obj.BUNDLE_RELEASE then let r := s.dev.writeBundleRelease v; some ({ s with dev := r.1 }, r.2)
  else if o = Obj.WHOLE_RESET then
    let r := s.dev.freePins
    some (withReply (({ s with dev := r.2 }).writeWholeReset v r.1.1 r.1.2))
  else none

/-! ### Writes (R341 to R346) -/

/-- Store a value an object accepts: reserved bits are dropped (R8), and a 1 clears a bit of an RW1C object (R345). -/
def Dev.keep (d : Dev) (o : ObjDef) (i e v : Nat) : Dev :=
  if o.right = .rw1c then
    let old := d.get o i e
    d.put o (old - Nat.land old v) i e
  else d.put o (Nat.land v o.wmask) i e

/-- Mark that a P object has been written, once the write is done (R350). -/
def touched (o : ObjDef) (r : State × Nat) : State × Nat :=
  if o.attrP && r.2 = 0 then ({ r.1 with dev := r.1.dev.touchP }, 0) else r

/-- Status that a write of the object completes with before its value is looked at, 0 when it may go on (R345, R346, R354). -/
def Dev.writeRefused (d : Dev) (o : ObjDef) (i e : Nat) : Nat :=
  if o.right = .ro || o.right = .const then 2
  else if d.instanceOff o i then 3
  else if o.right = .rwi && d.rwiBusy o i e then 3
  else 0

/-- A write of bytes into a DOMAIN at an offset, in one cycle; a STRING's offset is zero (R358). -/
def State.writeBlock (s : State) (o : ObjDef) (i e off : Nat) (bs : List Byte) : State × Nat :=
  if o.typ = .string ∧ (off ≠ 0 ∨ 256 < bs.length) then (s, 6)
  else match s.dev.writeRefused o i e with
  | 0 =>
    if o.size < off + bs.length then (s, 6)
    else touched o (
      if o = Obj.ROUTE_IN_GROUP then let r := s.dev.writeRouteIn off bs; ({ s with dev := r.1 }, r.2)
      else if o = Obj.ROUTE_CROSS_GROUP then let r := s.dev.writeRouteCross off bs; ({ s with dev := r.1 }, r.2)
      else if o = Obj.QUOTE_REQ then s.writeQuote e bs
      else
        let d := s.dev.domWrite o off bs i e
        ({ s with dev := if o = Obj.HOB_TABLE_0 ∨ o = Obj.HOB_TABLE_1 then d.trimHob o i e off bs.length else d }, 0))
  | r => (s, r)

/-- What an index and subindex name: subindex 0 of R339, an object's element, or nothing. -/
inductive Target where
  | highest (n : Nat)
  | elem (o : ObjDef) (i e : Nat)
  | absent
  deriving DecidableEq, Repr

/-- Find the target of an access; a hidden object is absent (R352). -/
def Dev.target (d : Dev) (index sub : Nat) : Target :=
  if sub = 0 then
    match highestSub index with
    | some h => .highest h
    | none => .absent
  else match lookupObj index sub with
    | some (o, i, e) => if d.hides o then .absent else .elem o i e
    | none => .absent

/-- The size of a target as a scalar: none for a STRING or DOMAIN or nothing. -/
def Target.scalarSize : Target → Option Nat
  | .highest _ => some 1
  | .elem o _ _ => if o.typ.isBlock then none else some o.typ.bytes
  | .absent => none

/-! ### The domain port (R360) -/

/-- The 256 bytes of DP_DATA. -/
def Dev.dpData (d : Dev) : List Byte := (List.range 32).flatMap fun k => leBytes 8 (d.get Obj.DP_DATA 0 k)

/-- Replace the first bytes of DP_DATA. -/
def Dev.putDpData (d : Dev) (bs : List Byte) : Dev :=
  let all := fit 0 256 (bs ++ d.dpData.drop bs.length)
  (List.range 32).foldl (fun d k => d.put Obj.DP_DATA (leNat ((all.drop (8 * k)).take 8)) 0 k) d

/-- What a DP_GO does, with the status that DP_STATUS takes. -/
def State.dpMove (s : State) (write : Bool) : State × Nat :=
  let t := s.dev.get Obj.DP_TARGET
  let off := s.dev.get Obj.DP_OFFSET
  let len := s.dev.get Obj.DP_LENGTH
  if len = 0 ∨ 256 < len then (s, 6)
  else match s.dev.target (bits t 27 8) (bits t 7 0) with
    | .absent => (s, 1)
    | .highest _ => (s, 2)
    | .elem o i e =>
      if !o.typ.isBlock then (s, 2)
      else if write then s.writeBlock o i e off (s.dev.dpData.take len)
      else if o.right = .wo then (s, 2)
      else if o.typ = .domain ∧ o.size < off + len then (s, 6)
      else ({ s with dev := s.dev.putDpData (s.blockBytes o i e off len) }, 0)

/-- The action of a write to DP_GO: 1 reads, 2 writes; DP_STATUS takes the result. -/
def State.dpGo (s : State) (write : Bool) : State :=
  let r := s.dpMove write
  { r.1 with dev := r.1.dev.put Obj.DP_STATUS r.2 }

/-! ### Scalar writes -/

/-- A write that the right and the instance allow, by requester `who`: the checks of the type, then the object's own rule or a plain
store. -/
def State.applyWrite (s : State) (who : Nat) (o : ObjDef) (i e v : Nat) : State × Nat :=
  if o.forbids v then (s, 4)
  else if o = Obj.DP_GO then (s.dpGo (v = 2), 0)
  else match s.pilotWrite o v with
    | some r => r
    | none => match (s.dev.unitWrite s.vault o i e v who).orElse fun _ => s.dev.hearthWrite o i e v with
      | some r => ({ s with dev := r.1 }, r.2)
      | none => ({ s with dev := s.dev.keep o i e v }, 0)

/-- A write of a scalar object that has been accepted. -/
def State.writeScalar (s : State) (who : Nat) (o : ObjDef) (i e v : Nat) : State × Nat :=
  touched o (s.applyWrite who o i e (v % 2 ^ (8 * o.typ.bytes)))

/-! ### Access by number (R339, R352, R357, R359, R365, R395) -/

/-- Whether the path is served: not before the Pilot firmware runs, in RECOVERY on I3C alone (R395), and not while its queue is full
(R365). -/
def Dev.serves (d : Dev) (path : Path) : Bool :=
  let b := d.get Obj.BOOT_STATE
  decide (2 ≤ b) && (b ≠ 4 || path = .i3c) && !d.pathFull (pathNo path)

/-- Whether the management core, while it restarts, would have to serve an access: to a device-global index, or over MCTP (R372). -/
def Dev.pilotAway (d : Dev) (path : Path) (index : Nat) : Bool := d.pilot.restarting && (path = .i3c || decide (index < 0x10000))

/-- Regions whose clocks an access by number needs (R365). -/
def Dev.needs (d : Dev) (index sub : Nat) (write : Bool) : List Nat :=
  match d.target index sub with
  | .elem o i _ => o.needs i write
  | _ => []

/-- The status with which a write of a scalar is refused before its value is looked at; 0 where it is accepted. Whether an RWI object is
idle is asked here, before its region's clock is started (R346). -/
def State.refused (s : State) (path : Path) (index sub : Nat) : Nat :=
  if !s.dev.serves path || s.dev.pilotAway path index then 7
  else match s.dev.target index sub with
    | .absent => 1
    | .highest _ => 2
    | .elem o i e => if o.typ.isBlock then 2 else s.dev.writeRefused o i e

/-- The effect of an accepted write of a scalar by number, with its status. -/
def State.setScalar (s : State) (who index sub v : Nat) : State × Nat :=
  match s.dev.target index sub with
  | .elem o i e => s.writeScalar who o i e v
  | _ => (s, 1)

/-- An accepted write of a scalar by number: done at once, or once its region's clock runs. -/
def State.given (s : State) (path : Path) (index sub v : Nat) : State :=
  let gs := s.dev.needs index sub true
  let r : PathReq := .object path index sub v
  if s.dev.mustWait gs r then { s with dev := s.dev.queuePath gs r }
  else
    let w := s.setScalar (pathWho path) index sub v
    w.1.answer w.2

/-- A read of one object, as it is served, is noted: EVENT_OLDEST_SEQ re-arms its event (R369), and a word of a scale slot is read (R80). -/
def Dev.noteRead (d : Dev) (o : ObjDef) (i e : Nat) : Dev :=
  if o = Obj.EVENT_OLDEST_SEQ then { d with events := { d.events with overwriteArmed := true } }
  else if o = Obj.SCALE_SLOT then d.meetSlots i [e] []
  else d

/-- What reading a target gives: its status, its value for a scalar, and the bytes from an offset. -/
def State.readTarget (s : State) (t : Target) (off len : Nat) : State × Nat × Nat × List Byte :=
  match t with
  | .absent => (s, 1, 0, [])
  | .highest h => (s, 0, h, [BitVec.ofNat 8 h])
  | .elem o i e =>
    if o.right = .wo then (s, 2, 0, [])
    else if o.typ.isBlock then (s, 0, 0, s.blockBytes o i e off len)
    else
      let v := s.shown o i e
      ({ s with dev := s.dev.noteRead o i e }, 0, v, leBytes o.typ.bytes v)

end Sys2Proof.Machine
end

