-- ==== Sys2Proof/Machine/Dictionary.lean ====
section
/-! DEFINITION. Commands of the object dictionary (R345, R356 to R365), events (R366 to R370) and persistence (R350, R351). -/

namespace Sys2Proof.Machine

/-! ### Answers (R356, R363, R364) -/

/-- The header of a response: the request's, with STATUS and LENGTH set (R356). -/
def answerHeader (hdr status len : Nat) : Nat := setBits (setBits hdr 247 240 status) 159 144 len

/-- VENDOR_PEN, most significant byte first (R364). -/
def Dev.penBytes (d : Dev) : List Byte := (leBytes 4 (d.get Obj.VENDOR_PEN)).reverse

/-- Answer a command on its path: the fabric's answer is an OD_RESP to the requester, an NBR frame while no device ID is active; over I3C it is
a message like the request's. -/
def Dev.respond (d : Dev) (path : Path) (hdr status value : Nat) (bs : List Byte) : Dev :=
  let d := d.answer status value bs
  let body := leBytes 32 (answerHeader hdr status bs.length) ++ bs
  match path with
  | .fabric p src =>
    let n := (body.length + 63) / 64
    let f := { Frame.plain 9 2 src d.selfId 0 (n - 1) 0 with payload := fit 0 (64 * n) body, ash := List.replicate n false }
    if d.ownId.isNone then d.sendNbr p.val f else d.sendAnswer f
  | .i3c => { d with i3c := { d.i3c with resp := 0x7F :: d.penBytes ++ body } }
  | .host => d

/-- OBJECT_WRITE: a write of a scalar on a path that carries no command header. -/
def State.cmdObjectWrite (s : State) (path : Path) (index sub v : Nat) : State :=
  match s.refused path index sub with
  | 0 => s.given path index sub v
  | st => s.answer st

/-- OBJECT_WRITE (R345). -/
def execObjectWrite (path : Path) (index sub v : Nat) (s : State) : Host.Outcome State Fault Refusal :=
  .next (s.cmdObjectWrite path index sub v)

/-! ### Events (R356, R369, R370) -/

/-- Whether a sequence number has not been raised yet (R356). -/
def Dev.notYet (d : Dev) (seq : Nat) : Bool := decide ((seq % 2 ^ 32 + 2 ^ 32 - d.get Obj.EVENT_NEXT_SEQ) % 2 ^ 32 < 2 ^ 31)

/-- The records held from a sequence number on; from the oldest where its record is no longer held. -/
def Dev.recordsFrom (d : Dev) (seq : Nat) : List EventRec :=
  if d.events.ring.any fun r => r.seq = seq then d.events.ring.dropWhile fun r => decide (r.seq ≠ seq) else d.events.ring

/-- After the controller's EVENT_READ the next in-band interrupt is raised if later records remain (R369). -/
def Dev.nextIbi (d : Dev) (rest : List EventRec) : Dev :=
  match rest with
  | r :: _ =>
    if d.get Obj.IBI_ENABLE = 1 ∧ d.i3c.ibi then { d with i3c := { d.i3c with ibiPending := true, ibiByte := r.code / 256 } }
    else { d with i3c := { d.i3c with ibiPending := false } }
  | [] => { d with i3c := { d.i3c with ibiPending := false } }

/-- EVENT_READ from a sequence number: whole records, oldest first, up to LENGTH ÷ 32 of them. -/
def Dev.eventsFrom (d : Dev) (path : Path) (seq len : Nat) : Dev × Nat × List Byte :=
  if d.notYet seq then (if path = .i3c then d.nextIbi [] else d, 9, [])
  else
    let rs := d.recordsFrom seq
    let n := len / 32
    (if path = .i3c then d.nextIbi (rs.drop n) else d, 0, (rs.take n).flatMap fun r => leBytes 32 r.toNat)

/-! ### Commands with a header (R356, R357, R363, R364) -/

/-- Bytes of data that a command carries: READ and EVENT_READ name in LENGTH the bytes they want (DEDUCED, log entry 11). -/
def carried (hdr : Nat) : Nat := if bits hdr 255 248 = 1 ∨ bits hdr 255 248 = 4 then 0 else bits hdr 159 144

/-- Whether a header's OP is a request's. -/
def knownOp (hdr : Nat) : Bool := decide (1 ≤ bits hdr 255 248) && decide (bits hdr 255 248 ≤ 4)

/-- Whether a command is malformed: an unknown OP, reserved bits set, or LENGTH over its limit or disagreeing with what is carried. -/
def malformed (hdr : Nat) (fits : Bool) : Bool :=
  !knownOp hdr || bits hdr 211 208 ≠ 0 || bits hdr 143 0 ≠ 0 || decide (4096 < bits hdr 159 144) || !fits

/-- The status with which a WRITE of bytes is refused before they are looked at: a scalar takes its type's size, a DOMAIN 1 to 4,096 bytes. -/
def State.bytesRefused (s : State) (index sub : Nat) (bs : List Byte) : Nat :=
  match s.dev.target index sub with
  | .absent => 1
  | .highest _ => 2
  | .elem o i e =>
    if !o.typ.isBlock then if bs.length ≠ o.typ.bytes then 5 else s.dev.writeRefused o i e
    else if bs.isEmpty ∨ 4096 < bs.length then 8
    else 0

/-- The status with which a command is not accepted; 0 where it is. The management core serves DESCRIBE and EVENT_READ. -/
def State.cmdRefused (s : State) (path : Path) (hdr : Nat) (bs : List Byte) (fits : Bool) : Nat :=
  let index := bits hdr 239 220
  let op := bits hdr 255 248
  if !s.dev.serves path then 7
  else if malformed hdr fits then 8
  else if s.dev.pilotAway path (if op = 1 ∨ op = 2 then index else 0) then 7
  else if op = 2 then s.bytesRefused index (bits hdr 219 212) bs
  else 0

/-- A command's result as it is served: its status, its value as a number, and the bytes that follow the header. -/
def State.serveCmd (s : State) (path : Path) (hdr : Nat) (bs : List Byte) : State × Nat × Nat × List Byte :=
  let index := bits hdr 239 220
  let sub := bits hdr 219 212
  let off := bits hdr 191 160
  let len := bits hdr 159 144
  match bits hdr 255 248 with
  | 1 => s.readTarget (s.dev.target index sub) off len
  | 2 => match s.dev.target index sub with
    | .elem o i e =>
      let r := if o.typ.isBlock then s.writeBlock o i e off bs else s.writeScalar (pathWho path) o i e (leNat bs)
      (r.1, r.2, 0, [])
    | _ => (s, 1, 0, [])
  | 3 => let r := s.describe index sub; (s, 0, r.1, leBytes 8 r.1 ++ leBytes 8 r.2)
  | _ => let r := s.dev.eventsFrom path off len; ({ s with dev := r.1 }, r.2.1, 0, r.2.2)

/-- Serve a command and answer it. -/
def State.finishCmd (s : State) (path : Path) (hdr : Nat) (bs : List Byte) : State :=
  let r := s.serveCmd path hdr bs
  { r.1 with dev := r.1.dev.respond path hdr r.2.1 r.2.2.1 r.2.2.2 }

/-- A command on its path: refused, served, or left to wait for its region's clock. -/
def State.command (s : State) (path : Path) (hdr : Nat) (bs : List Byte) (fits : Bool) : State :=
  match s.cmdRefused path hdr bs fits with
  | 0 =>
    let op := bits hdr 255 248
    let gs := if op ≤ 2 then s.dev.needs (bits hdr 239 220) (bits hdr 219 212) (op = 2) else []
    let r : PathReq := .cmd path hdr bs
    if s.dev.mustWait gs r then { s with dev := s.dev.queuePath gs r } else s.finishCmd path hdr bs
  | st => { s with dev := s.dev.respond path hdr st 0 [] }

/-- The header that a carrier brings: behind the type byte and VENDOR_PEN, or from byte 0 of the frame's payload. -/
def Carrier.header : Carrier → Nat
  | .mctp msg => leNat ((msg.drop 5).take 32)
  | .frame _ f => leNat (f.payload.take 32)

/-- The data that a carrier brings. -/
def Carrier.data (c : Carrier) : List Byte :=
  match c with
  | .mctp msg => msg.drop 37
  | .frame _ f => (f.payload.drop 32).take (carried (Carrier.header c))

/-- Whether a carrier holds what the header's LENGTH says: a message that many bytes, a frame that many lines, and LAST. -/
def Carrier.fits (c : Carrier) : Bool :=
  let n := carried (Carrier.header c)
  match c with
  | .mctp msg => decide (msg.length = 37 + n)
  | .frame _ f => f.last && decide (Frame.nLines f = (32 + n + 63) / 64) && decide (32 + n ≤ f.payload.length)

/-- Whether the endpoint takes a message: of type 0x7F without IC, of this vendor, and of at most 4,133 bytes (R364). -/
def Dev.takesMessage (d : Dev) (msg : List Byte) : Bool :=
  msg.headD 0 = 0x7F && (msg.drop 1).take 4 = d.penBytes && decide (msg.length ≤ 4133)

/-- A command row: it acts on a carrier of its own OP, and on one whose OP no row has. -/
def State.carried (s : State) (op : Nat) (c : Carrier) : State :=
  let hdr := Carrier.header c
  if knownOp hdr && bits hdr 255 248 ≠ op then s
  else match c with
    | .mctp msg => if s.dev.takesMessage msg then s.command .i3c hdr (Carrier.data c) (Carrier.fits c) else s
    | .frame p f =>
      let (d, here) := s.dev.arrive p.val (frameOf 8 f)
      if here then { s with dev := d.giveBack p.val (frameOf 8 f) }.command (.fabric p f.srcId) hdr (Carrier.data c) (Carrier.fits c)
      else { s with dev := d }

/-- OD_READ (R356). -/
def execOdRead (c : Carrier) (s : State) : Host.Outcome State Fault Refusal := .next (s.carried 1 c)

/-- OD_WRITE (R356). -/
def execOdWrite (c : Carrier) (s : State) : Host.Outcome State Fault Refusal := .next (s.carried 2 c)

/-- DESCRIBE (R356): DESC_RESULT, then DESC_DEFAULT; an absent object is described as ABSENT. -/
def execDescribe (c : Carrier) (s : State) : Host.Outcome State Fault Refusal := .next (s.carried 3 c)

/-- EVENT_READ (R356). -/
def execEventRead (c : Carrier) (s : State) : Host.Outcome State Fault Refusal := .next (s.carried 4 c)

/-- EVENT_NOTICE: an event of another device is recorded here (R370). -/
def execEventNotice (src seq : Nat) (s : State) : Host.Outcome State Fault Refusal :=
  s.onDev fun d => if d.get Obj.BOOT_STATE < 2 then d else d.remoteEvent (src % 2 ^ 20) (seq % 2 ^ 32)

/-- EVENT_OLDEST_SEQ_READ: the read re-arms the event-overwrite event (R369). -/
def execEventOldestSeqRead (path : Path) (s : State) : Host.Outcome State Fault Refusal :=
  .next (s.command path (leNat (odHeader 1 0 0x5000 2 0 0 0)) [] true)

/-- FETCH_SEQ_WRITE (R370). -/
def execFetchSeqWrite (v : Nat) (s : State) : Host.Outcome State Fault Refusal :=
  s.onDev fun d => d.gatedPilot fun d => (d.fetchSeq v).answer 0

/-! ### The domain port and the describe objects (R360) -/

/-- DP_GO_READ (R360). -/
def execDpGoRead (s : State) : Host.Outcome State Fault Refusal := .next (s.served fun s => (s.dpGo false).answer 0)

/-- DP_GO_WRITE (R360). -/
def execDpGoWrite (s : State) : Host.Outcome State Fault Refusal := .next (s.served fun s => (s.dpGo true).answer 0)

/-- DESC_TARGET_WRITE (R360). -/
def execDescTargetWrite (v : Nat) (s : State) : Host.Outcome State Fault Refusal := .next (s.served fun s => (s.descTarget v).answer 0)

/-! ### Persistence (R350, R351) -/

/-- A write of a BOOL command on the whole state: it acts on 1 and not on 0. -/
def State.onOne (s : State) (v : Nat) (f : State → State) : State := if 1 < v then s.answer 4 else if v = 1 then (f s).answer 0 else s.answer 0

/-- PERSIST_SAVE (R350). -/
def execPersistSave (v : Nat) (s : State) : Host.Outcome State Fault Refusal := .next (s.served fun s => s.onOne v State.persistSave)

/-- PERSIST_RESTORE_DEFAULTS (R351). -/
def execPersistRestoreDefaults (v : Nat) (s : State) : Host.Outcome State Fault Refusal :=
  .next (s.served fun s => s.onOne v State.restoreDefaults)

end Sys2Proof.Machine
end

