-- ==== Sys2Proof/Machine/Grates.lean ====
section
/-! DEFINITION. Commands of the grates and the output path: firing and folding a GRATE entry, feeder reads, drains, check reads,
completion with the scale check and the replay (R31 to R75, R120 to R125). -/

namespace Sys2Proof.Machine

/-! ### GRATE -/

/-- Non-finite input elements of an entry: of the activations those in blocks injected to some grate (R46, R55). DESIGN CHOICE (log
entry 47): an element counts once in a run of the entry, however often it is injected or its tile loaded. -/
def Dev.nonfinite (d : Dev) (h : Nat) (e : WEntry) (b : GrateBody) (skips : List (Nat × Nat × Nat)) : Nat :=
  let x := d.hearth h
  let injected (m k : Nat) : Bool := skips.isEmpty || (List.range b.nBlocks).any fun nb => !b.allSkipped skips nb (m / 32) (k / b.kStep)
  let bad (f : Fmt) (l : List (Nat × Bool)) : Nat := (l.filter fun v => !(f.decode v.1).finite).length
  let na := if b.fa = .bf16 ∨ b.fa = .e4m3 ∨ b.fa = .e5m2 then
    bad b.fa ((List.range b.k).flatMap fun k => ((List.range b.m).filter fun m => injected m k).map fun m => x.aElem e b m k) else 0
  let nb := if b.fb = .bf16 ∨ b.fb = .e4m3 ∨ b.fb = .e5m2 then
    bad b.fb ((List.range b.k).flatMap fun k => (List.range b.n).map fun n => x.wElem e b (d.transposed h) k n) else 0
  na + nb

/-- The exponent of an entry's output: the slot's for FP8 and FP6, that of R71 in a replay, the fixed one for FP4, else 0. -/
def Hearth.outExp (x : Hearth) (e : WEntry) (b : GrateBody) : Int :=
  if b.fd.scaled then
    match e.replayExp with
    | some v => v
    | none => ((x.slot b.slotExp).choose b.fd).curExp
  else if b.dFmt = 6 then max (-127) (toSigned 8 b.slotExp)
  else 0

/-- Words of the scale-slot table that an entry's choice of an exponent reads: the state word, and the history where it has to choose. -/
def Hearth.slotReads (x : Hearth) (b : GrateBody) : List Nat :=
  if !b.fd.scaled then [] else if (x.slot b.slotExp).curValid then [b.slotExp] else wordsOfSlot b.slotExp

/-- A GRATE entry fires: it chooses its exponent and its skips (R69, R120). -/
def Dev.startGrate (d : Dev) (h : Nat) (e : WEntry) (sram : List (Nat × SramOutcome)) : Dev :=
  let b := GrateBody.ofWord e.raw
  let d := d.meetSlots h ((d.hearth h).slotReads b) sram
  let x := d.hearth h
  let skips := d.skipSet h e b
  let j : GrateJob :=
    { id := e.id, exp := x.outExp e b, ein := d.tagExp h (b.a.tag e.i e.t b.aTag) + d.tagExp h (b.b.tag e.i e.t b.bTag),
      skips := skips, checks := b.checkSet skips, folded := 0, drained := 0, wrongSkip := false, maxMag := 0, ashSeen := false,
      failed := none }
  let d := (d.bump Obj.NONFINITE_INPUTS h (d.nonfinite h e b skips)).bump Obj.BLOCK_PRODUCTS_SKIPPED h skips.length
  d.modHearth h fun x =>
    let x := if b.fd.scaled && !(x.slot b.slotExp).curValid then x.writeSlot b.slotExp false fun s => s.choose b.fd else x
    { x with jobs := x.jobs ++ [j], feeders := [], feederPos := [], feedHalf := [] }

/-- The vectors injected for a pair, in order: row and k-block (R43, R46). -/
def GrateBody.coords (b : GrateBody) (skips : List (Nat × Nat × Nat)) (nb mb : Nat) : List (Nat × Nat) :=
  (List.range b.kBlocks).flatMap fun kb =>
    ((List.range (b.rowsOf mb)).filter fun v => !b.allSkipped skips nb ((256 * mb + v) / 32) kb).map fun v => (256 * mb + v, kb)

/-- An activation element as it enters row `r` of the grates: from the row's queue where it has been read, else read now (R39,
R41). A queue entry of a paired FP4 entry holds the elements of K positions k and k + 32. -/
def Hearth.actElem (x : Hearth) (e : WEntry) (b : GrateBody) (coords : List (Nat × Nat)) (m kb r : Nat) : Nat × Bool :=
  match (coords.zip (tget [] x.feeders (r % 32))).find? fun c => c.1 = (m, kb) with
  | some (_, v) => if b.paired then (if r < 32 then (v.1 % 16, v.2) else (v.1 / 16 % 16, v.2)) else v
  | none => x.aElem e b m (b.kStep * kb + r)

/-- The activation elements of one vector. -/
def Hearth.actVec (x : Hearth) (e : WEntry) (b : GrateBody) (coords : List (Nat × Nat)) (m kb : Nat) : List (Nat × Bool) :=
  (List.range (b.kWidth kb)).map fun r => x.actElem e b coords m kb r

/-- What the queues hold after a pair's vectors have been taken from them. -/
def Hearth.consume (x : Hearth) (n : Nat) : Hearth :=
  (List.range 32).foldl (fun x r =>
    let q := tget [] x.feeders r
    let pos := tget 0 x.feederPos r
    { x with feeders := tset [] x.feeders r (q.drop n), feederPos := tset 0 x.feederPos r (max pos (pos - q.length + n)) })
    { x with feedHalf := [] }

/-- Active and shadow planes of the grates in use after the last k-block of an n-block (R35). -/
def Hearth.setPlanes (x : Hearth) (e : WEntry) (b : GrateBody) (tr : Bool) (nb : Nat) : Hearth :=
  (b.colBlocks nb).foldl (fun x cb =>
    let tile (kb : Nat) : List (Nat × Bool) := (List.range 32).flatMap fun c => x.wCol e b tr kb (32 * cb + c)
    let p := tset [] x.planes (2 * (cb % 4)) (tile (b.kBlocks - 1))
    { x with planes := if 2 ≤ b.kBlocks then tset [] p (2 * (cb % 4) + 1) (tile (b.kBlocks - 2)) else p }) x

/-- Replace the job of an entry. -/
def Hearth.setJob (x : Hearth) (j : GrateJob) : Hearth := { x with jobs := x.jobs.map fun o => if o.id = j.id then j else o }

/-- Fold one (n-block, m-block) pair into a free accumulator buffer (R43, R34). -/
def Dev.foldPair (d : Dev) (h : Nat) (e : WEntry) (j : GrateJob) : Dev :=
  let b := GrateBody.ofWord e.raw
  let x := d.hearth h
  let tr := d.transposed h
  let nb := j.folded / b.mBlocks
  let mb := j.folded % b.mBlocks
  let rows := (List.range (b.rowsOf mb)).map (256 * mb + ·)
  let cols := (List.range (b.colsOf nb)).map (128 * nb + ·)
  let coords := b.coords j.skips nb mb
  let kbs := List.range b.kBlocks
  let ws := kbs.map fun kb => cols.map fun n => (x.wCol e b tr kb n).map (gval b.fb)
  let accs := rows.flatMap fun m =>
    let as := kbs.map fun kb => (x.actVec e b coords m kb).map (gval b.fa)
    (cols.zipIdx).map fun nc =>
      kbs.foldl (fun acc kb =>
        if j.skips.contains (m / 32, kb, nc.1 / 32) then acc
        else acc.add (colSum (as.getD kb []) ((ws.getD kb []).getD nc.2 []))) (⟨0, false, 0⟩ : AccElem)
  let sats := accs.foldl (fun n a => n + a.sats) 0
  let wrong := !j.skips.isEmpty && (List.range (b.rowsOf mb / 32)).any fun v => kbs.any fun kb =>
    let rb := 8 * mb + v
    !b.allSkipped j.skips nb rb kb && d.skipWrong h e b j.skips nb rb kb
      ((List.range 32).flatMap fun m => x.actVec e b coords (32 * rb + m) kb)
  let x := (x.consume coords.length).setPlanes e b tr nb
  let x := x.setJob { j with folded := j.folded + 1, wrongSkip := j.wrongSkip || wrong }
  let d := d.setHearth h { x with bufs := x.bufs ++ [⟨j.id, nb, mb, accs.map fun a => (a.raw, a.ash)⟩] }
  let d := d.chargeGrate h ((b.colBlocks nb).length * coords.length * b.perVector)
  let d := if coords.isEmpty then d else d.work h
  if sats = 0 then d else (d.bump Obj.ACC_SATURATIONS h sats).raiseOnce h Once.accSat.num Event.accSaturation

/-- The entry whose pairs are not all folded. -/
def Hearth.folding (x : Hearth) : Option (WEntry × GrateJob) :=
  match x.jobs.find? fun j => !x.folded j with
  | none => none
  | some j => (x.entryOf j.id).map fun e => (e, j)

/-- Fold pairs while an accumulator buffer is free: at most the two there are (R43). -/
def Dev.foldOn (d : Dev) (h : Nat) : Nat → Dev
  | 0 => d
  | n + 1 =>
    let x := d.hearth h
    match x.folding with
    | none => d
    | some (e, j) => if x.bufs.length < 2 then Dev.foldOn (d.foldPair h e j) h n else d

/-- GRATE: an entry that still holds the grates folds on; otherwise the entry that the scan picks fires and begins. Feeder stalls hold
all four grates (R40, R332). -/
def Dev.cmdGrate (d : Dev) (h stalls : Nat) (sram : List (Nat × SramOutcome)) : Dev :=
  let d := match (d.hearth h).folding with
    | some _ => d
    | none => d.fireIf h (fun e => e.kind = EKind.grate) fun d e => d.startGrate h e sram
  match (d.hearth h).folding with
  | none => d
  | some (e, j) =>
    let b := GrateBody.ofWord e.raw
    let use := (b.colBlocks (j.folded / b.mBlocks)).length
    let d := if stalls = 0 then d else d.work h
    (((d.bump Obj.FEEDER_STALL_CYCLES h stalls).chargeGrate h (stalls * use)).readSram h e sram).foldOn h 2

/-- GRATE (R43). -/
def execGrate (h : Fin 1024) (stalls : Nat) (sram : List (Nat × SramOutcome)) (s : State) : Host.Outcome State Fault Refusal :=
  s.onDev fun d => d.cmdGrate h.val stalls sram

/-! ### FEEDER_READ (R37, R39) -/

/-- The elements of row `row` still to be read, at most 16, as row and k-block. -/
def GrateBody.feedNext (b : GrateBody) (j : GrateJob) (queued : Nat) : List (Nat × Nat) :=
  (((List.range b.pairs).drop j.folded).flatMap fun p => b.coords j.skips (p / b.mBlocks) (p % b.mBlocks)).drop queued |>.take 16

/-- Read an element, or in a paired FP4 entry a pair of elements, for a row's queue. -/
def Hearth.feedElem (x : Hearth) (e : WEntry) (b : GrateBody) (row : Nat) (c : Nat × Nat) : Nat × Bool :=
  let lo := x.aElem e b c.1 (b.kStep * c.2 + row)
  if b.kWidth c.2 = 64 then
    let hi := x.aElem e b c.1 (b.kStep * c.2 + row + 32)
    (lo.1 + 16 * hi.1, lo.2 || hi.2)
  else lo

/-- Lines that a row's request reads: those its 16 elements touch, each in an access of its own (R36, R39). -/
def GrateBody.feedLines (b : GrateBody) (e : WEntry) (row : Nat) (m kb : Nat) : List Nat :=
  let span (k : Nat) : List Nat :=
    let a := b.a.byte e.i e.t + 64 * b.aStride * k + m * b.fa.width / 8
    (List.range ((a + 2 * b.fa.width - 1) / 64 + 1 - a / 64)).map fun i => (a / 64 + i) % 32768
  let k := b.kStep * kb + row
  (span k ++ if b.kWidth kb = 64 then span (k + 32) else []).dedup

/-- Who is granted a bank that row `row` requests: the rotation over the ports, then over the rows of port 2 (R37). A rival is a bank, a
port index and, for port 2, a row. -/
def Hearth.grant (x : Hearth) (row bank : Nat) (rivals : List (Nat × Nat × Nat)) : Nat × Nat :=
  let here := rivals.filter fun r => r.1 = bank
  ((rotPick 7 (tget 0 x.bankPtr bank) (2 :: here.map (·.2.1))).getD 2,
   (rotPick 32 (tget 0 x.rowPtr bank) (row :: (here.filter fun r => r.2.1 = 2).map (·.2.2))).getD row)

/-- The pointers of a bank after a grant to a port and, of port 2, to a row (R37, R335). -/
def Hearth.granted (x : Hearth) (bank port row : Nat) : Hearth :=
  { x with bankPtr := tset 0 x.bankPtr bank ((port + 1) % 7),
           rowPtr := if port = 2 then tset 0 x.rowPtr bank ((row + 1) % 32) else x.rowPtr }

/-- One bank access of a row's request: where it is granted the line is read now; the answer also says whether some access has lost. -/
def Hearth.feedAccess (row : Nat) (rivals : List (Nat × Nat × Nat)) (s : Hearth × Bool) (l : Nat) : Hearth × Bool :=
  let (port, r) := s.1.grant row (l % 32) rivals
  let x := s.1.granted (l % 32) port r
  if port = 2 ∧ r = row then ({ x with feedHalf := tmod [] x.feedHalf row fun g => g ++ [(l, x.line l)] }, s.2) else (x, true)

/-- The scratchpad as a row's request has read it, line by line (R39, R149). -/
def Hearth.asRead (x : Hearth) (row : Nat) : Hearth := (tget [] x.feedHalf row).foldl (fun y l => y.setLine l.1 l.2) x

/-- FEEDER_READ: with 16 entries free and elements left, the row's queue requests its next 16; losing the arbitration of a bank is counted
and the access is requested again. -/
def Dev.cmdFeeder (d : Dev) (h row : Nat) (rivals : List (Nat × Nat × Nat)) (sram : List (Nat × SramOutcome)) : Dev :=
  let x := d.hearth h
  match x.folding with
  | none => d
  | some (e, j) =>
    let b := GrateBody.ofWord e.raw
    let q := tget [] x.feeders row
    match b.feedNext j q.length with
    | [] => d
    | c :: cs =>
      if 16 < q.length then d
      else
        let got := (tget [] x.feedHalf row).map (·.1)
        let left := (b.feedLines e row c.1 c.2).filter fun l => !got.contains l
        let d := d.readSram h e (sram.filter fun w => left.contains (w.1 / 8) && x.grant row (w.1 / 8 % 32) rivals = (2, row))
        let (x, lost) := left.foldl (Hearth.feedAccess row rivals) (d.hearth h, false)
        if lost then (d.setHearth h x).bump Obj.FEEDER_READ_RETRIES h
        else
          d.setHearth h
            { x with feeders := tset [] x.feeders row (q ++ (c :: cs).map ((x.asRead row).feedElem e b row)),
                     feederPos := tset 0 x.feederPos row (tget 0 x.feederPos row + (c :: cs).length),
                     feedHalf := tset [] x.feedHalf row [] }

/-- FEEDER_READ (R39). -/
def execFeederRead (h : Fin 1024) (row : Fin 32) (rivals : List (Nat × Nat × Nat)) (sram : List (Nat × SramOutcome)) (s : State) :
    Host.Outcome State Fault Refusal :=
  s.onDev fun d => d.cmdFeeder h.val row.val rivals sram

/-! ### OUTPUT_DRAIN (R47 to R49, R67) -/

/-- One drained element: its raw output, ash mark, the magnitude of u, and whether it saturated. -/
structure Drained where
  raw : Nat
  ash : Bool
  mag : Nat
  sat : Bool
  deriving DecidableEq, Repr

/-- The epilogue of R94 on u, with the value already at the destination. -/
def epilogue (epi u prev : Nat) : Nat :=
  match epi with
  | 1 => fmax u 0
  | 2 => fneg u
  | 3 => fadd u prev
  | 4 => fexp2 u
  | _ => u

/-- The output of one accumulator element (R47, R67): `ein` is e_act + e_wt, `eout` the output exponent. DESIGN CHOICE (log entry 47): the
maxima take the magnitude of u as it is before the epilogue. -/
def drainElem (f : Fmt) (epi : Nat) (ein eout : Int) (acc : Nat × Bool) (prev : Nat × Bool) : Drained :=
  match dec32 acc.1 with
  | .fin s m e =>
    let (n, d) := frac m (e - ein)
    let u := (round32Sat s n d).1
    let ash := acc.2 || (epi = 3 && prev.2)
    if epi = 0 then
      if f = .fp32 then
        let (n, d) := frac m (e + (eout - ein))
        let (r, sat) := round32Sat s n d
        ⟨r, ash, fabs u, sat⟩
      else
        let r := f.convert acc.1 (eout - ein) none
        ⟨r.raw, ash || r.ash, fabs u, r.sat⟩
    else
      let y := epilogue epi u prev.1
      let r := f.store y eout none
      ⟨r.raw, ash || r.ash, if ash then 0 else fabs u, r.sat⟩
  | _ => ⟨0, true, 0, false⟩

/-- Runs in which a buffer is written: the byte each begins at and the (row, column) of its elements (R92, R93). -/
def GrateBody.runs (b : GrateBody) (e : WEntry) (nb mb : Nat) : List (Nat × List (Nat × Nat)) :=
  let rows := (List.range (b.rowsOf mb)).map (256 * mb + ·)
  let cols := (List.range (b.colsOf nb)).map (128 * nb + ·)
  if b.colMajor then cols.map fun n => (b.d.byte e.i e.t + 64 * b.dStride * n + 256 * mb * b.fd.width / 8, rows.map fun m => (m, n))
  else rows.map fun m => (b.d.byte e.i e.t + 64 * b.dStride * m + 128 * nb * b.fd.width / 8, cols.map fun n => (m, n))

/-- What the accumulator's code finds in element (row, column) of a buffer. -/
def sramAt (errs : List (Nat × SramOutcome)) (r c : Nat) : SramOutcome :=
  match errs.find? fun e => e.1 = r * 128 + c with
  | some e => e.2
  | none => .clean

/-- Change a scale slot's state word. -/
def Dev.modSlot (d : Dev) (h n : Nat) (f : ScaleSlot → ScaleSlot) : Dev := d.modHearth h fun x => x.writeSlot n false f

/-- The scale check at an entry's last drain: STEP_MAX is raised; on a failure CUR_EXP is corrected and the failure counted (R70, R71). -/
def Dev.scaleCheck (d : Dev) (h : Nat) (b : GrateBody) (j : GrateJob) (errs : List (Nat × SramOutcome)) : Dev × GrateJob :=
  if !b.fd.scaled then (d, j)
  else
    let d := d.meetSlots h [b.slotExp] errs
    let d := d.modSlot h b.slotExp fun s =>
      { s with stepMax := Nat.max s.stepMax j.maxMag, ashSeen := s.ashSeen || j.ashSeen }
    if b.fd.exceeds j.maxMag j.exp then
      let e := b.fd.scaleExp j.maxMag 0
      let d := d.modSlot h b.slotExp fun s => { s with curExp := e, curValid := true, replayed := true }
      (d.bump Obj.SCALE_CHECK_FAILS h, { j with failed := some e })
    else (d, j)

/-- Errors in words of the scale-slot table among those listed with a buffer's elements, which they follow. -/
def slotErrs (errs : List (Nat × SramOutcome)) : List (Nat × SramOutcome) :=
  (errs.filter fun e => decide (32768 ≤ e.1)).map fun e => (slotWord0 + (e.1 - 32768), e.2)

/-- Drain one buffer of an entry; the scale check is made at the last (R70). One access reads a row of one grate's 32 columns (R80). -/
def Dev.drainBuf (d : Dev) (h : Nat) (e : WEntry) (j : GrateJob) (buf : AccBuf) (errs : List (Nat × SramOutcome)) : Dev :=
  let b := GrateBody.ofWord e.raw
  let rows := b.rowsOf buf.mb
  let cols := b.colsOf buf.nb
  let d := d.countSram h (· / 32) (errs.filter fun x => decide (x.1 / 128 < rows) && decide (x.1 % 128 < cols))
  let acc (m n : Nat) : Nat × Bool :=
    let r := m - 256 * buf.mb
    let c := n - 128 * buf.nb
    let v := buf.vals.getD (r * cols + c) (0, false)
    (v.1, v.2 || sramAt errs r c = .uncorrectable)
  let step := fun (s : Dev × List ((Nat × Nat) × Drained)) (run : Nat × List (Nat × Nat)) =>
    let x := s.1.hearth h
    let out := (run.2.zipIdx).map fun mi =>
      drainElem b.fd b.epi j.ein j.exp (acc mi.1.1 mi.1.2) (if b.epi = 3 then x.elem .fp32 run.1 mi.2 else (0, false))
    (s.1.ownElems h b.fd run.1 (out.map fun o => (o.raw, o.ash)), s.2 ++ run.2.zip out)
  let (d, outs) := (b.runs e buf.nb buf.mb).foldl step (d, [])
  let big (l : List ((Nat × Nat) × Drained)) : Nat := l.foldl (fun v o => if o.2.ash then v else Nat.max v o.2.mag) 0
  let d := match d.bmaxArea h (b.d.tag e.i e.t b.dTag) with
    | none => d
    | some area =>
      (List.range (cols / 32)).foldl (fun d q => (List.range (rows / 32)).foldl (fun d v =>
        let i := 8 * buf.mb + v
        let k := 4 * buf.nb + q
        d.ownRun h (area + 4 * (k * (b.m / 32) + i))
          (leBytes 4 (big (outs.filter fun o => o.1.1 / 32 = i && o.1.2 / 32 = k))) fun _ => false) d) d
  let sats := (outs.filter (·.2.sat)).length
  let d := if b.fd = .fp32 then
      (if sats = 0 then d else (d.bump Obj.ACC_SATURATIONS h sats).raiseOnce h Once.accSat.num Event.accSaturation)
    else d.bump Obj.CONVERT_SATURATIONS h sats
  let d := if b.epi = 0 then d else d.chargeVector h (2 * rows)
  let early := b.sigEarly && buf.nb + 1 = b.nBlocks
  let j := { j with drained := j.drained + 1, maxMag := Nat.max j.maxMag (big outs), ashSeen := j.ashSeen || outs.any (·.2.ash) }
  let (d, j) := if j.drained = b.pairs then d.scaleCheck h b j (slotErrs errs) else (d, j)
  d.modHearth h fun x =>
    let x := if early then x.signal e else x
    { x.setJob j with bufs := x.bufs.tail }

/-- OUTPUT_DRAIN: the output path drains the buffer completed first. -/
def Dev.cmdDrain (d : Dev) (h : Nat) (errs : List (Nat × SramOutcome)) : Dev :=
  let x := d.hearth h
  match x.bufs with
  | [] => d
  | buf :: _ =>
    match x.entryOf buf.id, x.jobs.find? (fun j => j.id = buf.id) with
    | some e, some j => (d.work h).drainBuf h e j buf errs
    | _, _ => d

/-- OUTPUT_DRAIN (R47). -/
def execOutputDrain (h : Fin 1024) (errs : List (Nat × SramOutcome)) (s : State) : Host.Outcome State Fault Refusal :=
  s.onDev fun d => d.cmdDrain h.val errs

/-! ### SKIP_CHECK_READ (R121) -/

/-- SKIP_CHECK_READ: the check reader reads one block skipped for every grate. -/
def Dev.cmdSkipCheck (d : Dev) (h : Nat) (sram : List (Nat × SramOutcome)) : Dev :=
  let x := d.hearth h
  match x.jobs.find? fun j => !j.checks.isEmpty with
  | none => d
  | some j =>
    match x.entryOf j.id, j.checks with
    | some e, (nb, rb, kb) :: rest =>
      let b := GrateBody.ofWord e.raw
      let d := d.readSram h e sram
      let x := d.hearth h
      let elems := (List.range 32).flatMap fun m => (List.range (b.kWidth kb)).map fun r => x.aElem e b (32 * rb + m) (b.kStep * kb + r)
      let wrong := d.skipWrong h e b j.skips nb rb kb elems
      d.setHearth h (x.setJob { j with checks := rest, wrongSkip := j.wrongSkip || wrong })
    | _, _ => d

/-- SKIP_CHECK_READ (R121). -/
def execSkipCheckRead (h : Fin 1024) (sram : List (Nat × SramOutcome)) (s : State) : Host.Outcome State Fault Refusal :=
  s.onDev fun d => d.cmdSkipCheck h.val sram

/-! ### GRATE_ENTRY_COMPLETE (R70 to R74, R122 to R125) -/

/-- Return an entry that failed a check to waiting, in its slot, to run with the exponent that R71 set, or, for a wrong skip alone, with
its slot's; squash the entries that depend on it (R122, R125). -/
def Dev.replayEntry (d : Dev) (h : Nat) (e : WEntry) (b : GrateBody) (failed : Option Int) : Dev :=
  let d := d.modHearth h fun x =>
    { x with jobs := x.jobs.filter fun j => j.id ≠ e.id, bufs := x.bufs.filter fun u => u.id ≠ e.id,
             run := x.run.map fun r => { r with budget := r.budget - 1 } }
  let d := d.modHearth h fun x =>
    x.setEntry { e with st := .waiting, inc := [], replay := true,
                        replayExp := if b.fd.scaled then some (failed.getD (x.slot b.slotExp).curExp) else none }
  d.squash h e.id

/-- The scale tag word an entry writes at its retirement (R66, R72). -/
def Dev.tagOut (d : Dev) (h : Nat) (e : WEntry) (b : GrateBody) (j : GrateJob) (saturated : Bool) : Option (Nat × Nat) :=
  if b.dFmt < 2 then none
  else (b.d.tag e.i e.t b.dTag).map fun t =>
    (d.get Obj.TAG_TABLE_BASE h + 8 * t, ofSigned 8 j.exp + if saturated then 256 else 0)

/-- Whether the step on a hearth is being aborted. -/
def Dev.isAborting (d : Dev) (h : Nat) : Bool := match (d.hearth h).run with
  | some r => r.aborting
  | none => true

/-- An entry whose last row is drained and whose checks are made completes, or runs again (R122). -/
def Dev.finishGrate (d : Dev) (h : Nat) (e : WEntry) (j : GrateJob) : Dev :=
  let b := GrateBody.ofWord e.raw
  let fails := j.failed.isSome
  let d := if j.wrongSkip then d.bump Obj.SKIP_CHECK_FAILS h else d
  let ab := d.isAborting h
  let budget := match (d.hearth h).run with
    | some r => r.budget
    | none => 0
  if (fails || j.wrongSkip) && !ab && decide (0 < budget) then
    (d.bump (if fails then Obj.SCALE_REPLAYS else Obj.SKIP_REPLAYS) h).replayEntry h e b j.failed
  else
    let d := if fails && !ab then
      (d.bump Obj.SCALE_SATURATED_ENTRIES h).raiseOnce h Once.scaleSat.num Event.scaleSaturated else d
    let d := if j.wrongSkip && !ab then
      (d.bump Obj.SKIP_UNREPLAYED_ENTRIES h).raiseOnce h Once.skip.num Event.skipUnreplayed else d
    let d := d.modHearth h fun x =>
      { x with jobs := x.jobs.filter fun o => o.id ≠ e.id }.setEntry { e with tagWord := d.tagOut h e b j fails }
    d.completeEntry h e.id false

/-- GRATE_ENTRY_COMPLETE: at the last drain, with every skipped block checked. -/
def Dev.cmdGrateDone (d : Dev) (h : Nat) : Dev :=
  let x := d.hearth h
  let ready := fun (j : GrateJob) => match x.entryOf j.id with
    | some e => decide ((GrateBody.ofWord e.raw).pairs ≤ j.drained) && j.checks.isEmpty
    | none => false
  match x.jobs.find? ready with
  | none => d
  | some j =>
    match x.entryOf j.id with
    | some e => d.finishGrate h e j
    | none => d

/-- GRATE_ENTRY_COMPLETE (R70). -/
def execGrateEntryComplete (h : Fin 1024) (s : State) : Host.Outcome State Fault Refusal := s.onDev fun d => d.cmdGrateDone h.val

end Sys2Proof.Machine
end

