-- ==== Sys2Proof/Machine/Host.lean ====
section
/-! DEFINITION. The bridge's PCIe port (R306 to R312), the memory-mapped path (R343, R344, R361) and PERST_N (R439). -/

namespace Sys2Proof.Machine

/-! ### The memory-mapped path (R340, R343, R344, R361) -/

/-- A failed slot: recorded, counted and reported (R361). -/
def Dev.mmError (d : Dev) (status index sub : Nat) (write : Bool) : Dev :=
  let w := status * 2 ^ 56 + index * 2 ^ 36 + sub * 2 ^ 28 + if write then 1 else 0
  ((d.put Obj.MM_LAST_ERROR w).bump Obj.MM_ERRORS).raise Event.dictionaryError .global 0 none w

/-- The eight bytes of a slot: a scalar's value, or the length of a STRING or DOMAIN in its upper half (R343, R344). -/
def slotBytes (t : Target) (v : Nat) (bs : List Byte) : List Byte :=
  match t with
  | .elem o _ _ => if o.typ.isBlock then leBytes 8 (o.size * 2 ^ 32) else fit 0 8 bs
  | _ => leBytes 8 v

/-- Read bytes [lo, hi) of a slot. -/
def State.mmRead (s : State) (index sub lo hi : Nat) : State × List Byte :=
  let t := s.dev.target index sub
  let r := s.readTarget t 0 0
  if r.2.1 = 0 then (r.1, ((slotBytes t r.2.2.1 r.2.2.2).drop lo).take (hi - lo))
  else ({ r.1 with dev := r.1.dev.mmError r.2.1 index sub false }, List.replicate (hi - lo) 0xFF)

/-- The status of a write that covers bytes [lo, hi) of a slot before the object is looked at: it covers every byte of a scalar, and
a STRING or DOMAIN takes none. -/
def Target.mmRefused (t : Target) (lo hi : Nat) : Nat :=
  match t with
  | .absent => 1
  | t => match t.scalarSize with
    | none => 2
    | some n => if lo = 0 ∧ n ≤ hi then 0 else 5

/-- Write a slot that is covered from its first byte. -/
def State.mmWrite (s : State) (index sub : Nat) (bs : List Byte) : State :=
  let r := s.setScalar whoBridge index sub (leNat bs)
  if r.2 = 0 then r.1 else { r.1 with dev := r.1.dev.mmError r.2 index sub true }

/-- The status with which a slot's access is not accepted; 0 where it is. -/
def State.mmBlocked (s : State) (index sub lo hi : Nat) (write : Bool) : Nat :=
  if !s.dev.serves .host || s.dev.pilotAway .host index then 7
  else if write then
    match (s.dev.target index sub).mmRefused lo hi with
    | 0 => s.refused .host index sub
    | st => st
  else 0

/-- The slots that an access of `len` bytes at window offset `off` touches, in address order: slot and its bytes [lo, hi). -/
def slotsOf (off len : Nat) : List (Nat × Nat × Nat) :=
  (List.range ((off % 8 + len + 7) / 8)).map fun k =>
    let base := off / 8 * 8 + 8 * k
    (base / 8, max off base - base, min (off + len) (base + 8) - base)

/-- Serve one slot of an access; what has been read so far is joined. -/
def State.mmSlot (s : State) (off : Nat) (data : Option (List Byte)) (x : Nat × Nat × Nat) (got : List Byte) : State × List Byte :=
  let index := x.1 / 256
  let sub := x.1 % 256
  match data with
  | some bs => (s.mmWrite index sub ((bs.drop (8 * x.1 + x.2.1 - off)).take (x.2.2 - x.2.1)), got)
  | none => let y := s.mmRead index sub x.2.1 x.2.2; (y.1, got ++ y.2)

/-- A slot that is not accepted: a load reads all ones there, a store changes nothing (R361). -/
def State.mmFails (s : State) (status : Nat) (write : Bool) (x : Nat × Nat × Nat) (got : List Byte) : State × List Byte :=
  ({ s with dev := s.dev.mmError status (x.1 / 256) (x.1 % 256) write }, if write then got else got ++ List.replicate (x.2.2 - x.2.1) 0xFF)

/-- Serve an access to the dictionary window from slot `next` on, one slot at a time in address order (R361): what has been read, and the slot
that has been accepted and has to wait, if one does. Slot `next` has waited already where `accepted` says so. -/
def State.mmAccess (s : State) (off len : Nat) (data : Option (List Byte)) (next : Nat) (got : List Byte) (accepted : Bool) :
    State × List Byte × Option Nat :=
  let w := data.isSome
  (((slotsOf off len).zipIdx).drop next).foldl (fun (r : State × List Byte × Option Nat) (y : (Nat × Nat × Nat) × Nat) =>
    let x := y.1
    let here : State × List Byte → State × List Byte × Option Nat := fun z => (z.1, z.2, none)
    if r.2.2.isSome then r
    else if accepted && y.2 = next then here (r.1.mmSlot off data x r.2.1)
    else match r.1.mmBlocked (x.1 / 256) (x.1 % 256) x.2.1 x.2.2 w with
      | 0 =>
        if r.1.dev.mustWait (r.1.dev.needs (x.1 / 256) (x.1 % 256) w) (.bar off len data y.2 r.2.1) then (r.1, r.2.1, some y.2)
        else here (r.1.mmSlot off data x r.2.1)
      | st => here (r.1.mmFails st w x r.2.1)) (s, got, none)

/-- Answer a host access: the PCIe transaction itself completes (R361). -/
def State.hostDone (r : State × List Byte) : State := { r.1 with dev := r.1.dev.answer 0 0 r.2 }

/-- The clocks that slot `k` of an access needs. -/
def Dev.slotNeeds (d : Dev) (off k : Nat) (write : Bool) : List Nat := d.needs ((off / 8 + k) / 256) ((off / 8 + k) % 256) write

/-- An access of the host to this device's dictionary window: it is answered, or waits in its path's queue (R361, R365). -/
def State.mmHost (s : State) (off len : Nat) (data : Option (List Byte)) : State :=
  match s.mmAccess off len data 0 [] false with
  | (s, got, none) => State.hostDone (s, got)
  | (s, got, some k) => { s with dev := s.dev.queuePath (s.dev.slotNeeds off k data.isSome) (.bar off len data k got) }

/-- A byte of BAR 4/5: the MSI-X table, the pending-bit array at 0x8000, and zeros (R307). -/
def HostSide.barByte (x : HostSide) (k : Nat) : Byte :=
  if k < 1024 then x.tableByte k
  else if 0x8000 ≤ k ∧ k < 0x8008 then BitVec.ofNat 8 ((List.range 8).foldl (fun v b => if x.pba.contains (8 * (k - 0x8000) + b) then v + 2 ^ b else v) 0)
  else 0

/-- The pending vectors that are no longer masked are raised (R369). -/
def HostSide.deliver (x : HostSide) : HostSide :=
  { x with msix := x.msix ++ (List.range 64).filter fun v => x.pba.contains v && !x.masked v, pba := x.pba.filter x.masked }

/-- An access to BAR 4/5: the table is written, the pending-bit array is not. -/
def HostSide.barWrite (x : HostSide) (off : Nat) (bs : List Byte) : HostSide :=
  ((bs.zipIdx).foldl (fun x b => if off + b.2 < 1024 then x.putTable (off + b.2) b.1 else x) x).deliver

/-- An access to BAR 4/5 of the bridge. -/
def Dev.barTable (d : Dev) (off len : Nat) (data : Option (List Byte)) : Dev :=
  match data with
  | some bs => { d with host := d.host.barWrite off bs }.answer 0
  | none => d.answer 0 0 ((List.range len).map fun j => d.host.barByte (off + j))

/-- BAR_ACCESS: an access to BAR 0/1, or to BAR 4/5, of the bridge; none arrives while the host link is down. -/
def State.cmdBar (s : State) (table : Bool) (off len : Nat) (data : Option (List Byte)) : State :=
  if !s.dev.hostUp then s else if table then { s with dev := s.dev.barTable off len data } else s.mmHost off len data

/-- BAR_ACCESS (R307, R361). -/
def execBarAccess (table : Bool) (off len : Nat) (data : Option (List Byte)) (s : State) : Host.Outcome State Fault Refusal :=
  .next (s.cmdBar table off len data)

/-! ### Host windows (R308, R309, R437) -/

/-- Device and local address that an offset in BAR 2 names, if its window is valid (R308). -/
def Dev.window (d : Dev) (off : Nat) : Option (Nat × Nat) :=
  let w := d.get Obj.HOST_WINDOW 0 (off / 2 ^ 30 % 64)
  if bit w 0 then some (bits w 63 44, bits w 43 30 * 2 ^ 30 + off % 2 ^ 30) else none

/-- Confidential mode refuses HBM, slow-tier and scratchpad areas at the bridge (R437). -/
def Dev.windowRefused (d : Dev) (a : Nat) : Bool :=
  d.get Obj.CONFIDENTIAL_ACTIVE = 1 &&
    match d.area a with
    | .hbm .. | .aper .. | .slow .. | .scr .. => true
    | _ => false

/-- The lines that bytes at a local address lie in: line address and bytes [lo, hi) of it. -/
def linesOf (a len : Nat) : List (Nat × Nat × Nat) :=
  (List.range ((a % 64 + len + 63) / 64)).map fun k =>
    let base := a / 64 * 64 + 64 * k
    (base, max a base - base, min (a + len) (base + 64) - base)

/-- A line's bytes and the mask of those written; an empty mask where the line is written whole. -/
def linePart (bs : List Byte) (lo hi : Nat) : List Byte × List Bool :=
  (fit 0 64 (List.replicate lo 0 ++ bs), if lo = 0 ∧ hi = 64 then [] else (List.range 64).map fun j => decide (lo ≤ j) && decide (j < hi))

/-- The lines of a host access to the bridge's own device that are still to be served, up to the first that has to wait, and whether none
has. What a load gets is none where a line is not served (R309). -/
def Dev.hostLines (d : Dev) (r : LocalReq) : Dev × LocalReq × Bool :=
  ((linesOf r.addr r.len).drop r.next).foldl (fun (s : Dev × LocalReq × Bool) (x : Nat × Nat × Nat) =>
    if !s.2.2 then s
    else
      let go := fun (d : Dev) (got : Option (List Byte)) => (d, { s.2.1 with next := s.2.1.next + 1, got := got }, true)
      match r.data with
      | some bs =>
        let p := linePart ((bs.drop (x.1 + x.2.1 - r.addr)).take (x.2.2 - x.2.1)) x.2.1 x.2.2
        match s.1.localWrite x.1 ⟨p.1, false⟩ p.2 none whoBridge with
        | (d, .wait) => (d, s.2.1, false)
        | (d, _) => go d s.2.1.got
      | none => match s.1.localRead x.1 0 none [] whoBridge with
        | (d, .wait) => (d, s.2.1, false)
        | (d, .line v) => go d (s.2.1.got.map fun bs => bs ++ ((fit 0 64 v.bytes).drop x.2.1).take (x.2.2 - x.2.1))
        | (d, _) => go d none) (d, r, true)

/-- A host access to the bridge's own device, behind those that wait: it is answered, or waits with what it has done (R308). -/
def Dev.hostLocal (d : Dev) (r : LocalReq) : Dev :=
  let stay := fun (d : Dev) (r : LocalReq) => { d with host := { d.host with waits := d.host.waits ++ [r] } }
  if !d.host.waits.isEmpty then stay d r
  else
    let (d, r, done) := { d with crc := r.crc }.hostLines r
    let d := { d with crc := [] }
    if !done then stay d r
    else match r.data, r.got with
      | none, none => d.loadFails r.len
      | none, some bs => d.answer 0 0 bs
      | some _, _ => d.answer 0

/-- Serve the host accesses that wait, in order. -/
def Dev.serveHost (d : Dev) : Dev :=
  d.host.waits.foldl Dev.hostLocal { d with host := { d.host with waits := [] } }

/-- The frame of one line of a host store to another device (R308, R276). -/
def Dev.storeFrame (d : Dev) (dst base : Nat) (p : List Byte × List Bool) : Frame :=
  let mask := (p.2.zipIdx).foldl (fun v x => if x.1 then v + 2 ^ x.2 else v) 0
  { Frame.plain (if p.2.isEmpty then 1 else 2) 0 dst d.selfId base 0 0 with payload := p.1, ash := [false], ext := mask }

/-- The OD_REQ of one slot, covered from byte `lo`, of a host store to another device's dictionary (R361): of a scalar it carries the bytes that
are covered, for those beyond it are ignored (R343), and fewer than all of them are refused there; of a STRING or DOMAIN it names an offset
past the end, for such a slot takes no write (R344, DESIGN CHOICE, log entry 31). -/
def Dev.slotFrame (d : Dev) (dst slot lo : Nat) (bs : List Byte) : Frame :=
  let index := slot / 256
  let sub := slot % 256
  let (size, at_) := match lookupObj index sub with
    | some (o, _) => if o.typ.isBlock then (8, 0xFFFFFFFF) else (o.typ.bytes, 0)
    | none => (8, 0)
  let bs := bs.take (size - lo)
  { Frame.plain 8 2 dst d.selfId 0 0 0 with payload := fit 0 64 (odHeader 2 0 index sub 0 at_ bs.length ++ bs), ash := [false] }

/-- HOST_WINDOW_STORE to another device: a frame for each line, or for each slot of its dictionary window, in order (R308, R312). -/
def Dev.hostStoreRemote (d : Dev) (dst a : Nat) (bs : List Byte) : Dev :=
  let fs := if inOdWindow a then (slotsOf (a - 0xC0000000000) bs.length).map fun (x : Nat × Nat × Nat) =>
      d.slotFrame dst x.1 x.2.1 ((bs.drop (8 * x.1 + x.2.1 - (a - 0xC0000000000))).take (x.2.2 - x.2.1))
    else (linesOf a bs.length).map fun (x : Nat × Nat × Nat) =>
      d.storeFrame dst x.1 (linePart ((bs.drop (x.1 + x.2.1 - a)).take (x.2.2 - x.2.1)) x.2.1 x.2.2)
  fs.foldl (fun d f => d.acceptHost ⟨f, .hostStore dst⟩) (d.answer 0)

/-- A host load from another device: a READ_REQ, or an OD_REQ for each slot; it returns all ones until its answer is in (R308, R312). -/
def Dev.hostLoadRemote (d : Dev) (dst a len : Nat) : Dev :=
  let p := pieceOf a
  let base := a / p * p
  let off := a - base
  let f := if inOdWindow a then { Frame.plain 8 2 dst d.selfId 0 0 0 with ash := [false] }
    else Frame.plain 4 0 dst d.selfId base ((off + len - 1) / 64) 0
  d.acceptHost ⟨f, .hostLoad dst base off len []⟩

/-- HOST_WINDOW_STORE. -/
def State.cmdWindowStore (s : State) (off : Nat) (bs : List Byte) (crc : List (Nat × Nat)) : State :=
  let d := s.dev
  if !d.hostUp then s
  else match d.window off with
    | none => { s with dev := d.hostError.answer 0 }
    | some (dst, a) =>
      if d.windowRefused a then { s with dev := d.hostError.answer 0 }
      else if dst ≠ d.selfId then { s with dev := d.hostStoreRemote dst a bs }
      else if inOdWindow a then s.mmHost (a - 0xC0000000000) bs.length (some bs)
      else { s with dev := d.hostLocal ⟨a, some bs, bs.length, 0, none, crc⟩ }

/-- HOST_WINDOW_STORE (R308). -/
def execHostWindowStore (off : Nat) (data : List Byte) (crc : List (Nat × Nat)) (s : State) : Host.Outcome State Fault Refusal :=
  .next (s.cmdWindowStore off data crc)

/-- HOST_WINDOW_LOAD. -/
def State.cmdWindowLoad (s : State) (off len : Nat) (crc : List (Nat × Nat)) : State :=
  let d := s.dev
  if !d.hostUp then s
  else match d.window off with
    | none => { s with dev := d.loadFails len }
    | some (dst, a) =>
      if d.windowRefused a then { s with dev := d.loadFails len }
      else if dst ≠ d.selfId then { s with dev := d.hostLoadRemote dst a len }
      else if inOdWindow a then s.mmHost (a - 0xC0000000000) len none
      else { s with dev := d.hostLocal ⟨a, none, len, 0, some [], crc⟩ }

/-- HOST_WINDOW_LOAD (R308, R312). -/
def execHostWindowLoad (off len : Nat) (crc : List (Nat × Nat)) (s : State) : Host.Outcome State Fault Refusal :=
  .next (s.cmdWindowLoad off len crc)

/-- HOST_LOAD_TIMEOUT: 8 ms have passed since a load was sent, or, with 65,536 + k, since the k-th request held was accepted: it returns
all ones, and its later answer is absorbed (R309). -/
def Dev.cmdLoadTimeout (d : Dev) (tag : Nat) : Dev :=
  if tag < 65536 then
    match tget none d.net.awaits tag with
    | some (.hostLoad dst a off len got) => (d.await tag (some (.hostLate dst (piecesLeft a off len got)))).loadFails len
    | _ => d
  else match d.host.held[tag - 65536]? with
    | some ⟨_, .hostLoad _ _ _ len _⟩ =>
      (({ d with host := { d.host with held := d.host.held.eraseIdx (tag - 65536) } }).loadFails len).releaseHeld
    | _ => d

/-- HOST_LOAD_TIMEOUT (R309). -/
def execHostLoadTimeout (tag : Nat) (s : State) : Host.Outcome State Fault Refusal := s.onDev fun d => d.cmdLoadTimeout tag

/-! ### The host link (R306, R307, R311, R439) -/

/-- HOST_LINK_UP: the bridge's port has trained. -/
def Dev.cmdLinkUp (d : Dev) (speed width : Nat) : Dev :=
  if d.get Obj.HOST_LINK_STATE = 1 then
    ((d.put Obj.HOST_LINK_STATE 2).put Obj.HOST_LINK_SPEED speed).put Obj.HOST_LINK_WIDTH width
  else d

/-- HOST_LINK_UP (R307). -/
def execHostLinkUp (speed width : Nat) (s : State) : Host.Outcome State Fault Refusal := s.onDev fun d => d.cmdLinkUp speed width

/-- A host request whose answer is still outstanding when the link goes down: its answer is absorbed and counted (R311). -/
def Await.lost : Await → Await
  | .hostLoad dst a off len got => .hostLost dst false (piecesLeft a off len got)
  | .hostLate dst left => .hostLost dst false left
  | .hostStore dst => .hostLost dst true 1
  | w => w

/-- The bridge's PCIe function is reset with its link: every vector is masked and none pending (PRESUMED, log entry 51). -/
def Dev.resetTable (d : Dev) : Dev := { d with host := { d.host with table := [], pba := [] } }

/-- The host link goes down: requests not yet sent are gone, and answers still to come are absorbed. -/
def Dev.hostDown (d : Dev) : Dev :=
  if d.get Obj.HOST_LINK_STATE ≠ 2 then d
  else
    let d := ((d.put Obj.HOST_LINK_STATE 1).put Obj.HOST_LINK_SPEED 0).put Obj.HOST_LINK_WIDTH 0
    let d := { d with host := { d.host with held := [], waits := [] } }.resetTable
    d.modNet fun n => { n with awaits := n.awaits.map fun e => (e.1, e.2.map Await.lost) }

/-- HOST_LINK_DOWN (R311). -/
def execHostLinkDown (s : State) : Host.Outcome State Fault Refusal := s.onDev Dev.hostDown

/-- PERST_N: a fundamental reset of the host port, ignored by a device that is not the bridge (R439). -/
def execPerst (s : State) : Host.Outcome State Fault Refusal := s.onDev fun d => if d.isBridge then d.hostDown.resetTable else d

end Sys2Proof.Machine
end

