-- ==== Sys2Proof/Machine/I3c.lean ====
section
/-! DEFINITION. The I3C target and the MCTP endpoint (R364). Answers whose bytes the spec does not give are constants of Config. -/

namespace Sys2Proof.Machine

/-- Change the I3C target. -/
def Dev.modI3c (d : Dev) (f : I3c → I3c) : Dev := { d with i3c := f d.i3c }

/-- An MCTP control message is served by the Pilot firmware, which answers SERVER_BUSY before it runs and while it restarts (R372, R395). -/
def Dev.endpoint (d : Dev) (f : Dev → Dev) : Dev := if d.get Obj.BOOT_STATE < 2 ∨ d.pilot.restarting then d.answer 7 else f d

/-- A control message that asks for what the spec gives no bytes for. -/
def Dev.mctp (d : Dev) (command arg : Nat) : Dev := d.endpoint fun d => d.answer 0 0 (Config.mctpAnswer command arg)

/-- Set Endpoint ID. -/
def execSetEndpointId (eid : Byte) (s : State) : Host.Outcome State Fault Refusal :=
  s.onDev fun d => d.endpoint fun d => (d.modI3c fun x => { x with eid := eid.toNat }).answer 0

/-- Get Endpoint ID. -/
def execGetEndpointId (s : State) : Host.Outcome State Fault Refusal :=
  s.onDev fun d => d.endpoint fun d => d.answer 0 d.i3c.eid

/-- Get MCTP Version Support, by message type. -/
def execGetMctpVersionSupport (typ : Byte) (s : State) : Host.Outcome State Fault Refusal := s.onDev fun d => d.mctp 4 typ.toNat

/-- Get Message Type Support. -/
def execGetMessageTypeSupport (s : State) : Host.Outcome State Fault Refusal := s.onDev fun d => d.mctp 5 0

/-- Get Vendor Defined Message Support. -/
def execGetVendorDefinedMessageSupport (selector : Byte) (s : State) : Host.Outcome State Fault Refusal :=
  s.onDev fun d => d.mctp 6 selector.toNat

/-- ENTDAA: a target without a dynamic address takes the one assigned. -/
def execEntdaa (addr : Fin 128) (s : State) : Host.Outcome State Fault Refusal :=
  s.onDev fun d => if d.i3c.addr.isNone then d.modI3c fun x => { x with addr := some addr.val } else d

/-- SETDASA: a target without a dynamic address whose static address is named takes the one assigned. -/
def execSetdasa (stat addr : Fin 128) (s : State) : Host.Outcome State Fault Refusal :=
  s.onDev fun d => if stat.val = Config.i3cStatic ∧ d.i3c.addr.isNone then d.modI3c fun x => { x with addr := some addr.val } else d

/-- RSTDAA: the dynamic address is dropped. -/
def execRstdaa (s : State) : Host.Outcome State Fault Refusal := s.onDev fun d => d.modI3c fun x => { x with addr := none }

/-- ENEC: the controller enables in-band interrupts (R369). -/
def execEnec (s : State) : Host.Outcome State Fault Refusal := s.onDev fun d => d.modI3c fun x => { x with ibi := true }

/-- DISEC: the controller disables in-band interrupts. -/
def execDisec (s : State) : Host.Outcome State Fault Refusal := s.onDev fun d => d.modI3c fun x => { x with ibi := false }

/-- The answer to a CCC that reads the target. -/
def Dev.ccc (d : Dev) (n : Nat) : Dev := d.answer 0 0 (Config.mctpAnswer n 0)

/-- GETPID. -/
def execGetpid (s : State) : Host.Outcome State Fault Refusal := s.onDev fun d => d.ccc 0x8D
/-- GETBCR. -/
def execGetbcr (s : State) : Host.Outcome State Fault Refusal := s.onDev fun d => d.ccc 0x8E
/-- GETDCR. -/
def execGetdcr (s : State) : Host.Outcome State Fault Refusal := s.onDev fun d => d.ccc 0x8F
/-- GETMXDS. -/
def execGetmxds (s : State) : Host.Outcome State Fault Refusal := s.onDev fun d => d.ccc 0x94
/-- GETSTATUS. -/
def execGetstatus (s : State) : Host.Outcome State Fault Refusal := s.onDev fun d => d.ccc 0x90

end Sys2Proof.Machine
end

