-- ==== Sys2Proof/Machine/Module.lean ====
section
/-! DEFINITION. The module's input, its sideband pins and its hold-up bank (R439 to R452). -/

namespace Sys2Proof.Machine

/-! ### The 54 V input (R440, R450, R452) -/

/-- INPUT_LOSS: the silicon loses power at once; the Pilot powers down, or first ends the store operation in progress. -/
def State.cmdInputLoss (s : State) : State :=
  if s.dev.get Obj.BOOT_STATE = 0 ∨ s.dev.power.onBank then s
  else
    let d := (s.dev.setDamper s.dev.power.pin false).powerLoss
    match d.store.running with
    | none => { s with vault := { s.vault with lastShutdown := 2 }, dev := pilotDown d }
    | some _ => { s with dev := d.modPower fun p => { p with onBank := true } }

/-- INPUT_LOSS (R452). -/
def execInputLoss (s : State) : Host.Outcome State Fault Refusal := .next s.cmdInputLoss

/-- INPUT_RETURN: the input is back while the Pilot still runs; the power-on follows the store operation in progress (R452). -/
def execInputReturn (s : State) : Host.Outcome State Fault Refusal :=
  s.onDev fun d => if d.power.onBank then d.modPower fun p => { p with inputBack := true } else d

/-- Show an input voltage. -/
def Dev.inputAt (d : Dev) (mv : Nat) : Dev := (d.modPower fun p => { p with inputMv := mv }).put Obj.INPUT_VOLTAGE_MV mv

/-- INPUT_LOW: an input of 42 to 46 V; each entry is reported (R440, R459). -/
def Dev.cmdInputLow (d : Dev) (mv : Nat) : Dev :=
  if mv < 42000 ∨ 46000 ≤ mv then d
  else if d.get Obj.INPUT_STATE = 1 then d.inputAt mv
  else ((d.inputAt mv).put Obj.INPUT_STATE 1).raise Event.inputLow .global 0

/-- INPUT_LOW (R440). -/
def execInputLow (mv : Nat) (s : State) : Host.Outcome State Fault Refusal := s.onDev fun d => d.cmdInputLow mv

/-- INPUT_NORMAL: the input is back in its operating range (R440). -/
def execInputNormal (mv : Nat) (s : State) : Host.Outcome State Fault Refusal :=
  s.onDev fun d => if mv < 46000 then d else (d.inputAt mv).put Obj.INPUT_STATE 0

/-- INPUT_OVERCURRENT: the internal damper net is asserted (R440). -/
def execInputOvercurrent (s : State) : Host.Outcome State Fault Refusal := s.onDev fun d => d.setDamper d.power.pin false

/-- INPUT_REVERSED: the front end records the reversal (R450). -/
def execInputReversed (s : State) : Host.Outcome State Fault Refusal := .next { s with vault := { s.vault with reversed := true } }

/-! ### Sideband pins (R448, R449) -/

/-- A sideband fault is found: shown, latched, and reported once while it lasts. -/
def Dev.pinFault (d : Dev) (n : Nat) : Dev :=
  if bit (d.get Obj.SIDEBAND_STATUS) n then d
  else ((d.putBit Obj.SIDEBAND_STATUS n true).putBit Obj.SIDEBAND_FAULTS n true).raise Event.sidebandFault .global 0 none n

/-- SIDEBAND_PIN_FAULT: a fault is detected, or ends (R448). -/
def execSidebandPinFault (pin : Fin 9) (present : Bool) (s : State) : Host.Outcome State Fault Refusal :=
  s.onDev fun d => if present then d.pinFault pin.val else d.putBit Obj.SIDEBAND_STATUS pin.val false

/-- PULLDOWN_TEST: a pin that still reads high is shorted to 3.3 V (R449). -/
def execPulldownTest (resetHigh damperHigh : Bool) (s : State) : Host.Outcome State Fault Refusal :=
  s.onDev fun d =>
    let d := if resetHigh then d.pinFault 0 else d
    if damperHigh then d.pinFault 1 else d

/-! ### The hold-up bank (R451) -/

/-- HOLDUP_MEASURE: usable energy; the first figure at full charge is the capacity. -/
def Dev.cmdHoldup (d : Dev) (mj : Nat) (full : Bool) : Dev :=
  let d := (d.put Obj.HOLDUP_ENERGY_MJ mj).putBit Obj.HOLDUP_STATUS 0 (!full)
  if full ∧ d.get Obj.HOLDUP_CAPACITY_MJ = 0 then
    let d := d.put Obj.HOLDUP_CAPACITY_MJ mj
    if mj < 12000 then (d.putBit Obj.HOLDUP_STATUS 1 true).raise Event.holdupDegraded .global 0 else d
  else d

/-- HOLDUP_MEASURE (R451). -/
def execHoldupMeasure (mj : Nat) (full : Bool) (s : State) : Host.Outcome State Fault Refusal := s.onDev fun d => d.cmdHoldup mj full

end Sys2Proof.Machine
end

