-- ==== Sys2Proof/Machine/Pilot.lean ====
section
/-! DEFINITION. Restarts of the management core (R372). -/

namespace Sys2Proof.Machine

/-- The core restarts: from now on what it serves answers SERVER_BUSY and events are held. A DEGRADED Pilot stays DEGRADED. -/
def Dev.restartPilot (d : Dev) : Dev :=
  if d.get Obj.BOOT_STATE < 2 ∨ d.pilot.restarting then d
  else
    let recent := d.pilot.restarts.filter fun t => decide (d.tick ≤ t + 50000000)
    let d := { d with pilot := { d.pilot with restarting := true, restarts := recent ++ [d.tick] } }
    if d.get Obj.PILOT_STATE = 2 then d else d.put Obj.PILOT_STATE 1

/-- PILOT_WATCHDOG_EXPIRY (R372). -/
def execPilotWatchdogExpiry (s : State) : Host.Outcome State Fault Refusal := s.onDev Dev.restartPilot

/-- PILOT_SRAM_ERROR (R371, R372, R392): a word of the core's SRAM with a single-bit error is corrected and counted; any other restarts it. -/
def execPilotSramError (corrected : Bool) (s : State) : Host.Outcome State Fault Refusal :=
  s.onDev fun d => if corrected then (if d.get Obj.BOOT_STATE < 2 then d else d.bump Obj.PILOT_SRAM_CORRECTED) else d.restartPilot

/-- Write the events held during the restart to the ring, and count those lost. -/
def Dev.releaseEvents (d : Dev) : Dev :=
  let p := d.pilot
  let d := { d with pilot := { p with restarting := false, held := [], lost := 0 } }
  let d := p.held.foldl Dev.record d
  if p.lost = 0 then d else (d.bump Obj.EVENTS_OVERWRITTEN 0 p.lost).raise Event.eventOverwrite .global 0

/-- Every region's power ceiling is held at OP4 or lower (R372). -/
def Dev.holdCeilings (d : Dev) : Dev := (List.range 16).foldl (fun d g => d.put Obj.POWER_CEILING (min 4 (d.get Obj.POWER_CEILING g)) g) d

/-- PILOT_RESTART_DONE: the running image verifies and the core serves again; three restarts within 50,000,000 ticks degrade it. -/
def Dev.cmdRestartDone (d : Dev) (v : Vault) (crypto : Bool) : Dev :=
  let img := v.verify (d.get Obj.FW_KEY_REVOKED) (d.get Obj.FW_ACTIVE_SLOT) crypto crypto crypto
  if !d.pilot.restarting ∨ img ≠ 0 then d
  else
    let d := d.releaseEvents
    let d := (d.bump Obj.PILOT_RESTARTS).raise Event.pilotRestart .global 0
    if 3 ≤ d.pilot.restarts.length ∨ d.get Obj.PILOT_STATE = 2 then ((d.put Obj.PILOT_STATE 2).holdCeilings).retargetAll
    else d.put Obj.PILOT_STATE 0

/-- PILOT_RESTART_DONE (R372). -/
def execPilotRestartDone (crypto : Bool) (s : State) : Host.Outcome State Fault Refusal := s.onDev fun d => d.cmdRestartDone s.vault crypto

end Sys2Proof.Machine
end

