-- ==== Sys2Proof/Machine/Store.lean ====
section
/-! DEFINITION. The ember store's operations (R453 to R458). -/

namespace Sys2Proof.Machine

/-- Whether the store may start an operation: the Pilot firmware runs, the input is present, nothing is in progress. -/
def Dev.storeReady (d : Dev) : Bool :=
  decide (2 ≤ d.get Obj.BOOT_STATE) && !d.pilot.restarting && !d.power.onBank && d.store.running.isNone

/-- STORE_OPERATION_START: the next operation, under its energy check. -/
def Dev.cmdStoreStart (d : Dev) (mj : Nat) : Dev :=
  if d.storeReady then match d.nextStore with
    | some o => d.tryStore o mj
    | none => d
  else d

/-- STORE_OPERATION_START (R457). -/
def execStoreOperationStart (mj : Nat) (s : State) : Host.Outcome State Fault Refusal := s.onDev fun d => d.cmdStoreStart mj

/-- STORE_RETRY: a deferred operation is tried again. -/
def Dev.cmdStoreRetry (d : Dev) (mj : Nat) : Dev :=
  if d.storeReady then match d.nextDeferred with
    | some o => d.tryStore o mj
    | none => d
  else d

/-- STORE_RETRY (R457). -/
def execStoreRetry (mj : Nat) (s : State) : Host.Outcome State Fault Refusal := s.onDev fun d => d.cmdStoreRetry mj

/-- STORE_OPERATION_DONE: the operation in progress ends, or fails. After an input loss the Pilot then powers down, or starts again
when the input is back (R452, R454). -/
def State.cmdStoreDone (s : State) (ok : Bool) : State :=
  match s.dev.store.running with
  | none => s
  | some o =>
    let r := if ok then storeEnded s.vault s.dev o else (s.vault, s.dev.mirrorFailed s.vault o)
    if !r.2.power.onBank then { s with vault := r.1, dev := r.2 }
    else if r.2.power.inputBack then
      let p := r.2.freePins
      let b := bootFrom r.1 p.2 false 3 p.1.1 p.1.2
      { s with vault := b.1, dev := b.2 }
    else { s with vault := { r.1 with lastShutdown := 3 }, dev := pilotDown r.2 }

/-- STORE_OPERATION_DONE (R454). -/
def execStoreOperationDone (ok : Bool) (s : State) : Host.Outcome State Fault Refusal := .next (s.cmdStoreDone ok)

end Sys2Proof.Machine
end

