-- ==== Sys2Proof/Machine/Tick.lean ====
section
/-! DEFINITION. The end of a pilot tick: what waits for a clock or a turn is tried again (R25, R335, R359, R365), then the tick is counted and
the scheduler passes (R232, R330). -/

namespace Sys2Proof.Machine

/-- The clocks that a request of a path's queue needs now. -/
def PathReq.needs (d : Dev) : PathReq → List Nat
  | .cmd _ hdr _ => if bits hdr 255 248 ≤ 2 then d.needs (bits hdr 239 220) (bits hdr 219 212) (bits hdr 255 248 = 2) else []
  | .bar off _ data next _ => d.slotNeeds off next data.isSome
  | .object _ index sub _ => d.needs index sub true

/-- A request of a path's queue with its path's number, its place there and its requester. -/
structure Turned where
  path : Nat
  place : Nat
  who : Nat
  req : PathReq
  deriving DecidableEq, Repr

/-- The requests of a queue that may be served: those whose clocks run, with no earlier one of their requester for the same object. -/
def Dev.mayServe (d : Dev) (n : Nat) : List Turned :=
  let q := tget [] d.paths n
  ((q.zipIdx).filter fun r =>
    !(PathReq.needs d r.1).any d.regionWaits &&
      !(q.take r.2).any fun e => decide (pathWho e.path = pathWho r.1.path) && e.objects.any r.1.objects.contains).map
    fun r => ⟨n, r.2, pathWho r.1.path, r.1⟩

/-- Serve a request that has left its queue: what is left of it where a later slot has to wait. -/
def State.finishPath (s : State) : PathReq → State × Option PathReq
  | .cmd path hdr bs => (s.finishCmd path hdr bs, none)
  | .object path index sub v => let w := s.setScalar (pathWho path) index sub v; (w.1.answer w.2, none)
  | .bar off len data next got => match s.mmAccess off len data next got true with
    | (s, got, none) => (State.hostDone (s, got), none)
    | (s, got, some k) =>
      ({ s with dev := (s.dev.slotNeeds off k data.isSome).foldl Dev.wakeRegion s.dev }, some (.bar off len data k got))

/-- Serve one request: the requester whose turn it is, with the pointer moved past it (R335), and its oldest. -/
def State.serveOne (s : State) (t : Turned) : State :=
  let d := s.dev
  let q := tget [] d.paths t.path
  let d := { d with arb := tset 0 d.arb arbPaths ((t.who + 1) % requesters), paths := tset [] d.paths t.path (q.eraseIdx t.place) }
  let (s, left) := { s with dev := d }.finishPath t.req
  match left with
  | none => s
  | some r => { s with dev := { s.dev with paths := tmod [] s.dev.paths t.path fun q => q.take t.place ++ r :: q.drop t.place } }

/-- The request served next, if one may be. -/
def Dev.turn (d : Dev) : Option Turned :=
  let ts := [0, 1, 2].flatMap d.mayServe
  if ts.isEmpty then none
  else (rotPick requesters (tget 0 d.arb arbPaths) (ts.map (·.who))).bind fun w => ts.find? fun t => t.who = w

/-- Serve the requests of the paths' queues that may be served, at most `n` of them. -/
def State.servePaths (s : State) : Nat → State
  | 0 => s
  | n + 1 => match s.dev.turn with
    | none => s
    | some t => (s.serveOne t).servePaths n

/-- Serve what waits in the ports' receive buffers. -/
def Dev.servePorts (d : Dev) : Dev := (List.range 16).foldl (fun d p => if (d.port p).rx.isEmpty then d else d.serveRx p) d

/-- Serve what waits, then end the tick (DESIGN CHOICE, log entry 51: waiting requests are tried again at each tick's end). -/
def State.cmdPass (s : State) (busy throttled : List Nat) : State :=
  let s := s.servePaths 192
  { s with dev := (s.dev.servePorts.serveHost).cmdPass busy throttled }

/-- SCHEDULER_PASS (R330). -/
def execSchedulerPass (busy throttled : List Nat) (s : State) : Host.Outcome State Fault Refusal := .next (s.cmdPass busy throttled)

end Sys2Proof.Machine
end

