-- ==== Sys2Proof/Machine/Dispatch.lean ====
section
/-! DEFINITION. Each command of the table handed to its meaning. -/

namespace Sys2Proof.Machine

/-- What a command does, by its constructor. -/
def exec (i : Instr) (s : State) : Host.Outcome State Fault Refusal :=
  match i with
  | .powerOn sel0 sel1 => Sys2Proof.Machine.execPowerOn sel0 sel1 s
  | .firmwareVerified crypto0 crypto1 persistOk => Sys2Proof.Machine.execFirmwareVerified crypto0 crypto1 persistOk s
  | .regionPllLocked g => Sys2Proof.Machine.execRegionPllLocked g s
  | .testRoundEnd g failed badCaches => Sys2Proof.Machine.execTestRoundEnd g failed badCaches s
  | .stackTrainingDone st failed => Sys2Proof.Machine.execStackTrainingDone st failed s
  | .fwAreaWritten => Sys2Proof.Machine.execFwAreaWritten s
  | .clusterMulticast cl fails => Sys2Proof.Machine.execClusterMulticast cl fails s
  | .chunkPull cl fails => Sys2Proof.Machine.execChunkPull cl fails s
  | .portPresenceTimeout p => Sys2Proof.Machine.execPortPresenceTimeout p s
  | .deviceReady => Sys2Proof.Machine.execDeviceReady s
  | .regionFullService g => Sys2Proof.Machine.execRegionFullService g s
  | .resetN sel0 sel1 => Sys2Proof.Machine.execResetN sel0 sel1 s
  | .wholeReset v sel0 sel1 => Sys2Proof.Machine.execWholeReset v sel0 sel1 s
  | .partitionReset n => Sys2Proof.Machine.execPartitionReset n s
  | .clusterReset cl v => Sys2Proof.Machine.execClusterReset cl v s
  | .hearthReset h v => Sys2Proof.Machine.execHearthReset h v s
  | .resetDrainTimeout part unanswered => Sys2Proof.Machine.execResetDrainTimeout part unanswered s
  | .resetTestDone h fail => Sys2Proof.Machine.execResetTestDone h fail s
  | .defectAdd v => Sys2Proof.Machine.execDefectAdd v s
  | .laneDefectRecord p rx lane => Sys2Proof.Machine.execLaneDefectRecord p rx lane s
  | .fillStageRead h sram => Sys2Proof.Machine.execFillStageRead h sram s
  | .loop h sram => Sys2Proof.Machine.execLoop h sram s
  | .branch h sram => Sys2Proof.Machine.execBranch h sram s
  | .nop h => Sys2Proof.Machine.execNop h s
  | .counter h => Sys2Proof.Machine.execCounter h s
  | .grate h stalls sram => Sys2Proof.Machine.execGrate h stalls sram s
  | .feederRead h row rivals sram => Sys2Proof.Machine.execFeederRead h row rivals sram s
  | .outputDrain h errs => Sys2Proof.Machine.execOutputDrain h errs s
  | .skipCheckRead h sram => Sys2Proof.Machine.execSkipCheckRead h sram s
  | .grateEntryComplete h => Sys2Proof.Machine.execGrateEntryComplete h s
  | .vector h sram regs => Sys2Proof.Machine.execVector h sram regs s
  | .stream h sram => Sys2Proof.Machine.execStream h sram s
  | .streamLine h place words crc => Sys2Proof.Machine.execStreamLine h place words crc s
  | .streamResume h place => Sys2Proof.Machine.execStreamResume h place s
  | .streamResumeAbort h place => Sys2Proof.Machine.execStreamResumeAbort h place s
  | .flueEntryWrite h sram rivals => Sys2Proof.Machine.execFlueEntryWrite h sram rivals s
  | .flueEntryRead h sram rivals => Sys2Proof.Machine.execFlueEntryRead h sram rivals s
  | .flueWriteCopyEnd f slot => Sys2Proof.Machine.execFlueWriteCopyEnd f slot s
  | .flueReadCopyEnd f slot => Sys2Proof.Machine.execFlueReadCopyEnd f slot s
  | .stepEnd h sram => Sys2Proof.Machine.execStepEnd h sram s
  | .entryComplete h id => Sys2Proof.Machine.execEntryComplete h id s
  | .entryRetire h id => Sys2Proof.Machine.execEntryRetire h id s
  | .bellowsWalk h sram => Sys2Proof.Machine.execBellowsWalk h sram s
  | .bellowsFetch h sram crc => Sys2Proof.Machine.execBellowsFetch h sram crc s
  | .firingStall h stuck => Sys2Proof.Machine.execFiringStall h stuck s
  | .stepAbort c cause => Sys2Proof.Machine.execStepAbort c cause s
  | .draughtCheck f => Sys2Proof.Machine.execDraughtCheck f s
  | .remoteWrite h off data ash => Sys2Proof.Machine.execRemoteWrite h off data ash s
  | .arrivalNotice h line => Sys2Proof.Machine.execArrivalNotice h line s
  | .flueCfgWrite f v => Sys2Proof.Machine.execFlueCfgWrite f v s
  | .flueFill f countM1 turn => Sys2Proof.Machine.execFlueFill f countM1 turn s
  | .flueDrain f countM1 turn => Sys2Proof.Machine.execFlueDrain f countM1 turn s
  | .flueReset f turn => Sys2Proof.Machine.execFlueReset f turn s
  | .hbmRead st sec rq errs crcFails turn => Sys2Proof.Machine.execHbmRead st sec rq errs crcFails turn s
  | .hbmWrite st sec data mask ash ctx crcFails turn => Sys2Proof.Machine.execHbmWrite st sec data mask ash ctx crcFails turn s
  | .apertureWrite st win line data ash crcFails turn => Sys2Proof.Machine.execApertureWrite st win line data ash crcFails turn s
  | .ckptAgeFlush st win block => Sys2Proof.Machine.execCkptAgeFlush st win block s
  | .apertureRead st win line rq crcFails turn => Sys2Proof.Machine.execApertureRead st win line rq crcFails turn s
  | .foldAdd st sec bf16 data ash crcFails turn => Sys2Proof.Machine.execFoldAdd st sec bf16 data ash crcFails turn s
  | .scrubRead st errs => Sys2Proof.Machine.execScrubRead st errs s
  | .pseudoChannelPowerDown st pch => Sys2Proof.Machine.execPseudoChannelPowerDown st pch s
  | .pseudoChannelSelfRefresh st pch => Sys2Proof.Machine.execPseudoChannelSelfRefresh st pch s
  | .holdEnter st pch => Sys2Proof.Machine.execHoldEnter st pch s
  | .holdDrainTimeout st pch => Sys2Proof.Machine.execHoldDrainTimeout st pch s
  | .lateWriteAbsorbed st sec => Sys2Proof.Machine.execLateWriteAbsorbed st sec s
  | .holdEnd st => Sys2Proof.Machine.execHoldEnd st s
  | .stackPowerOff st => Sys2Proof.Machine.execStackPowerOff st s
  | .stackPowerOn st => Sys2Proof.Machine.execStackPowerOn st s
  | .retrainRequest st mask => Sys2Proof.Machine.execRetrainRequest st mask s
  | .channelRetrainDone st ch => Sys2Proof.Machine.execChannelRetrainDone st ch s
  | .channelTrainTimeout st ch => Sys2Proof.Machine.execChannelTrainTimeout st ch s
  | .ckptWinWrite st win v => Sys2Proof.Machine.execCkptWinWrite st win v s
  | .runJob st v => Sys2Proof.Machine.execRunJob st v s
  | .armBmax st v => Sys2Proof.Machine.execArmBmax st v s
  | .closeBmax st v => Sys2Proof.Machine.execCloseBmax st v s
  | .flushCkpt st v => Sys2Proof.Machine.execFlushCkpt st v s
  | .hobDoorbellDone st => Sys2Proof.Machine.execHobDoorbellDone st s
  | .hobClockStop st => Sys2Proof.Machine.execHobClockStop st s
  | .update t v => Sys2Proof.Machine.execUpdate t v s
  | .norm t v => Sys2Proof.Machine.execNorm t v s
  | .resetState t v => Sys2Proof.Machine.execResetState t v s
  | .groupUpdate t sramAt errs crc => Sys2Proof.Machine.execGroupUpdate t sramAt errs crc s
  | .programChunkDone t chunk weights states errs sram crc => Sys2Proof.Machine.execProgramChunkDone t chunk weights states errs sram crc s
  | .groupNorm t sramAt crc => Sys2Proof.Machine.execGroupNorm t sramAt crc s
  | .groupResetState t => Sys2Proof.Machine.execGroupResetState t s
  | .stokerDoorbellDone t => Sys2Proof.Machine.execStokerDoorbellDone t s
  | .groupEnable g v => Sys2Proof.Machine.execGroupEnable g v s
  | .groupStatusWrite g v => Sys2Proof.Machine.execGroupStatusWrite g v s
  | .slowTierRead h t line ctx words rivals => Sys2Proof.Machine.execSlowTierRead h t line ctx words rivals s
  | .slowTierWrite h t line ctx data ash rivals => Sys2Proof.Machine.execSlowTierWrite h t line ctx data ash rivals s
  | .stokerSleep t => Sys2Proof.Machine.execStokerSleep t s
  | .stokerWake t => Sys2Proof.Machine.execStokerWake t s
  | .stokerReady t links => Sys2Proof.Machine.execStokerReady t links s
  | .stokerTrainTimeout t part => Sys2Proof.Machine.execStokerTrainTimeout t part s
  | .stokerSrSeedWrite t v => Sys2Proof.Machine.execStokerSrSeedWrite t v s
  | .hearthSrSeedWrite h v => Sys2Proof.Machine.execHearthSrSeedWrite h v s
  | .write p f crc => Sys2Proof.Machine.execWrite p f crc s
  | .writePartial p f crc => Sys2Proof.Machine.execWritePartial p f crc s
  | .add p f crc => Sys2Proof.Machine.execAdd p f crc s
  | .readReq p f errs crc => Sys2Proof.Machine.execReadReq p f errs crc s
  | .readResp p f => Sys2Proof.Machine.execReadResp p f s
  | .notice p f => Sys2Proof.Machine.execNotice p f s
  | .flueWrite p f rivals => Sys2Proof.Machine.execFlueWrite p f rivals s
  | .ack p f => Sys2Proof.Machine.execAck p f s
  | .odResp p f => Sys2Proof.Machine.execOdResp p f s
  | .unknownFrame p f => Sys2Proof.Machine.execUnknownFrame p f s
  | .corruptedFrame p authFail => Sys2Proof.Machine.execCorruptedFrame p authFail s
  | .frameForward p f => Sys2Proof.Machine.execFrameForward p f s
  | .frameTransmit p => Sys2Proof.Machine.execFrameTransmit p s
  | .creditReturn p vl credits confirmed => Sys2Proof.Machine.execCreditReturn p vl credits confirmed s
  | .replayRequest p seq => Sys2Proof.Machine.execReplayRequest p seq s
  | .keySlotChange p slot => Sys2Proof.Machine.execKeySlotChange p slot s
  | .fabricTimeout tag => Sys2Proof.Machine.execFabricTimeout tag s
  | .creditStall p vl => Sys2Proof.Machine.execCreditStall p vl s
  | .rekey p => Sys2Proof.Machine.execRekey p s
  | .secOffer p random devId serial chainOk linkCertOk lines => Sys2Proof.Machine.execSecOffer p random devId serial chainOk linkCertOk lines s
  | .secKey p ephemeral sigOk lines => Sys2Proof.Machine.execSecKey p ephemeral sigOk lines s
  | .secFinish p macOk lines => Sys2Proof.Machine.execSecFinish p macOk lines s
  | .portTrained p tx rx own other lightOnTx => Sys2Proof.Machine.execPortTrained p tx rx own other lightOnTx s
  | .fibreDark p position => Sys2Proof.Machine.execFibreDark p position s
  | .laneDown p rx lane => Sys2Proof.Machine.execLaneDown p rx lane s
  | .widthChangeDone p => Sys2Proof.Machine.execWidthChangeDone p s
  | .portDownHoldExpiry p => Sys2Proof.Machine.execPortDownHoldExpiry p s
  | .laneRetry p trained => Sys2Proof.Machine.execLaneRetry p trained s
  | .laneIdle p => Sys2Proof.Machine.execLaneIdle p s
  | .laneWake p => Sys2Proof.Machine.execLaneWake p s
  | .portEnable p => Sys2Proof.Machine.execPortEnable p s
  | .portDisable p => Sys2Proof.Machine.execPortDisable p s
  | .routeInGroupWrite off data => Sys2Proof.Machine.execRouteInGroupWrite off data s
  | .routeCrossGroupWrite off data => Sys2Proof.Machine.execRouteCrossGroupWrite off data s
  | .distanceProbeTimeout m => Sys2Proof.Machine.execDistanceProbeTimeout m s
  | .hostWindowStore off data crc => Sys2Proof.Machine.execHostWindowStore off data crc s
  | .hostWindowLoad off len crc => Sys2Proof.Machine.execHostWindowLoad off len crc s
  | .hostLoadTimeout tag => Sys2Proof.Machine.execHostLoadTimeout tag s
  | .hostLinkUp speed width => Sys2Proof.Machine.execHostLinkUp speed width s
  | .hostLinkDown => Sys2Proof.Machine.execHostLinkDown s
  | .perst => Sys2Proof.Machine.execPerst s
  | .barAccess table off len data => Sys2Proof.Machine.execBarAccess table off len data s
  | .launch c countM1 => Sys2Proof.Machine.execLaunch c countM1 s
  | .abort c => Sys2Proof.Machine.execAbort c s
  | .cancel c => Sys2Proof.Machine.execCancel c s
  | .resume c => Sys2Proof.Machine.execResume c s
  | .ctxEnableWrite c v => Sys2Proof.Machine.execCtxEnableWrite c v s
  | .schedulerPass busy throttled => Sys2Proof.Machine.execSchedulerPass busy throttled s
  | .hearthStartCommand h => Sys2Proof.Machine.execHearthStartCommand h s
  | .scaleSlotExchange h sram crc => Sys2Proof.Machine.execScaleSlotExchange h sram crc s
  | .clusterRelease cl => Sys2Proof.Machine.execClusterRelease cl s
  | .stepComplete c => Sys2Proof.Machine.execStepComplete c s
  | .tlbInvalidate c v => Sys2Proof.Machine.execTlbInvalidate c v s
  | .tlbInvalidateDone c => Sys2Proof.Machine.execTlbInvalidateDone c s
  | .energyAttribution units => Sys2Proof.Machine.execEnergyAttribution units s
  | .accountsSnapshot c v => Sys2Proof.Machine.execAccountsSnapshot c v s
  | .accountsClear c v => Sys2Proof.Machine.execAccountsClear c v s
  | .countersClear h v => Sys2Proof.Machine.execCountersClear h v s
  | .seqCountersClear h v => Sys2Proof.Machine.execSeqCountersClear h v s
  | .streamCountersClear h v => Sys2Proof.Machine.execStreamCountersClear h v s
  | .idleCountersClear h v => Sys2Proof.Machine.execIdleCountersClear h v s
  | .hbmCountersClear st v => Sys2Proof.Machine.execHbmCountersClear st v s
  | .hobCountersClear st v => Sys2Proof.Machine.execHobCountersClear st v s
  | .groupCountersClear g v => Sys2Proof.Machine.execGroupCountersClear g v s
  | .stokerCountersClear t v => Sys2Proof.Machine.execStokerCountersClear t v s
  | .portCountersClear p v => Sys2Proof.Machine.execPortCountersClear p v s
  | .fabricCountersClear v => Sys2Proof.Machine.execFabricCountersClear v s
  | .objectWrite path index sub v => Sys2Proof.Machine.execObjectWrite path index sub v s
  | .odRead c => Sys2Proof.Machine.execOdRead c s
  | .odWrite c => Sys2Proof.Machine.execOdWrite c s
  | .describe c => Sys2Proof.Machine.execDescribe c s
  | .eventRead c => Sys2Proof.Machine.execEventRead c s
  | .eventNotice src seq => Sys2Proof.Machine.execEventNotice src seq s
  | .eventOldestSeqRead path => Sys2Proof.Machine.execEventOldestSeqRead path s
  | .fetchSeqWrite v => Sys2Proof.Machine.execFetchSeqWrite v s
  | .dpGoRead => Sys2Proof.Machine.execDpGoRead s
  | .dpGoWrite => Sys2Proof.Machine.execDpGoWrite s
  | .descTargetWrite v => Sys2Proof.Machine.execDescTargetWrite v s
  | .persistSave v => Sys2Proof.Machine.execPersistSave v s
  | .persistRestoreDefaults v => Sys2Proof.Machine.execPersistRestoreDefaults v s
  | .setEndpointId eid => Sys2Proof.Machine.execSetEndpointId eid s
  | .getEndpointId => Sys2Proof.Machine.execGetEndpointId s
  | .getMctpVersionSupport typ => Sys2Proof.Machine.execGetMctpVersionSupport typ s
  | .getMessageTypeSupport => Sys2Proof.Machine.execGetMessageTypeSupport s
  | .getVendorDefinedMessageSupport selector => Sys2Proof.Machine.execGetVendorDefinedMessageSupport selector s
  | .entdaa addr => Sys2Proof.Machine.execEntdaa addr s
  | .setdasa stat addr => Sys2Proof.Machine.execSetdasa stat addr s
  | .rstdaa => Sys2Proof.Machine.execRstdaa s
  | .enec => Sys2Proof.Machine.execEnec s
  | .disec => Sys2Proof.Machine.execDisec s
  | .getpid => Sys2Proof.Machine.execGetpid s
  | .getbcr => Sys2Proof.Machine.execGetbcr s
  | .getdcr => Sys2Proof.Machine.execGetdcr s
  | .getmxds => Sys2Proof.Machine.execGetmxds s
  | .getstatus => Sys2Proof.Machine.execGetstatus s
  | .pilotWatchdogExpiry => Sys2Proof.Machine.execPilotWatchdogExpiry s
  | .pilotSramError corrected => Sys2Proof.Machine.execPilotSramError corrected s
  | .pilotRestartDone crypto => Sys2Proof.Machine.execPilotRestartDone crypto s
  | .regionClockStop g => Sys2Proof.Machine.execRegionClockStop g s
  | .regionClockStart g => Sys2Proof.Machine.execRegionClockStart g s
  | .opMoveDone g => Sys2Proof.Machine.execOpMoveDone g s
  | .phaseDoorbell v => Sys2Proof.Machine.execPhaseDoorbell v s
  | .controlPeriod moduleMw siliconMw dieMw temps => Sys2Proof.Machine.execControlPeriod moduleMw siliconMw dieMw temps s
  | .damperNFall internal => Sys2Proof.Machine.execDamperNFall internal s
  | .damperRelease => Sys2Proof.Machine.execDamperRelease s
  | .inputLoss => Sys2Proof.Machine.execInputLoss s
  | .inputReturn => Sys2Proof.Machine.execInputReturn s
  | .inputLow mv => Sys2Proof.Machine.execInputLow mv s
  | .inputOvercurrent => Sys2Proof.Machine.execInputOvercurrent s
  | .sidebandPinFault pin present => Sys2Proof.Machine.execSidebandPinFault pin present s
  | .pulldownTest resetHigh damperHigh => Sys2Proof.Machine.execPulldownTest resetHigh damperHigh s
  | .holdupMeasure mj full => Sys2Proof.Machine.execHoldupMeasure mj full s
  | .storeOperationStart mj => Sys2Proof.Machine.execStoreOperationStart mj s
  | .storeOperationDone ok => Sys2Proof.Machine.execStoreOperationDone ok s
  | .storeRetry mj => Sys2Proof.Machine.execStoreRetry mj s
  | .fwBegin => Sys2Proof.Machine.execFwBegin s
  | .fwProgram off => Sys2Proof.Machine.execFwProgram off s
  | .fwVerify keyOk sigOk hashOk => Sys2Proof.Machine.execFwVerify keyOk sigOk hashOk s
  | .fwActivate => Sys2Proof.Machine.execFwActivate s
  | .fwUpdateAbort => Sys2Proof.Machine.execFwUpdateAbort s
  | .fwConfirm v => Sys2Proof.Machine.execFwConfirm v s
  | .bundleLoad addr unwrapOk => Sys2Proof.Machine.execBundleLoad addr unwrapOk s
  | .bundleLoaded => Sys2Proof.Machine.execBundleLoaded s
  | .bundleRelease handle => Sys2Proof.Machine.execBundleRelease handle s
  | .quoteReq n nonce => Sys2Proof.Machine.execQuoteReq n nonce s
  | .quoteReady n => Sys2Proof.Machine.execQuoteReady n s
  | .programFaulted t chunk => Sys2Proof.Machine.execProgramFaulted t chunk s
  | .bundleLoadFailure cause => Sys2Proof.Machine.execBundleLoadFailure cause s
  | .inputReversed => Sys2Proof.Machine.execInputReversed s
  | .damperNRise internal => Sys2Proof.Machine.execDamperNRise internal s
  | .inputNormal mv => Sys2Proof.Machine.execInputNormal mv s

end Sys2Proof.Machine
end

