-- ==== Sys2Proof/Laws/Tab.lean ====
section
/-! SUPPORT. Laws of sparse tables: reading after writing, and that writing keeps the canonical form. -/

namespace Sys2Proof.Machine

variable {α : Type}

@[simp] theorem tget_terase_self (d : α) (k : Nat) (t : Tab α) : tget d (terase k t) k = d := by
  induction t with
  | nil => rfl
  | cons e t ih =>
    obtain ⟨k', v⟩ := e
    by_cases h : k' = k
    · simp [terase, h, ih]
    · simp [terase, tget, h, ih, Ne.symm h]

theorem tget_terase_ne (d : α) {k j : Nat} (h : j ≠ k) (t : Tab α) : tget d (terase k t) j = tget d t j := by
  induction t with
  | nil => rfl
  | cons e t ih =>
    obtain ⟨k', v⟩ := e
    by_cases hk : k' = k
    · subst hk; simp [terase, tget, h, ih]
    · simp [terase, tget, hk, ih]

theorem tget_tins_ne (d : α) {k j : Nat} (h : j ≠ k) (v : α) (t : Tab α) : tget d (tins k v t) j = tget d t j := by
  induction t with
  | nil => simp [tins, tget, h]
  | cons e t ih =>
    obtain ⟨k', v'⟩ := e
    by_cases hk : k < k'
    · simp [tins, tget, hk, h]
    · simp [tins, tget, hk, ih]

theorem tget_tins_terase (d : α) (k : Nat) (v : α) (t : Tab α) : tget d (tins k v (terase k t)) k = v := by
  induction t with
  | nil => simp [terase, tins, tget]
  | cons e t ih =>
    obtain ⟨k', v'⟩ := e
    by_cases hk : k' = k
    · simpa [terase, hk] using ih
    · by_cases hl : k < k'
      · simp [terase, hk, tins, hl, tget]
      · simp [terase, hk, tins, hl, tget, Ne.symm hk, ih]

variable [DecidableEq α]

/-- Reading back what was written. -/
@[simp] theorem tget_tset_self (d : α) (t : Tab α) (k : Nat) (v : α) : tget d (tset d t k v) k = v := by
  by_cases h : v = d
  · simp [tset, h]
  · simp [tset, h, tget_tins_terase]

/-- Writing one key leaves the others as they were. -/
theorem tget_tset_ne (d : α) {k j : Nat} (h : j ≠ k) (t : Tab α) (v : α) : tget d (tset d t k v) j = tget d t j := by
  by_cases hv : v = d
  · simp [tset, hv, tget_terase_ne d h]
  · simp [tset, hv, tget_tins_ne d h, tget_terase_ne d h]

theorem tget_tset (d : α) (t : Tab α) (k j : Nat) (v : α) :
    tget d (tset d t k v) j = if j = k then v else tget d t j := by
  by_cases h : j = k
  · subst h; simp
  · simp [h, tget_tset_ne d h]

theorem tget_tmod (d : α) (t : Tab α) (k j : Nat) (f : α → α) :
    tget d (tmod d t k f) j = if j = k then f (tget d t k) else tget d t j := tget_tset ..

theorem twfFrom_mono {d : α} {lo lo' : Nat} (h : lo ≤ lo') {t : Tab α} (ht : twfFrom d lo' t) : twfFrom d lo t := by
  cases t with
  | nil => rfl
  | cons e t => simp [twfFrom] at *; exact ⟨⟨by omega, ht.1.2⟩, ht.2⟩

theorem twfFrom_terase {d : α} (k : Nat) {t : Tab α} : ∀ {lo : Nat}, twfFrom d lo t → twfFrom d lo (terase k t) := by
  induction t with
  | nil => intro _ h; exact h
  | cons e t ih =>
    obtain ⟨k', v⟩ := e
    intro lo h
    simp [twfFrom] at h
    by_cases hk : k' = k
    · simp [terase, hk]; exact twfFrom_mono (by omega) (ih h.2)
    · simp [terase, hk, twfFrom, h.1]; exact ih h.2

theorem twfFrom_tins {d : α} {k : Nat} {v : α} (hv : v ≠ d) {t : Tab α} :
    ∀ {lo : Nat}, lo ≤ k → twfFrom d lo (terase k t) → twfFrom d lo (tins k v (terase k t)) := by
  generalize hu : terase k t = u
  have hne : ∀ x ∈ u, x.1 ≠ k := by
    subst hu
    clear hv
    induction t with
    | nil => simp [terase]
    | cons e t ih =>
      obtain ⟨k', v'⟩ := e
      by_cases hk : k' = k
      · simpa [terase, hk] using ih
      · simp [terase, hk]; simpa using ih
  clear hu
  induction u with
  | nil => intro lo hlo _; simp [tins, twfFrom, hlo, hv]
  | cons e u ih =>
    obtain ⟨k', v'⟩ := e
    intro lo hlo h
    simp [twfFrom] at h
    have hk' : k' ≠ k := hne _ (List.mem_cons_self ..)
    by_cases hl : k < k'
    · simp [tins, hl, twfFrom, hlo, hv, h.1.2, h.2]
    · simp only [tins, hl, if_false, twfFrom, h.1, decide_true, Bool.true_and]
      simpa [h.1.2] using ih (fun x hx => hne x (List.mem_cons_of_mem _ hx)) (by omega) h.2

/-- Writing keeps the canonical form. -/
theorem twf_tset {d : α} {t : Tab α} (h : twf d t) (k : Nat) (v : α) : twf d (tset d t k v) := by
  have he := twfFrom_terase k h
  by_cases hv : v = d
  · simpa [tset, hv, twf] using he
  · simpa [tset, hv, twf] using twfFrom_tins hv (Nat.zero_le k) he

theorem twf_tmod {d : α} {t : Tab α} (h : twf d t) (k : Nat) (f : α → α) : twf d (tmod d t k f) := twf_tset h ..

end Sys2Proof.Machine
end

