-- ==== Sys2Proof/Laws/State.lean ====
section
/-! SUPPORT. What each update of the device leaves as it was, field by field, and what a value or a unit reads as after one. -/

namespace Sys2Proof.Machine

variable (d : Dev)

/-! ### put -/

@[simp] theorem Dev.tick_put (o : ObjDef) (v i e : Nat) : (d.put o v i e).tick = d.tick := rfl
@[simp] theorem Dev.dom_put (o : ObjDef) (v i e : Nat) : (d.put o v i e).dom = d.dom := rfl
@[simp] theorem Dev.hearths_put (o : ObjDef) (v i e : Nat) : (d.put o v i e).hearths = d.hearths := rfl
@[simp] theorem Dev.clusters_put (o : ObjDef) (v i e : Nat) : (d.put o v i e).clusters = d.clusters := rfl
@[simp] theorem Dev.flues_put (o : ObjDef) (v i e : Nat) : (d.put o v i e).flues = d.flues := rfl
@[simp] theorem Dev.hbm_put (o : ObjDef) (v i e : Nat) : (d.put o v i e).hbm = d.hbm := rfl
@[simp] theorem Dev.slow_put (o : ObjDef) (v i e : Nat) : (d.put o v i e).slow = d.slow := rfl
@[simp] theorem Dev.stks_put (o : ObjDef) (v i e : Nat) : (d.put o v i e).stks = d.stks := rfl
@[simp] theorem Dev.stokers_put (o : ObjDef) (v i e : Nat) : (d.put o v i e).stokers = d.stokers := rfl
@[simp] theorem Dev.ports_put (o : ObjDef) (v i e : Nat) : (d.put o v i e).ports = d.ports := rfl
@[simp] theorem Dev.net_put (o : ObjDef) (v i e : Nat) : (d.put o v i e).net = d.net := rfl
@[simp] theorem Dev.host_put (o : ObjDef) (v i e : Nat) : (d.put o v i e).host = d.host := rfl
@[simp] theorem Dev.i3c_put (o : ObjDef) (v i e : Nat) : (d.put o v i e).i3c = d.i3c := rfl
@[simp] theorem Dev.reply_put (o : ObjDef) (v i e : Nat) : (d.put o v i e).reply = d.reply := rfl
@[simp] theorem Dev.events_put (o : ObjDef) (v i e : Nat) : (d.put o v i e).events = d.events := rfl
@[simp] theorem Dev.ctxs_put (o : ObjDef) (v i e : Nat) : (d.put o v i e).ctxs = d.ctxs := rfl
@[simp] theorem Dev.schedPtr_put (o : ObjDef) (v i e : Nat) : (d.put o v i e).schedPtr = d.schedPtr := rfl
@[simp] theorem Dev.attrib_put (o : ObjDef) (v i e : Nat) : (d.put o v i e).attrib = d.attrib := rfl
@[simp] theorem Dev.power_put (o : ObjDef) (v i e : Nat) : (d.put o v i e).power = d.power := rfl
@[simp] theorem Dev.resets_put (o : ObjDef) (v i e : Nat) : (d.put o v i e).resets = d.resets := rfl
@[simp] theorem Dev.pilot_put (o : ObjDef) (v i e : Nat) : (d.put o v i e).pilot = d.pilot := rfl
@[simp] theorem Dev.store_put (o : ObjDef) (v i e : Nat) : (d.put o v i e).store = d.store := rfl
@[simp] theorem Dev.bundles_put (o : ObjDef) (v i e : Nat) : (d.put o v i e).bundles = d.bundles := rfl
@[simp] theorem Dev.testSeen_put (o : ObjDef) (v i e : Nat) : (d.put o v i e).testSeen = d.testSeen := rfl
@[simp] theorem Dev.fwAreas_put (o : ObjDef) (v i e : Nat) : (d.put o v i e).fwAreas = d.fwAreas := rfl
@[simp] theorem Dev.saveOd_put (o : ObjDef) (v i e : Nat) : (d.put o v i e).saveOd = d.saveOd := rfl
@[simp] theorem Dev.saveDom_put (o : ObjDef) (v i e : Nat) : (d.put o v i e).saveDom = d.saveDom := rfl
@[simp] theorem Dev.coarse_put (o : ObjDef) (v i e : Nat) : (d.put o v i e).coarse = d.coarse := rfl
@[simp] theorem Dev.fwPending_put (o : ObjDef) (v i e : Nat) : (d.put o v i e).fwPending = d.fwPending := rfl
@[simp] theorem Dev.quotes_put (o : ObjDef) (v i e : Nat) : (d.put o v i e).quotes = d.quotes := rfl
@[simp] theorem Dev.edge_put (o : ObjDef) (v i e : Nat) : (d.put o v i e).edge = d.edge := rfl
@[simp] theorem Dev.arb_put (o : ObjDef) (v i e : Nat) : (d.put o v i e).arb = d.arb := rfl
@[simp] theorem Dev.crc_put (o : ObjDef) (v i e : Nat) : (d.put o v i e).crc = d.crc := rfl
@[simp] theorem Dev.paths_put (o : ObjDef) (v i e : Nat) : (d.put o v i e).paths = d.paths := rfl
@[simp] theorem Dev.trained_put (o : ObjDef) (v i e : Nat) : (d.put o v i e).trained = d.trained := rfl
@[simp] theorem Dev.worked_put (o : ObjDef) (v i e : Nat) : (d.put o v i e).worked = d.worked := rfl
@[simp] theorem Dev.clockHeld_put (o : ObjDef) (v i e : Nat) : (d.put o v i e).clockHeld = d.clockHeld := rfl
@[simp] theorem Dev.free_put (o : ObjDef) (v i e : Nat) : (d.put o v i e).free = d.free := rfl
@[simp] theorem Dev.hearth_put (o : ObjDef) (v i e : Nat) (h' : Nat) : (d.put o v i e).hearth h' = d.hearth h' := rfl
@[simp] theorem Dev.cluster_put (o : ObjDef) (v i e : Nat) (c' : Nat) : (d.put o v i e).cluster c' = d.cluster c' := rfl
@[simp] theorem Dev.flue_put (o : ObjDef) (v i e : Nat) (f' : Nat) : (d.put o v i e).flue f' = d.flue f' := rfl
@[simp] theorem Dev.stack_put (o : ObjDef) (v i e : Nat) (s' : Nat) : (d.put o v i e).stack s' = d.stack s' := rfl
@[simp] theorem Dev.stoker_put (o : ObjDef) (v i e : Nat) (t' : Nat) : (d.put o v i e).stoker t' = d.stoker t' := rfl
@[simp] theorem Dev.port_put (o : ObjDef) (v i e : Nat) (p' : Nat) : (d.put o v i e).port p' = d.port p' := rfl
@[simp] theorem Dev.ctx_put (o : ObjDef) (v i e : Nat) (c' : Nat) : (d.put o v i e).ctx c' = d.ctx c' := rfl
@[simp] theorem Dev.sector_put (o : ObjDef) (v i e : Nat) (a' b' : Nat) : (d.put o v i e).sector a' b' = d.sector a' b' := rfl
@[simp] theorem Dev.slowLine_put (o : ObjDef) (v i e : Nat) (a' b' : Nat) : (d.put o v i e).slowLine a' b' = d.slowLine a' b' := rfl
@[simp] theorem Dev.domByte_put (o : ObjDef) (v i e : Nat) (o' : ObjDef) (k' i' e' : Nat) : (d.put o v i e).domByte o' k' i' e' = d.domByte o' k' i' e' := rfl

/-! ### domWrite -/

@[simp] theorem Dev.tick_domWrite (o : ObjDef) (k : Nat) (bs : List Byte) (i e : Nat) : (d.domWrite o k bs i e).tick = d.tick := rfl
@[simp] theorem Dev.od_domWrite (o : ObjDef) (k : Nat) (bs : List Byte) (i e : Nat) : (d.domWrite o k bs i e).od = d.od := rfl
@[simp] theorem Dev.hearths_domWrite (o : ObjDef) (k : Nat) (bs : List Byte) (i e : Nat) : (d.domWrite o k bs i e).hearths = d.hearths := rfl
@[simp] theorem Dev.clusters_domWrite (o : ObjDef) (k : Nat) (bs : List Byte) (i e : Nat) : (d.domWrite o k bs i e).clusters = d.clusters := rfl
@[simp] theorem Dev.flues_domWrite (o : ObjDef) (k : Nat) (bs : List Byte) (i e : Nat) : (d.domWrite o k bs i e).flues = d.flues := rfl
@[simp] theorem Dev.hbm_domWrite (o : ObjDef) (k : Nat) (bs : List Byte) (i e : Nat) : (d.domWrite o k bs i e).hbm = d.hbm := rfl
@[simp] theorem Dev.slow_domWrite (o : ObjDef) (k : Nat) (bs : List Byte) (i e : Nat) : (d.domWrite o k bs i e).slow = d.slow := rfl
@[simp] theorem Dev.stks_domWrite (o : ObjDef) (k : Nat) (bs : List Byte) (i e : Nat) : (d.domWrite o k bs i e).stks = d.stks := rfl
@[simp] theorem Dev.stokers_domWrite (o : ObjDef) (k : Nat) (bs : List Byte) (i e : Nat) : (d.domWrite o k bs i e).stokers = d.stokers := rfl
@[simp] theorem Dev.ports_domWrite (o : ObjDef) (k : Nat) (bs : List Byte) (i e : Nat) : (d.domWrite o k bs i e).ports = d.ports := rfl
@[simp] theorem Dev.net_domWrite (o : ObjDef) (k : Nat) (bs : List Byte) (i e : Nat) : (d.domWrite o k bs i e).net = d.net := rfl
@[simp] theorem Dev.host_domWrite (o : ObjDef) (k : Nat) (bs : List Byte) (i e : Nat) : (d.domWrite o k bs i e).host = d.host := rfl
@[simp] theorem Dev.i3c_domWrite (o : ObjDef) (k : Nat) (bs : List Byte) (i e : Nat) : (d.domWrite o k bs i e).i3c = d.i3c := rfl
@[simp] theorem Dev.reply_domWrite (o : ObjDef) (k : Nat) (bs : List Byte) (i e : Nat) : (d.domWrite o k bs i e).reply = d.reply := rfl
@[simp] theorem Dev.events_domWrite (o : ObjDef) (k : Nat) (bs : List Byte) (i e : Nat) : (d.domWrite o k bs i e).events = d.events := rfl
@[simp] theorem Dev.ctxs_domWrite (o : ObjDef) (k : Nat) (bs : List Byte) (i e : Nat) : (d.domWrite o k bs i e).ctxs = d.ctxs := rfl
@[simp] theorem Dev.schedPtr_domWrite (o : ObjDef) (k : Nat) (bs : List Byte) (i e : Nat) : (d.domWrite o k bs i e).schedPtr = d.schedPtr := rfl
@[simp] theorem Dev.attrib_domWrite (o : ObjDef) (k : Nat) (bs : List Byte) (i e : Nat) : (d.domWrite o k bs i e).attrib = d.attrib := rfl
@[simp] theorem Dev.power_domWrite (o : ObjDef) (k : Nat) (bs : List Byte) (i e : Nat) : (d.domWrite o k bs i e).power = d.power := rfl
@[simp] theorem Dev.resets_domWrite (o : ObjDef) (k : Nat) (bs : List Byte) (i e : Nat) : (d.domWrite o k bs i e).resets = d.resets := rfl
@[simp] theorem Dev.pilot_domWrite (o : ObjDef) (k : Nat) (bs : List Byte) (i e : Nat) : (d.domWrite o k bs i e).pilot = d.pilot := rfl
@[simp] theorem Dev.store_domWrite (o : ObjDef) (k : Nat) (bs : List Byte) (i e : Nat) : (d.domWrite o k bs i e).store = d.store := rfl
@[simp] theorem Dev.bundles_domWrite (o : ObjDef) (k : Nat) (bs : List Byte) (i e : Nat) : (d.domWrite o k bs i e).bundles = d.bundles := rfl
@[simp] theorem Dev.testSeen_domWrite (o : ObjDef) (k : Nat) (bs : List Byte) (i e : Nat) : (d.domWrite o k bs i e).testSeen = d.testSeen := rfl
@[simp] theorem Dev.fwAreas_domWrite (o : ObjDef) (k : Nat) (bs : List Byte) (i e : Nat) : (d.domWrite o k bs i e).fwAreas = d.fwAreas := rfl
@[simp] theorem Dev.saveOd_domWrite (o : ObjDef) (k : Nat) (bs : List Byte) (i e : Nat) : (d.domWrite o k bs i e).saveOd = d.saveOd := rfl
@[simp] theorem Dev.saveDom_domWrite (o : ObjDef) (k : Nat) (bs : List Byte) (i e : Nat) : (d.domWrite o k bs i e).saveDom = d.saveDom := rfl
@[simp] theorem Dev.coarse_domWrite (o : ObjDef) (k : Nat) (bs : List Byte) (i e : Nat) : (d.domWrite o k bs i e).coarse = d.coarse := rfl
@[simp] theorem Dev.fwPending_domWrite (o : ObjDef) (k : Nat) (bs : List Byte) (i e : Nat) : (d.domWrite o k bs i e).fwPending = d.fwPending := rfl
@[simp] theorem Dev.quotes_domWrite (o : ObjDef) (k : Nat) (bs : List Byte) (i e : Nat) : (d.domWrite o k bs i e).quotes = d.quotes := rfl
@[simp] theorem Dev.edge_domWrite (o : ObjDef) (k : Nat) (bs : List Byte) (i e : Nat) : (d.domWrite o k bs i e).edge = d.edge := rfl
@[simp] theorem Dev.arb_domWrite (o : ObjDef) (k : Nat) (bs : List Byte) (i e : Nat) : (d.domWrite o k bs i e).arb = d.arb := rfl
@[simp] theorem Dev.crc_domWrite (o : ObjDef) (k : Nat) (bs : List Byte) (i e : Nat) : (d.domWrite o k bs i e).crc = d.crc := rfl
@[simp] theorem Dev.paths_domWrite (o : ObjDef) (k : Nat) (bs : List Byte) (i e : Nat) : (d.domWrite o k bs i e).paths = d.paths := rfl
@[simp] theorem Dev.trained_domWrite (o : ObjDef) (k : Nat) (bs : List Byte) (i e : Nat) : (d.domWrite o k bs i e).trained = d.trained := rfl
@[simp] theorem Dev.worked_domWrite (o : ObjDef) (k : Nat) (bs : List Byte) (i e : Nat) : (d.domWrite o k bs i e).worked = d.worked := rfl
@[simp] theorem Dev.clockHeld_domWrite (o : ObjDef) (k : Nat) (bs : List Byte) (i e : Nat) : (d.domWrite o k bs i e).clockHeld = d.clockHeld := rfl
@[simp] theorem Dev.free_domWrite (o : ObjDef) (k : Nat) (bs : List Byte) (i e : Nat) : (d.domWrite o k bs i e).free = d.free := rfl
@[simp] theorem Dev.hearth_domWrite (o : ObjDef) (k : Nat) (bs : List Byte) (i e : Nat) (h' : Nat) : (d.domWrite o k bs i e).hearth h' = d.hearth h' := rfl
@[simp] theorem Dev.cluster_domWrite (o : ObjDef) (k : Nat) (bs : List Byte) (i e : Nat) (c' : Nat) : (d.domWrite o k bs i e).cluster c' = d.cluster c' := rfl
@[simp] theorem Dev.flue_domWrite (o : ObjDef) (k : Nat) (bs : List Byte) (i e : Nat) (f' : Nat) : (d.domWrite o k bs i e).flue f' = d.flue f' := rfl
@[simp] theorem Dev.stack_domWrite (o : ObjDef) (k : Nat) (bs : List Byte) (i e : Nat) (s' : Nat) : (d.domWrite o k bs i e).stack s' = d.stack s' := rfl
@[simp] theorem Dev.stoker_domWrite (o : ObjDef) (k : Nat) (bs : List Byte) (i e : Nat) (t' : Nat) : (d.domWrite o k bs i e).stoker t' = d.stoker t' := rfl
@[simp] theorem Dev.port_domWrite (o : ObjDef) (k : Nat) (bs : List Byte) (i e : Nat) (p' : Nat) : (d.domWrite o k bs i e).port p' = d.port p' := rfl
@[simp] theorem Dev.ctx_domWrite (o : ObjDef) (k : Nat) (bs : List Byte) (i e : Nat) (c' : Nat) : (d.domWrite o k bs i e).ctx c' = d.ctx c' := rfl
@[simp] theorem Dev.sector_domWrite (o : ObjDef) (k : Nat) (bs : List Byte) (i e : Nat) (a' b' : Nat) : (d.domWrite o k bs i e).sector a' b' = d.sector a' b' := rfl
@[simp] theorem Dev.slowLine_domWrite (o : ObjDef) (k : Nat) (bs : List Byte) (i e : Nat) (a' b' : Nat) : (d.domWrite o k bs i e).slowLine a' b' = d.slowLine a' b' := rfl
@[simp] theorem Dev.get_domWrite (o : ObjDef) (k : Nat) (bs : List Byte) (i e : Nat) (o' : ObjDef) (i' e' : Nat) : (d.domWrite o k bs i e).get o' i' e' = d.get o' i' e' := rfl

/-! ### answer -/

@[simp] theorem Dev.tick_answer (a v : Nat) (bs : List Byte) : (d.answer a v bs).tick = d.tick := rfl
@[simp] theorem Dev.od_answer (a v : Nat) (bs : List Byte) : (d.answer a v bs).od = d.od := rfl
@[simp] theorem Dev.dom_answer (a v : Nat) (bs : List Byte) : (d.answer a v bs).dom = d.dom := rfl
@[simp] theorem Dev.hearths_answer (a v : Nat) (bs : List Byte) : (d.answer a v bs).hearths = d.hearths := rfl
@[simp] theorem Dev.clusters_answer (a v : Nat) (bs : List Byte) : (d.answer a v bs).clusters = d.clusters := rfl
@[simp] theorem Dev.flues_answer (a v : Nat) (bs : List Byte) : (d.answer a v bs).flues = d.flues := rfl
@[simp] theorem Dev.hbm_answer (a v : Nat) (bs : List Byte) : (d.answer a v bs).hbm = d.hbm := rfl
@[simp] theorem Dev.slow_answer (a v : Nat) (bs : List Byte) : (d.answer a v bs).slow = d.slow := rfl
@[simp] theorem Dev.stks_answer (a v : Nat) (bs : List Byte) : (d.answer a v bs).stks = d.stks := rfl
@[simp] theorem Dev.stokers_answer (a v : Nat) (bs : List Byte) : (d.answer a v bs).stokers = d.stokers := rfl
@[simp] theorem Dev.ports_answer (a v : Nat) (bs : List Byte) : (d.answer a v bs).ports = d.ports := rfl
@[simp] theorem Dev.net_answer (a v : Nat) (bs : List Byte) : (d.answer a v bs).net = d.net := rfl
@[simp] theorem Dev.host_answer (a v : Nat) (bs : List Byte) : (d.answer a v bs).host = d.host := rfl
@[simp] theorem Dev.i3c_answer (a v : Nat) (bs : List Byte) : (d.answer a v bs).i3c = d.i3c := rfl
@[simp] theorem Dev.events_answer (a v : Nat) (bs : List Byte) : (d.answer a v bs).events = d.events := rfl
@[simp] theorem Dev.ctxs_answer (a v : Nat) (bs : List Byte) : (d.answer a v bs).ctxs = d.ctxs := rfl
@[simp] theorem Dev.schedPtr_answer (a v : Nat) (bs : List Byte) : (d.answer a v bs).schedPtr = d.schedPtr := rfl
@[simp] theorem Dev.attrib_answer (a v : Nat) (bs : List Byte) : (d.answer a v bs).attrib = d.attrib := rfl
@[simp] theorem Dev.power_answer (a v : Nat) (bs : List Byte) : (d.answer a v bs).power = d.power := rfl
@[simp] theorem Dev.resets_answer (a v : Nat) (bs : List Byte) : (d.answer a v bs).resets = d.resets := rfl
@[simp] theorem Dev.pilot_answer (a v : Nat) (bs : List Byte) : (d.answer a v bs).pilot = d.pilot := rfl
@[simp] theorem Dev.store_answer (a v : Nat) (bs : List Byte) : (d.answer a v bs).store = d.store := rfl
@[simp] theorem Dev.bundles_answer (a v : Nat) (bs : List Byte) : (d.answer a v bs).bundles = d.bundles := rfl
@[simp] theorem Dev.testSeen_answer (a v : Nat) (bs : List Byte) : (d.answer a v bs).testSeen = d.testSeen := rfl
@[simp] theorem Dev.fwAreas_answer (a v : Nat) (bs : List Byte) : (d.answer a v bs).fwAreas = d.fwAreas := rfl
@[simp] theorem Dev.saveOd_answer (a v : Nat) (bs : List Byte) : (d.answer a v bs).saveOd = d.saveOd := rfl
@[simp] theorem Dev.saveDom_answer (a v : Nat) (bs : List Byte) : (d.answer a v bs).saveDom = d.saveDom := rfl
@[simp] theorem Dev.coarse_answer (a v : Nat) (bs : List Byte) : (d.answer a v bs).coarse = d.coarse := rfl
@[simp] theorem Dev.fwPending_answer (a v : Nat) (bs : List Byte) : (d.answer a v bs).fwPending = d.fwPending := rfl
@[simp] theorem Dev.quotes_answer (a v : Nat) (bs : List Byte) : (d.answer a v bs).quotes = d.quotes := rfl
@[simp] theorem Dev.edge_answer (a v : Nat) (bs : List Byte) : (d.answer a v bs).edge = d.edge := rfl
@[simp] theorem Dev.arb_answer (a v : Nat) (bs : List Byte) : (d.answer a v bs).arb = d.arb := rfl
@[simp] theorem Dev.crc_answer (a v : Nat) (bs : List Byte) : (d.answer a v bs).crc = d.crc := rfl
@[simp] theorem Dev.paths_answer (a v : Nat) (bs : List Byte) : (d.answer a v bs).paths = d.paths := rfl
@[simp] theorem Dev.trained_answer (a v : Nat) (bs : List Byte) : (d.answer a v bs).trained = d.trained := rfl
@[simp] theorem Dev.worked_answer (a v : Nat) (bs : List Byte) : (d.answer a v bs).worked = d.worked := rfl
@[simp] theorem Dev.clockHeld_answer (a v : Nat) (bs : List Byte) : (d.answer a v bs).clockHeld = d.clockHeld := rfl
@[simp] theorem Dev.free_answer (a v : Nat) (bs : List Byte) : (d.answer a v bs).free = d.free := rfl
@[simp] theorem Dev.hearth_answer (a v : Nat) (bs : List Byte) (h' : Nat) : (d.answer a v bs).hearth h' = d.hearth h' := rfl
@[simp] theorem Dev.cluster_answer (a v : Nat) (bs : List Byte) (c' : Nat) : (d.answer a v bs).cluster c' = d.cluster c' := rfl
@[simp] theorem Dev.flue_answer (a v : Nat) (bs : List Byte) (f' : Nat) : (d.answer a v bs).flue f' = d.flue f' := rfl
@[simp] theorem Dev.stack_answer (a v : Nat) (bs : List Byte) (s' : Nat) : (d.answer a v bs).stack s' = d.stack s' := rfl
@[simp] theorem Dev.stoker_answer (a v : Nat) (bs : List Byte) (t' : Nat) : (d.answer a v bs).stoker t' = d.stoker t' := rfl
@[simp] theorem Dev.port_answer (a v : Nat) (bs : List Byte) (p' : Nat) : (d.answer a v bs).port p' = d.port p' := rfl
@[simp] theorem Dev.ctx_answer (a v : Nat) (bs : List Byte) (c' : Nat) : (d.answer a v bs).ctx c' = d.ctx c' := rfl
@[simp] theorem Dev.sector_answer (a v : Nat) (bs : List Byte) (a' b' : Nat) : (d.answer a v bs).sector a' b' = d.sector a' b' := rfl
@[simp] theorem Dev.slowLine_answer (a v : Nat) (bs : List Byte) (a' b' : Nat) : (d.answer a v bs).slowLine a' b' = d.slowLine a' b' := rfl
@[simp] theorem Dev.get_answer (a v : Nat) (bs : List Byte) (o' : ObjDef) (i' e' : Nat) : (d.answer a v bs).get o' i' e' = d.get o' i' e' := rfl
@[simp] theorem Dev.domByte_answer (a v : Nat) (bs : List Byte) (o' : ObjDef) (k' i' e' : Nat) : (d.answer a v bs).domByte o' k' i' e' = d.domByte o' k' i' e' := rfl

/-! ### setHearth -/

@[simp] theorem Dev.tick_setHearth (h : Nat) (x : Hearth) : (d.setHearth h x).tick = d.tick := rfl
@[simp] theorem Dev.od_setHearth (h : Nat) (x : Hearth) : (d.setHearth h x).od = d.od := rfl
@[simp] theorem Dev.dom_setHearth (h : Nat) (x : Hearth) : (d.setHearth h x).dom = d.dom := rfl
@[simp] theorem Dev.clusters_setHearth (h : Nat) (x : Hearth) : (d.setHearth h x).clusters = d.clusters := rfl
@[simp] theorem Dev.flues_setHearth (h : Nat) (x : Hearth) : (d.setHearth h x).flues = d.flues := rfl
@[simp] theorem Dev.hbm_setHearth (h : Nat) (x : Hearth) : (d.setHearth h x).hbm = d.hbm := rfl
@[simp] theorem Dev.slow_setHearth (h : Nat) (x : Hearth) : (d.setHearth h x).slow = d.slow := rfl
@[simp] theorem Dev.stks_setHearth (h : Nat) (x : Hearth) : (d.setHearth h x).stks = d.stks := rfl
@[simp] theorem Dev.stokers_setHearth (h : Nat) (x : Hearth) : (d.setHearth h x).stokers = d.stokers := rfl
@[simp] theorem Dev.ports_setHearth (h : Nat) (x : Hearth) : (d.setHearth h x).ports = d.ports := rfl
@[simp] theorem Dev.net_setHearth (h : Nat) (x : Hearth) : (d.setHearth h x).net = d.net := rfl
@[simp] theorem Dev.host_setHearth (h : Nat) (x : Hearth) : (d.setHearth h x).host = d.host := rfl
@[simp] theorem Dev.i3c_setHearth (h : Nat) (x : Hearth) : (d.setHearth h x).i3c = d.i3c := rfl
@[simp] theorem Dev.reply_setHearth (h : Nat) (x : Hearth) : (d.setHearth h x).reply = d.reply := rfl
@[simp] theorem Dev.events_setHearth (h : Nat) (x : Hearth) : (d.setHearth h x).events = d.events := rfl
@[simp] theorem Dev.ctxs_setHearth (h : Nat) (x : Hearth) : (d.setHearth h x).ctxs = d.ctxs := rfl
@[simp] theorem Dev.schedPtr_setHearth (h : Nat) (x : Hearth) : (d.setHearth h x).schedPtr = d.schedPtr := rfl
@[simp] theorem Dev.attrib_setHearth (h : Nat) (x : Hearth) : (d.setHearth h x).attrib = d.attrib := rfl
@[simp] theorem Dev.power_setHearth (h : Nat) (x : Hearth) : (d.setHearth h x).power = d.power := rfl
@[simp] theorem Dev.resets_setHearth (h : Nat) (x : Hearth) : (d.setHearth h x).resets = d.resets := rfl
@[simp] theorem Dev.pilot_setHearth (h : Nat) (x : Hearth) : (d.setHearth h x).pilot = d.pilot := rfl
@[simp] theorem Dev.store_setHearth (h : Nat) (x : Hearth) : (d.setHearth h x).store = d.store := rfl
@[simp] theorem Dev.bundles_setHearth (h : Nat) (x : Hearth) : (d.setHearth h x).bundles = d.bundles := rfl
@[simp] theorem Dev.testSeen_setHearth (h : Nat) (x : Hearth) : (d.setHearth h x).testSeen = d.testSeen := rfl
@[simp] theorem Dev.fwAreas_setHearth (h : Nat) (x : Hearth) : (d.setHearth h x).fwAreas = d.fwAreas := rfl
@[simp] theorem Dev.saveOd_setHearth (h : Nat) (x : Hearth) : (d.setHearth h x).saveOd = d.saveOd := rfl
@[simp] theorem Dev.saveDom_setHearth (h : Nat) (x : Hearth) : (d.setHearth h x).saveDom = d.saveDom := rfl
@[simp] theorem Dev.coarse_setHearth (h : Nat) (x : Hearth) : (d.setHearth h x).coarse = d.coarse := rfl
@[simp] theorem Dev.fwPending_setHearth (h : Nat) (x : Hearth) : (d.setHearth h x).fwPending = d.fwPending := rfl
@[simp] theorem Dev.quotes_setHearth (h : Nat) (x : Hearth) : (d.setHearth h x).quotes = d.quotes := rfl
@[simp] theorem Dev.edge_setHearth (h : Nat) (x : Hearth) : (d.setHearth h x).edge = d.edge := rfl
@[simp] theorem Dev.arb_setHearth (h : Nat) (x : Hearth) : (d.setHearth h x).arb = d.arb := rfl
@[simp] theorem Dev.crc_setHearth (h : Nat) (x : Hearth) : (d.setHearth h x).crc = d.crc := rfl
@[simp] theorem Dev.paths_setHearth (h : Nat) (x : Hearth) : (d.setHearth h x).paths = d.paths := rfl
@[simp] theorem Dev.trained_setHearth (h : Nat) (x : Hearth) : (d.setHearth h x).trained = d.trained := rfl
@[simp] theorem Dev.worked_setHearth (h : Nat) (x : Hearth) : (d.setHearth h x).worked = d.worked := rfl
@[simp] theorem Dev.clockHeld_setHearth (h : Nat) (x : Hearth) : (d.setHearth h x).clockHeld = d.clockHeld := rfl
@[simp] theorem Dev.free_setHearth (h : Nat) (x : Hearth) : (d.setHearth h x).free = d.free := rfl
@[simp] theorem Dev.cluster_setHearth (h : Nat) (x : Hearth) (c' : Nat) : (d.setHearth h x).cluster c' = d.cluster c' := rfl
@[simp] theorem Dev.flue_setHearth (h : Nat) (x : Hearth) (f' : Nat) : (d.setHearth h x).flue f' = d.flue f' := rfl
@[simp] theorem Dev.stack_setHearth (h : Nat) (x : Hearth) (s' : Nat) : (d.setHearth h x).stack s' = d.stack s' := rfl
@[simp] theorem Dev.stoker_setHearth (h : Nat) (x : Hearth) (t' : Nat) : (d.setHearth h x).stoker t' = d.stoker t' := rfl
@[simp] theorem Dev.port_setHearth (h : Nat) (x : Hearth) (p' : Nat) : (d.setHearth h x).port p' = d.port p' := rfl
@[simp] theorem Dev.ctx_setHearth (h : Nat) (x : Hearth) (c' : Nat) : (d.setHearth h x).ctx c' = d.ctx c' := rfl
@[simp] theorem Dev.sector_setHearth (h : Nat) (x : Hearth) (a' b' : Nat) : (d.setHearth h x).sector a' b' = d.sector a' b' := rfl
@[simp] theorem Dev.slowLine_setHearth (h : Nat) (x : Hearth) (a' b' : Nat) : (d.setHearth h x).slowLine a' b' = d.slowLine a' b' := rfl
@[simp] theorem Dev.get_setHearth (h : Nat) (x : Hearth) (o' : ObjDef) (i' e' : Nat) : (d.setHearth h x).get o' i' e' = d.get o' i' e' := rfl
@[simp] theorem Dev.domByte_setHearth (h : Nat) (x : Hearth) (o' : ObjDef) (k' i' e' : Nat) : (d.setHearth h x).domByte o' k' i' e' = d.domByte o' k' i' e' := rfl

/-! ### setCluster -/

@[simp] theorem Dev.tick_setCluster (c : Nat) (x : Cluster) : (d.setCluster c x).tick = d.tick := rfl
@[simp] theorem Dev.od_setCluster (c : Nat) (x : Cluster) : (d.setCluster c x).od = d.od := rfl
@[simp] theorem Dev.dom_setCluster (c : Nat) (x : Cluster) : (d.setCluster c x).dom = d.dom := rfl
@[simp] theorem Dev.hearths_setCluster (c : Nat) (x : Cluster) : (d.setCluster c x).hearths = d.hearths := rfl
@[simp] theorem Dev.flues_setCluster (c : Nat) (x : Cluster) : (d.setCluster c x).flues = d.flues := rfl
@[simp] theorem Dev.hbm_setCluster (c : Nat) (x : Cluster) : (d.setCluster c x).hbm = d.hbm := rfl
@[simp] theorem Dev.slow_setCluster (c : Nat) (x : Cluster) : (d.setCluster c x).slow = d.slow := rfl
@[simp] theorem Dev.stks_setCluster (c : Nat) (x : Cluster) : (d.setCluster c x).stks = d.stks := rfl
@[simp] theorem Dev.stokers_setCluster (c : Nat) (x : Cluster) : (d.setCluster c x).stokers = d.stokers := rfl
@[simp] theorem Dev.ports_setCluster (c : Nat) (x : Cluster) : (d.setCluster c x).ports = d.ports := rfl
@[simp] theorem Dev.net_setCluster (c : Nat) (x : Cluster) : (d.setCluster c x).net = d.net := rfl
@[simp] theorem Dev.host_setCluster (c : Nat) (x : Cluster) : (d.setCluster c x).host = d.host := rfl
@[simp] theorem Dev.i3c_setCluster (c : Nat) (x : Cluster) : (d.setCluster c x).i3c = d.i3c := rfl
@[simp] theorem Dev.reply_setCluster (c : Nat) (x : Cluster) : (d.setCluster c x).reply = d.reply := rfl
@[simp] theorem Dev.events_setCluster (c : Nat) (x : Cluster) : (d.setCluster c x).events = d.events := rfl
@[simp] theorem Dev.ctxs_setCluster (c : Nat) (x : Cluster) : (d.setCluster c x).ctxs = d.ctxs := rfl
@[simp] theorem Dev.schedPtr_setCluster (c : Nat) (x : Cluster) : (d.setCluster c x).schedPtr = d.schedPtr := rfl
@[simp] theorem Dev.attrib_setCluster (c : Nat) (x : Cluster) : (d.setCluster c x).attrib = d.attrib := rfl
@[simp] theorem Dev.power_setCluster (c : Nat) (x : Cluster) : (d.setCluster c x).power = d.power := rfl
@[simp] theorem Dev.resets_setCluster (c : Nat) (x : Cluster) : (d.setCluster c x).resets = d.resets := rfl
@[simp] theorem Dev.pilot_setCluster (c : Nat) (x : Cluster) : (d.setCluster c x).pilot = d.pilot := rfl
@[simp] theorem Dev.store_setCluster (c : Nat) (x : Cluster) : (d.setCluster c x).store = d.store := rfl
@[simp] theorem Dev.bundles_setCluster (c : Nat) (x : Cluster) : (d.setCluster c x).bundles = d.bundles := rfl
@[simp] theorem Dev.testSeen_setCluster (c : Nat) (x : Cluster) : (d.setCluster c x).testSeen = d.testSeen := rfl
@[simp] theorem Dev.fwAreas_setCluster (c : Nat) (x : Cluster) : (d.setCluster c x).fwAreas = d.fwAreas := rfl
@[simp] theorem Dev.saveOd_setCluster (c : Nat) (x : Cluster) : (d.setCluster c x).saveOd = d.saveOd := rfl
@[simp] theorem Dev.saveDom_setCluster (c : Nat) (x : Cluster) : (d.setCluster c x).saveDom = d.saveDom := rfl
@[simp] theorem Dev.coarse_setCluster (c : Nat) (x : Cluster) : (d.setCluster c x).coarse = d.coarse := rfl
@[simp] theorem Dev.fwPending_setCluster (c : Nat) (x : Cluster) : (d.setCluster c x).fwPending = d.fwPending := rfl
@[simp] theorem Dev.quotes_setCluster (c : Nat) (x : Cluster) : (d.setCluster c x).quotes = d.quotes := rfl
@[simp] theorem Dev.edge_setCluster (c : Nat) (x : Cluster) : (d.setCluster c x).edge = d.edge := rfl
@[simp] theorem Dev.arb_setCluster (c : Nat) (x : Cluster) : (d.setCluster c x).arb = d.arb := rfl
@[simp] theorem Dev.crc_setCluster (c : Nat) (x : Cluster) : (d.setCluster c x).crc = d.crc := rfl
@[simp] theorem Dev.paths_setCluster (c : Nat) (x : Cluster) : (d.setCluster c x).paths = d.paths := rfl
@[simp] theorem Dev.trained_setCluster (c : Nat) (x : Cluster) : (d.setCluster c x).trained = d.trained := rfl
@[simp] theorem Dev.worked_setCluster (c : Nat) (x : Cluster) : (d.setCluster c x).worked = d.worked := rfl
@[simp] theorem Dev.clockHeld_setCluster (c : Nat) (x : Cluster) : (d.setCluster c x).clockHeld = d.clockHeld := rfl
@[simp] theorem Dev.free_setCluster (c : Nat) (x : Cluster) : (d.setCluster c x).free = d.free := rfl
@[simp] theorem Dev.hearth_setCluster (c : Nat) (x : Cluster) (h' : Nat) : (d.setCluster c x).hearth h' = d.hearth h' := rfl
@[simp] theorem Dev.flue_setCluster (c : Nat) (x : Cluster) (f' : Nat) : (d.setCluster c x).flue f' = d.flue f' := rfl
@[simp] theorem Dev.stack_setCluster (c : Nat) (x : Cluster) (s' : Nat) : (d.setCluster c x).stack s' = d.stack s' := rfl
@[simp] theorem Dev.stoker_setCluster (c : Nat) (x : Cluster) (t' : Nat) : (d.setCluster c x).stoker t' = d.stoker t' := rfl
@[simp] theorem Dev.port_setCluster (c : Nat) (x : Cluster) (p' : Nat) : (d.setCluster c x).port p' = d.port p' := rfl
@[simp] theorem Dev.ctx_setCluster (c : Nat) (x : Cluster) (c' : Nat) : (d.setCluster c x).ctx c' = d.ctx c' := rfl
@[simp] theorem Dev.sector_setCluster (c : Nat) (x : Cluster) (a' b' : Nat) : (d.setCluster c x).sector a' b' = d.sector a' b' := rfl
@[simp] theorem Dev.slowLine_setCluster (c : Nat) (x : Cluster) (a' b' : Nat) : (d.setCluster c x).slowLine a' b' = d.slowLine a' b' := rfl
@[simp] theorem Dev.get_setCluster (c : Nat) (x : Cluster) (o' : ObjDef) (i' e' : Nat) : (d.setCluster c x).get o' i' e' = d.get o' i' e' := rfl
@[simp] theorem Dev.domByte_setCluster (c : Nat) (x : Cluster) (o' : ObjDef) (k' i' e' : Nat) : (d.setCluster c x).domByte o' k' i' e' = d.domByte o' k' i' e' := rfl

/-! ### setFlue -/

@[simp] theorem Dev.tick_setFlue (f : Nat) (x : Flue) : (d.setFlue f x).tick = d.tick := rfl
@[simp] theorem Dev.od_setFlue (f : Nat) (x : Flue) : (d.setFlue f x).od = d.od := rfl
@[simp] theorem Dev.dom_setFlue (f : Nat) (x : Flue) : (d.setFlue f x).dom = d.dom := rfl
@[simp] theorem Dev.hearths_setFlue (f : Nat) (x : Flue) : (d.setFlue f x).hearths = d.hearths := rfl
@[simp] theorem Dev.clusters_setFlue (f : Nat) (x : Flue) : (d.setFlue f x).clusters = d.clusters := rfl
@[simp] theorem Dev.hbm_setFlue (f : Nat) (x : Flue) : (d.setFlue f x).hbm = d.hbm := rfl
@[simp] theorem Dev.slow_setFlue (f : Nat) (x : Flue) : (d.setFlue f x).slow = d.slow := rfl
@[simp] theorem Dev.stks_setFlue (f : Nat) (x : Flue) : (d.setFlue f x).stks = d.stks := rfl
@[simp] theorem Dev.stokers_setFlue (f : Nat) (x : Flue) : (d.setFlue f x).stokers = d.stokers := rfl
@[simp] theorem Dev.ports_setFlue (f : Nat) (x : Flue) : (d.setFlue f x).ports = d.ports := rfl
@[simp] theorem Dev.net_setFlue (f : Nat) (x : Flue) : (d.setFlue f x).net = d.net := rfl
@[simp] theorem Dev.host_setFlue (f : Nat) (x : Flue) : (d.setFlue f x).host = d.host := rfl
@[simp] theorem Dev.i3c_setFlue (f : Nat) (x : Flue) : (d.setFlue f x).i3c = d.i3c := rfl
@[simp] theorem Dev.reply_setFlue (f : Nat) (x : Flue) : (d.setFlue f x).reply = d.reply := rfl
@[simp] theorem Dev.events_setFlue (f : Nat) (x : Flue) : (d.setFlue f x).events = d.events := rfl
@[simp] theorem Dev.ctxs_setFlue (f : Nat) (x : Flue) : (d.setFlue f x).ctxs = d.ctxs := rfl
@[simp] theorem Dev.schedPtr_setFlue (f : Nat) (x : Flue) : (d.setFlue f x).schedPtr = d.schedPtr := rfl
@[simp] theorem Dev.attrib_setFlue (f : Nat) (x : Flue) : (d.setFlue f x).attrib = d.attrib := rfl
@[simp] theorem Dev.power_setFlue (f : Nat) (x : Flue) : (d.setFlue f x).power = d.power := rfl
@[simp] theorem Dev.resets_setFlue (f : Nat) (x : Flue) : (d.setFlue f x).resets = d.resets := rfl
@[simp] theorem Dev.pilot_setFlue (f : Nat) (x : Flue) : (d.setFlue f x).pilot = d.pilot := rfl
@[simp] theorem Dev.store_setFlue (f : Nat) (x : Flue) : (d.setFlue f x).store = d.store := rfl
@[simp] theorem Dev.bundles_setFlue (f : Nat) (x : Flue) : (d.setFlue f x).bundles = d.bundles := rfl
@[simp] theorem Dev.testSeen_setFlue (f : Nat) (x : Flue) : (d.setFlue f x).testSeen = d.testSeen := rfl
@[simp] theorem Dev.fwAreas_setFlue (f : Nat) (x : Flue) : (d.setFlue f x).fwAreas = d.fwAreas := rfl
@[simp] theorem Dev.saveOd_setFlue (f : Nat) (x : Flue) : (d.setFlue f x).saveOd = d.saveOd := rfl
@[simp] theorem Dev.saveDom_setFlue (f : Nat) (x : Flue) : (d.setFlue f x).saveDom = d.saveDom := rfl
@[simp] theorem Dev.coarse_setFlue (f : Nat) (x : Flue) : (d.setFlue f x).coarse = d.coarse := rfl
@[simp] theorem Dev.fwPending_setFlue (f : Nat) (x : Flue) : (d.setFlue f x).fwPending = d.fwPending := rfl
@[simp] theorem Dev.quotes_setFlue (f : Nat) (x : Flue) : (d.setFlue f x).quotes = d.quotes := rfl
@[simp] theorem Dev.edge_setFlue (f : Nat) (x : Flue) : (d.setFlue f x).edge = d.edge := rfl
@[simp] theorem Dev.arb_setFlue (f : Nat) (x : Flue) : (d.setFlue f x).arb = d.arb := rfl
@[simp] theorem Dev.crc_setFlue (f : Nat) (x : Flue) : (d.setFlue f x).crc = d.crc := rfl
@[simp] theorem Dev.paths_setFlue (f : Nat) (x : Flue) : (d.setFlue f x).paths = d.paths := rfl
@[simp] theorem Dev.trained_setFlue (f : Nat) (x : Flue) : (d.setFlue f x).trained = d.trained := rfl
@[simp] theorem Dev.worked_setFlue (f : Nat) (x : Flue) : (d.setFlue f x).worked = d.worked := rfl
@[simp] theorem Dev.clockHeld_setFlue (f : Nat) (x : Flue) : (d.setFlue f x).clockHeld = d.clockHeld := rfl
@[simp] theorem Dev.free_setFlue (f : Nat) (x : Flue) : (d.setFlue f x).free = d.free := rfl
@[simp] theorem Dev.hearth_setFlue (f : Nat) (x : Flue) (h' : Nat) : (d.setFlue f x).hearth h' = d.hearth h' := rfl
@[simp] theorem Dev.cluster_setFlue (f : Nat) (x : Flue) (c' : Nat) : (d.setFlue f x).cluster c' = d.cluster c' := rfl
@[simp] theorem Dev.stack_setFlue (f : Nat) (x : Flue) (s' : Nat) : (d.setFlue f x).stack s' = d.stack s' := rfl
@[simp] theorem Dev.stoker_setFlue (f : Nat) (x : Flue) (t' : Nat) : (d.setFlue f x).stoker t' = d.stoker t' := rfl
@[simp] theorem Dev.port_setFlue (f : Nat) (x : Flue) (p' : Nat) : (d.setFlue f x).port p' = d.port p' := rfl
@[simp] theorem Dev.ctx_setFlue (f : Nat) (x : Flue) (c' : Nat) : (d.setFlue f x).ctx c' = d.ctx c' := rfl
@[simp] theorem Dev.sector_setFlue (f : Nat) (x : Flue) (a' b' : Nat) : (d.setFlue f x).sector a' b' = d.sector a' b' := rfl
@[simp] theorem Dev.slowLine_setFlue (f : Nat) (x : Flue) (a' b' : Nat) : (d.setFlue f x).slowLine a' b' = d.slowLine a' b' := rfl
@[simp] theorem Dev.get_setFlue (f : Nat) (x : Flue) (o' : ObjDef) (i' e' : Nat) : (d.setFlue f x).get o' i' e' = d.get o' i' e' := rfl
@[simp] theorem Dev.domByte_setFlue (f : Nat) (x : Flue) (o' : ObjDef) (k' i' e' : Nat) : (d.setFlue f x).domByte o' k' i' e' = d.domByte o' k' i' e' := rfl

/-! ### setStack -/

@[simp] theorem Dev.tick_setStack (s : Nat) (x : Stack) : (d.setStack s x).tick = d.tick := rfl
@[simp] theorem Dev.od_setStack (s : Nat) (x : Stack) : (d.setStack s x).od = d.od := rfl
@[simp] theorem Dev.dom_setStack (s : Nat) (x : Stack) : (d.setStack s x).dom = d.dom := rfl
@[simp] theorem Dev.hearths_setStack (s : Nat) (x : Stack) : (d.setStack s x).hearths = d.hearths := rfl
@[simp] theorem Dev.clusters_setStack (s : Nat) (x : Stack) : (d.setStack s x).clusters = d.clusters := rfl
@[simp] theorem Dev.flues_setStack (s : Nat) (x : Stack) : (d.setStack s x).flues = d.flues := rfl
@[simp] theorem Dev.hbm_setStack (s : Nat) (x : Stack) : (d.setStack s x).hbm = d.hbm := rfl
@[simp] theorem Dev.slow_setStack (s : Nat) (x : Stack) : (d.setStack s x).slow = d.slow := rfl
@[simp] theorem Dev.stokers_setStack (s : Nat) (x : Stack) : (d.setStack s x).stokers = d.stokers := rfl
@[simp] theorem Dev.ports_setStack (s : Nat) (x : Stack) : (d.setStack s x).ports = d.ports := rfl
@[simp] theorem Dev.net_setStack (s : Nat) (x : Stack) : (d.setStack s x).net = d.net := rfl
@[simp] theorem Dev.host_setStack (s : Nat) (x : Stack) : (d.setStack s x).host = d.host := rfl
@[simp] theorem Dev.i3c_setStack (s : Nat) (x : Stack) : (d.setStack s x).i3c = d.i3c := rfl
@[simp] theorem Dev.reply_setStack (s : Nat) (x : Stack) : (d.setStack s x).reply = d.reply := rfl
@[simp] theorem Dev.events_setStack (s : Nat) (x : Stack) : (d.setStack s x).events = d.events := rfl
@[simp] theorem Dev.ctxs_setStack (s : Nat) (x : Stack) : (d.setStack s x).ctxs = d.ctxs := rfl
@[simp] theorem Dev.schedPtr_setStack (s : Nat) (x : Stack) : (d.setStack s x).schedPtr = d.schedPtr := rfl
@[simp] theorem Dev.attrib_setStack (s : Nat) (x : Stack) : (d.setStack s x).attrib = d.attrib := rfl
@[simp] theorem Dev.power_setStack (s : Nat) (x : Stack) : (d.setStack s x).power = d.power := rfl
@[simp] theorem Dev.resets_setStack (s : Nat) (x : Stack) : (d.setStack s x).resets = d.resets := rfl
@[simp] theorem Dev.pilot_setStack (s : Nat) (x : Stack) : (d.setStack s x).pilot = d.pilot := rfl
@[simp] theorem Dev.store_setStack (s : Nat) (x : Stack) : (d.setStack s x).store = d.store := rfl
@[simp] theorem Dev.bundles_setStack (s : Nat) (x : Stack) : (d.setStack s x).bundles = d.bundles := rfl
@[simp] theorem Dev.testSeen_setStack (s : Nat) (x : Stack) : (d.setStack s x).testSeen = d.testSeen := rfl
@[simp] theorem Dev.fwAreas_setStack (s : Nat) (x : Stack) : (d.setStack s x).fwAreas = d.fwAreas := rfl
@[simp] theorem Dev.saveOd_setStack (s : Nat) (x : Stack) : (d.setStack s x).saveOd = d.saveOd := rfl
@[simp] theorem Dev.saveDom_setStack (s : Nat) (x : Stack) : (d.setStack s x).saveDom = d.saveDom := rfl
@[simp] theorem Dev.coarse_setStack (s : Nat) (x : Stack) : (d.setStack s x).coarse = d.coarse := rfl
@[simp] theorem Dev.fwPending_setStack (s : Nat) (x : Stack) : (d.setStack s x).fwPending = d.fwPending := rfl
@[simp] theorem Dev.quotes_setStack (s : Nat) (x : Stack) : (d.setStack s x).quotes = d.quotes := rfl
@[simp] theorem Dev.edge_setStack (s : Nat) (x : Stack) : (d.setStack s x).edge = d.edge := rfl
@[simp] theorem Dev.arb_setStack (s : Nat) (x : Stack) : (d.setStack s x).arb = d.arb := rfl
@[simp] theorem Dev.crc_setStack (s : Nat) (x : Stack) : (d.setStack s x).crc = d.crc := rfl
@[simp] theorem Dev.paths_setStack (s : Nat) (x : Stack) : (d.setStack s x).paths = d.paths := rfl
@[simp] theorem Dev.trained_setStack (s : Nat) (x : Stack) : (d.setStack s x).trained = d.trained := rfl
@[simp] theorem Dev.worked_setStack (s : Nat) (x : Stack) : (d.setStack s x).worked = d.worked := rfl
@[simp] theorem Dev.clockHeld_setStack (s : Nat) (x : Stack) : (d.setStack s x).clockHeld = d.clockHeld := rfl
@[simp] theorem Dev.free_setStack (s : Nat) (x : Stack) : (d.setStack s x).free = d.free := rfl
@[simp] theorem Dev.hearth_setStack (s : Nat) (x : Stack) (h' : Nat) : (d.setStack s x).hearth h' = d.hearth h' := rfl
@[simp] theorem Dev.cluster_setStack (s : Nat) (x : Stack) (c' : Nat) : (d.setStack s x).cluster c' = d.cluster c' := rfl
@[simp] theorem Dev.flue_setStack (s : Nat) (x : Stack) (f' : Nat) : (d.setStack s x).flue f' = d.flue f' := rfl
@[simp] theorem Dev.stoker_setStack (s : Nat) (x : Stack) (t' : Nat) : (d.setStack s x).stoker t' = d.stoker t' := rfl
@[simp] theorem Dev.port_setStack (s : Nat) (x : Stack) (p' : Nat) : (d.setStack s x).port p' = d.port p' := rfl
@[simp] theorem Dev.ctx_setStack (s : Nat) (x : Stack) (c' : Nat) : (d.setStack s x).ctx c' = d.ctx c' := rfl
@[simp] theorem Dev.sector_setStack (s : Nat) (x : Stack) (a' b' : Nat) : (d.setStack s x).sector a' b' = d.sector a' b' := rfl
@[simp] theorem Dev.slowLine_setStack (s : Nat) (x : Stack) (a' b' : Nat) : (d.setStack s x).slowLine a' b' = d.slowLine a' b' := rfl
@[simp] theorem Dev.get_setStack (s : Nat) (x : Stack) (o' : ObjDef) (i' e' : Nat) : (d.setStack s x).get o' i' e' = d.get o' i' e' := rfl
@[simp] theorem Dev.domByte_setStack (s : Nat) (x : Stack) (o' : ObjDef) (k' i' e' : Nat) : (d.setStack s x).domByte o' k' i' e' = d.domByte o' k' i' e' := rfl

/-! ### setStoker -/

@[simp] theorem Dev.tick_setStoker (t : Nat) (x : Stoker) : (d.setStoker t x).tick = d.tick := rfl
@[simp] theorem Dev.od_setStoker (t : Nat) (x : Stoker) : (d.setStoker t x).od = d.od := rfl
@[simp] theorem Dev.dom_setStoker (t : Nat) (x : Stoker) : (d.setStoker t x).dom = d.dom := rfl
@[simp] theorem Dev.hearths_setStoker (t : Nat) (x : Stoker) : (d.setStoker t x).hearths = d.hearths := rfl
@[simp] theorem Dev.clusters_setStoker (t : Nat) (x : Stoker) : (d.setStoker t x).clusters = d.clusters := rfl
@[simp] theorem Dev.flues_setStoker (t : Nat) (x : Stoker) : (d.setStoker t x).flues = d.flues := rfl
@[simp] theorem Dev.hbm_setStoker (t : Nat) (x : Stoker) : (d.setStoker t x).hbm = d.hbm := rfl
@[simp] theorem Dev.slow_setStoker (t : Nat) (x : Stoker) : (d.setStoker t x).slow = d.slow := rfl
@[simp] theorem Dev.stks_setStoker (t : Nat) (x : Stoker) : (d.setStoker t x).stks = d.stks := rfl
@[simp] theorem Dev.ports_setStoker (t : Nat) (x : Stoker) : (d.setStoker t x).ports = d.ports := rfl
@[simp] theorem Dev.net_setStoker (t : Nat) (x : Stoker) : (d.setStoker t x).net = d.net := rfl
@[simp] theorem Dev.host_setStoker (t : Nat) (x : Stoker) : (d.setStoker t x).host = d.host := rfl
@[simp] theorem Dev.i3c_setStoker (t : Nat) (x : Stoker) : (d.setStoker t x).i3c = d.i3c := rfl
@[simp] theorem Dev.reply_setStoker (t : Nat) (x : Stoker) : (d.setStoker t x).reply = d.reply := rfl
@[simp] theorem Dev.events_setStoker (t : Nat) (x : Stoker) : (d.setStoker t x).events = d.events := rfl
@[simp] theorem Dev.ctxs_setStoker (t : Nat) (x : Stoker) : (d.setStoker t x).ctxs = d.ctxs := rfl
@[simp] theorem Dev.schedPtr_setStoker (t : Nat) (x : Stoker) : (d.setStoker t x).schedPtr = d.schedPtr := rfl
@[simp] theorem Dev.attrib_setStoker (t : Nat) (x : Stoker) : (d.setStoker t x).attrib = d.attrib := rfl
@[simp] theorem Dev.power_setStoker (t : Nat) (x : Stoker) : (d.setStoker t x).power = d.power := rfl
@[simp] theorem Dev.resets_setStoker (t : Nat) (x : Stoker) : (d.setStoker t x).resets = d.resets := rfl
@[simp] theorem Dev.pilot_setStoker (t : Nat) (x : Stoker) : (d.setStoker t x).pilot = d.pilot := rfl
@[simp] theorem Dev.store_setStoker (t : Nat) (x : Stoker) : (d.setStoker t x).store = d.store := rfl
@[simp] theorem Dev.bundles_setStoker (t : Nat) (x : Stoker) : (d.setStoker t x).bundles = d.bundles := rfl
@[simp] theorem Dev.testSeen_setStoker (t : Nat) (x : Stoker) : (d.setStoker t x).testSeen = d.testSeen := rfl
@[simp] theorem Dev.fwAreas_setStoker (t : Nat) (x : Stoker) : (d.setStoker t x).fwAreas = d.fwAreas := rfl
@[simp] theorem Dev.saveOd_setStoker (t : Nat) (x : Stoker) : (d.setStoker t x).saveOd = d.saveOd := rfl
@[simp] theorem Dev.saveDom_setStoker (t : Nat) (x : Stoker) : (d.setStoker t x).saveDom = d.saveDom := rfl
@[simp] theorem Dev.coarse_setStoker (t : Nat) (x : Stoker) : (d.setStoker t x).coarse = d.coarse := rfl
@[simp] theorem Dev.fwPending_setStoker (t : Nat) (x : Stoker) : (d.setStoker t x).fwPending = d.fwPending := rfl
@[simp] theorem Dev.quotes_setStoker (t : Nat) (x : Stoker) : (d.setStoker t x).quotes = d.quotes := rfl
@[simp] theorem Dev.edge_setStoker (t : Nat) (x : Stoker) : (d.setStoker t x).edge = d.edge := rfl
@[simp] theorem Dev.arb_setStoker (t : Nat) (x : Stoker) : (d.setStoker t x).arb = d.arb := rfl
@[simp] theorem Dev.crc_setStoker (t : Nat) (x : Stoker) : (d.setStoker t x).crc = d.crc := rfl
@[simp] theorem Dev.paths_setStoker (t : Nat) (x : Stoker) : (d.setStoker t x).paths = d.paths := rfl
@[simp] theorem Dev.trained_setStoker (t : Nat) (x : Stoker) : (d.setStoker t x).trained = d.trained := rfl
@[simp] theorem Dev.worked_setStoker (t : Nat) (x : Stoker) : (d.setStoker t x).worked = d.worked := rfl
@[simp] theorem Dev.clockHeld_setStoker (t : Nat) (x : Stoker) : (d.setStoker t x).clockHeld = d.clockHeld := rfl
@[simp] theorem Dev.free_setStoker (t : Nat) (x : Stoker) : (d.setStoker t x).free = d.free := rfl
@[simp] theorem Dev.hearth_setStoker (t : Nat) (x : Stoker) (h' : Nat) : (d.setStoker t x).hearth h' = d.hearth h' := rfl
@[simp] theorem Dev.cluster_setStoker (t : Nat) (x : Stoker) (c' : Nat) : (d.setStoker t x).cluster c' = d.cluster c' := rfl
@[simp] theorem Dev.flue_setStoker (t : Nat) (x : Stoker) (f' : Nat) : (d.setStoker t x).flue f' = d.flue f' := rfl
@[simp] theorem Dev.stack_setStoker (t : Nat) (x : Stoker) (s' : Nat) : (d.setStoker t x).stack s' = d.stack s' := rfl
@[simp] theorem Dev.port_setStoker (t : Nat) (x : Stoker) (p' : Nat) : (d.setStoker t x).port p' = d.port p' := rfl
@[simp] theorem Dev.ctx_setStoker (t : Nat) (x : Stoker) (c' : Nat) : (d.setStoker t x).ctx c' = d.ctx c' := rfl
@[simp] theorem Dev.sector_setStoker (t : Nat) (x : Stoker) (a' b' : Nat) : (d.setStoker t x).sector a' b' = d.sector a' b' := rfl
@[simp] theorem Dev.slowLine_setStoker (t : Nat) (x : Stoker) (a' b' : Nat) : (d.setStoker t x).slowLine a' b' = d.slowLine a' b' := rfl
@[simp] theorem Dev.get_setStoker (t : Nat) (x : Stoker) (o' : ObjDef) (i' e' : Nat) : (d.setStoker t x).get o' i' e' = d.get o' i' e' := rfl
@[simp] theorem Dev.domByte_setStoker (t : Nat) (x : Stoker) (o' : ObjDef) (k' i' e' : Nat) : (d.setStoker t x).domByte o' k' i' e' = d.domByte o' k' i' e' := rfl

/-! ### setPort -/

@[simp] theorem Dev.tick_setPort (p : Nat) (x : Port) : (d.setPort p x).tick = d.tick := rfl
@[simp] theorem Dev.od_setPort (p : Nat) (x : Port) : (d.setPort p x).od = d.od := rfl
@[simp] theorem Dev.dom_setPort (p : Nat) (x : Port) : (d.setPort p x).dom = d.dom := rfl
@[simp] theorem Dev.hearths_setPort (p : Nat) (x : Port) : (d.setPort p x).hearths = d.hearths := rfl
@[simp] theorem Dev.clusters_setPort (p : Nat) (x : Port) : (d.setPort p x).clusters = d.clusters := rfl
@[simp] theorem Dev.flues_setPort (p : Nat) (x : Port) : (d.setPort p x).flues = d.flues := rfl
@[simp] theorem Dev.hbm_setPort (p : Nat) (x : Port) : (d.setPort p x).hbm = d.hbm := rfl
@[simp] theorem Dev.slow_setPort (p : Nat) (x : Port) : (d.setPort p x).slow = d.slow := rfl
@[simp] theorem Dev.stks_setPort (p : Nat) (x : Port) : (d.setPort p x).stks = d.stks := rfl
@[simp] theorem Dev.stokers_setPort (p : Nat) (x : Port) : (d.setPort p x).stokers = d.stokers := rfl
@[simp] theorem Dev.net_setPort (p : Nat) (x : Port) : (d.setPort p x).net = d.net := rfl
@[simp] theorem Dev.host_setPort (p : Nat) (x : Port) : (d.setPort p x).host = d.host := rfl
@[simp] theorem Dev.i3c_setPort (p : Nat) (x : Port) : (d.setPort p x).i3c = d.i3c := rfl
@[simp] theorem Dev.reply_setPort (p : Nat) (x : Port) : (d.setPort p x).reply = d.reply := rfl
@[simp] theorem Dev.events_setPort (p : Nat) (x : Port) : (d.setPort p x).events = d.events := rfl
@[simp] theorem Dev.ctxs_setPort (p : Nat) (x : Port) : (d.setPort p x).ctxs = d.ctxs := rfl
@[simp] theorem Dev.schedPtr_setPort (p : Nat) (x : Port) : (d.setPort p x).schedPtr = d.schedPtr := rfl
@[simp] theorem Dev.attrib_setPort (p : Nat) (x : Port) : (d.setPort p x).attrib = d.attrib := rfl
@[simp] theorem Dev.power_setPort (p : Nat) (x : Port) : (d.setPort p x).power = d.power := rfl
@[simp] theorem Dev.resets_setPort (p : Nat) (x : Port) : (d.setPort p x).resets = d.resets := rfl
@[simp] theorem Dev.pilot_setPort (p : Nat) (x : Port) : (d.setPort p x).pilot = d.pilot := rfl
@[simp] theorem Dev.store_setPort (p : Nat) (x : Port) : (d.setPort p x).store = d.store := rfl
@[simp] theorem Dev.bundles_setPort (p : Nat) (x : Port) : (d.setPort p x).bundles = d.bundles := rfl
@[simp] theorem Dev.testSeen_setPort (p : Nat) (x : Port) : (d.setPort p x).testSeen = d.testSeen := rfl
@[simp] theorem Dev.fwAreas_setPort (p : Nat) (x : Port) : (d.setPort p x).fwAreas = d.fwAreas := rfl
@[simp] theorem Dev.saveOd_setPort (p : Nat) (x : Port) : (d.setPort p x).saveOd = d.saveOd := rfl
@[simp] theorem Dev.saveDom_setPort (p : Nat) (x : Port) : (d.setPort p x).saveDom = d.saveDom := rfl
@[simp] theorem Dev.coarse_setPort (p : Nat) (x : Port) : (d.setPort p x).coarse = d.coarse := rfl
@[simp] theorem Dev.fwPending_setPort (p : Nat) (x : Port) : (d.setPort p x).fwPending = d.fwPending := rfl
@[simp] theorem Dev.quotes_setPort (p : Nat) (x : Port) : (d.setPort p x).quotes = d.quotes := rfl
@[simp] theorem Dev.edge_setPort (p : Nat) (x : Port) : (d.setPort p x).edge = d.edge := rfl
@[simp] theorem Dev.arb_setPort (p : Nat) (x : Port) : (d.setPort p x).arb = d.arb := rfl
@[simp] theorem Dev.crc_setPort (p : Nat) (x : Port) : (d.setPort p x).crc = d.crc := rfl
@[simp] theorem Dev.paths_setPort (p : Nat) (x : Port) : (d.setPort p x).paths = d.paths := rfl
@[simp] theorem Dev.trained_setPort (p : Nat) (x : Port) : (d.setPort p x).trained = d.trained := rfl
@[simp] theorem Dev.worked_setPort (p : Nat) (x : Port) : (d.setPort p x).worked = d.worked := rfl
@[simp] theorem Dev.clockHeld_setPort (p : Nat) (x : Port) : (d.setPort p x).clockHeld = d.clockHeld := rfl
@[simp] theorem Dev.free_setPort (p : Nat) (x : Port) : (d.setPort p x).free = d.free := rfl
@[simp] theorem Dev.hearth_setPort (p : Nat) (x : Port) (h' : Nat) : (d.setPort p x).hearth h' = d.hearth h' := rfl
@[simp] theorem Dev.cluster_setPort (p : Nat) (x : Port) (c' : Nat) : (d.setPort p x).cluster c' = d.cluster c' := rfl
@[simp] theorem Dev.flue_setPort (p : Nat) (x : Port) (f' : Nat) : (d.setPort p x).flue f' = d.flue f' := rfl
@[simp] theorem Dev.stack_setPort (p : Nat) (x : Port) (s' : Nat) : (d.setPort p x).stack s' = d.stack s' := rfl
@[simp] theorem Dev.stoker_setPort (p : Nat) (x : Port) (t' : Nat) : (d.setPort p x).stoker t' = d.stoker t' := rfl
@[simp] theorem Dev.ctx_setPort (p : Nat) (x : Port) (c' : Nat) : (d.setPort p x).ctx c' = d.ctx c' := rfl
@[simp] theorem Dev.sector_setPort (p : Nat) (x : Port) (a' b' : Nat) : (d.setPort p x).sector a' b' = d.sector a' b' := rfl
@[simp] theorem Dev.slowLine_setPort (p : Nat) (x : Port) (a' b' : Nat) : (d.setPort p x).slowLine a' b' = d.slowLine a' b' := rfl
@[simp] theorem Dev.get_setPort (p : Nat) (x : Port) (o' : ObjDef) (i' e' : Nat) : (d.setPort p x).get o' i' e' = d.get o' i' e' := rfl
@[simp] theorem Dev.domByte_setPort (p : Nat) (x : Port) (o' : ObjDef) (k' i' e' : Nat) : (d.setPort p x).domByte o' k' i' e' = d.domByte o' k' i' e' := rfl

/-! ### setCtx -/

@[simp] theorem Dev.tick_setCtx (c : Nat) (x : Ctx) : (d.setCtx c x).tick = d.tick := rfl
@[simp] theorem Dev.od_setCtx (c : Nat) (x : Ctx) : (d.setCtx c x).od = d.od := rfl
@[simp] theorem Dev.dom_setCtx (c : Nat) (x : Ctx) : (d.setCtx c x).dom = d.dom := rfl
@[simp] theorem Dev.hearths_setCtx (c : Nat) (x : Ctx) : (d.setCtx c x).hearths = d.hearths := rfl
@[simp] theorem Dev.clusters_setCtx (c : Nat) (x : Ctx) : (d.setCtx c x).clusters = d.clusters := rfl
@[simp] theorem Dev.flues_setCtx (c : Nat) (x : Ctx) : (d.setCtx c x).flues = d.flues := rfl
@[simp] theorem Dev.hbm_setCtx (c : Nat) (x : Ctx) : (d.setCtx c x).hbm = d.hbm := rfl
@[simp] theorem Dev.slow_setCtx (c : Nat) (x : Ctx) : (d.setCtx c x).slow = d.slow := rfl
@[simp] theorem Dev.stks_setCtx (c : Nat) (x : Ctx) : (d.setCtx c x).stks = d.stks := rfl
@[simp] theorem Dev.stokers_setCtx (c : Nat) (x : Ctx) : (d.setCtx c x).stokers = d.stokers := rfl
@[simp] theorem Dev.ports_setCtx (c : Nat) (x : Ctx) : (d.setCtx c x).ports = d.ports := rfl
@[simp] theorem Dev.net_setCtx (c : Nat) (x : Ctx) : (d.setCtx c x).net = d.net := rfl
@[simp] theorem Dev.host_setCtx (c : Nat) (x : Ctx) : (d.setCtx c x).host = d.host := rfl
@[simp] theorem Dev.i3c_setCtx (c : Nat) (x : Ctx) : (d.setCtx c x).i3c = d.i3c := rfl
@[simp] theorem Dev.reply_setCtx (c : Nat) (x : Ctx) : (d.setCtx c x).reply = d.reply := rfl
@[simp] theorem Dev.events_setCtx (c : Nat) (x : Ctx) : (d.setCtx c x).events = d.events := rfl
@[simp] theorem Dev.schedPtr_setCtx (c : Nat) (x : Ctx) : (d.setCtx c x).schedPtr = d.schedPtr := rfl
@[simp] theorem Dev.attrib_setCtx (c : Nat) (x : Ctx) : (d.setCtx c x).attrib = d.attrib := rfl
@[simp] theorem Dev.power_setCtx (c : Nat) (x : Ctx) : (d.setCtx c x).power = d.power := rfl
@[simp] theorem Dev.resets_setCtx (c : Nat) (x : Ctx) : (d.setCtx c x).resets = d.resets := rfl
@[simp] theorem Dev.pilot_setCtx (c : Nat) (x : Ctx) : (d.setCtx c x).pilot = d.pilot := rfl
@[simp] theorem Dev.store_setCtx (c : Nat) (x : Ctx) : (d.setCtx c x).store = d.store := rfl
@[simp] theorem Dev.bundles_setCtx (c : Nat) (x : Ctx) : (d.setCtx c x).bundles = d.bundles := rfl
@[simp] theorem Dev.testSeen_setCtx (c : Nat) (x : Ctx) : (d.setCtx c x).testSeen = d.testSeen := rfl
@[simp] theorem Dev.fwAreas_setCtx (c : Nat) (x : Ctx) : (d.setCtx c x).fwAreas = d.fwAreas := rfl
@[simp] theorem Dev.saveOd_setCtx (c : Nat) (x : Ctx) : (d.setCtx c x).saveOd = d.saveOd := rfl
@[simp] theorem Dev.saveDom_setCtx (c : Nat) (x : Ctx) : (d.setCtx c x).saveDom = d.saveDom := rfl
@[simp] theorem Dev.coarse_setCtx (c : Nat) (x : Ctx) : (d.setCtx c x).coarse = d.coarse := rfl
@[simp] theorem Dev.fwPending_setCtx (c : Nat) (x : Ctx) : (d.setCtx c x).fwPending = d.fwPending := rfl
@[simp] theorem Dev.quotes_setCtx (c : Nat) (x : Ctx) : (d.setCtx c x).quotes = d.quotes := rfl
@[simp] theorem Dev.edge_setCtx (c : Nat) (x : Ctx) : (d.setCtx c x).edge = d.edge := rfl
@[simp] theorem Dev.arb_setCtx (c : Nat) (x : Ctx) : (d.setCtx c x).arb = d.arb := rfl
@[simp] theorem Dev.crc_setCtx (c : Nat) (x : Ctx) : (d.setCtx c x).crc = d.crc := rfl
@[simp] theorem Dev.paths_setCtx (c : Nat) (x : Ctx) : (d.setCtx c x).paths = d.paths := rfl
@[simp] theorem Dev.trained_setCtx (c : Nat) (x : Ctx) : (d.setCtx c x).trained = d.trained := rfl
@[simp] theorem Dev.worked_setCtx (c : Nat) (x : Ctx) : (d.setCtx c x).worked = d.worked := rfl
@[simp] theorem Dev.clockHeld_setCtx (c : Nat) (x : Ctx) : (d.setCtx c x).clockHeld = d.clockHeld := rfl
@[simp] theorem Dev.free_setCtx (c : Nat) (x : Ctx) : (d.setCtx c x).free = d.free := rfl
@[simp] theorem Dev.hearth_setCtx (c : Nat) (x : Ctx) (h' : Nat) : (d.setCtx c x).hearth h' = d.hearth h' := rfl
@[simp] theorem Dev.cluster_setCtx (c : Nat) (x : Ctx) (c' : Nat) : (d.setCtx c x).cluster c' = d.cluster c' := rfl
@[simp] theorem Dev.flue_setCtx (c : Nat) (x : Ctx) (f' : Nat) : (d.setCtx c x).flue f' = d.flue f' := rfl
@[simp] theorem Dev.stack_setCtx (c : Nat) (x : Ctx) (s' : Nat) : (d.setCtx c x).stack s' = d.stack s' := rfl
@[simp] theorem Dev.stoker_setCtx (c : Nat) (x : Ctx) (t' : Nat) : (d.setCtx c x).stoker t' = d.stoker t' := rfl
@[simp] theorem Dev.port_setCtx (c : Nat) (x : Ctx) (p' : Nat) : (d.setCtx c x).port p' = d.port p' := rfl
@[simp] theorem Dev.sector_setCtx (c : Nat) (x : Ctx) (a' b' : Nat) : (d.setCtx c x).sector a' b' = d.sector a' b' := rfl
@[simp] theorem Dev.slowLine_setCtx (c : Nat) (x : Ctx) (a' b' : Nat) : (d.setCtx c x).slowLine a' b' = d.slowLine a' b' := rfl
@[simp] theorem Dev.get_setCtx (c : Nat) (x : Ctx) (o' : ObjDef) (i' e' : Nat) : (d.setCtx c x).get o' i' e' = d.get o' i' e' := rfl
@[simp] theorem Dev.domByte_setCtx (c : Nat) (x : Ctx) (o' : ObjDef) (k' i' e' : Nat) : (d.setCtx c x).domByte o' k' i' e' = d.domByte o' k' i' e' := rfl

/-! ### modNet -/

@[simp] theorem Dev.tick_modNet (f : Net → Net) : (d.modNet f).tick = d.tick := rfl
@[simp] theorem Dev.od_modNet (f : Net → Net) : (d.modNet f).od = d.od := rfl
@[simp] theorem Dev.dom_modNet (f : Net → Net) : (d.modNet f).dom = d.dom := rfl
@[simp] theorem Dev.hearths_modNet (f : Net → Net) : (d.modNet f).hearths = d.hearths := rfl
@[simp] theorem Dev.clusters_modNet (f : Net → Net) : (d.modNet f).clusters = d.clusters := rfl
@[simp] theorem Dev.flues_modNet (f : Net → Net) : (d.modNet f).flues = d.flues := rfl
@[simp] theorem Dev.hbm_modNet (f : Net → Net) : (d.modNet f).hbm = d.hbm := rfl
@[simp] theorem Dev.slow_modNet (f : Net → Net) : (d.modNet f).slow = d.slow := rfl
@[simp] theorem Dev.stks_modNet (f : Net → Net) : (d.modNet f).stks = d.stks := rfl
@[simp] theorem Dev.stokers_modNet (f : Net → Net) : (d.modNet f).stokers = d.stokers := rfl
@[simp] theorem Dev.ports_modNet (f : Net → Net) : (d.modNet f).ports = d.ports := rfl
@[simp] theorem Dev.host_modNet (f : Net → Net) : (d.modNet f).host = d.host := rfl
@[simp] theorem Dev.i3c_modNet (f : Net → Net) : (d.modNet f).i3c = d.i3c := rfl
@[simp] theorem Dev.reply_modNet (f : Net → Net) : (d.modNet f).reply = d.reply := rfl
@[simp] theorem Dev.events_modNet (f : Net → Net) : (d.modNet f).events = d.events := rfl
@[simp] theorem Dev.ctxs_modNet (f : Net → Net) : (d.modNet f).ctxs = d.ctxs := rfl
@[simp] theorem Dev.schedPtr_modNet (f : Net → Net) : (d.modNet f).schedPtr = d.schedPtr := rfl
@[simp] theorem Dev.attrib_modNet (f : Net → Net) : (d.modNet f).attrib = d.attrib := rfl
@[simp] theorem Dev.power_modNet (f : Net → Net) : (d.modNet f).power = d.power := rfl
@[simp] theorem Dev.resets_modNet (f : Net → Net) : (d.modNet f).resets = d.resets := rfl
@[simp] theorem Dev.pilot_modNet (f : Net → Net) : (d.modNet f).pilot = d.pilot := rfl
@[simp] theorem Dev.store_modNet (f : Net → Net) : (d.modNet f).store = d.store := rfl
@[simp] theorem Dev.bundles_modNet (f : Net → Net) : (d.modNet f).bundles = d.bundles := rfl
@[simp] theorem Dev.testSeen_modNet (f : Net → Net) : (d.modNet f).testSeen = d.testSeen := rfl
@[simp] theorem Dev.fwAreas_modNet (f : Net → Net) : (d.modNet f).fwAreas = d.fwAreas := rfl
@[simp] theorem Dev.saveOd_modNet (f : Net → Net) : (d.modNet f).saveOd = d.saveOd := rfl
@[simp] theorem Dev.saveDom_modNet (f : Net → Net) : (d.modNet f).saveDom = d.saveDom := rfl
@[simp] theorem Dev.coarse_modNet (f : Net → Net) : (d.modNet f).coarse = d.coarse := rfl
@[simp] theorem Dev.fwPending_modNet (f : Net → Net) : (d.modNet f).fwPending = d.fwPending := rfl
@[simp] theorem Dev.quotes_modNet (f : Net → Net) : (d.modNet f).quotes = d.quotes := rfl
@[simp] theorem Dev.edge_modNet (f : Net → Net) : (d.modNet f).edge = d.edge := rfl
@[simp] theorem Dev.arb_modNet (f : Net → Net) : (d.modNet f).arb = d.arb := rfl
@[simp] theorem Dev.crc_modNet (f : Net → Net) : (d.modNet f).crc = d.crc := rfl
@[simp] theorem Dev.paths_modNet (f : Net → Net) : (d.modNet f).paths = d.paths := rfl
@[simp] theorem Dev.trained_modNet (f : Net → Net) : (d.modNet f).trained = d.trained := rfl
@[simp] theorem Dev.worked_modNet (f : Net → Net) : (d.modNet f).worked = d.worked := rfl
@[simp] theorem Dev.clockHeld_modNet (f : Net → Net) : (d.modNet f).clockHeld = d.clockHeld := rfl
@[simp] theorem Dev.free_modNet (f : Net → Net) : (d.modNet f).free = d.free := rfl
@[simp] theorem Dev.hearth_modNet (f : Net → Net) (h' : Nat) : (d.modNet f).hearth h' = d.hearth h' := rfl
@[simp] theorem Dev.cluster_modNet (f : Net → Net) (c' : Nat) : (d.modNet f).cluster c' = d.cluster c' := rfl
@[simp] theorem Dev.flue_modNet (f : Net → Net) (f' : Nat) : (d.modNet f).flue f' = d.flue f' := rfl
@[simp] theorem Dev.stack_modNet (f : Net → Net) (s' : Nat) : (d.modNet f).stack s' = d.stack s' := rfl
@[simp] theorem Dev.stoker_modNet (f : Net → Net) (t' : Nat) : (d.modNet f).stoker t' = d.stoker t' := rfl
@[simp] theorem Dev.port_modNet (f : Net → Net) (p' : Nat) : (d.modNet f).port p' = d.port p' := rfl
@[simp] theorem Dev.ctx_modNet (f : Net → Net) (c' : Nat) : (d.modNet f).ctx c' = d.ctx c' := rfl
@[simp] theorem Dev.sector_modNet (f : Net → Net) (a' b' : Nat) : (d.modNet f).sector a' b' = d.sector a' b' := rfl
@[simp] theorem Dev.slowLine_modNet (f : Net → Net) (a' b' : Nat) : (d.modNet f).slowLine a' b' = d.slowLine a' b' := rfl
@[simp] theorem Dev.get_modNet (f : Net → Net) (o' : ObjDef) (i' e' : Nat) : (d.modNet f).get o' i' e' = d.get o' i' e' := rfl
@[simp] theorem Dev.domByte_modNet (f : Net → Net) (o' : ObjDef) (k' i' e' : Nat) : (d.modNet f).domByte o' k' i' e' = d.domByte o' k' i' e' := rfl

/-! ### setSector -/

@[simp] theorem Dev.tick_setSector (st sec : Nat) (x : Sector) : (d.setSector st sec x).tick = d.tick := rfl
@[simp] theorem Dev.od_setSector (st sec : Nat) (x : Sector) : (d.setSector st sec x).od = d.od := rfl
@[simp] theorem Dev.dom_setSector (st sec : Nat) (x : Sector) : (d.setSector st sec x).dom = d.dom := rfl
@[simp] theorem Dev.hearths_setSector (st sec : Nat) (x : Sector) : (d.setSector st sec x).hearths = d.hearths := rfl
@[simp] theorem Dev.clusters_setSector (st sec : Nat) (x : Sector) : (d.setSector st sec x).clusters = d.clusters := rfl
@[simp] theorem Dev.flues_setSector (st sec : Nat) (x : Sector) : (d.setSector st sec x).flues = d.flues := rfl
@[simp] theorem Dev.slow_setSector (st sec : Nat) (x : Sector) : (d.setSector st sec x).slow = d.slow := rfl
@[simp] theorem Dev.stks_setSector (st sec : Nat) (x : Sector) : (d.setSector st sec x).stks = d.stks := rfl
@[simp] theorem Dev.stokers_setSector (st sec : Nat) (x : Sector) : (d.setSector st sec x).stokers = d.stokers := rfl
@[simp] theorem Dev.ports_setSector (st sec : Nat) (x : Sector) : (d.setSector st sec x).ports = d.ports := rfl
@[simp] theorem Dev.net_setSector (st sec : Nat) (x : Sector) : (d.setSector st sec x).net = d.net := rfl
@[simp] theorem Dev.host_setSector (st sec : Nat) (x : Sector) : (d.setSector st sec x).host = d.host := rfl
@[simp] theorem Dev.i3c_setSector (st sec : Nat) (x : Sector) : (d.setSector st sec x).i3c = d.i3c := rfl
@[simp] theorem Dev.reply_setSector (st sec : Nat) (x : Sector) : (d.setSector st sec x).reply = d.reply := rfl
@[simp] theorem Dev.events_setSector (st sec : Nat) (x : Sector) : (d.setSector st sec x).events = d.events := rfl
@[simp] theorem Dev.ctxs_setSector (st sec : Nat) (x : Sector) : (d.setSector st sec x).ctxs = d.ctxs := rfl
@[simp] theorem Dev.schedPtr_setSector (st sec : Nat) (x : Sector) : (d.setSector st sec x).schedPtr = d.schedPtr := rfl
@[simp] theorem Dev.attrib_setSector (st sec : Nat) (x : Sector) : (d.setSector st sec x).attrib = d.attrib := rfl
@[simp] theorem Dev.power_setSector (st sec : Nat) (x : Sector) : (d.setSector st sec x).power = d.power := rfl
@[simp] theorem Dev.resets_setSector (st sec : Nat) (x : Sector) : (d.setSector st sec x).resets = d.resets := rfl
@[simp] theorem Dev.pilot_setSector (st sec : Nat) (x : Sector) : (d.setSector st sec x).pilot = d.pilot := rfl
@[simp] theorem Dev.store_setSector (st sec : Nat) (x : Sector) : (d.setSector st sec x).store = d.store := rfl
@[simp] theorem Dev.bundles_setSector (st sec : Nat) (x : Sector) : (d.setSector st sec x).bundles = d.bundles := rfl
@[simp] theorem Dev.testSeen_setSector (st sec : Nat) (x : Sector) : (d.setSector st sec x).testSeen = d.testSeen := rfl
@[simp] theorem Dev.fwAreas_setSector (st sec : Nat) (x : Sector) : (d.setSector st sec x).fwAreas = d.fwAreas := rfl
@[simp] theorem Dev.saveOd_setSector (st sec : Nat) (x : Sector) : (d.setSector st sec x).saveOd = d.saveOd := rfl
@[simp] theorem Dev.saveDom_setSector (st sec : Nat) (x : Sector) : (d.setSector st sec x).saveDom = d.saveDom := rfl
@[simp] theorem Dev.coarse_setSector (st sec : Nat) (x : Sector) : (d.setSector st sec x).coarse = d.coarse := rfl
@[simp] theorem Dev.fwPending_setSector (st sec : Nat) (x : Sector) : (d.setSector st sec x).fwPending = d.fwPending := rfl
@[simp] theorem Dev.quotes_setSector (st sec : Nat) (x : Sector) : (d.setSector st sec x).quotes = d.quotes := rfl
@[simp] theorem Dev.edge_setSector (st sec : Nat) (x : Sector) : (d.setSector st sec x).edge = d.edge := rfl
@[simp] theorem Dev.arb_setSector (st sec : Nat) (x : Sector) : (d.setSector st sec x).arb = d.arb := rfl
@[simp] theorem Dev.crc_setSector (st sec : Nat) (x : Sector) : (d.setSector st sec x).crc = d.crc := rfl
@[simp] theorem Dev.paths_setSector (st sec : Nat) (x : Sector) : (d.setSector st sec x).paths = d.paths := rfl
@[simp] theorem Dev.trained_setSector (st sec : Nat) (x : Sector) : (d.setSector st sec x).trained = d.trained := rfl
@[simp] theorem Dev.worked_setSector (st sec : Nat) (x : Sector) : (d.setSector st sec x).worked = d.worked := rfl
@[simp] theorem Dev.clockHeld_setSector (st sec : Nat) (x : Sector) : (d.setSector st sec x).clockHeld = d.clockHeld := rfl
@[simp] theorem Dev.free_setSector (st sec : Nat) (x : Sector) : (d.setSector st sec x).free = d.free := rfl
@[simp] theorem Dev.hearth_setSector (st sec : Nat) (x : Sector) (h' : Nat) : (d.setSector st sec x).hearth h' = d.hearth h' := rfl
@[simp] theorem Dev.cluster_setSector (st sec : Nat) (x : Sector) (c' : Nat) : (d.setSector st sec x).cluster c' = d.cluster c' := rfl
@[simp] theorem Dev.flue_setSector (st sec : Nat) (x : Sector) (f' : Nat) : (d.setSector st sec x).flue f' = d.flue f' := rfl
@[simp] theorem Dev.stack_setSector (st sec : Nat) (x : Sector) (s' : Nat) : (d.setSector st sec x).stack s' = d.stack s' := rfl
@[simp] theorem Dev.stoker_setSector (st sec : Nat) (x : Sector) (t' : Nat) : (d.setSector st sec x).stoker t' = d.stoker t' := rfl
@[simp] theorem Dev.port_setSector (st sec : Nat) (x : Sector) (p' : Nat) : (d.setSector st sec x).port p' = d.port p' := rfl
@[simp] theorem Dev.ctx_setSector (st sec : Nat) (x : Sector) (c' : Nat) : (d.setSector st sec x).ctx c' = d.ctx c' := rfl
@[simp] theorem Dev.slowLine_setSector (st sec : Nat) (x : Sector) (a' b' : Nat) : (d.setSector st sec x).slowLine a' b' = d.slowLine a' b' := rfl
@[simp] theorem Dev.get_setSector (st sec : Nat) (x : Sector) (o' : ObjDef) (i' e' : Nat) : (d.setSector st sec x).get o' i' e' = d.get o' i' e' := rfl
@[simp] theorem Dev.domByte_setSector (st sec : Nat) (x : Sector) (o' : ObjDef) (k' i' e' : Nat) : (d.setSector st sec x).domByte o' k' i' e' = d.domByte o' k' i' e' := rfl

/-! ### setSlowLine -/

@[simp] theorem Dev.tick_setSlowLine (t l : Nat) (x : SlowLine) : (d.setSlowLine t l x).tick = d.tick := rfl
@[simp] theorem Dev.od_setSlowLine (t l : Nat) (x : SlowLine) : (d.setSlowLine t l x).od = d.od := rfl
@[simp] theorem Dev.dom_setSlowLine (t l : Nat) (x : SlowLine) : (d.setSlowLine t l x).dom = d.dom := rfl
@[simp] theorem Dev.hearths_setSlowLine (t l : Nat) (x : SlowLine) : (d.setSlowLine t l x).hearths = d.hearths := rfl
@[simp] theorem Dev.clusters_setSlowLine (t l : Nat) (x : SlowLine) : (d.setSlowLine t l x).clusters = d.clusters := rfl
@[simp] theorem Dev.flues_setSlowLine (t l : Nat) (x : SlowLine) : (d.setSlowLine t l x).flues = d.flues := rfl
@[simp] theorem Dev.hbm_setSlowLine (t l : Nat) (x : SlowLine) : (d.setSlowLine t l x).hbm = d.hbm := rfl
@[simp] theorem Dev.stks_setSlowLine (t l : Nat) (x : SlowLine) : (d.setSlowLine t l x).stks = d.stks := rfl
@[simp] theorem Dev.stokers_setSlowLine (t l : Nat) (x : SlowLine) : (d.setSlowLine t l x).stokers = d.stokers := rfl
@[simp] theorem Dev.ports_setSlowLine (t l : Nat) (x : SlowLine) : (d.setSlowLine t l x).ports = d.ports := rfl
@[simp] theorem Dev.net_setSlowLine (t l : Nat) (x : SlowLine) : (d.setSlowLine t l x).net = d.net := rfl
@[simp] theorem Dev.host_setSlowLine (t l : Nat) (x : SlowLine) : (d.setSlowLine t l x).host = d.host := rfl
@[simp] theorem Dev.i3c_setSlowLine (t l : Nat) (x : SlowLine) : (d.setSlowLine t l x).i3c = d.i3c := rfl
@[simp] theorem Dev.reply_setSlowLine (t l : Nat) (x : SlowLine) : (d.setSlowLine t l x).reply = d.reply := rfl
@[simp] theorem Dev.events_setSlowLine (t l : Nat) (x : SlowLine) : (d.setSlowLine t l x).events = d.events := rfl
@[simp] theorem Dev.ctxs_setSlowLine (t l : Nat) (x : SlowLine) : (d.setSlowLine t l x).ctxs = d.ctxs := rfl
@[simp] theorem Dev.schedPtr_setSlowLine (t l : Nat) (x : SlowLine) : (d.setSlowLine t l x).schedPtr = d.schedPtr := rfl
@[simp] theorem Dev.attrib_setSlowLine (t l : Nat) (x : SlowLine) : (d.setSlowLine t l x).attrib = d.attrib := rfl
@[simp] theorem Dev.power_setSlowLine (t l : Nat) (x : SlowLine) : (d.setSlowLine t l x).power = d.power := rfl
@[simp] theorem Dev.resets_setSlowLine (t l : Nat) (x : SlowLine) : (d.setSlowLine t l x).resets = d.resets := rfl
@[simp] theorem Dev.pilot_setSlowLine (t l : Nat) (x : SlowLine) : (d.setSlowLine t l x).pilot = d.pilot := rfl
@[simp] theorem Dev.store_setSlowLine (t l : Nat) (x : SlowLine) : (d.setSlowLine t l x).store = d.store := rfl
@[simp] theorem Dev.bundles_setSlowLine (t l : Nat) (x : SlowLine) : (d.setSlowLine t l x).bundles = d.bundles := rfl
@[simp] theorem Dev.testSeen_setSlowLine (t l : Nat) (x : SlowLine) : (d.setSlowLine t l x).testSeen = d.testSeen := rfl
@[simp] theorem Dev.fwAreas_setSlowLine (t l : Nat) (x : SlowLine) : (d.setSlowLine t l x).fwAreas = d.fwAreas := rfl
@[simp] theorem Dev.saveOd_setSlowLine (t l : Nat) (x : SlowLine) : (d.setSlowLine t l x).saveOd = d.saveOd := rfl
@[simp] theorem Dev.saveDom_setSlowLine (t l : Nat) (x : SlowLine) : (d.setSlowLine t l x).saveDom = d.saveDom := rfl
@[simp] theorem Dev.coarse_setSlowLine (t l : Nat) (x : SlowLine) : (d.setSlowLine t l x).coarse = d.coarse := rfl
@[simp] theorem Dev.fwPending_setSlowLine (t l : Nat) (x : SlowLine) : (d.setSlowLine t l x).fwPending = d.fwPending := rfl
@[simp] theorem Dev.quotes_setSlowLine (t l : Nat) (x : SlowLine) : (d.setSlowLine t l x).quotes = d.quotes := rfl
@[simp] theorem Dev.edge_setSlowLine (t l : Nat) (x : SlowLine) : (d.setSlowLine t l x).edge = d.edge := rfl
@[simp] theorem Dev.arb_setSlowLine (t l : Nat) (x : SlowLine) : (d.setSlowLine t l x).arb = d.arb := rfl
@[simp] theorem Dev.crc_setSlowLine (t l : Nat) (x : SlowLine) : (d.setSlowLine t l x).crc = d.crc := rfl
@[simp] theorem Dev.paths_setSlowLine (t l : Nat) (x : SlowLine) : (d.setSlowLine t l x).paths = d.paths := rfl
@[simp] theorem Dev.trained_setSlowLine (t l : Nat) (x : SlowLine) : (d.setSlowLine t l x).trained = d.trained := rfl
@[simp] theorem Dev.worked_setSlowLine (t l : Nat) (x : SlowLine) : (d.setSlowLine t l x).worked = d.worked := rfl
@[simp] theorem Dev.clockHeld_setSlowLine (t l : Nat) (x : SlowLine) : (d.setSlowLine t l x).clockHeld = d.clockHeld := rfl
@[simp] theorem Dev.free_setSlowLine (t l : Nat) (x : SlowLine) : (d.setSlowLine t l x).free = d.free := rfl
@[simp] theorem Dev.hearth_setSlowLine (t l : Nat) (x : SlowLine) (h' : Nat) : (d.setSlowLine t l x).hearth h' = d.hearth h' := rfl
@[simp] theorem Dev.cluster_setSlowLine (t l : Nat) (x : SlowLine) (c' : Nat) : (d.setSlowLine t l x).cluster c' = d.cluster c' := rfl
@[simp] theorem Dev.flue_setSlowLine (t l : Nat) (x : SlowLine) (f' : Nat) : (d.setSlowLine t l x).flue f' = d.flue f' := rfl
@[simp] theorem Dev.stack_setSlowLine (t l : Nat) (x : SlowLine) (s' : Nat) : (d.setSlowLine t l x).stack s' = d.stack s' := rfl
@[simp] theorem Dev.stoker_setSlowLine (t l : Nat) (x : SlowLine) (t' : Nat) : (d.setSlowLine t l x).stoker t' = d.stoker t' := rfl
@[simp] theorem Dev.port_setSlowLine (t l : Nat) (x : SlowLine) (p' : Nat) : (d.setSlowLine t l x).port p' = d.port p' := rfl
@[simp] theorem Dev.ctx_setSlowLine (t l : Nat) (x : SlowLine) (c' : Nat) : (d.setSlowLine t l x).ctx c' = d.ctx c' := rfl
@[simp] theorem Dev.sector_setSlowLine (t l : Nat) (x : SlowLine) (a' b' : Nat) : (d.setSlowLine t l x).sector a' b' = d.sector a' b' := rfl
@[simp] theorem Dev.get_setSlowLine (t l : Nat) (x : SlowLine) (o' : ObjDef) (i' e' : Nat) : (d.setSlowLine t l x).get o' i' e' = d.get o' i' e' := rfl
@[simp] theorem Dev.domByte_setSlowLine (t l : Nat) (x : SlowLine) (o' : ObjDef) (k' i' e' : Nat) : (d.setSlowLine t l x).domByte o' k' i' e' = d.domByte o' k' i' e' := rfl

/-! ### Reading what was written -/

@[simp] theorem Dev.reply_answer (a v : Nat) (bs : List Byte) : (d.answer a v bs).reply = ⟨a, v, bs⟩ := rfl

@[simp] theorem Dev.hearth_setHearth_self (k : Nat) (x : Hearth) : (d.setHearth k x).hearth k = x := tget_tset_self ..
theorem Dev.hearth_setHearth_ne {k j : Nat} (h : j ≠ k) (x : Hearth) : (d.setHearth k x).hearth j = d.hearth j := tget_tset_ne _ h ..
@[simp] theorem Dev.cluster_setCluster_self (k : Nat) (x : Cluster) : (d.setCluster k x).cluster k = x := tget_tset_self ..
theorem Dev.cluster_setCluster_ne {k j : Nat} (h : j ≠ k) (x : Cluster) : (d.setCluster k x).cluster j = d.cluster j := tget_tset_ne _ h ..
@[simp] theorem Dev.flue_setFlue_self (k : Nat) (x : Flue) : (d.setFlue k x).flue k = x := tget_tset_self ..
theorem Dev.flue_setFlue_ne {k j : Nat} (h : j ≠ k) (x : Flue) : (d.setFlue k x).flue j = d.flue j := tget_tset_ne _ h ..
@[simp] theorem Dev.stack_setStack_self (k : Nat) (x : Stack) : (d.setStack k x).stack k = x := tget_tset_self ..
theorem Dev.stack_setStack_ne {k j : Nat} (h : j ≠ k) (x : Stack) : (d.setStack k x).stack j = d.stack j := tget_tset_ne _ h ..
@[simp] theorem Dev.stoker_setStoker_self (k : Nat) (x : Stoker) : (d.setStoker k x).stoker k = x := tget_tset_self ..
theorem Dev.stoker_setStoker_ne {k j : Nat} (h : j ≠ k) (x : Stoker) : (d.setStoker k x).stoker j = d.stoker j := tget_tset_ne _ h ..
@[simp] theorem Dev.port_setPort_self (k : Nat) (x : Port) : (d.setPort k x).port k = x := tget_tset_self ..
theorem Dev.port_setPort_ne {k j : Nat} (h : j ≠ k) (x : Port) : (d.setPort k x).port j = d.port j := tget_tset_ne _ h ..
@[simp] theorem Dev.ctx_setCtx_self (k : Nat) (x : Ctx) : (d.setCtx k x).ctx k = x := tget_tset_self ..
theorem Dev.ctx_setCtx_ne {k j : Nat} (h : j ≠ k) (x : Ctx) : (d.setCtx k x).ctx j = d.ctx j := tget_tset_ne _ h ..

/-- The value read after a write of the same element: the value cut to the object's size. -/
@[simp] theorem Dev.get_put_self (o : ObjDef) (v i e : Nat) : (d.put o v i e).get o i e = v % 2 ^ o.bitsOf := by
  by_cases h : v % 2 ^ o.bitsOf = o.resetVal i e <;> simp [Dev.get, Dev.put, h]

/-- A write leaves every other element as it was. -/
theorem Dev.get_put_ne {o o' : ObjDef} {i e i' e' : Nat} (v : Nat) (h : o'.key i' e' ≠ o.key i e) :
    (d.put o v i e).get o' i' e' = d.get o' i' e' := by
  simp [Dev.get, Dev.put, tget_tset_ne _ h]

/-- Every stored value fits its object after a write that does not name it. -/
theorem Dev.od_put (o : ObjDef) (v i e : Nat) : (d.put o v i e).od =
    tset 0 d.od (o.key i e) (if v % 2 ^ o.bitsOf = o.resetVal i e then 0 else v % 2 ^ o.bitsOf + 1) := rfl

end Sys2Proof.Machine
end

