-- ==== Sys2Proof/Laws/Events.lean ====
section
/-! SUPPORT. What raising an event can change (R366 to R370, R372): the ring and its counters, the host vectors, the in-band
interrupt, the events held during a restart of the Pilot, and a notice queued for the subscriber. -/

namespace Sys2Proof.Machine

/-- Keys of the objects that recording an event changes: EVENT_NEXT_SEQ, EVENT_OLDEST_SEQ, EVENTS_OVERWRITTEN and, where the subscriber's
notice has no route, FRAMES_UNROUTABLE. -/
def eventKeys : List Nat :=
  [Obj.EVENT_NEXT_SEQ.key 0 0, Obj.EVENT_OLDEST_SEQ.key 0 0, Obj.EVENTS_OVERWRITTEN.key 0 0, Obj.FRAMES_UNROUTABLE.key 0 0]

/-- `d'` is `d` but for what recording events changes. -/
def Dev.Recorded (d d' : Dev) : Prop :=
  (∃ od ev host i3c pilot net,
    d' = { d with od := od, events := ev, host := host, i3c := i3c, pilot := pilot, net := net }) ∧
  ∀ k, k ∉ eventKeys → tget 0 d'.od k = tget 0 d.od k

theorem Dev.Recorded.refl (d : Dev) : d.Recorded d := ⟨⟨_, _, _, _, _, _, rfl⟩, fun _ _ => rfl⟩

theorem Dev.Recorded.trans {a b c : Dev} (h : a.Recorded b) (g : b.Recorded c) : a.Recorded c := by
  obtain ⟨⟨_, _, _, _, _, _, rfl⟩, h⟩ := h
  obtain ⟨⟨_, _, _, _, _, _, rfl⟩, g⟩ := g
  exact ⟨⟨_, _, _, _, _, _, rfl⟩, fun k hk => (g k hk).trans (h k hk)⟩

theorem Dev.Recorded.of_rest (d : Dev) (ev : Events) (host : HostSide) (i3c : I3c) (pilot : Pilot) (net : Net) :
    d.Recorded { d with events := ev, host := host, i3c := i3c, pilot := pilot, net := net } :=
  ⟨⟨_, _, _, _, _, _, rfl⟩, fun _ _ => rfl⟩

theorem Dev.Recorded.put {d : Dev} {o : ObjDef} {v i e : Nat} (h : o.key i e ∈ eventKeys) : d.Recorded (d.put o v i e) := by
  refine ⟨⟨_, _, _, _, _, _, rfl⟩, fun k hk => tget_tset_ne _ ?_ ..⟩
  rintro rfl
  exact hk h

theorem Dev.Recorded.bump {d : Dev} {o : ObjDef} {n i e : Nat} (h : o.key i e ∈ eventKeys) : d.Recorded (d.bump o i n e) := by
  unfold Dev.bump; split
  · exact .refl d
  · exact .put h

theorem Dev.hostVector_recorded (d : Dev) (g : Nat) : d.Recorded (d.hostVector g) := by
  simp only [Dev.hostVector]
  split
  · exact .of_rest ..
  · exact .refl d

theorem Dev.inBand_recorded (d : Dev) (g : Nat) : d.Recorded (d.inBand g) := by
  simp only [Dev.inBand]
  split
  · exact .of_rest ..
  · exact .refl d

theorem Dev.appendRing_recorded (d : Dev) (r : EventRec) : d.Recorded (d.appendRing r) :=
  .trans (.trans (.of_rest d _ d.host d.i3c d.pilot d.net) (.put (by simp [eventKeys]))) (.put (by simp [eventKeys]))

theorem Dev.pushOne_recorded (d : Dev) (r : EventRec) : d.Recorded (d.pushOne r).1 := by
  refine .trans (.trans (.trans (d.appendRing_recorded r) ?_) (Dev.hostVector_recorded ..)) (Dev.inBand_recorded ..)
  split
  · exact .bump (by simp [eventKeys])
  · exact .refl _

theorem Dev.disarm_recorded (d : Dev) : d.Recorded d.disarm := .of_rest ..

theorem Dev.push_recorded (d : Dev) (r : EventRec) : d.Recorded (d.push r).1 := by
  have h := d.pushOne_recorded r
  unfold Dev.push
  generalize d.pushOne r = p at h ⊢
  obtain ⟨d1, r1⟩ := p
  have h2 := d1.disarm.pushOne_recorded (d1.plainRec Event.eventOverwrite 0 0)
  dsimp only
  generalize d1.disarm.pushOne (d1.plainRec Event.eventOverwrite 0 0) = q at h2 ⊢
  split
  · exact h.trans (d1.disarm_recorded.trans h2)
  · exact h

theorem Dev.enqueueAt_recorded (d : Dev) (p : Nat) (f : Frame) : d.Recorded (d.enqueueAt p f) := .of_rest ..

theorem Dev.modNet_recorded (d : Dev) (f : Net → Net) : d.Recorded (d.modNet f) := .of_rest ..

theorem Dev.trySend_recorded {d d' : Dev} {f : Frame} (h : d.trySend f = some d') : d.Recorded d' := by
  unfold Dev.trySend at h
  split at h
  · cases h
  · cases h
  · cases h; exact d.enqueueAt_recorded ..
  · split at h
    · cases h
    · cases h
      split
      · exact d.enqueueAt_recorded ..
      · exact .trans (d.enqueueAt_recorded ..) (Dev.modNet_recorded ..)

theorem Dev.eventNotice_recorded (d : Dev) (r : EventRec) : d.Recorded (d.eventNotice r) := by
  have h4 : Obj.FRAMES_UNROUTABLE.key 0 0 ∈ eventKeys := by simp [eventKeys]
  simp only [Dev.eventNotice]
  split
  · exact .refl d
  · split
    · exact .refl d
    · split
      · next h => exact Dev.trySend_recorded h
      · split
        · split
          · exact .trans (.trans (.trans (.bump h4) (Dev.modNet_recorded ..)) (Dev.push_recorded ..)) (.bump h4)
          · exact .trans (.bump h4) (Dev.modNet_recorded ..)
        · exact .bump h4

theorem Dev.notices_recorded (l : List EventRec) : ∀ d : Dev, d.Recorded (l.foldl Dev.eventNotice d) := by
  induction l with
  | nil => exact .refl
  | cons r l ih => exact fun d => .trans (d.eventNotice_recorded r) (ih _)

theorem Dev.record_recorded (d : Dev) (r : EventRec) : d.Recorded (d.record r) := by
  simp only [Dev.record]
  split
  · split <;> exact .of_rest ..
  · exact .trans (d.push_recorded r) (Dev.notices_recorded ..)

/-- Everything raising an event can change. -/
theorem Dev.raise_recorded (d : Dev) (e : Ev) (k : Kind) (i : Nat) (c : Option Nat) (det hi : Nat) :
    d.Recorded (d.raise e k i c det hi) := by
  simp only [Dev.raise]
  split
  · exact d.record_recorded _
  · exact .refl d

/-- Counting an unroutable frame changes no more than recording an event does. -/
theorem Dev.countUnroutable_recorded (d : Dev) (dst : Nat) : d.Recorded (d.countUnroutable dst) := by
  have h4 : Obj.FRAMES_UNROUTABLE.key 0 0 ∈ eventKeys := by simp [eventKeys]
  simp only [Dev.countUnroutable]
  split
  · exact .trans (.trans (.bump h4) (Dev.modNet_recorded ..)) (Dev.raise_recorded ..)
  · exact .bump h4

theorem Dev.sendAnswer_recorded (d : Dev) (f : Frame) : d.Recorded (d.sendAnswer f) := by
  unfold Dev.sendAnswer
  split
  · next h => exact Dev.trySend_recorded h
  · split
    · exact .refl d
    · exact Dev.countUnroutable_recorded ..

/-! ### Values and units after an event -/

theorem Dev.Recorded.get {d d' : Dev} (h : d.Recorded d') {o : ObjDef} {i e : Nat} (hk : o.key i e ∉ eventKeys) :
    d'.get o i e = d.get o i e := by
  simp [Dev.get, h.2 _ hk]

@[simp] theorem Dev.tick_raise (d : Dev) (e : Ev) (k : Kind) (i : Nat) (c : Option Nat) (det hi : Nat) :
    (d.raise e k i c det hi).tick = d.tick := by
  obtain ⟨⟨_, _, _, _, _, _, h⟩, -⟩ := d.raise_recorded e k i c det hi; rw [h]

@[simp] theorem Dev.dom_raise (d : Dev) (e : Ev) (k : Kind) (i : Nat) (c : Option Nat) (det hi : Nat) :
    (d.raise e k i c det hi).dom = d.dom := by
  obtain ⟨⟨_, _, _, _, _, _, h⟩, -⟩ := d.raise_recorded e k i c det hi; rw [h]

@[simp] theorem Dev.hearths_raise (d : Dev) (e : Ev) (k : Kind) (i : Nat) (c : Option Nat) (det hi : Nat) :
    (d.raise e k i c det hi).hearths = d.hearths := by
  obtain ⟨⟨_, _, _, _, _, _, h⟩, -⟩ := d.raise_recorded e k i c det hi; rw [h]

@[simp] theorem Dev.clusters_raise (d : Dev) (e : Ev) (k : Kind) (i : Nat) (c : Option Nat) (det hi : Nat) :
    (d.raise e k i c det hi).clusters = d.clusters := by
  obtain ⟨⟨_, _, _, _, _, _, h⟩, -⟩ := d.raise_recorded e k i c det hi; rw [h]

@[simp] theorem Dev.flues_raise (d : Dev) (e : Ev) (k : Kind) (i : Nat) (c : Option Nat) (det hi : Nat) :
    (d.raise e k i c det hi).flues = d.flues := by
  obtain ⟨⟨_, _, _, _, _, _, h⟩, -⟩ := d.raise_recorded e k i c det hi; rw [h]

@[simp] theorem Dev.hbm_raise (d : Dev) (e : Ev) (k : Kind) (i : Nat) (c : Option Nat) (det hi : Nat) :
    (d.raise e k i c det hi).hbm = d.hbm := by
  obtain ⟨⟨_, _, _, _, _, _, h⟩, -⟩ := d.raise_recorded e k i c det hi; rw [h]

@[simp] theorem Dev.slow_raise (d : Dev) (e : Ev) (k : Kind) (i : Nat) (c : Option Nat) (det hi : Nat) :
    (d.raise e k i c det hi).slow = d.slow := by
  obtain ⟨⟨_, _, _, _, _, _, h⟩, -⟩ := d.raise_recorded e k i c det hi; rw [h]

@[simp] theorem Dev.stks_raise (d : Dev) (e : Ev) (k : Kind) (i : Nat) (c : Option Nat) (det hi : Nat) :
    (d.raise e k i c det hi).stks = d.stks := by
  obtain ⟨⟨_, _, _, _, _, _, h⟩, -⟩ := d.raise_recorded e k i c det hi; rw [h]

@[simp] theorem Dev.stokers_raise (d : Dev) (e : Ev) (k : Kind) (i : Nat) (c : Option Nat) (det hi : Nat) :
    (d.raise e k i c det hi).stokers = d.stokers := by
  obtain ⟨⟨_, _, _, _, _, _, h⟩, -⟩ := d.raise_recorded e k i c det hi; rw [h]

@[simp] theorem Dev.ports_raise (d : Dev) (e : Ev) (k : Kind) (i : Nat) (c : Option Nat) (det hi : Nat) :
    (d.raise e k i c det hi).ports = d.ports := by
  obtain ⟨⟨_, _, _, _, _, _, h⟩, -⟩ := d.raise_recorded e k i c det hi; rw [h]

@[simp] theorem Dev.reply_raise (d : Dev) (e : Ev) (k : Kind) (i : Nat) (c : Option Nat) (det hi : Nat) :
    (d.raise e k i c det hi).reply = d.reply := by
  obtain ⟨⟨_, _, _, _, _, _, h⟩, -⟩ := d.raise_recorded e k i c det hi; rw [h]

@[simp] theorem Dev.ctxs_raise (d : Dev) (e : Ev) (k : Kind) (i : Nat) (c : Option Nat) (det hi : Nat) :
    (d.raise e k i c det hi).ctxs = d.ctxs := by
  obtain ⟨⟨_, _, _, _, _, _, h⟩, -⟩ := d.raise_recorded e k i c det hi; rw [h]

@[simp] theorem Dev.schedPtr_raise (d : Dev) (e : Ev) (k : Kind) (i : Nat) (c : Option Nat) (det hi : Nat) :
    (d.raise e k i c det hi).schedPtr = d.schedPtr := by
  obtain ⟨⟨_, _, _, _, _, _, h⟩, -⟩ := d.raise_recorded e k i c det hi; rw [h]

@[simp] theorem Dev.attrib_raise (d : Dev) (e : Ev) (k : Kind) (i : Nat) (c : Option Nat) (det hi : Nat) :
    (d.raise e k i c det hi).attrib = d.attrib := by
  obtain ⟨⟨_, _, _, _, _, _, h⟩, -⟩ := d.raise_recorded e k i c det hi; rw [h]

@[simp] theorem Dev.power_raise (d : Dev) (e : Ev) (k : Kind) (i : Nat) (c : Option Nat) (det hi : Nat) :
    (d.raise e k i c det hi).power = d.power := by
  obtain ⟨⟨_, _, _, _, _, _, h⟩, -⟩ := d.raise_recorded e k i c det hi; rw [h]

@[simp] theorem Dev.resets_raise (d : Dev) (e : Ev) (k : Kind) (i : Nat) (c : Option Nat) (det hi : Nat) :
    (d.raise e k i c det hi).resets = d.resets := by
  obtain ⟨⟨_, _, _, _, _, _, h⟩, -⟩ := d.raise_recorded e k i c det hi; rw [h]

@[simp] theorem Dev.store_raise (d : Dev) (e : Ev) (k : Kind) (i : Nat) (c : Option Nat) (det hi : Nat) :
    (d.raise e k i c det hi).store = d.store := by
  obtain ⟨⟨_, _, _, _, _, _, h⟩, -⟩ := d.raise_recorded e k i c det hi; rw [h]

@[simp] theorem Dev.bundles_raise (d : Dev) (e : Ev) (k : Kind) (i : Nat) (c : Option Nat) (det hi : Nat) :
    (d.raise e k i c det hi).bundles = d.bundles := by
  obtain ⟨⟨_, _, _, _, _, _, h⟩, -⟩ := d.raise_recorded e k i c det hi; rw [h]

@[simp] theorem Dev.testSeen_raise (d : Dev) (e : Ev) (k : Kind) (i : Nat) (c : Option Nat) (det hi : Nat) :
    (d.raise e k i c det hi).testSeen = d.testSeen := by
  obtain ⟨⟨_, _, _, _, _, _, h⟩, -⟩ := d.raise_recorded e k i c det hi; rw [h]

@[simp] theorem Dev.saveOd_raise (d : Dev) (e : Ev) (k : Kind) (i : Nat) (c : Option Nat) (det hi : Nat) :
    (d.raise e k i c det hi).saveOd = d.saveOd := by
  obtain ⟨⟨_, _, _, _, _, _, h⟩, -⟩ := d.raise_recorded e k i c det hi; rw [h]

@[simp] theorem Dev.saveDom_raise (d : Dev) (e : Ev) (k : Kind) (i : Nat) (c : Option Nat) (det hi : Nat) :
    (d.raise e k i c det hi).saveDom = d.saveDom := by
  obtain ⟨⟨_, _, _, _, _, _, h⟩, -⟩ := d.raise_recorded e k i c det hi; rw [h]

@[simp] theorem Dev.coarse_raise (d : Dev) (e : Ev) (k : Kind) (i : Nat) (c : Option Nat) (det hi : Nat) :
    (d.raise e k i c det hi).coarse = d.coarse := by
  obtain ⟨⟨_, _, _, _, _, _, h⟩, -⟩ := d.raise_recorded e k i c det hi; rw [h]

@[simp] theorem Dev.fwPending_raise (d : Dev) (e : Ev) (k : Kind) (i : Nat) (c : Option Nat) (det hi : Nat) :
    (d.raise e k i c det hi).fwPending = d.fwPending := by
  obtain ⟨⟨_, _, _, _, _, _, h⟩, -⟩ := d.raise_recorded e k i c det hi; rw [h]

@[simp] theorem Dev.quotes_raise (d : Dev) (e : Ev) (k : Kind) (i : Nat) (c : Option Nat) (det hi : Nat) :
    (d.raise e k i c det hi).quotes = d.quotes := by
  obtain ⟨⟨_, _, _, _, _, _, h⟩, -⟩ := d.raise_recorded e k i c det hi; rw [h]

@[simp] theorem Dev.edge_raise (d : Dev) (e : Ev) (k : Kind) (i : Nat) (c : Option Nat) (det hi : Nat) :
    (d.raise e k i c det hi).edge = d.edge := by
  obtain ⟨⟨_, _, _, _, _, _, h⟩, -⟩ := d.raise_recorded e k i c det hi; rw [h]

@[simp] theorem Dev.arb_raise (d : Dev) (e : Ev) (k : Kind) (i : Nat) (c : Option Nat) (det hi : Nat) :
    (d.raise e k i c det hi).arb = d.arb := by
  obtain ⟨⟨_, _, _, _, _, _, h⟩, -⟩ := d.raise_recorded e k i c det hi; rw [h]

@[simp] theorem Dev.crc_raise (d : Dev) (e : Ev) (k : Kind) (i : Nat) (c : Option Nat) (det hi : Nat) :
    (d.raise e k i c det hi).crc = d.crc := by
  obtain ⟨⟨_, _, _, _, _, _, h⟩, -⟩ := d.raise_recorded e k i c det hi; rw [h]

@[simp] theorem Dev.paths_raise (d : Dev) (e : Ev) (k : Kind) (i : Nat) (c : Option Nat) (det hi : Nat) :
    (d.raise e k i c det hi).paths = d.paths := by
  obtain ⟨⟨_, _, _, _, _, _, h⟩, -⟩ := d.raise_recorded e k i c det hi; rw [h]

@[simp] theorem Dev.trained_raise (d : Dev) (e : Ev) (k : Kind) (i : Nat) (c : Option Nat) (det hi : Nat) :
    (d.raise e k i c det hi).trained = d.trained := by
  obtain ⟨⟨_, _, _, _, _, _, h⟩, -⟩ := d.raise_recorded e k i c det hi; rw [h]

@[simp] theorem Dev.worked_raise (d : Dev) (e : Ev) (k : Kind) (i : Nat) (c : Option Nat) (det hi : Nat) :
    (d.raise e k i c det hi).worked = d.worked := by
  obtain ⟨⟨_, _, _, _, _, _, h⟩, -⟩ := d.raise_recorded e k i c det hi; rw [h]

@[simp] theorem Dev.clockHeld_raise (d : Dev) (e : Ev) (k : Kind) (i : Nat) (c : Option Nat) (det hi : Nat) :
    (d.raise e k i c det hi).clockHeld = d.clockHeld := by
  obtain ⟨⟨_, _, _, _, _, _, h⟩, -⟩ := d.raise_recorded e k i c det hi; rw [h]

@[simp] theorem Dev.free_raise (d : Dev) (e : Ev) (k : Kind) (i : Nat) (c : Option Nat) (det hi : Nat) :
    (d.raise e k i c det hi).free = d.free := by
  obtain ⟨⟨_, _, _, _, _, _, h⟩, -⟩ := d.raise_recorded e k i c det hi; rw [h]

@[simp] theorem Dev.hearth_raise (d : Dev) (e : Ev) (k : Kind) (i : Nat) (c : Option Nat) (det hi h : Nat) :
    (d.raise e k i c det hi).hearth h = d.hearth h := by simp [Dev.hearth]

@[simp] theorem Dev.cluster_raise (d : Dev) (e : Ev) (k : Kind) (i : Nat) (c : Option Nat) (det hi h : Nat) :
    (d.raise e k i c det hi).cluster h = d.cluster h := by simp [Dev.cluster]

@[simp] theorem Dev.flue_raise (d : Dev) (e : Ev) (k : Kind) (i : Nat) (c : Option Nat) (det hi h : Nat) :
    (d.raise e k i c det hi).flue h = d.flue h := by simp [Dev.flue]

@[simp] theorem Dev.stack_raise (d : Dev) (e : Ev) (k : Kind) (i : Nat) (c : Option Nat) (det hi h : Nat) :
    (d.raise e k i c det hi).stack h = d.stack h := by simp [Dev.stack]

@[simp] theorem Dev.stoker_raise (d : Dev) (e : Ev) (k : Kind) (i : Nat) (c : Option Nat) (det hi h : Nat) :
    (d.raise e k i c det hi).stoker h = d.stoker h := by simp [Dev.stoker]

@[simp] theorem Dev.port_raise (d : Dev) (e : Ev) (k : Kind) (i : Nat) (c : Option Nat) (det hi h : Nat) :
    (d.raise e k i c det hi).port h = d.port h := by simp [Dev.port]

@[simp] theorem Dev.ctx_raise (d : Dev) (e : Ev) (k : Kind) (i : Nat) (c : Option Nat) (det hi h : Nat) :
    (d.raise e k i c det hi).ctx h = d.ctx h := by simp [Dev.ctx]

/-- An object that is none of the four that events change reads as before. -/
theorem Dev.get_raise (d : Dev) (e : Ev) (k : Kind) (i : Nat) (c : Option Nat) (det hi : Nat) {o : ObjDef} {i' e' : Nat}
    (hk : o.key i' e' ∉ eventKeys) : (d.raise e k i c det hi).get o i' e' = d.get o i' e' := (d.raise_recorded ..).get hk

end Sys2Proof.Machine
end

