-- ==== Sys2Proof/Safety.lean ====
section
/-! DEFINITION. What counts as a safe state, and the terms the statements use: what a command leaves as it was, and when a served
access, a window entry or a frame is acted on. -/

namespace Sys2Proof.Machine

/-- What must hold in every state for the spec's own rules to make sense of what a module keeps: the class is that of the code sampled (R1, R2), the
defect list has at most its 4,096 records (R404), LAST_SHUTDOWN and the slots' states are codes the spec lists (R424, R459), and the
firmware slots' bytes are a table in canonical form. -/
def State.Sound (s : State) : Prop :=
  s.vault.strapCode ≤ 3 ∧ s.vault.coolingClass = classOf s.vault.strapCode ∧ s.vault.defects.length ≤ 4096 ∧ s.vault.lastShutdown ≤ 5 ∧
  (∀ k, tget 0 s.vault.slotState k ≤ 4) ∧ twf 0 s.vault.slotBytes = true

/-- A scratchpad's bytes and ash bits stand in canonical form. -/
def Hearth.memWf (x : Hearth) : Bool := twf 0 x.scr && twf false x.ash

/-- The canonical form of the block's memories: HBM, the slow tiers, the values of objects, and every hearth's scratchpad. -/
def Dev.memWf (d : Dev) : Bool :=
  twf Sector.ashSector d.hbm && twf SlowLine.fresh d.slow && twf 0 d.od && twf 0 d.dom && d.hearths.all fun e => Hearth.memWf e.2

/-- Nothing waits: the block idles (log entry 1). -/
def State.Idle (s : State) : Prop := s.pending = []

/-- The Pilot firmware runs and the memory-mapped path's queue has room, so that accesses to objects are served (R365, R395). -/
def Dev.Serves (d : Dev) : Prop := 2 ≤ d.get Obj.BOOT_STATE ∧ d.pathFull 2 = false

/-- The management core answers what it serves itself: it runs and is not restarting (R372, R395). -/
def Dev.PilotServes (d : Dev) : Prop := d.Serves ∧ d.pilot.restarting = false

/-- A write by a command of its own to element `e` of object `o` of instance `i` in region `g` is not held: the region's clock runs, or waiting
for it is not asked, and no request for the same object waits (R359, R365). -/
def Dev.RegionServes (d : Dev) (g : Nat) (o : ObjDef) (i e : Nat) : Prop :=
  d.Serves ∧ d.mustWait [g] (.object .host (o.key i e / 256) (o.key i e % 256) 0) = false

/-- The same of an object of hearth `h`, which is not absent (R354). -/
def Dev.HearthServes (d : Dev) (h : Nat) (o : ObjDef) (e : Nat) : Prop := d.RegionServes (h / 64) o h e ∧ d.hearthAbsent h = false

/-- No access, frame or host access waits to be served at the tick's end (R292, R308, R365). -/
def Dev.NothingWaits (d : Dev) : Prop :=
  (∀ n < 3, tget [] d.paths n = []) ∧ (∀ p < 16, (d.port p).rx = []) ∧ d.host.waits = []

/-- Nothing waits at the boundary of region `g` (R25, R374). -/
def Dev.NoneAtBoundary (d : Dev) (g : Nat) : Prop :=
  tget [] d.edge g = [] ∧ (d.stack (2 * g)).boundary = [] ∧ (d.stack (2 * g + 1)).boundary = []

/-- Every stored object value whose key is not in `ks` is the same in both. -/
def Dev.SameObjects (d d' : Dev) (ks : List Nat) : Prop := ∀ k, k ∉ ks → tget 0 d'.od k = tget 0 d.od k

/-- `t` is `s` but for values of objects, those whose keys are in `ks`, and the reply. -/
def State.OnlyObjects (s t : State) (ks : List Nat) : Prop :=
  t = { s with dev := { s.dev with od := t.dev.od, reply := t.dev.reply } } ∧ s.dev.SameObjects t.dev ks

/-- `t` is `s` but for values of objects, those whose keys are in `ks` and PERSIST_STATE, and the reply: an object that a save keeps has been
written, and PERSIST_STATE is DIRTY, unless a save runs or waits (R350). -/
def State.Persists (s t : State) (ks : List Nat) : Prop :=
  t = { s with dev := { s.dev with od := t.dev.od, store := { s.dev.store with touched := true }, reply := t.dev.reply } } ∧
  s.dev.SameObjects t.dev (Obj.PERSIST_STATE.key 0 0 :: ks) ∧
  t.dev.get Obj.PERSIST_STATE =
    if s.dev.get Obj.PERSIST_STATE = 2 ∨ s.dev.get Obj.PERSIST_STATE = 3 then s.dev.get Obj.PERSIST_STATE else 1

/-- Keys of every element of an object of instance `i`. -/
def ObjDef.keys (o : ObjDef) (i : Nat) : List Nat := (List.range o.n).map (o.key i)

/-- Keys of every element of the objects that stand at index `base` of instance 0, subindices `lo` to `hi`, for instance `i`. -/
def blockKeys (base lo hi i : Nat) : List Nat :=
  (objTable.filter fun o => decide (o.base = base) && decide (lo ≤ o.lo) && decide (o.lo ≤ hi)).flatMap fun o => o.keys i

/-- The objects at index `base` of instance 0, subindices `lo` to `hi`, read 0 for instance `i`; nothing else has changed but the objects in `ks`
and the reply, which is OK. -/
def State.Cleared (s t : State) (base lo hi i : Nat) (ks : List Nat) : Prop :=
  (∀ o ∈ objTable, o.base = base → lo ≤ o.lo → o.lo ≤ hi → ∀ e < o.n, t.dev.get o i e = 0) ∧
  t.dev.reply = ⟨0, 0, []⟩ ∧ s.OnlyObjects t (blockKeys base lo hi i ++ ks)

/-- The key of CLOCK_STATE of a hearth's region, which an access to the hearth may set (R365). -/
def clockKey (h : Nat) : Nat := Obj.CLOCK_STATE.key (h / 64) 0

/-- What CTX_STATE of slot `c` has to show (R315): RUNNING, DISABLED, HALTED, WAITING or IDLE. -/
def Dev.ctxShown (d : Dev) (c : Nat) : Nat :=
  if (d.ctx c).run.isSome then 3
  else if d.get Obj.CTX_ENABLE c = 0 then 0
  else if (d.ctx c).halted then 4
  else if d.get Obj.PENDING_STEPS c = 0 then 1 else 2

/-- `t` is `s` but for objects in `ks`, context slot `c`, and the reply. -/
def State.OnlyCtx (s t : State) (c : Nat) (ks : List Nat) : Prop :=
  t = { s with dev := { s.dev with od := t.dev.od, ctxs := t.dev.ctxs, reply := t.dev.reply } } ∧
  s.dev.SameObjects t.dev ks ∧ ∀ k, k ≠ c → t.dev.ctx k = s.dev.ctx k

/-- Neither the memories outside the hearths, nor what survives a reset, nor the commands waiting have changed. -/
def State.KeepsMemory (s t : State) : Prop :=
  t.dev.hbm = s.dev.hbm ∧ t.dev.slow = s.dev.slow ∧ t.vault = s.vault ∧ t.pending = s.pending

/-- `t` is `s` but for what a hearth holds, objects in `ks`, and what recording events changes. -/
def State.OnlyHearth (s t : State) (h : Nat) (ks : List Nat) : Prop :=
  s.KeepsMemory t ∧ (∀ k, k ≠ h → t.dev.hearth k = s.dev.hearth k) ∧
  s.dev.SameObjects t.dev ([Obj.EVENT_NEXT_SEQ.key 0 0, Obj.EVENT_OLDEST_SEQ.key 0 0, Obj.EVENTS_OVERWRITTEN.key 0 0,
    Obj.FRAMES_UNROUTABLE.key 0 0] ++ ks) ∧
  t.dev.flues = s.dev.flues ∧ t.dev.stks = s.dev.stks ∧ t.dev.stokers = s.dev.stokers ∧ t.dev.ports = s.dev.ports ∧ t.dev.ctxs = s.dev.ctxs

/-- A part of a step that owes no exchange and holds its slot and the values a hearth has latched (R324). -/
def StepRun.latched (r : StepRun) (d : Dev) (h c : Nat) : Prop :=
  r.ctx = c ∧ r.budget = d.get Obj.REPLAY_BUDGET h ∧ r.stallLimit = d.get Obj.STALL_LIMIT h ∧
  r.causeLo = d.get Obj.CAUSE_MAP_LO h ∧ r.causeHi = d.get Obj.CAUSE_MAP_HI h ∧
  (r.empty = decide (d.get Obj.TABLE_ENTRIES h = 0)) ∧ r.needExchange = false

/-- The scan of R106 on hearth `h` picks entry `e`, of kind `k`, and nothing makes it illegal at firing (R132, R142). -/
def Dev.Fires (d : Dev) (h : Nat) (k : EKind) (e : WEntry) : Prop :=
  d.mayFire h = true ∧ (d.scanFrom h (d.hearth h).window false false).1 = some e ∧ e.kind = k ∧
  (k = .stream → (d.descriptor h (StreamBody.ofWord e.raw).desc).illegal = false) ∧ d.touchesOther h ((d.hearthCtx h).getD 0) e = false

/-- The fill stage of the hearth's step has not been stopped by an illegal entry. -/
def Dev.FillGoes (d : Dev) (h : Nat) : Prop := ∃ r, (d.hearth h).run = some r ∧ r.stopped = false ∧ r.aborting = false

/-- A request of `who` to flue `f` wins against the rivals of its cycle (R162, R335). -/
def Dev.WinsFlue (d : Dev) (f : Nat) (who : Nat) (rivals : List (Fin 1046)) : Prop :=
  rotPick requesters (tget 0 d.arb (arbFlue f)) (who :: rivals.map Fin.val) = some who

/-- A request for a stack wins its cycle against its rivals, and none waits at the region boundary before it (R179, R180, R335). -/
def Dev.WinsStack (d : Dev) (st : Nat) (u : Turn) : Prop :=
  rotPick requesters (tget 0 d.arb (arbStack st)) (u.who.val :: u.rivals.map Fin.val) = some u.who.val ∧ (d.stack st).boundary = []

/-- A request for a stack loses its cycle to a rival. -/
def Dev.LosesStack (d : Dev) (st : Nat) (u : Turn) : Prop :=
  ∃ w, rotPick requesters (tget 0 d.arb (arbStack st)) (u.who.val :: u.rivals.map Fin.val) = some w ∧ w ≠ u.who.val

/-- `t` is `s` but for the pointer that a grant moves and the reply. -/
def State.OnlyGrant (s t : State) : Prop :=
  t = { s with dev := { s.dev with arb := t.dev.arb, stks := t.dev.stks, reply := t.dev.reply } } ∧ ∀ k, t.dev.stack k = s.dev.stack k

/-- Request `w` waits at the region boundary behind those that wait there, and nothing has been stored or answered (R25, R179). -/
def State.AtBoundary (s t : State) (st : Nat) (w : HbmWait) : Prop :=
  t.dev.stack st = { s.dev.stack st with boundary := (s.dev.stack st).boundary ++ [w] } ∧ (∀ k, k ≠ st → t.dev.stack k = s.dev.stack k) ∧
  t = { s with dev := { s.dev with od := t.dev.od, stks := t.dev.stks, arb := t.dev.arb } } ∧
  s.dev.SameObjects t.dev [Obj.CLOCK_STATE.key (st / 2) 0]

/-- Request `w` waits among those that hold the stack's tags, and nothing has been stored or answered (R179, R186). -/
def State.HoldsTag (s t : State) (st : Nat) (w : HbmWait) : Prop :=
  t.dev.stack st = { s.dev.stack st with waiting := (s.dev.stack st).waiting ++ [w] } ∧ (∀ k, k ≠ st → t.dev.stack k = s.dev.stack k) ∧
  t = { s with dev := { s.dev with stks := t.dev.stks, arb := t.dev.arb } }

/-- A committed counter after a signed amount (R100): never below zero, wrapping at 2^32. -/
def countBy (v : Nat) (a : Int) : Nat := if (v : Int) + a < 0 then 0 else ((v : Int) + a).toNat % 2 ^ 32

/-- A counter after an entry's signal (R85, R111). -/
def Header.signalled (hd : Header) (k v : Nat) : Nat :=
  if hd.sigEn = true ∧ k = hd.sigCtr then (v + hd.sigAmt + 1) % 2 ^ 32 else v

/-- No block-maximum window of the stack is armed (R212). -/
def Dev.NoWindow (d : Dev) (st : Nat) : Prop := ∀ w < 8, tget none (d.stack st).bmax w = none

/-- Every sector but `sec` of stack `st` is stored as it was. -/
def Dev.OnlySector (d d' : Dev) (st sec : Nat) : Prop :=
  ∀ k, k ≠ hbmKey st sec → tget Sector.ashSector d'.hbm k = tget Sector.ashSector d.hbm k

/-- Nothing outside the stacks has changed but values of objects and what recording events changes; other stacks are as they were. -/
def State.OnlyStack (s t : State) (st : Nat) : Prop :=
  (∀ k, k ≠ st → t.dev.stack k = s.dev.stack k) ∧ t.dev.slow = s.dev.slow ∧ t.dev.hearths = s.dev.hearths ∧ t.dev.flues = s.dev.flues ∧
  t.dev.stokers = s.dev.stokers ∧ t.dev.ports = s.dev.ports ∧ t.dev.ctxs = s.dev.ctxs ∧ t.vault = s.vault ∧ t.pending = s.pending

/-- A counter object has gone up by `n`, cut to its size (R341). -/
def State.Counted (s t : State) (o : ObjDef) (i n : Nat) : Prop := t.dev.get o i = (s.dev.get o i + n) % 2 ^ o.bitsOf

/-- Every sector of stack `k` is stored as it was, for every stack but `st`. -/
def State.OtherStacksStored (s t : State) (st : Nat) : Prop := ∀ k sec, k ≠ st → t.dev.sector k sec = s.dev.sector k sec

/-- No sector waits for the partial buffer of the stack (R206). -/
def Dev.NoneWaits (d : Dev) (st : Nat) : Prop := ∀ q ∈ (d.stack st).waiting, q.win = none

/-- The stack takes doorbells: it is neither OFF, INITIALISING nor in HOLD, and its queue has room (R215). -/
def Dev.TakesBells (d : Dev) (st : Nat) : Prop :=
  d.get Obj.STACK_STATE st ≠ 0 ∧ d.get Obj.STACK_STATE st ≠ 1 ∧ d.get Obj.STACK_STATE st ≠ 4 ∧ (d.stack st).doorbells.length < 16

/-- A doorbell word as an operation's command writes it. -/
def bellWord (op v : Nat) : Nat := setBits (v % 2 ^ 64) 63 60 op

/-- Hearths, clusters, flues, ports, context slots, what survives a reset and the commands waiting are as they were. -/
def State.KeepsUnits (s t : State) : Prop :=
  t.dev.hearths = s.dev.hearths ∧ t.dev.clusters = s.dev.clusters ∧ t.dev.flues = s.dev.flues ∧ t.dev.ports = s.dev.ports ∧
  t.dev.ctxs = s.dev.ctxs ∧ t.vault = s.vault ∧ t.pending = s.pending

/-- Every sector under these bytes of data space is served by its base die. -/
def Dev.RangeServed (d : Dev) (pa n : Nat) : Prop :=
  ∀ l < (pa + n + 63) / 64, pa / 64 ≤ l → d.gate (d.decodePA (64 * l)).1 (d.decodePA (64 * l)).2 = .serve

/-- Gradient, high halves and headers of a group are served, and no block-maximum window is armed. -/
def Dev.GroupServed (d : Dev) (g : Nat) : Prop :=
  (∀ r ∈ (d.gcfg g).hbmRanges, d.RangeServed r.1 r.2) ∧ ∀ st < 32, d.NoWindow st

/-- Byte of data space with the mark of its sector. -/
def Dev.paByte (d : Dev) (pa : Nat) : Byte × Bool :=
  let v := d.peek (d.decodePA (pa / 64 * 64)).1 (d.decodePA (pa / 64 * 64)).2
  (v.bytes.getD (pa % 64) 0, v.ash)

/-- The square of scaled gradient element `i` of a group, +0 where the element is ash or not finite (R253). -/
def Dev.gradSquare (d : Dev) (g i : Nat) : Nat :=
  let c := d.gcfg g
  let bs := (List.range c.gb).map fun j => d.paByte (c.grad + c.gb * i + j)
  let e := widen (c.gb = 2) (leNat (bs.map (·.1)))
  let x := fmul (d.get Obj.GRAD_SCALE g) e
  if bs.any (·.2) || !isFin e then 0 else fmul x x

/-- The sum of a NORM (R253): each chunk of 4,096 squares in a pairwise tree, the chunks added in order. -/
def Dev.gradNorm (d : Dev) (g : Nat) : Nat :=
  let n := (d.gcfg g).n
  (List.range ((n + 4095) / 4096)).foldl (fun s k =>
    fadd s ((pairSum 12 ((List.range 4096).map fun j => if 4096 * k + j < n then d.gradSquare g (4096 * k + j) else 0)).headD 0)) 0

/-- No sector under these bytes is corrected or uncorrectable, so that reading them stores and logs nothing. -/
def Dev.RangeClean (d : Dev) (pa n : Nat) : Prop :=
  ∀ l < (pa + n + 63) / 64, pa / 64 ≤ l →
    match d.verdict (d.decodePA (64 * l)).1 (d.decodePA (64 * l)).2 with
    | .clean _ | .ash false => True
    | _ => False

/-- A doorbell word of a Stoker names groups of that Stoker alone (R249). -/
def bellOf (t w : Nat) : Prop := bits w 59 48 / 2048 = t ∧ (bits w 59 48 + bits w 47 36) / 2048 = t

/-- `t` is `s` but for Stokers, values of objects in `ks`, and the reply. -/
def State.OnlyStoker (s t : State) (i : Nat) (ks : List Nat) : Prop :=
  t = { s with dev := { s.dev with od := t.dev.od, stokers := t.dev.stokers, reply := t.dev.reply } } ∧
  s.dev.SameObjects t.dev ks ∧ ∀ k, k ≠ i → t.dev.stoker k = s.dev.stoker k

/-- A slow-tier request of hearth `h` wins its cycle at the Stoker's arbiter (R241, R335). -/
def Dev.WinsSlow (d : Dev) (t h : Nat) (rivals : List (Fin 3)) : Prop :=
  rotPick 3 (tget 0 d.arb (arbStoker t)) (slowPort h :: rivals.map Fin.val) = some (slowPort h)

/-- Slow-tier request `w` waits behind those that wait, and nothing has been stored or answered (R239). -/
def State.SlowWaits (s t : State) (k : Nat) (w : SlowWait) : Prop :=
  t.dev.stoker k = { s.dev.stoker k with waiting := (s.dev.stoker k).waiting ++ [w] } ∧ (∀ j, j ≠ k → t.dev.stoker j = s.dev.stoker j) ∧
  t = { s with dev := { s.dev with stokers := t.dev.stokers, arb := t.dev.arb } }

/-- Port `p` takes frame `f` from its link (R278, R279, R297): it is up, it holds the receiving key of the frame's slot, the frame has the
LINK_SEQ that is due, and the receive buffer of its VL has room. -/
def Dev.Takes (d : Dev) (p : Nat) (f : Frame) : Prop :=
  d.portUp p = true ∧ (∃ k, tget none (d.port p).keySlots f.keyIdx.val = some k ∧ k.rx.isSome = true) ∧
  f.linkSeq = (d.port p).dueSeq f.keyIdx.val ∧ (d.port p).held f.vl.val + Frame.cost f ≤ vlCredits f.vl.val

/-- Port `p` takes frame `f`, and no frame of its VL waits in the receive buffer before it (R292). -/
def Dev.Delivers (d : Dev) (p : Nat) (f : Frame) : Prop := d.Takes p f ∧ ((d.port p).rx.any fun r => r.frame.vl = f.vl) = false

/-- Port `p` takes a frame of type `ty` on its own VL, and it is for this device. -/
def Dev.FrameFor (d : Dev) (p ty : Nat) (f : Frame) : Prop :=
  d.Delivers p f ∧ Frame.laneOk (frameOf ty f) = true ∧ d.ownId = some f.dstId

/-- An answer to device `dst` on a VL goes to port `q`, which is not DISABLED. -/
def Dev.AnswersVia (d : Dev) (dst vl q : Nat) : Prop := d.route dst vl = .port q ∧ d.get Obj.PORT_STATE q ≠ 0

/-- Frame `r` has been taken at port `p` and waits in its receive buffer: nothing has been stored or answered (R278, R292). -/
def State.FrameWaits (s t : State) (p : Nat) (r : RxFrame) : Prop :=
  (t.dev.port p).rx = (s.dev.port p).rx ++ [r] ∧ (∀ k, k ≠ p → t.dev.port k = s.dev.port k) ∧
  t.dev.get Obj.FRAMES_RX p = (s.dev.get Obj.FRAMES_RX p + 1) % 2 ^ Obj.FRAMES_RX.bitsOf ∧ t.dev.net = s.dev.net ∧
  t.dev.hearths = s.dev.hearths ∧ t.dev.flues = s.dev.flues ∧ s.KeepsMemory t

/-- No device is told of this device's events (R369). -/
def Dev.NoSubscriber (d : Dev) : Prop := bit (d.get Obj.EVENT_SUBSCRIBER) 31 = false

/-- The one frame queued is an answer to `f` of type `ty` with a status; it goes to port `q`. -/
def State.Answered (s t : State) (f : Frame) (ty status q : Nat) (bytes : List Byte) (ash : List Bool) : Prop :=
  ∃ a : Frame, t.dev.net.queue = s.dev.net.queue ++ [(q, a)] ∧ a.ftype.val = ty ∧ a.dstId = f.srcId ∧ a.srcId = s.dev.selfId ∧
    a.addr = f.addr ∧ a.linesM1 = f.linesM1 ∧ a.xferTag = f.xferTag ∧ a.srcCtx = f.srcCtx ∧ a.attr.val = status ∧ a.payload = bytes ∧
    a.ash = ash

/-- Keys of what shows a port's state and lanes. -/
def laneKeys (p : Nat) : List Nat :=
  [Obj.PORT_STATE.key p 0, Obj.TX_LANES.key p 0, Obj.RX_LANES.key p 0, Obj.LANES_DOWN.key p 0] ++ Obj.LANE_STATE.keys p

/-- Other ports are as they were. -/
def State.OnlyPort (s t : State) (p : Nat) : Prop := ∀ k, k ≠ p → t.dev.port k = s.dev.port k

/-- An access on `path` by index and subindex finds element `e` of object `o` of instance `i`, and what serves it is there (R352, R365, R372,
R395). -/
def Dev.Reaches (d : Dev) (path : Path) (index sub : Nat) (o : ObjDef) (i e : Nat) : Prop :=
  d.serves path = true ∧ d.target index sub = .elem o i e ∧ d.pilotAway path index = false

/-- An accepted write by number has not to wait: the clocks it needs run, and no request of its requester for the same object waits
(R359, R365). -/
def Dev.WritesNow (d : Dev) (path : Path) (index sub : Nat) : Prop :=
  d.mustWait (d.needs index sub true) (.object path index sub 0) = false

/-- Carrier `c` brings a command of operation `op` on `path`, with header `hdr` and data `bs`, and it is taken: a message for this endpoint, or an
OD_REQ frame for this device from one that it has a route to (R363, R364). -/
def State.Brings (s : State) (op : Nat) (c : Carrier) (path : Path) (hdr : Nat) (bs : List Byte) : Prop :=
  hdr = Carrier.header c ∧ bs = Carrier.data c ∧ (knownOp hdr = true → bits hdr 255 248 = op) ∧
  match c with
  | .mctp msg => path = .i3c ∧ s.dev.takesMessage msg = true
  | .frame p f => path = .fabric p f.srcId ∧ s.dev.Takes p.val (frameOf 8 f) ∧ Frame.laneOk (frameOf 8 f) = true ∧
      s.dev.ownId = some f.dstId ∧ ∃ q, s.dev.AnswersVia f.srcId 2 q

/-- The command is accepted before its object is looked at: it is well formed, and what serves it is there (R357, R365, R372, R395). -/
def State.Accepts (s : State) (c : Carrier) (path : Path) (index : Nat) : Prop :=
  malformed (Carrier.header c) (Carrier.fits c) = false ∧ s.dev.serves path = true ∧ s.dev.pilotAway path index = false

/-- An accepted command has not to wait for a clock, nor behind an earlier request for the same object (R359, R365). -/
def Dev.CmdNow (d : Dev) (path : Path) (hdr : Nat) (bs : List Byte) (write : Bool) : Prop :=
  d.mustWait (d.needs (bits hdr 239 220) (bits hdr 219 212) write) (.cmd path hdr bs) = false

/-- The response to a command: its status and bytes, under the request's header, on the path it came by (R356, R363, R364). -/
def State.Responds (s t : State) (path : Path) (hdr status value : Nat) (bs : List Byte) : Prop :=
  t.dev.reply = ⟨status, value, bs⟩ ∧
  (path = .i3c → t.dev.i3c.resp = 0x7F :: t.dev.penBytes ++ leBytes 32 (answerHeader hdr status bs.length) ++ bs) ∧
  ∀ p src q, path = .fabric p src → s.dev.AnswersVia src 2 q →
    ∃ a : Frame, t.dev.net.queue = s.dev.net.queue ++ [(q, a)] ∧ a.ftype.val = 9 ∧ a.vl.val = 2 ∧ a.dstId = src ∧ a.srcId = s.dev.selfId ∧
      a.payload.take (32 + bs.length) = leBytes 32 (answerHeader hdr status bs.length) ++ bs

/-- Keys of what counts a command's frame. -/
def cmdKeys : Path → List Nat
  | .fabric p _ => [Obj.FRAMES_RX.key p.val 0, Obj.PAYLOAD_BYTES_RX.key p.val 0]
  | _ => []

/-- `t` is `s` but for values of objects in `ks`, what a save keeps them for, and what takes the command and carries its response. -/
def State.OnlyResponse (s t : State) (path : Path) (ks : List Nat) : Prop :=
  t = { s with dev := { s.dev with od := t.dev.od, store := t.dev.store, ports := t.dev.ports, net := t.dev.net, attrib := t.dev.attrib,
                                   i3c := t.dev.i3c, reply := t.dev.reply } } ∧
  s.dev.SameObjects t.dev (cmdKeys path ++ ks)

/-- The command answers a status alone and changes nothing else. -/
def State.CmdRefused (s t : State) (path : Path) (hdr status : Nat) : Prop :=
  s.Responds t path hdr status 0 [] ∧ s.OnlyResponse t path [] ∧ t.dev.store = s.dev.store

/-- An accepted request has joined its path's queue, and the clocks it needs start: nothing is answered yet (R365). -/
def State.Queues (s t : State) (r : PathReq) : Prop :=
  tget [] t.dev.paths (pathNo r.path) = tget [] s.dev.paths (pathNo r.path) ++ [r] ∧ t.dev.reply = s.dev.reply ∧
  t.dev.hearths = s.dev.hearths ∧ t.dev.dom = s.dev.dom ∧ s.KeepsMemory t

/-- What storing `w` in an object leaves there: its reserved bits are zero, and a 1 clears a bit of an RW1C object (R8, R345). -/
def Dev.stored (d : Dev) (o : ObjDef) (i e w : Nat) : Nat :=
  (if o.right = .rw1c then d.get o i e - Nat.land (d.get o i e) w else Nat.land w o.wmask) % 2 ^ o.bitsOf

/-- A P object that has been written is DIRTY, another leaves the store as it was (R350). -/
def State.MarksDirty (s t : State) (o : ObjDef) : Prop :=
  (o.attrP = true → t.dev.store = { s.dev.store with touched := true } ∧
    (s.dev.get Obj.PERSIST_STATE ≠ 2 → s.dev.get Obj.PERSIST_STATE ≠ 3 → t.dev.get Obj.PERSIST_STATE = 1)) ∧
  (o.attrP = false → t.dev.store = s.dev.store)

/-- Objects whose write does more, or other, than store the value. -/
def ruledObjs : List ObjDef :=
  [Obj.DP_GO, Obj.PERSIST_SAVE, Obj.PERSIST_RESTORE_DEFAULTS, Obj.DESC_TARGET, Obj.FETCH_SEQ, Obj.FW_UPDATE_CTL, Obj.FW_CONFIRM,
   Obj.BUNDLE_LOAD, Obj.BUNDLE_RELEASE, Obj.WHOLE_RESET, Obj.HOB_DOORBELL, Obj.RETRAIN_REQUEST, Obj.STACK_POWER_CTL, Obj.CKPT_WIN,
   Obj.BMAX_WIN, Obj.PORT_CTL, Obj.STOKER_DOORBELL, Obj.STOKER_SR_SEED, Obj.GROUP_CTL, Obj.GROUP_STATUS, Obj.FLUE_CFG, Obj.FLUE_PEER,
   Obj.FLUE_DOORBELL, Obj.CLUSTER_RESET, Obj.REGION_PARTITION, Obj.OP_LIMIT, Obj.PHASE_OP, Obj.PHASE_DOORBELL, Obj.POWER_CAP_W,
   Obj.PARTITION_RESET, Obj.DEFECT_ADD, Obj.HEARTH_SR_SEED, Obj.HEARTH_RESET, Obj.SCALE_SLOT, Obj.REGION, Obj.STREAM_RESUME,
   Obj.WEIGHT_READ_MODE, Obj.CTX_ENABLE, Obj.STEP_DOORBELL, Obj.PRIORITY, Obj.TLB_INVALIDATE, Obj.ACCOUNTS_SNAPSHOT] ++ clearTable.map (·.1)

/-- Nothing but the reply has changed; the access answered a status alone. -/
def State.Refused (s t : State) (status : Nat) : Prop := t = { s with dev := { s.dev with reply := ⟨status, 0, []⟩ } }

/-- Bytes of a STRING or DOMAIN from `off` on are `bs`, and no other byte of any has changed. -/
def State.BlockWritten (s t : State) (o : ObjDef) (i e off : Nat) (bs : List Byte) : Prop :=
  (∀ k < bs.length, t.dev.domByte o (off + k) i e = bs.getD k 0) ∧
  ∀ a, a < o.domKey i e off ∨ o.domKey i e off + bs.length ≤ a → tget 0 t.dev.dom a = tget 0 s.dev.dom a

/-- A record for the defect list is queued, unless the unit is listed already or the list is full (R403, R404). -/
def State.DefectQueued (s t : State) (kind source index detail : Nat) : Prop :=
  (s.dev.isListed s.vault kind index = true → t.dev.store = s.dev.store) ∧
  (s.dev.isListed s.vault kind index = false →
    (4096 ≤ s.vault.defects.length + (s.dev.queuedDefects.filter fun r => !s.vault.defects.contains r).length →
      t.dev.store = s.dev.store ∧ bit (t.dev.get Obj.DEFECT_STATUS) 0 = true) ∧
    (s.vault.defects.length + (s.dev.queuedDefects.filter fun r => !s.vault.defects.contains r).length < 4096 → s.dev.mirrorUp 0 = true →
      t.dev.store = { s.dev.store with
        queue := s.dev.store.queue ++ [⟨.defect (defectRec kind source index detail (s.dev.get Obj.BOOT_COUNT)), 0, false⟩] }))

/-- Hearth `h` has been reset: it holds nothing but its scratchpad, and awaits its test and its firmware (R412 to R414). -/
def State.HearthReset (s t : State) (h : Nat) : Prop :=
  (t.dev.hearth h).window = [] ∧ (t.dev.hearth h).counters = [] ∧ (t.dev.hearth h).places = [] ∧ (t.dev.hearth h).slots = [] ∧
  (t.dev.hearth h).cstore = [] ∧ (t.dev.hearth h).run = none ∧ (t.dev.hearth h).lastCtx = none ∧
  (t.dev.hearth h).scr = (s.dev.hearth h).scr ∧ (t.dev.hearth h).ash = (s.dev.hearth h).ash ∧
  t.dev.get Obj.RESET_GENERATION h = (s.dev.get Obj.RESET_GENERATION h + 1) % 16 ∧
  (s.dev.hearthAbsent h = false → t.dev.get Obj.HEARTH_STATE h = hResetting ∧ t.dev.get Obj.FW_STATE h = 0 ∧
    t.dev.get Obj.RUNNING_CTX h = 0xFF ∧ t.dev.get Obj.TEST_RESULT h = 0)

/-- A region is about to run at `op` after a start of its clock: nothing waits at its boundary, and once it runs it moves on where its target stands
elsewhere (R375, R377). -/
def State.RunsAt (s t : State) (g op : Nat) : Prop :=
  t.dev.get Obj.REGION_OP g = op ∧
  (s.dev.regionTarget g = op → t.dev.get Obj.CLOCK_STATE g = 2 ∧ t.dev.power.dest = s.dev.power.dest ∧
    t.dev.get Obj.OP_MOVES g = s.dev.get Obj.OP_MOVES g) ∧
  (s.dev.regionTarget g ≠ op → t.dev.get Obj.CLOCK_STATE g = 3 ∧ tget 0 t.dev.power.dest g = s.dev.regionTarget g ∧ s.Counted t Obj.OP_MOVES g 1) ∧
  t = { s with dev := { s.dev with od := t.dev.od, power := t.dev.power, clockHeld := t.dev.clockHeld, edge := t.dev.edge, stks := t.dev.stks } } ∧
  (∀ k, t.dev.stack k = s.dev.stack k) ∧ (∀ k, tget [] t.dev.edge k = tget [] s.dev.edge k) ∧
  s.dev.SameObjects t.dev [Obj.CLOCK_STATE.key g 0, Obj.REGION_OP.key g 0, Obj.OP_MOVES.key g 0]

/-- The result the test of a physical hearth shows (R403): fused, failed, listed or good. -/
def Dev.testShown (d : Dev) (v : Vault) (failed : List (Nat × Nat)) (p : Nat) : Nat :=
  if v.fuseBad.contains p then 3 else if failed.any (fun e => decide (e.1 = p)) then 4 else if d.isListed v 1 p then 5 else 2

/-- Status of physical slot `p` of cluster `c` (R398). -/
def Dev.physOf (d : Dev) (c p : Nat) : Nat := bits (d.get Obj.PHYS_STATUS c) (3 * p + 2) (3 * p)

/-- What a whole-device reset with the 54 V input held keeps (R411, R412): memory but for the sectors that become ash. -/
def State.Restarted (s t : State) (last sel0 sel1 : Nat) : Prop :=
  t.dev.get Obj.BOOT_STATE = 1 ∧ t.dev.hearths = [] ∧ t.dev.ports = [] ∧ t.dev.stks = [] ∧ t.pending = s.pending ∧
  t.vault.lastShutdown = (if s.vault.reversed = true then 4 else if s.dev.power.tripped = true then 5 else last) ∧
  t.vault.reversed = false ∧ t.vault.coolingClass = classOf t.vault.strapCode ∧ t.vault.strapFaults = (s.vault.sample sel0 sel1).strapFaults ∧ t.vault.strapCode = (s.vault.sample sel0 sel1).strapCode ∧
  t.dev.get Obj.POWER_CAP_W = envelopeOf t.vault.coolingClass ∧ t.vault.defects = s.vault.defects ∧
  t.vault.persistOd = s.vault.persistOd ∧ t.vault.activeSlot = s.vault.activeSlot ∧
  (s.dev.power.tripped = true → t.dev.hbm = [] ∧ t.dev.slow = []) ∧
  (s.dev.power.tripped = false → t.dev.slow = s.dev.slow ∧
    ∀ st sec, sec < 2 ^ 30 → t.dev.sector st sec = if s.dev.ashAtReset st sec = true then Sector.ashSector else s.dev.sector st sec)

/-- Commands that access an object on a path, all of them served by the Pilot firmware (R395). -/
def accesses : Instr → Bool
  | .abort .. | .accountsClear .. | .accountsSnapshot .. | .armBmax .. | .bundleLoad .. | .bundleRelease .. | .cancel .. | .ckptWinWrite .. => true
  | .closeBmax .. | .clusterReset .. | .countersClear .. | .ctxEnableWrite .. | .defectAdd .. | .descTargetWrite .. | .dpGoRead | .dpGoWrite => true
  | .fabricCountersClear .. | .fetchSeqWrite .. | .flueCfgWrite .. | .flueDrain .. | .flueFill .. | .flueReset .. | .flushCkpt .. => true
  | .fwActivate | .fwBegin | .fwConfirm .. | .fwProgram .. | .fwUpdateAbort | .fwVerify .. | .getEndpointId | .setEndpointId .. => true
  | .groupCountersClear .. | .groupEnable .. | .groupStatusWrite .. | .hbmCountersClear .. | .hearthReset .. | .hearthSrSeedWrite .. => true
  | .hobCountersClear .. | .idleCountersClear .. | .launch .. | .norm .. | .partitionReset .. | .persistRestoreDefaults .. | .persistSave .. => true
  | .phaseDoorbell .. | .portCountersClear .. | .portDisable .. | .portEnable .. | .quoteReq .. | .resetState .. | .resume .. => true
  | .retrainRequest .. | .routeCrossGroupWrite .. | .routeInGroupWrite .. | .runJob .. | .seqCountersClear .. | .stackPowerOff .. => true
  | .stackPowerOn .. | .stokerCountersClear .. | .stokerSrSeedWrite .. | .streamCountersClear .. | .streamResume .. | .streamResumeAbort .. => true
  | .tlbInvalidate .. | .update .. | .wholeReset .. | .objectWrite .. | .getMctpVersionSupport .. | .getMessageTypeSupport => true
  | .getVendorDefinedMessageSupport .. => true
  | _ => false

/-- Records an event adds, as one record not yet numbered. -/
def Dev.eventRec (d : Dev) (e : Ev) (k : Kind) (i : Nat) (ctx : Option Nat) (detail hi : Nat) : EventRec :=
  ⟨e.code, blockOf k i, ctx, 0, hi, d.tick, detail⟩

/-- A GRATE body whose fields fit R92. -/
def GrateBody.Fits (g : GrateBody) : Prop :=
  g.a.Fits ∧ g.b.Fits ∧ g.d.Fits ∧ g.epi < 16 ∧ (∃ m < 128, g.m = 32 * (m + 1)) ∧ (∃ n < 128, g.n = 32 * (n + 1)) ∧
  (∃ k < 128, g.k = 32 * (k + 1)) ∧ g.aFmt < 8 ∧ g.bFmt < 8 ∧ g.dFmt < 8 ∧ g.aStride < 256 ∧ g.bStride < 256 ∧ g.dStride < 256 ∧
  g.aTag < 256 ∧ g.bTag < 256 ∧ g.dTag < 256 ∧ g.slotExp < 256 ∧ g.skipLog2 < 256

/-- A scale slot whose fields fit R68. -/
def ScaleSlot.Fits (x : ScaleSlot) : Prop :=
  x.stepMax < 2 ^ 32 ∧ -128 ≤ x.curExp ∧ x.curExp < 128 ∧ -128 ≤ x.initExp ∧ x.initExp < 128 ∧ x.margin < 4 ∧ x.hist.length ≤ 16

end Sys2Proof.Machine
end

