-- ==== Sys2Proof/Certificates/Slice0/Obligations.lean ====
section
/-! DEFINITION. The statements about the model, for the provers. Each says which rules of the spec it formalises; a clause that rests on
a choice of the model's own names the log entry. -/

open Sys2Proof Sys2Proof.Machine

/-- The clearing objects (R80, R127, R170, R217, R234, R244, R270, R313, R314, R332): a write of 1 zeroes every counter of the block, at the
subindices the dictionary gives, and changes no other object, no memory and no unit. Such a write to a hearth whose region's clock does not
run waits in the memory-mapped path's queue, and a stopped clock starts (R365).
Translation caches (R322): TLB_INVALIDATE raises TLB_INVAL_PENDING; when every cache has dropped the slot's entries it reads 0, no
cluster holds an entry of the slot, and the entries of other slots stay. ACCOUNTS_SNAPSHOT copies every account in one tick (R333). -/
def Obligations.CountersClearCachesDropAndAccountsCopy : Prop :=
  (∀ s : State, s.dev.Serves →
      (∀ h : Fin 1024,
        (s.dev.HearthServes h.val Obj.COUNTERS_CLEAR 0 →
          ∃ t, exec (.countersClear h 1) s = .next t ∧ s.Cleared t 0x20009 1 0xB h.val []) ∧
        (s.dev.HearthServes h.val Obj.SEQ_COUNTERS_CLEAR 0 →
          ∃ t, exec (.seqCountersClear h 1) s = .next t ∧ s.Cleared t 0x20013 1 0xA h.val []) ∧
        (s.dev.HearthServes h.val Obj.STREAM_COUNTERS_CLEAR 0 →
          ∃ t, exec (.streamCountersClear h 1) s = .next t ∧ s.Cleared t 0x2001B 1 7 h.val []) ∧
        (s.dev.HearthServes h.val Obj.IDLE_COUNTERS_CLEAR 0 →
          ∃ t, exec (.idleCountersClear h 1) s = .next t ∧ s.Cleared t 0x20020 1 7 h.val []) ∧
        (∀ v, s.dev.hearthAbsent h.val = false → s.dev.regionWaits (h.val / 64) = true →
          ∃ t, exec (.countersClear h v) s = .next t ∧
            tget [] t.dev.paths 2 = tget [] s.dev.paths 2 ++ [.object .host (Obj.COUNTERS_CLEAR.key h.val 0 / 256)
              (Obj.COUNTERS_CLEAR.key h.val 0 % 256) v] ∧
            (s.dev.get Obj.CLOCK_STATE (h.val / 64) = 0 → t.dev.get Obj.CLOCK_STATE (h.val / 64) = 1) ∧
            t = { s with dev := { s.dev with od := t.dev.od, paths := t.dev.paths } } ∧ s.dev.SameObjects t.dev [clockKey h.val])) ∧
      (∀ st : Fin 32,
        (∃ t, exec (.hbmCountersClear st 1) s = .next t ∧ s.Cleared t 0x12002 1 0xA st.val []) ∧
        (∃ t, exec (.hobCountersClear st 1) s = .next t ∧ s.Cleared t 0x12008 1 8 st.val [])) ∧
      (∀ g : Fin 4096, ∃ t, exec (.groupCountersClear g 1) s = .next t ∧ s.Cleared t 0x32004 4 6 g.val []) ∧
      (∀ k : Fin 2, s.dev.get Obj.STOKER_STATE k.val ≠ 0 → s.dev.get Obj.STOKER_STATE k.val ≠ 4 →
        ∃ t, exec (.stokerCountersClear k 1) s = .next t ∧ s.Cleared t 0x31011 1 7 k.val []) ∧
      (∀ p : Fin 16, ∃ t, exec (.portCountersClear p 1) s = .next t ∧ s.Cleared t 0x13001 1 0xA p.val []) ∧
      (s.dev.pilot.restarting = false → ∃ t, exec (.fabricCountersClear 1) s = .next t ∧ s.Cleared t 0x4001 3 6 0 []) ∧
      (∀ c : Fin 16, ∃ t, exec (.accountsClear c 1) s = .next t ∧
        (∀ o ∈ objTable, (o.base = 0x30002 ∧ o.lo ≤ 0xB ∨ o.base = 0x30003 ∧ o.lo ≤ 6) → ∀ e < o.n, t.dev.get o c.val e = 0) ∧
        t.dev.reply = ⟨0, 0, []⟩ ∧ s.OnlyObjects t (blockKeys 0x30002 1 0xB c.val ++ blockKeys 0x30003 1 6 c.val))) ∧
  (∀ (s : State) (c : Fin 16),
      (s.dev.Serves → ∃ t, exec (.tlbInvalidate c 1) s = .next t ∧ t.dev.get Obj.TLB_INVAL_PENDING c.val = 1 ∧
        t.dev.reply = ⟨0, 0, []⟩ ∧ s.OnlyObjects t [Obj.TLB_INVAL_PENDING.key c.val 0]) ∧
      (s.dev.get Obj.TLB_INVAL_PENDING c.val = 1 →
        ∃ t, exec (.tlbInvalidateDone c) s = .next t ∧ t.dev.get Obj.TLB_INVAL_PENDING c.val = 0 ∧
          (∀ cl, ∀ e ∈ (t.dev.cluster cl).tlb, e.ctx ≠ c.val) ∧
          (∀ cl, ∀ e ∈ (s.dev.cluster cl).tlb, e.ctx ≠ c.val → e ∈ (t.dev.cluster cl).tlb) ∧
          t = { s with dev := { s.dev with od := t.dev.od, clusters := t.dev.clusters } } ∧
          s.dev.SameObjects t.dev [Obj.TLB_INVAL_PENDING.key c.val 0]) ∧
      (s.dev.Serves → ∃ t, exec (.accountsSnapshot c 1) s = .next t ∧
        (∀ o ∈ objTable, o.base = 0x30002 → o.lo ≤ 0xB → s.dev.get o c.val < 2 ^ 64 →
          t.dev.get Obj.SNAP c.val (o.lo - 1) = s.dev.get o c.val) ∧
        (∀ o ∈ objTable, o.base = 0x30003 → o.lo ≤ 6 → s.dev.get o c.val < 2 ^ 64 →
          t.dev.get Obj.SNAP c.val (o.lo + 10) = s.dev.get o c.val) ∧
        t.dev.get Obj.SNAP_TICK c.val = s.dev.tick % 2 ^ 64 ∧ t.dev.reply = ⟨0, 0, []⟩ ∧
        s.OnlyObjects t (Obj.SNAP.keys c.val ++ [Obj.SNAP_TICK.key c.val 0])))

/-- STEP_DOORBELL LAUNCH and CANCEL, and CTX_ENABLE (R315, R316, R323): the new PENDING_STEPS and CTX_ENABLE, CTX_STATE as R315 shows it, nothing
else but the time a wait began and, where CTX_ENABLE is written, a halt that the write clears. A launch that would make PENDING_STEPS exceed 255 completes with the instance-busy error and one on a DISABLED
slot with the invalid-value error, neither with an effect.
STEP_DOORBELL ABORT and RESUME and the step abort itself (R167, R323): while a hearth of the slot's running step has not ended its part, an
abort halts the slot and marks the step with the cause; RESUME of an enabled HALTED slot takes it to WAITING or IDLE. -/
def Obligations.StepDoorbellsLaunchCancelAbortAndResume : Prop :=
  (∀ (s : State) (c : Fin 16), s.dev.Serves →
      (∀ n : Fin 256, s.dev.get Obj.CTX_ENABLE c.val ≠ 0 → s.dev.get Obj.PENDING_STEPS c.val + (n.val + 1) ≤ 255 →
        ∃ t, exec (.launch c n) s = .next t ∧ t.dev.get Obj.PENDING_STEPS c.val = s.dev.get Obj.PENDING_STEPS c.val + (n.val + 1) ∧
          t.dev.get Obj.CTX_STATE c.val = t.dev.ctxShown c.val ∧ t.dev.reply = ⟨0, 0, []⟩ ∧
          s.OnlyCtx t c.val [Obj.PENDING_STEPS.key c.val 0, Obj.CTX_STATE.key c.val 0] ∧
          (t.dev.ctx c.val).run = (s.dev.ctx c.val).run ∧ (t.dev.ctx c.val).halted = (s.dev.ctx c.val).halted) ∧
      (∀ n : Fin 256, s.dev.get Obj.CTX_ENABLE c.val ≠ 0 → 255 < s.dev.get Obj.PENDING_STEPS c.val + (n.val + 1) →
        ∃ t, exec (.launch c n) s = .next t ∧ t.dev.reply = ⟨3, 0, []⟩ ∧ s.OnlyObjects t []) ∧
      (∀ n : Fin 256, s.dev.get Obj.CTX_ENABLE c.val = 0 →
        ∃ t, exec (.launch c n) s = .next t ∧ t.dev.reply = ⟨4, 0, []⟩ ∧ s.OnlyObjects t []) ∧
      (∃ t, exec (.cancel c) s = .next t ∧ t.dev.get Obj.PENDING_STEPS c.val = 0 ∧ t.dev.get Obj.CTX_STATE c.val = t.dev.ctxShown c.val ∧
        t.dev.reply = ⟨0, 0, []⟩ ∧ s.OnlyCtx t c.val [Obj.PENDING_STEPS.key c.val 0, Obj.CTX_STATE.key c.val 0] ∧
        (t.dev.ctx c.val).run = (s.dev.ctx c.val).run ∧ (t.dev.ctx c.val).halted = (s.dev.ctx c.val).halted) ∧
      (∃ t, exec (.ctxEnableWrite c 0) s = .next t ∧ t.dev.get Obj.CTX_ENABLE c.val = 0 ∧ t.dev.get Obj.PENDING_STEPS c.val = 0 ∧
        (t.dev.ctx c.val).halted = false ∧ (t.dev.ctx c.val).run = (s.dev.ctx c.val).run ∧
        t.dev.get Obj.CTX_STATE c.val = t.dev.ctxShown c.val ∧ t.dev.reply = ⟨0, 0, []⟩ ∧
        s.OnlyCtx t c.val [Obj.CTX_ENABLE.key c.val 0, Obj.PENDING_STEPS.key c.val 0, Obj.CTX_STATE.key c.val 0]) ∧
      (∃ t, exec (.ctxEnableWrite c 1) s = .next t ∧ t.dev.get Obj.CTX_ENABLE c.val = 1 ∧ t.dev.get Obj.CTX_STATE c.val = t.dev.ctxShown c.val ∧
        (t.dev.ctx c.val).run = (s.dev.ctx c.val).run ∧
        (t.dev.ctx c.val).halted = (decide (s.dev.get Obj.CTX_STATE c.val ≠ 0) && (s.dev.ctx c.val).halted) ∧
        t.dev.reply = ⟨0, 0, []⟩ ∧ s.OnlyCtx t c.val [Obj.CTX_ENABLE.key c.val 0, Obj.CTX_STATE.key c.val 0])) ∧
  (∀ (s : State) (c : Fin 16),
      (∀ r, s.dev.Serves → (s.dev.ctx c.val).run = some r → r.aborted = none → (∃ k ∈ r.hearths, k ∉ r.ended) →
        ∃ t, exec (.abort c) s = .next t ∧ (t.dev.ctx c.val).halted = true ∧
          (∃ r', (t.dev.ctx c.val).run = some r' ∧ r'.aborted = some 3 ∧ r'.hearths = r.hearths ∧ r'.alt = r.alt) ∧
          t.dev.reply = ⟨0, 0, []⟩ ∧ t.vault = s.vault ∧ t.pending = s.pending) ∧
      (∀ r (k : Fin 4), (s.dev.ctx c.val).run = some r → r.aborted = none → (∃ k ∈ r.hearths, k ∉ r.ended) →
        ∃ t, exec (.stepAbort c k) s = .next t ∧ (t.dev.ctx c.val).halted = true ∧
          (∃ r', (t.dev.ctx c.val).run = some r' ∧ r'.aborted = some k.val ∧ r'.hearths = r.hearths ∧ r'.alt = r.alt) ∧
          t.vault = s.vault ∧ t.pending = s.pending) ∧
      (s.dev.Serves → s.dev.get Obj.CTX_STATE c.val = 4 → s.dev.get Obj.CTX_ENABLE c.val ≠ 0 → (s.dev.ctx c.val).run = none →
        ∃ t, exec (.resume c) s = .next t ∧ (t.dev.ctx c.val).halted = false ∧
          t.dev.get Obj.CTX_STATE c.val = (if s.dev.get Obj.PENDING_STEPS c.val = 0 then 1 else 2) ∧ t.dev.reply = ⟨0, 0, []⟩ ∧
          s.OnlyCtx t c.val [Obj.CTX_STATE.key c.val 0]))

/-- The scheduler's pass (R329, R330) where no access and no frame waits to be served: the tick advances; where no slot waits no step starts and
RESERVED_BY shows none; and the first slot in rank order starts at its best alternative when every hearth of it is idle and held by no step,
with one pending step less.
A hearth's part of a step (R324, R387): the start command takes effect on an idle hearth whose region's clock runs and makes the hearth
FIRING for its slot; a hearth that ran that slot last latches the L objects and the entry point, another first owes an exchange; an empty
table of the slot it ran last ends its part at once (R325); CLUSTER_RELEASE lets the hearths of the cluster begin and changes nothing else. -/
def Obligations.StepsStartInRankAndLatchTheirSettings : Prop :=
  (∀ (s : State) (busy throttled : List Nat), s.dev.NothingWaits →
      (∃ t, exec (.schedulerPass busy throttled) s = .next t ∧ t.dev.tick = s.dev.tick + 1 ∧ s.KeepsMemory t) ∧
      ((∀ c < 16, s.dev.get Obj.CTX_STATE c ≠ 2) →
        ∃ t, exec (.schedulerPass busy throttled) s = .next t ∧ t.dev.tick = s.dev.tick + 1 ∧ t.dev.ctxs = s.dev.ctxs ∧
          t.dev.get Obj.RESERVED_BY = 0xFF) ∧
      (∀ c a, s.dev.ranked.head? = some c → bestOf (s.dev.eligible c) = some a →
        (∀ h ∈ a.2.1, s.dev.hState h = hIdle ∧ h ∉ s.dev.heldHearths) → s.dev.get Obj.PENDING_STEPS c < 256 →
        ∃ t, exec (.schedulerPass busy throttled) s = .next t ∧ (t.dev.ctx c).run = some ⟨a.1, a.2.1, [], none⟩ ∧
          t.dev.get Obj.PENDING_STEPS c = s.dev.get Obj.PENDING_STEPS c - 1 ∧ t.dev.get Obj.LAST_PLACEMENT c = a.1 ∧
          t.dev.get Obj.CTX_STATE c = 3)) ∧
  ((∀ (s : State) (h : Fin 1024) (c : Nat), s.dev.startingCtx h.val = some c → s.dev.hState h.val = hIdle →
      (s.dev.hearth h.val).run = none → 2 ≤ s.dev.get Obj.CLOCK_STATE (h.val / 64) →
      s.dev.get Obj.TABLE_ENTRIES h.val ≠ 0 → (s.dev.hearth h.val).lastCtx = some c →
      ∃ t, exec (.hearthStartCommand h) s = .next t ∧ t.dev.get Obj.HEARTH_STATE h.val = 3 ∧ t.dev.get Obj.RUNNING_CTX h.val = c ∧
        (∃ r, (t.dev.hearth h.val).run = some r ∧ r.latched s.dev h.val c ∧
          (r.released = decide (s.dev.get Obj.RELEASE_STAGGER_EN = 0)) ∧ r.stopped = false ∧ r.aborting = false) ∧
        (t.dev.hearth h.val).walk = Walk.start (t.dev.get Obj.ENTRY_POINT h.val) ∧
        t.dev.get Obj.ENTRY_POINT h.val = (if (s.dev.get Obj.ENTRY_VEC c).testBit 31 then
          (s.dev.hearth h.val).num (bits (s.dev.get Obj.ENTRY_VEC c) 20 0) 2 else s.dev.get Obj.ENTRY_POINT h.val) ∧
        s.OnlyHearth t h.val [Obj.ENTRY_POINT.key h.val 0, Obj.HEARTH_STATE.key h.val 0, Obj.RUNNING_CTX.key h.val 0]) ∧
    (∀ (s : State) (h : Fin 1024) (c : Nat), s.dev.startingCtx h.val = some c → s.dev.hState h.val = hIdle →
      (s.dev.hearth h.val).run = none → 2 ≤ s.dev.get Obj.CLOCK_STATE (h.val / 64) → (s.dev.hearth h.val).lastCtx ≠ some c →
      ∃ t, exec (.hearthStartCommand h) s = .next t ∧ t.dev.get Obj.HEARTH_STATE h.val = 3 ∧ t.dev.get Obj.RUNNING_CTX h.val = c ∧
        (∃ r, (t.dev.hearth h.val).run = some r ∧ r.ctx = c ∧ r.needExchange = true ∧
          (r.released = decide (s.dev.get Obj.RELEASE_STAGGER_EN = 0)) ∧ r.stopped = false ∧ r.aborting = false) ∧
        s.OnlyHearth t h.val [Obj.HEARTH_STATE.key h.val 0, Obj.RUNNING_CTX.key h.val 0]) ∧
    (∀ (s : State) (h : Fin 1024) (c : Nat), s.dev.startingCtx h.val = some c → s.dev.hState h.val = hIdle →
      (s.dev.hearth h.val).run = none → 2 ≤ s.dev.get Obj.CLOCK_STATE (h.val / 64) →
      s.dev.get Obj.TABLE_ENTRIES h.val = 0 → (s.dev.hearth h.val).lastCtx = some c →
      ∃ t, exec (.hearthStartCommand h) s = .next t ∧ t.dev.get Obj.HEARTH_STATE h.val = 2 ∧ t.dev.get Obj.RUNNING_CTX h.val = 0xFF ∧
        (t.dev.hearth h.val).run = none ∧ (∃ r, (t.dev.ctx c).run = some r ∧ h.val ∈ r.ended) ∧ s.KeepsMemory t) ∧
    (∀ (s : State) (cl : Fin 128), ∃ t, exec (.clusterRelease cl) s = .next t ∧
      (∀ h, h / 8 = cl.val → ∀ r, (s.dev.hearth h).run = some r →
        t.dev.hearth h = { s.dev.hearth h with run := some { r with released := true } }) ∧
      (∀ h, h / 8 ≠ cl.val → t.dev.hearth h = s.dev.hearth h) ∧
      t = { s with dev := { s.dev with hearths := t.dev.hearths } }))

/-- The scale-slot exchange (R77, R78, R324): once every line has been moved and the answers of another device are in, or where a hearth that no
step ran on reads every line of the incoming area on this device, the incoming slots are those read, fresh where their line was affected,
and the hearth owes no exchange any more; its table not being empty, it begins its part at the entry point with the settings latched.
STEP_COMPLETE (R325): when every hearth of the placement has ended its part the slot runs no step, STEPS_COMPLETED or STEPS_ABORTED
counts it, and CTX_STATE shows what R315 says. The energy of an interval (R333): what no slot's work takes goes to the unattributed account,
and a region on which one slot alone worked charges that slot with all of it, in whole millijoules with the rest carried forward. -/
def Obligations.SlotsExchangeStepsCountAndEnergyIsShared : Prop :=
  ((∀ (s : State) (h : Fin 1024) (r : StepRun) (e : Exchange), (s.dev.hearth h.val).run = some r → r.needExchange = true →
      r.aborting = false → s.dev.get Obj.TABLE_ENTRIES h.val ≠ 0 → (s.dev.hearth h.val).exch = some e → e.next = 2 * scaleLines →
      e.writes = [] → e.reads = [] →
      ∃ t, exec (.scaleSlotExchange h [] []) s = .next t ∧ (t.dev.hearth h.val).exch = none ∧
        (∃ r', (t.dev.hearth h.val).run = some r' ∧ r'.latched s.dev h.val r.ctx ∧ r'.released = r.released ∧ r'.stopped = r.stopped) ∧
        (t.dev.hearth h.val).walk = Walk.start (t.dev.get Obj.ENTRY_POINT h.val) ∧
        (∀ i < 128, (t.dev.hearth h.val).slot i = match e.line (i / 8), e.line (16 + i) with
          | some a, some b => ScaleSlot.ofWord (leNat ((a.bytes.drop (8 * (i % 8))).take 8))
              ((List.range 16).map fun j => leNat ((b.bytes.drop (4 * j)).take 4))
          | _, _ => ScaleSlot.fresh) ∧
        s.OnlyHearth t h.val [Obj.ENTRY_POINT.key h.val 0]) ∧
    (∀ (s : State) (h : Fin 1024) (r : StepRun) (d : Dev) (e : Exchange), (s.dev.hearth h.val).run = some r → r.needExchange = true →
      r.aborting = false → (s.dev.hearth h.val).exch = none → (s.dev.hearth h.val).lastCtx = none →
      { s.dev with crc := [] }.scaleOn r.ctx h.val ⟨65536, scaleLines, [], [], [], false⟩ = (d, e) → e.next = 2 * scaleLines → e.reads = [] →
      e.writes = [] → d.get Obj.TABLE_ENTRIES h.val ≠ 0 → (d.hearth h.val).lastCtx = none →
      ∃ t, exec (.scaleSlotExchange h [] []) s = .next t ∧
        (∃ r', (t.dev.hearth h.val).run = some r' ∧ r'.ctx = r.ctx ∧ r'.needExchange = false) ∧ (t.dev.hearth h.val).slots = e.slots)) ∧
  ((∀ (s : State) (c : Fin 16) (r : CtxRun), (s.dev.ctx c.val).run = some r → (∀ h ∈ r.hearths, h ∈ r.ended) → r.aborted = none →
      ∃ t, exec (.stepComplete c) s = .next t ∧ (t.dev.ctx c.val).run = none ∧
        t.dev.get Obj.STEPS_COMPLETED c.val = (s.dev.get Obj.STEPS_COMPLETED c.val + 1) % 2 ^ 64 ∧
        t.dev.get Obj.CTX_STATE c.val = t.dev.ctxShown c.val ∧ s.KeepsMemory t ∧ ∀ k, k ≠ c.val → t.dev.ctx k = s.dev.ctx k) ∧
    (∀ (s : State) (c : Fin 16) (r : CtxRun) (why : Nat), (s.dev.ctx c.val).run = some r → (∀ h ∈ r.hearths, h ∈ r.ended) → r.aborted = some why →
      ∃ t, exec (.stepComplete c) s = .next t ∧ (t.dev.ctx c.val).run = none ∧
        t.dev.get Obj.STEPS_ABORTED c.val = (s.dev.get Obj.STEPS_ABORTED c.val + 1) % 2 ^ 64 ∧
        t.dev.get Obj.CTX_STATE c.val = t.dev.ctxShown c.val ∧
        s.OnlyCtx t c.val [Obj.STEPS_ABORTED.key c.val 0, Obj.CTX_STATE.key c.val 0]) ∧
    (∀ (s : State) (uj : Nat), ∃ t, exec (.energyAttribution [(.other, uj)]) s = .next t ∧
      t.dev.get Obj.ENERGY_UNATTRIBUTED_MJ % 2 ^ 64 =
        (s.dev.get Obj.ENERGY_UNATTRIBUTED_MJ + (tget 0 s.dev.attrib 2016 + uj) / 1000) % 2 ^ 64 ∧
      tget 0 t.dev.attrib 2016 = (tget 0 s.dev.attrib 2016 + uj) % 1000 ∧
      t = { s with dev := { s.dev with od := t.dev.od, attrib := t.dev.attrib } } ∧
      s.dev.SameObjects t.dev [Obj.ENERGY_UNATTRIBUTED_MJ.key 0 0]) ∧
    (∀ (s : State) (g c : Fin 16) (uj : Nat), tget 0 s.dev.attrib (unitRegion g.val * 16 + c.val) ≠ 0 →
      (∀ k < 16, k ≠ c.val → tget 0 s.dev.attrib (unitRegion g.val * 16 + k) = 0) →
      ∃ t, exec (.energyAttribution [(.region g, uj)]) s = .next t ∧
        t.dev.get Obj.ENERGY_MJ c.val % 2 ^ 64 = (s.dev.get Obj.ENERGY_MJ c.val + (tget 0 s.dev.attrib (2000 + c.val) + uj) / 1000) % 2 ^ 64 ∧
        tget 0 t.dev.attrib (2000 + c.val) = (tget 0 s.dev.attrib (2000 + c.val) + uj) % 1000 ∧
        t.dev.get Obj.REGION_ENERGY_UJ g.val % 2 ^ 64 = (s.dev.get Obj.REGION_ENERGY_UJ g.val + uj) % 2 ^ 64 ∧
        (∀ k < 2000, tget 0 t.dev.attrib k = 0)))

/-- The fill stage (R84, R103, R105, R113), where the code finds no error in what it reads: a legal table entry other than LOOP and BRANCH enters the window, waiting, with the loop values in
force, and the walk goes on behind it; at the last entry of a body with passes left the next pass begins. An illegal entry stops the fill
stage and leaves a window that holds entries as it is. -/
def Obligations.FillStageTakesTheNextLegalEntry : Prop :=
  ∀ (s : State) (h : Fin 1024), s.dev.mayFill h.val = true →
    (∀ k, s.dev.readable h.val (s.dev.hearth h.val).walk = true →
      EKind.ofCode (bits (s.dev.tableEntry h.val (s.dev.hearth h.val).walk.pos) 255 252) = some k → k ≠ .loop → k ≠ .branch →
      ∃ t e, exec (.fillStageRead h []) s = .next t ∧ (t.dev.hearth h.val).window = (s.dev.hearth h.val).window ++ [e] ∧
        e.raw = s.dev.tableEntry h.val (s.dev.hearth h.val).walk.pos ∧ e.idx = (s.dev.hearth h.val).walk.pos ∧ e.st = .waiting ∧
        e.i = (s.dev.hearth h.val).walk.i ∧ e.t = (s.dev.hearth h.val).walk.t ∧ e.id = (s.dev.hearth h.val).nextId ∧ e.slot = none ∧
        (t.dev.hearth h.val).walk.ordinal = (s.dev.hearth h.val).walk.ordinal + 1 ∧
        ((s.dev.hearth h.val).walk.loops = [] → (t.dev.hearth h.val).walk.pos = (s.dev.hearth h.val).walk.pos + 1) ∧
        (∀ f fs, (s.dev.hearth h.val).walk.loops = f :: fs → (s.dev.hearth h.val).walk.pos ≠ f.last →
          (t.dev.hearth h.val).walk.pos = (s.dev.hearth h.val).walk.pos + 1 ∧ (t.dev.hearth h.val).walk.loops = f :: fs) ∧
        (∀ f fs, (s.dev.hearth h.val).walk.loops = f :: fs → (s.dev.hearth h.val).walk.pos = f.last → 0 < f.left →
          (t.dev.hearth h.val).walk.pos = f.first ∧
          tget 0 (t.dev.hearth h.val).walk.i f.level = tget 0 (s.dev.hearth h.val).walk.i f.level + 1 ∧
          (t.dev.hearth h.val).walk.loops = { f with left := f.left - 1 } :: fs) ∧
        t = { s with dev := { s.dev with hearths := t.dev.hearths } } ∧ s.OnlyHearth t h.val []) ∧
    (∀ r, s.dev.readable h.val (s.dev.hearth h.val).walk = false → (s.dev.hearth h.val).run = some r → (s.dev.hearth h.val).window ≠ [] →
      ∃ t, exec (.fillStageRead h []) s = .next t ∧ (t.dev.hearth h.val).run = some { r with stopped := true } ∧
        (t.dev.hearth h.val).window = (s.dev.hearth h.val).window ∧ s.OnlyHearth t h.val [])

/-- LOOP and BRANCH (R97, R103), once their waits are met by committed values and where the code finds no error in what is read: a LOOP begins
its first pass, with I of its level 0 and T the passes begun so far, or, outside every body, skips its own when its count is 0; a BRANCH that
does not end a body goes on at TARGET when its comparison holds and at the next entry when it does not. -/
def Obligations.LoopAndBranchSteerTheWalk : Prop :=
  ∀ (s : State) (h : Fin 1024) (raw : Nat),
    (s.dev.controlAt h.val .loop = some raw → (s.dev.hearth h.val).passes (.ofWord raw) ≠ 0 →
      ∃ t, exec (.loop h []) s = .next t ∧ (t.dev.hearth h.val).walk.pos = (s.dev.hearth h.val).walk.pos + 1 ∧
        tget 0 (t.dev.hearth h.val).walk.i (LoopBody.ofWord raw).level = 0 ∧
        tget 0 (t.dev.hearth h.val).walk.t (LoopBody.ofWord raw).level = tget 0 (s.dev.hearth h.val).walk.n (LoopBody.ofWord raw).level ∧
        tget 0 (t.dev.hearth h.val).walk.n (LoopBody.ofWord raw).level = tget 0 (s.dev.hearth h.val).walk.n (LoopBody.ofWord raw).level + 1 ∧
        (t.dev.hearth h.val).walk.loops = ⟨(LoopBody.ofWord raw).level, (s.dev.hearth h.val).walk.pos + 1,
          (s.dev.hearth h.val).walk.pos + (LoopBody.ofWord raw).len, (s.dev.hearth h.val).passes (.ofWord raw) - 1⟩ ::
            (s.dev.hearth h.val).walk.loops ∧
        t = { s with dev := { s.dev with hearths := t.dev.hearths } } ∧ s.OnlyHearth t h.val []) ∧
    (s.dev.controlAt h.val .loop = some raw → (s.dev.hearth h.val).passes (.ofWord raw) = 0 → (s.dev.hearth h.val).walk.loops = [] →
      ∃ t, exec (.loop h []) s = .next t ∧
        (t.dev.hearth h.val).walk.pos = (s.dev.hearth h.val).walk.pos + 1 + (LoopBody.ofWord raw).len ∧
        (t.dev.hearth h.val).walk.i = (s.dev.hearth h.val).walk.i ∧ s.OnlyHearth t h.val []) ∧
    (s.dev.controlAt h.val .branch = some raw →
      (∀ f fs, (s.dev.hearth h.val).walk.loops = f :: fs → (s.dev.hearth h.val).walk.pos ≠ f.last ∧ (BranchBody.ofWord raw).target ≠ f.last + 1) →
      ∃ t, exec (.branch h []) s = .next t ∧
        (t.dev.hearth h.val).walk.pos = (if (BranchBody.ofWord raw).holds
          ((s.dev.hearth h.val).branchVal (s.dev.hearth h.val).walk (.ofWord raw)) then (BranchBody.ofWord raw).target
          else (s.dev.hearth h.val).walk.pos + 1) ∧
        (t.dev.hearth h.val).walk.ordinal = (s.dev.hearth h.val).walk.ordinal + 1 ∧
        (t.dev.hearth h.val).window = (s.dev.hearth h.val).window ∧
        t = { s with dev := { s.dev with hearths := t.dev.hearths } } ∧ s.OnlyHearth t h.val [])

/-- NOP and COUNTER entries (R97, R100, R106, R111, R112): an entry that depends on no provisional one fires, adds its addend, signals,
completes and retires in the same command; one that does depend takes a provisional slot and changes no committed counter.
STEP_END and retirement (R76, R101, R106, R111, R112, R325): a STEP_END that meets no error in the slots' words clears the counters, shifts the step's maximum into the history of
every slot used, releases the hearth and ends its part; a complete entry whose dependencies are settled retires and commits its increments. -/
def Obligations.EntriesSignalRetireAndStepsEnd : Prop :=
  (∀ (s : State) (h : Fin 1024) (e : WEntry), s.dev.FillGoes h.val → e.inc = [] → e.tagWord = none →
      (s.dev.Fires h.val .nop e → e.slot = none → (s.dev.hearth h.val).sources e = [] →
        ∃ t, exec (.nop h) s = .next t ∧
          (∀ k, (t.dev.hearth h.val).counter k = e.hdr.signalled k ((s.dev.hearth h.val).counter k)) ∧
          (∀ o ∈ (t.dev.hearth h.val).window, o.id = e.id → o.st = .retired) ∧
          t.dev.get Obj.ENTRIES_FIRED h.val = (s.dev.get Obj.ENTRIES_FIRED h.val + 1) % 2 ^ 64 ∧
          t.dev.get Obj.ENTRIES_RETIRED h.val = (s.dev.get Obj.ENTRIES_RETIRED h.val + 1) % 2 ^ 64 ∧
          s.OnlyHearth t h.val [Obj.ENTRIES_FIRED.key h.val 0, Obj.ENTRIES_RETIRED.key h.val 0, Obj.EGRESS_HOLD_CYCLES.key h.val 0]) ∧
      (s.dev.Fires h.val .counter e → e.slot = none → (s.dev.hearth h.val).sources e = [] →
        ∃ t, exec (.counter h) s = .next t ∧
          (∀ k, (t.dev.hearth h.val).counter k = e.hdr.signalled k (if k = (counterBody e.raw).1 then
            countBy ((s.dev.hearth h.val).counter k) (counterBody e.raw).2 else (s.dev.hearth h.val).counter k)) ∧
          (∀ o ∈ (t.dev.hearth h.val).window, o.id = e.id → o.st = .retired) ∧
          t.dev.get Obj.ENTRIES_FIRED h.val = (s.dev.get Obj.ENTRIES_FIRED h.val + 1) % 2 ^ 64 ∧
          t.dev.get Obj.ENTRIES_RETIRED h.val = (s.dev.get Obj.ENTRIES_RETIRED h.val + 1) % 2 ^ 64 ∧
          s.OnlyHearth t h.val [Obj.ENTRIES_FIRED.key h.val 0, Obj.ENTRIES_RETIRED.key h.val 0, Obj.EGRESS_HOLD_CYCLES.key h.val 0]) ∧
      (s.dev.Fires h.val .nop e → (s.dev.hearth h.val).sources e ≠ [] →
        ∃ t, exec (.nop h) s = .next t ∧ (t.dev.hearth h.val).counters = (s.dev.hearth h.val).counters ∧
          (∃ o ∈ (t.dev.hearth h.val).window, o.id = e.id ∧ o.st = .complete ∧ o.slot.isSome ∧ o.mask ≠ [])) ∧
      (s.dev.Fires h.val .counter e → (s.dev.hearth h.val).sources e ≠ [] →
        ∃ t, exec (.counter h) s = .next t ∧ (t.dev.hearth h.val).counters = (s.dev.hearth h.val).counters ∧
          (∃ o ∈ (t.dev.hearth h.val).window, o.id = e.id ∧ o.st = .complete ∧ o.slot.isSome ∧ o.mask ≠ []))) ∧
  ((∀ (s : State) (h : Fin 1024) (e : WEntry) (r : StepRun), (s.dev.hearth h.val).run = some r → s.dev.Fires h.val .stepEnd e →
      ∃ t, exec (.stepEnd h []) s = .next t ∧ t.dev.get Obj.HEARTH_STATE h.val = 2 ∧ t.dev.get Obj.RUNNING_CTX h.val = 0xFF ∧
        (t.dev.hearth h.val).run = none ∧ (t.dev.hearth h.val).window = [] ∧ (t.dev.hearth h.val).lastCtx = some r.ctx ∧
        (∀ k, (t.dev.hearth h.val).counter k = 0) ∧
        (∀ i, ((s.dev.hearth h.val).slot i).used = true →
          ((t.dev.hearth h.val).slot i).hist = (((s.dev.hearth h.val).slot i).stepMax :: ((s.dev.hearth h.val).slot i).hist).take 16 ∧
          ((t.dev.hearth h.val).slot i).stepMax = 0 ∧ ((t.dev.hearth h.val).slot i).curValid = false ∧
          ((t.dev.hearth h.val).slot i).used = false ∧ ((t.dev.hearth h.val).slot i).ashSeen = false) ∧
        (∀ i, ((s.dev.hearth h.val).slot i).used = false → (t.dev.hearth h.val).slot i = (s.dev.hearth h.val).slot i) ∧
        (∀ x, (s.dev.ctx r.ctx).run = some x → ∃ y, (t.dev.ctx r.ctx).run = some y ∧ h.val ∈ y.ended) ∧
        (t.dev.hearth h.val).scr = (s.dev.hearth h.val).scr ∧ s.KeepsMemory t) ∧
    (∀ (s : State) (h : Fin 1024) (id : Nat) (e : WEntry), s.dev.FillGoes h.val → (s.dev.hearth h.val).entryOf id = some e → e.st = .complete →
      e.mask = [] → twf 0 e.inc = true → e.tagWord = none →
      ∃ t, exec (.entryRetire h id) s = .next t ∧
        t.dev.get Obj.ENTRIES_RETIRED h.val = (s.dev.get Obj.ENTRIES_RETIRED h.val + 1) % 2 ^ 64 ∧
        (∀ o ∈ (t.dev.hearth h.val).window, o.id = id → o.st = .retired) ∧ (∀ o ∈ (t.dev.hearth h.val).window, id ∉ o.mask) ∧
        (e.kind ≠ .grate → ∀ k, (t.dev.hearth h.val).counter k = if tget 0 e.inc k = 0 then (s.dev.hearth h.val).counter k
          else countBy ((s.dev.hearth h.val).counter k) (tget 0 e.inc k)) ∧
        s.OnlyHearth t h.val [Obj.ENTRIES_RETIRED.key h.val 0]))

/-- The bellows' walk (R115, R116), where the code finds no error in what they read: within 512 entries of the fill stage they pass a legal entry
that is neither a LOOP, a BRANCH nor a STREAM they fetch; a LOOP whose waits are met by committed values is resolved with its pass count; a
BRANCH whose waits are met is passed the way its comparison says, and one whose waits are not met on LIKELY; either is remembered.
Stalls and draughts (R114, R155, R168, R169): with entries in the window a firing stall aborts the running step with cause 1, and has no effect
while a transfer of the hearth is halted; a cycle of full flues is recorded, counted, and aborts with cause 2 the running step of every slot
that owns a flue in it, also where the firing stall falls in the same tick. -/
def Obligations.BellowsWalkAndStallsAbort : Prop :=
  (∀ (s : State) (h : Fin 1024), s.dev.mayBlow h.val = true →
      (s.dev.hearth h.val).bellowsAt.ordinal < (s.dev.hearth h.val).walk.ordinal + 512 →
      s.dev.readable h.val (s.dev.hearth h.val).bellowsAt = true →
      (∀ k, EKind.ofCode (Header.ofWord (s.dev.tableEntry h.val (s.dev.hearth h.val).bellowsAt.pos)).kind = some k → k ≠ .loop → k ≠ .branch →
        (k = .stream → s.dev.fetches h.val (s.dev.tableEntry h.val (s.dev.hearth h.val).bellowsAt.pos) = false) →
        ∃ t, exec (.bellowsWalk h []) s = .next t ∧
          (t.dev.hearth h.val).bellows.walk = (s.dev.hearth h.val).bellowsAt.advance ((s.dev.hearth h.val).bellowsAt.pos + 1) ∧
          t = { s with dev := { s.dev with hearths := t.dev.hearths } } ∧ s.OnlyHearth t h.val []) ∧
      (EKind.ofCode (Header.ofWord (s.dev.tableEntry h.val (s.dev.hearth h.val).bellowsAt.pos)).kind = some .loop →
        (s.dev.hearth h.val).waitsCommitted (.ofWord (s.dev.tableEntry h.val (s.dev.hearth h.val).bellowsAt.pos))
          (s.dev.hearth h.val).bellowsAt.i (s.dev.hearth h.val).bellowsAt.t = true →
        ∃ t, exec (.bellowsWalk h []) s = .next t ∧
          (t.dev.hearth h.val).bellows.walk = (s.dev.hearth h.val).bellowsAt.loop
            (.ofWord (s.dev.tableEntry h.val (s.dev.hearth h.val).bellowsAt.pos))
            ((s.dev.hearth h.val).passes (.ofWord (s.dev.tableEntry h.val (s.dev.hearth h.val).bellowsAt.pos))) ∧
          t = { s with dev := { s.dev with hearths := t.dev.hearths } } ∧ s.OnlyHearth t h.val []) ∧
      (EKind.ofCode (Header.ofWord (s.dev.tableEntry h.val (s.dev.hearth h.val).bellowsAt.pos)).kind = some .branch →
        (s.dev.hearth h.val).waitsCommitted (.ofWord (s.dev.tableEntry h.val (s.dev.hearth h.val).bellowsAt.pos))
          (s.dev.hearth h.val).bellowsAt.i (s.dev.hearth h.val).bellowsAt.t = true →
        ∃ t, exec (.bellowsWalk h []) s = .next t ∧
          ((s.dev.hearth h.val).bellowsAt.ordinal, (BranchBody.ofWord (s.dev.tableEntry h.val (s.dev.hearth h.val).bellowsAt.pos)).holds
            ((s.dev.hearth h.val).branchVal (s.dev.hearth h.val).bellowsAt
              (.ofWord (s.dev.tableEntry h.val (s.dev.hearth h.val).bellowsAt.pos))), false) ∈ (t.dev.hearth h.val).bellows.branches ∧
          (t.dev.hearth h.val).bellows.walk = (s.dev.hearth h.val).bellowsAt.advance
            (if (BranchBody.ofWord (s.dev.tableEntry h.val (s.dev.hearth h.val).bellowsAt.pos)).holds
              ((s.dev.hearth h.val).branchVal (s.dev.hearth h.val).bellowsAt
                (.ofWord (s.dev.tableEntry h.val (s.dev.hearth h.val).bellowsAt.pos)))
              then (BranchBody.ofWord (s.dev.tableEntry h.val (s.dev.hearth h.val).bellowsAt.pos)).target
              else (s.dev.hearth h.val).bellowsAt.pos + 1) ∧
          s.OnlyHearth t h.val []) ∧
      (EKind.ofCode (Header.ofWord (s.dev.tableEntry h.val (s.dev.hearth h.val).bellowsAt.pos)).kind = some .branch →
        (s.dev.hearth h.val).waitsCommitted (.ofWord (s.dev.tableEntry h.val (s.dev.hearth h.val).bellowsAt.pos))
          (s.dev.hearth h.val).bellowsAt.i (s.dev.hearth h.val).bellowsAt.t = false →
        ∃ t, exec (.bellowsWalk h []) s = .next t ∧
          ((s.dev.hearth h.val).bellowsAt.ordinal, (BranchBody.ofWord (s.dev.tableEntry h.val (s.dev.hearth h.val).bellowsAt.pos)).likely, true)
            ∈ (t.dev.hearth h.val).bellows.branches ∧
          (t.dev.hearth h.val).bellows.walk = (s.dev.hearth h.val).bellowsAt.advance
            (if (BranchBody.ofWord (s.dev.tableEntry h.val (s.dev.hearth h.val).bellowsAt.pos)).likely
              then (BranchBody.ofWord (s.dev.tableEntry h.val (s.dev.hearth h.val).bellowsAt.pos)).target
              else (s.dev.hearth h.val).bellowsAt.pos + 1) ∧
          s.OnlyHearth t h.val [])) ∧
  ((∀ (s : State) (h : Fin 1024) (r : StepRun) (x : CtxRun), (s.dev.hearth h.val).run = some r → r.aborting = false → r.stallLimit ≠ 0 →
      (s.dev.hearth h.val).window ≠ [] → s.dev.get Obj.HALTED_STREAMS h.val = 0 → (s.dev.ctx r.ctx).run = some x → x.aborted = none →
      (∃ k ∈ x.hearths, k ∉ x.ended) →
      ∃ t, exec (.firingStall h []) s = .next t ∧ (t.dev.ctx r.ctx).halted = true ∧
        (∃ y, (t.dev.ctx r.ctx).run = some y ∧ y.aborted = some 1 ∧ y.hearths = x.hearths) ∧ s.KeepsMemory t) ∧
    (∀ (s : State) (h : Fin 1024), s.dev.get Obj.HALTED_STREAMS h.val ≠ 0 → exec (.firingStall h []) s = .next s) ∧
    (∀ (s : State) (f : Fin 65536) (cyc : List Nat), s.dev.get Obj.DRAUGHT_LIMIT ≠ 0 → (s.dev.flueCfg f.val).enable = true →
      (s.dev.flueCfg f.val).proxy = false → s.dev.flueFull f.val = true → s.dev.draughtFrom (s.dev.setFlues.length + 1) [f.val] = some cyc →
      ∃ t, exec (.draughtCheck f) s = .next t ∧ t.dev.get Obj.DRAUGHT_EVENTS = (s.dev.get Obj.DRAUGHT_EVENTS + 1) % 2 ^ 32 ∧
        t.dev.get Obj.DRAUGHT_LENGTH = cyc.length % 2 ^ 8 ∧ (∀ i < 8, t.dev.get Obj.DRAUGHT_FLUE 0 i = cyc.getD i 0 % 2 ^ 16) ∧
        (∀ g ∈ cyc, ∀ x, (s.dev.ctx (s.dev.flueCfg g).ctx).run = some x → x.aborted = none → (∃ k ∈ x.hearths, k ∉ x.ended) →
          (t.dev.ctx (s.dev.flueCfg g).ctx).halted = true ∧
          ∃ y, (t.dev.ctx (s.dev.flueCfg g).ctx).run = some y ∧ y.aborted = some 2) ∧ s.KeepsMemory t) ∧
    (∀ (s : State) (h : Fin 1024) (f : Fin 65536) (cyc : List Nat), s.dev.get Obj.DRAUGHT_LIMIT ≠ 0 → (s.dev.flueCfg f.val).enable = true →
      (s.dev.flueCfg f.val).proxy = false → s.dev.flueFull f.val = true → s.dev.draughtFrom (s.dev.setFlues.length + 1) [f.val] = some cyc →
      ∃ t, exec (.firingStall h [f]) s = .next t ∧
        (∀ g ∈ cyc, ∀ x, (s.dev.ctx (s.dev.flueCfg g).ctx).run = some x → x.aborted = none → (∃ k ∈ x.hearths, k ∉ x.ended) →
          ∃ y, (t.dev.ctx (s.dev.flueCfg g).ctx).run = some y ∧ y.aborted = some 2) ∧ s.KeepsMemory t))

/-- GRATE (R43, R106, R124): an entry that the scan picks fires, in a provisional slot when it predicts, and begins to fold. An entry that holds
the grates, with no block skipped, nothing in the row queues and one accumulator buffer free, folds its next (n-block, m-block) pair into
that buffer: each element is the sum, over the k-blocks in order, of the exact column sums (R34, R38). -/
def Obligations.GrateFiresAndFoldsBlockPairs : Prop :=
  (∀ (s : State) (h : Fin 1024) (e : WEntry) (stalls : Nat) (sram : List (Nat × SramOutcome)), (s.dev.hearth h.val).folding = none →
    s.dev.Fires h.val .grate e →
    ∃ t, exec (.grate h stalls sram) s = .next t ∧ t.dev.get Obj.ENTRIES_FIRED h.val = (s.dev.get Obj.ENTRIES_FIRED h.val + 1) % 2 ^ 64 ∧
      (∃ o ∈ (t.dev.hearth h.val).window, o.id = e.id ∧ o.st = .firing ∧ (e.predicting = true → o.slot.isSome)) ∧
      (∃ j ∈ (t.dev.hearth h.val).jobs, j.id = e.id ∧ 1 ≤ j.folded) ∧
      t.dev.get Obj.FEEDER_STALL_CYCLES h.val % 2 ^ 64 = (s.dev.get Obj.FEEDER_STALL_CYCLES h.val + stalls) % 2 ^ 64 ∧
      (sram = [] → (t.dev.hearth h.val).scr = (s.dev.hearth h.val).scr) ∧ s.KeepsMemory t) ∧
  (∀ (s : State) (h : Fin 1024) (e : WEntry) (j : GrateJob) (x : Hearth) (b : GrateBody), x = s.dev.hearth h.val →
    b = GrateBody.ofWord e.raw → x.folding = some (e, j) → x.bufs.length = 1 → x.feeders = [] → j.skips = [] →
    ∃ t, exec (.grate h 0 []) s = .next t ∧
      (t.dev.hearth h.val).bufs = x.bufs ++ [⟨j.id, j.folded / b.mBlocks, j.folded % b.mBlocks,
        (List.range (b.rowsOf (j.folded % b.mBlocks))).flatMap fun r => (List.range (b.colsOf (j.folded / b.mBlocks))).map fun c =>
          let a := (List.range b.kBlocks).foldl (fun (a : AccElem) kb => a.add (colSum
            ((List.range (b.kWidth kb)).map fun k => gval b.fa (x.aElem e b (256 * (j.folded % b.mBlocks) + r) (b.kStep * kb + k)))
            ((List.range (b.kWidth kb)).map fun k => gval b.fb (x.wElem e b (s.dev.transposed h.val) (b.kStep * kb + k)
              (128 * (j.folded / b.mBlocks) + c))))) ⟨0, false, 0⟩
          (a.raw, a.ash)⟩] ∧
      (∃ j' ∈ (t.dev.hearth h.val).jobs, j'.id = j.id ∧ j'.folded = j.folded + 1) ∧
      (t.dev.hearth h.val).scr = x.scr ∧ s.KeepsMemory t)

/-- FEEDER_READ, OUTPUT_DRAIN and SKIP_CHECK_READ (R37, R39, R47, R70, R71, R121): with 16 free entries and no rival, a row's queue takes its next
elements; where the first bank it needs is granted to another port or row, it counts a retry and its queues stay; the drain takes the buffer
completed first, and the last drain of an entry with a scaled format raises the slot's STEP_MAX and makes the scale check, of which a
failure is counted and sets the slot's exponent; a check reader's block leaves the list of those to check. -/
def Obligations.FeederDrainAndCheckReadersAdvance : Prop :=
  ∀ (s : State) (h : Fin 1024),
    (∀ (row : Fin 32) e j c cs, (s.dev.hearth h.val).folding = some (e, j) →
      (GrateBody.ofWord e.raw).feedNext j (tget [] (s.dev.hearth h.val).feeders row.val).length = c :: cs →
      (tget [] (s.dev.hearth h.val).feeders row.val).length ≤ 16 → tget [] (s.dev.hearth h.val).feedHalf row.val = [] →
      ∃ t, exec (.feederRead h row [] []) s = .next t ∧
        tget [] (t.dev.hearth h.val).feeders row.val = tget [] (s.dev.hearth h.val).feeders row.val ++
          (c :: cs).map ((s.dev.hearth h.val).feedElem e (GrateBody.ofWord e.raw) row.val) ∧
        (t.dev.hearth h.val).scr = (s.dev.hearth h.val).scr ∧ t = { s with dev := { s.dev with hearths := t.dev.hearths } } ∧
        s.OnlyHearth t h.val []) ∧
    (∀ (row : Fin 32) rivals e j c cs l ls, (s.dev.hearth h.val).folding = some (e, j) →
      (GrateBody.ofWord e.raw).feedNext j (tget [] (s.dev.hearth h.val).feeders row.val).length = c :: cs →
      (tget [] (s.dev.hearth h.val).feeders row.val).length ≤ 16 →
      (((GrateBody.ofWord e.raw).feedLines e row.val c.1 c.2).filter fun l =>
        !((tget [] (s.dev.hearth h.val).feedHalf row.val).map (·.1)).contains l) = l :: ls →
      (s.dev.hearth h.val).grant row.val (l % 32) rivals ≠ (2, row.val) →
      ∃ t, exec (.feederRead h row rivals []) s = .next t ∧
        t.dev.get Obj.FEEDER_READ_RETRIES h.val = (s.dev.get Obj.FEEDER_READ_RETRIES h.val + 1) % 2 ^ 64 ∧
        (t.dev.hearth h.val).feeders = (s.dev.hearth h.val).feeders ∧ s.OnlyHearth t h.val [Obj.FEEDER_READ_RETRIES.key h.val 0]) ∧
    (∀ errs buf rest e j, (s.dev.hearth h.val).bufs = buf :: rest → (s.dev.hearth h.val).entryOf buf.id = some e →
      (s.dev.hearth h.val).jobs.find? (fun j => j.id = buf.id) = some j →
      ∃ t, exec (.outputDrain h errs) s = .next t ∧ (t.dev.hearth h.val).bufs = rest ∧
        (∃ j' ∈ (t.dev.hearth h.val).jobs, j'.id = j.id ∧ j'.drained = j.drained + 1 ∧ j.maxMag ≤ j'.maxMag) ∧ s.KeepsMemory t) ∧
    (∀ buf rest e j b, b = GrateBody.ofWord e.raw → (s.dev.hearth h.val).bufs = buf :: rest → (s.dev.hearth h.val).entryOf buf.id = some e →
      (s.dev.hearth h.val).jobs.find? (fun j => j.id = buf.id) = some j → b.fd.scaled = true → j.drained + 1 = b.pairs →
      ∃ t, exec (.outputDrain h []) s = .next t ∧
        ∃ j' ∈ (t.dev.hearth h.val).jobs, j'.id = j.id ∧ j'.exp = j.exp ∧
          ((t.dev.hearth h.val).slot b.slotExp).stepMax = max ((s.dev.hearth h.val).slot b.slotExp).stepMax j'.maxMag ∧
          (b.fd.exceeds j'.maxMag j.exp = true → j'.failed = some (b.fd.scaleExp j'.maxMag 0) ∧
            ((t.dev.hearth h.val).slot b.slotExp).curExp = b.fd.scaleExp j'.maxMag 0 ∧
            t.dev.get Obj.SCALE_CHECK_FAILS h.val = (s.dev.get Obj.SCALE_CHECK_FAILS h.val + 1) % 2 ^ 64) ∧
          (b.fd.exceeds j'.maxMag j.exp = false → j'.failed = j.failed ∧
            t.dev.get Obj.SCALE_CHECK_FAILS h.val = s.dev.get Obj.SCALE_CHECK_FAILS h.val)) ∧
    (∀ sram j e c rest, (s.dev.hearth h.val).jobs.find? (fun j => !j.checks.isEmpty) = some j →
      (s.dev.hearth h.val).entryOf j.id = some e → j.checks = c :: rest →
      ∃ t, exec (.skipCheckRead h sram) s = .next t ∧
        (∃ j' ∈ (t.dev.hearth h.val).jobs, j'.id = j.id ∧ j'.checks = rest ∧ (j.wrongSkip = true → j'.wrongSkip = true)) ∧
        (sram = [] → (t.dev.hearth h.val).scr = (s.dev.hearth h.val).scr) ∧ s.KeepsMemory t)

/-- The end of a GRATE entry whose skips were right (R70 to R72, R122): with the scale check passed it completes; with the check failed and a
replay in the budget it returns to waiting with the exponent that the check set; with no replay left it completes and is counted as
saturated.
VECTOR (R95, R96, R106, R332): an entry that the scan picks fires and charges P cycles for each vector to the step's slot; an elementwise
operation on FP32 operands, where the code finds no error, writes the operation's result of each element, of values read before anything is
written. -/
def Obligations.GrateAndVectorResultsAreWritten : Prop :=
  (∀ (s : State) (h : Fin 1024) (e : WEntry) (j : GrateJob) (r : StepRun) (b : GrateBody), b = GrateBody.ofWord e.raw →
      (s.dev.hearth h.val).run = some r → r.aborting = false → r.stopped = false →
      (s.dev.hearth h.val).jobs.find? (fun j => match (s.dev.hearth h.val).entryOf j.id with
        | some e => decide ((GrateBody.ofWord e.raw).pairs ≤ j.drained) && j.checks.isEmpty
        | none => false) = some j →
      (s.dev.hearth h.val).entryOf j.id = some e → j.wrongSkip = false →
      (j.failed = none →
        ∃ t, exec (.grateEntryComplete h) s = .next t ∧ (∀ o ∈ (t.dev.hearth h.val).jobs, o.id ≠ e.id) ∧
          (∀ o ∈ (t.dev.hearth h.val).window, o.id = e.id → o.st = .complete ∨ o.st = .retired) ∧ s.KeepsMemory t) ∧
      (∀ v, b.fd.scaled = true → j.failed = some v → 0 < r.budget →
        ∃ t, exec (.grateEntryComplete h) s = .next t ∧
          (∃ o ∈ (t.dev.hearth h.val).window, o.id = e.id ∧ o.st = .waiting ∧ o.replay = true ∧ o.replayExp = some v ∧ o.inc = []) ∧
          (t.dev.hearth h.val).run = some { r with budget := r.budget - 1 } ∧
          t.dev.get Obj.SCALE_REPLAYS h.val = (s.dev.get Obj.SCALE_REPLAYS h.val + 1) % 2 ^ 64 ∧ s.KeepsMemory t) ∧
      (∀ v, j.failed = some v → r.budget = 0 →
        ∃ t, exec (.grateEntryComplete h) s = .next t ∧
          t.dev.get Obj.SCALE_SATURATED_ENTRIES h.val = (s.dev.get Obj.SCALE_SATURATED_ENTRIES h.val + 1) % 2 ^ 64 ∧
          (∀ o ∈ (t.dev.hearth h.val).window, o.id = e.id → o.st = .complete ∨ o.st = .retired) ∧ s.KeepsMemory t)) ∧
  ((∀ (s : State) (h : Fin 1024) (e : WEntry) (r : StepRun) (sram regs : List (Nat × SramOutcome)), (s.dev.hearth h.val).run = some r →
      s.dev.Fires h.val .vector e →
      ∃ t, exec (.vector h sram regs) s = .next t ∧
        t.dev.get Obj.ENTRIES_FIRED h.val = (s.dev.get Obj.ENTRIES_FIRED h.val + 1) % 2 ^ 64 ∧
        t.dev.get Obj.VECTOR_CYCLES r.ctx = (s.dev.get Obj.VECTOR_CYCLES r.ctx +
          vecCycles (VectorBody.ofWord e.raw).op * (VectorBody.ofWord e.raw).len) % 2 ^ 64 ∧
        (∃ o ∈ (t.dev.hearth h.val).window, o.id = e.id ∧ o.st = .firing) ∧ s.KeepsMemory t) ∧
    (∀ (s : State) (h : Fin 1024) (e : WEntry) (b : VectorBody), b = VectorBody.ofWord e.raw → s.dev.Fires h.val .vector e → b.aFmt = 0 →
      b.bFmt = 0 → b.dFmt = 0 → b.red = 0 → b.d.byte e.i e.t + 256 * b.len ≤ scrBytes →
      ∃ t, exec (.vector h [] []) s = .next t ∧ ∀ i < 64 * b.len,
        (t.dev.hearth h.val).num (b.d.byte e.i e.t + 4 * i) 4 =
          vecOp b.op b.imm ((s.dev.hearth h.val).num (b.a.byte e.i e.t + 4 * i) 4)
            (if vecUsesB b.op then (s.dev.hearth h.val).num (b.b.byte e.i e.t + 4 * i) 4 else 0) % 2 ^ 32))

/-- STREAM (R97, R137, R138, R140): an entry that the scan picks, the code finding no error in its descriptor, fires and takes the lowest free place
with a copy of the descriptor, its first line and far byte computed from the captured loop values; where it does not have mode 2 it is not
held (R147).
STREAM_LINE (R137, R140, R141, R144, R149, R153, R154), for a transfer whose turn it is: an IN line of this device, not cacheable, lands in its
scratchpad line with its mark and is counted; an OUT line that this device takes is counted; a line that does not translate is zeros marked
ash for an IN transfer without FAULT_HALT, and halts the transfer at its address with it. A transfer that fired behind one not yet started
waits. -/
def Obligations.StreamsTakePlacesAndMoveLines : Prop :=
  (∀ (s : State) (h : Fin 1024) (e : WEntry) (r : StepRun) (p : Nat) (b : StreamBody) (ds : Desc), b = StreamBody.ofWord e.raw →
      ds = s.dev.descriptor h.val b.desc → (s.dev.hearth h.val).run = some r → s.dev.Fires h.val .stream e →
      (s.dev.hearth h.val).freePlace = some p →
      ∃ t x, exec (.stream h []) s = .next t ∧ (t.dev.hearth h.val).place p = some x ∧ x.id = e.id ∧ x.ctx = r.ctx ∧
        x.desc = s.dev.descWord h.val b.desc ∧ x.descIdx = b.desc ∧ x.line0 = b.loc.line e.i e.t ∧
        x.far = (ds.farBase + b.remOffset + 4096 * b.remStride * wrapVal (loopVal e.i e.t b.remSel) b.remWrap) % 2 ^ 64 ∧
        x.next = 0 ∧ x.halted = none ∧ x.flue = none ∧ (ds.mode ≠ 2 → x.held = false) ∧
        (∃ o ∈ (t.dev.hearth h.val).window, o.id = e.id ∧ o.st = .firing) ∧
        t.dev.get Obj.ENTRIES_FIRED h.val = (s.dev.get Obj.ENTRIES_FIRED h.val + 1) % 2 ^ 64 ∧
        s.OnlyHearth t h.val [Obj.ENTRIES_FIRED.key h.val 0, Obj.EGRESS_HOLD_CYCLES.key h.val 0]) ∧
  (∀ (s : State) (h : Fin 1024) (p : Fin 32) (w x : Transfer) (d0 d1 : Dev), (s.dev.hearth h.val).place p.val = some w → w.flue = none →
      w.halted = none → w.held = false → (s.dev.hearth h.val).startWaits w = false → w.moved = false → w.next ∉ w.ahead →
      x = { w with started := true } → d0 = { s.dev with crc := [] }.setPlace h.val p.val (some x) →
      (∀ a words d2 v, d0.farLine h.val x x.next = (d1, .ok d1.selfId a) → x.d.dir = 0 → d1.usesCache h.val x.d = false →
        d1.localRead a x.d.chain (some x.ctx) words h.val = (d2, .line v) →
        ∃ t, exec (.streamLine h p words []) s = .next t ∧
          (t.dev.hearth h.val).line (x.lineOf x.next) = ⟨fit 0 64 v.bytes, v.ash⟩ ∧
          (∃ y, (t.dev.hearth h.val).place p.val = some y ∧ y.next = x.next + 1) ∧
          t.dev.get Obj.STREAM_BYTES_IN h.val = (d2.get Obj.STREAM_BYTES_IN h.val + 64) % 2 ^ 64 ∧ t.vault = s.vault ∧ t.pending = s.pending) ∧
      (∀ a d2, d0.farLine h.val x x.next = (d1, .ok d1.selfId a) → x.d.dir ≠ 0 →
        d1.putLine h.val x a ((d1.hearth h.val).line (x.lineOf x.next)) = (d2, .ok) →
        ∃ t, exec (.streamLine h p [] []) s = .next t ∧
          (∃ y, (t.dev.hearth h.val).place p.val = some y ∧ y.next = x.next + 1) ∧
          t.dev.get Obj.STREAM_BYTES_OUT h.val = (d2.get Obj.STREAM_BYTES_OUT h.val + 64) % 2 ^ 64 ∧ t.dev.hbm = d2.hbm ∧ t.dev.slow = d2.slow ∧
          t.vault = s.vault ∧ t.pending = s.pending) ∧
      (∀ words, d0.farLine h.val x x.next = (d1, .unmapped) → x.d.dir = 0 → x.d.faultHalt = false →
        ∃ t, exec (.streamLine h p words []) s = .next t ∧
          (t.dev.hearth h.val).line (x.lineOf x.next) = ⟨List.replicate 64 0, true⟩ ∧
          (∃ y, (t.dev.hearth h.val).place p.val = some y ∧ y.next = x.next + 1) ∧
          t.dev.get Obj.STREAM_FAULT_LINES h.val = (d1.get Obj.STREAM_FAULT_LINES h.val + 1) % 2 ^ 64) ∧
      (∀ words, d0.farLine h.val x x.next = (d1, .unmapped) → x.d.faultHalt = true → x.nativeRest = false → d1.abortingAt h.val = false →
        ∃ t, exec (.streamLine h p words []) s = .next t ∧ (t.dev.get Obj.HALTED_STREAMS h.val).testBit p.val = true ∧
          t.dev.get Obj.HALT_ADDRESS h.val p.val = x.d.farAddr x.far x.next ∧
          (t.dev.hearth h.val).place p.val = some { x with halted := some x.next })) ∧
  (∀ (s : State) (h : Fin 1024) (p : Fin 32) (x : Transfer) words crc, (s.dev.hearth h.val).place p.val = some x → x.flue = none →
      x.halted = none → x.held = false → (s.dev.hearth h.val).startWaits x = true →
      ∃ t, exec (.streamLine h p words crc) s = .next t ∧ t = { s with dev := { s.dev with crc := [] } })

/-- STREAM_RESUME (R156): with ABORT the transfer is marked to handle its remaining lines natively and the place is no longer halted; without it
the halted line is translated again, and the place is no longer halted where that succeeds and is halted again where the line is still
unmapped. A place that is not halted is left as it is.
ENTRY_COMPLETE (R111, R112) and BELLOWS_FETCH (R116, R117): a firing VECTOR entry that nothing keeps provisional signals, completes
and retires; a STREAM or FLUE entry whose transfer has ended frees its place and completes. The bellows pass the STREAM entry that they fetch,
and the line of a transfer of one line of this device, not cacheable, is then in the scratchpad. -/
def Obligations.HaltedStreamsResumeAndEntriesComplete : Prop :=
  (∀ (s : State) (h : Fin 1024) (p : Fin 32), s.dev.HearthServes h.val Obj.STREAM_RESUME 0 →
      (∀ x, (s.dev.hearth h.val).place p.val = some x → x.halted.isSome = true →
        ∃ t, exec (.streamResumeAbort h p) s = .next t ∧ (t.dev.get Obj.HALTED_STREAMS h.val).testBit p.val = false ∧
          (∃ y, (t.dev.hearth h.val).place p.val = some y ∧ y.halted = none ∧ y.nativeRest = true ∧ y.id = x.id) ∧ t.dev.reply = ⟨0, 0, []⟩) ∧
      (∀ x d1, (s.dev.hearth h.val).place p.val = some x → x.halted.isSome = true →
        d1 = (s.dev.putBit Obj.HALTED_STREAMS p.val false h.val).setPlace h.val p.val (some { x with halted := none }) →
        (d1.farLine h.val { x with halted := none } x.next).2 ≠ .unmapped →
        (∀ g, (d1.farLine h.val { x with halted := none } x.next).2 ≠ .forbidden g) →
        ∃ t, exec (.streamResume h p) s = .next t ∧ (t.dev.get Obj.HALTED_STREAMS h.val).testBit p.val = false ∧
          (∃ y, (t.dev.hearth h.val).place p.val = some y ∧ y.halted = none ∧ y.id = x.id) ∧ t.dev.reply = ⟨0, 0, []⟩) ∧
      (∀ x d1 d2, (s.dev.hearth h.val).place p.val = some x → x.halted.isSome = true → x.moved = false → x.next ∉ x.ahead →
        d1 = (s.dev.putBit Obj.HALTED_STREAMS p.val false h.val).setPlace h.val p.val (some { x with halted := none }) →
        d1.farLine h.val { x with halted := none } x.next = (d2, .unmapped) → x.d.faultHalt = true → x.nativeRest = false →
        d2.abortingAt h.val = false →
        ∃ t, exec (.streamResume h p) s = .next t ∧ (t.dev.get Obj.HALTED_STREAMS h.val).testBit p.val = true ∧
          (t.dev.hearth h.val).place p.val = some { x with halted := some x.next } ∧ t.dev.reply = ⟨0, 0, []⟩) ∧
      (∀ x, (s.dev.hearth h.val).place p.val = some x → x.halted = none →
        ∃ t, exec (.streamResume h p) s = .next t ∧ t.dev.reply = ⟨0, 0, []⟩ ∧ s.OnlyObjects t [])) ∧
  ((∀ (s : State) (h : Fin 1024) (id : Nat) (e : WEntry), s.dev.FillGoes h.val → (s.dev.hearth h.val).entryOf id = some e → e.st = .firing →
      e.kind = .vector → e.slot = none → e.mask = [] → e.inc = [] → e.tagWord = none →
      ∃ t, exec (.entryComplete h id) s = .next t ∧
        (∀ k, (t.dev.hearth h.val).counter k = e.hdr.signalled k ((s.dev.hearth h.val).counter k)) ∧
        (∀ o ∈ (t.dev.hearth h.val).window, o.id = id → o.st = .retired) ∧
        t.dev.get Obj.ENTRIES_RETIRED h.val = (s.dev.get Obj.ENTRIES_RETIRED h.val + 1) % 2 ^ 64 ∧
        s.OnlyHearth t h.val [Obj.ENTRIES_RETIRED.key h.val 0]) ∧
    (∀ (s : State) (h : Fin 1024) (id p : Nat) (e : WEntry) (x : Transfer), s.dev.FillGoes h.val → (s.dev.hearth h.val).entryOf id = some e →
      e.st = .firing → (e.kind = .stream ∨ e.kind = .flue) → (s.dev.hearth h.val).place p = some x → x.id = id → x.complete = true → p < 32 →
      (∀ q < p, ∀ y, (s.dev.hearth h.val).place q = some y → y.id ≠ id) →
      ∃ t, exec (.entryComplete h id) s = .next t ∧ (t.dev.hearth h.val).place p = none ∧
        (∀ o ∈ (t.dev.hearth h.val).window, o.id = id → o.st = .complete ∨ o.st = .retired) ∧ s.KeepsMemory t) ∧
    (∀ (s : State) (h : Fin 1024) (b : StreamBody) (raw : Nat), raw = s.dev.tableEntry h.val (s.dev.hearth h.val).bellowsAt.pos →
      b = StreamBody.ofWord raw → s.dev.mayBlow h.val = true →
      (s.dev.hearth h.val).bellowsAt.ordinal < (s.dev.hearth h.val).walk.ordinal + 512 →
      s.dev.readable h.val (s.dev.hearth h.val).bellowsAt = true → EKind.ofCode (bits raw 255 252) = some .stream → s.dev.fetches h.val raw = true →
      ((s.dev.hearth h.val).cacheOnly = true ∨ (s.dev.hearth h.val).waitsCommitted (.ofWord raw) (s.dev.hearth h.val).bellowsAt.i
        (s.dev.hearth h.val).bellowsAt.t = true) →
      ∃ t, exec (.bellowsFetch h [] []) s = .next t ∧
        (t.dev.hearth h.val).bellows.walk = (s.dev.hearth h.val).bellowsAt.advance ((s.dev.hearth h.val).bellowsAt.pos + 1) ∧
        (∀ x d1 d2 a v, x = s.dev.aheadTransfer h.val b (s.dev.hearth h.val).bellowsAt → x.d.total = 1 →
          (s.dev.hearth h.val).cacheOnly = false → { s.dev with crc := [] }.farLine h.val x 0 = (d1, .ok d1.selfId a) →
          d1.usesCache h.val x.d = false → d1.localRead a x.d.chain (some x.ctx) [] h.val = (d2, .line v) →
          (t.dev.hearth h.val).line (x.lineOf 0) = ⟨fit 0 64 v.bytes, v.ash⟩) ∧
        t.vault = s.vault ∧ t.pending = s.pending))

/-- A remote write (R61, R134) to an open hearth whose region's clock runs: one that lies in a region admitting remote writes stores exactly its
bytes, with its mark as the line's for a whole line; any other is refused whole and counted. A hearth that is not open answers absent, and a
write that finds the clock stopped waits at the region boundary, its clock starting (R25, R374). Arrival notices (R135) count, and add 1
to the counter their region names. -/
def Obligations.RemoteWritesAndArrivalNotices : Prop :=
  (∀ (s : State) (h : Fin 1024) (off : Nat) (data : List Byte) (ash : Bool), s.dev.hearthOpen h.val = true →
    s.dev.clockOn (h.val / 64) = true → data ≠ [] → off + data.length ≤ scrBytes →
    s.dev.remoteOk h.val (off / 64) ((off + data.length - 1) / 64) = true →
    ∃ t, exec (.remoteWrite h off data ash) s = .next t ∧ t.dev.reply = ⟨0, 0, []⟩ ∧
      (∀ k < data.length, (t.dev.hearth h.val).byte (off + k) = data.getD k 0) ∧
      (∀ a < scrBytes, (a < off ∨ off + data.length ≤ a) → (t.dev.hearth h.val).byte a = (s.dev.hearth h.val).byte a) ∧
      (off % 64 = 0 → data.length = 64 → tget false (t.dev.hearth h.val).ash (off / 64) = ash) ∧
      (∀ l, (l < off / 64 ∨ (off + data.length - 1) / 64 < l) → tget false (t.dev.hearth h.val).ash l = tget false (s.dev.hearth h.val).ash l) ∧
      s.OnlyHearth t h.val []) ∧
  (∀ (s : State) (h : Fin 1024) (off : Nat) (data : List Byte) (ash : Bool), s.dev.hearthOpen h.val = true →
    s.dev.clockOn (h.val / 64) = true → data ≠ [] → off + data.length ≤ scrBytes →
    s.dev.remoteOk h.val (off / 64) ((off + data.length - 1) / 64) = false →
    ∃ t, exec (.remoteWrite h off data ash) s = .next t ∧ t.dev.reply = ⟨1, 0, []⟩ ∧ (t.dev.hearth h.val).scr = (s.dev.hearth h.val).scr ∧
      (t.dev.hearth h.val).ash = (s.dev.hearth h.val).ash ∧
      t.dev.get Obj.REMOTE_WRITES_REFUSED h.val = (s.dev.get Obj.REMOTE_WRITES_REFUSED h.val + 1) % 2 ^ 64 ∧
      s.OnlyHearth t h.val [Obj.REMOTE_WRITES_REFUSED.key h.val 0]) ∧
  (∀ (s : State) (h : Fin 1024) (off : Nat) (data : List Byte) (ash : Bool), s.dev.hearthOpen h.val = false → off + data.length ≤ scrBytes →
    ∃ t, exec (.remoteWrite h off data ash) s = .next t ∧ t.dev.reply = ⟨2, 0, []⟩ ∧ s.OnlyObjects t []) ∧
  (∀ (s : State) (h : Fin 1024) (off : Nat) (data : List Byte) (ash : Bool), s.dev.hearthOpen h.val = true →
    s.dev.clockOn (h.val / 64) = false → off + data.length ≤ scrBytes →
    ∃ t, exec (.remoteWrite h off data ash) s = .next t ∧
      tget [] t.dev.edge (h.val / 64) = tget [] s.dev.edge (h.val / 64) ++ [.write h.val off data ash] ∧
      (s.dev.inService (h.val / 64) = true → s.dev.power.tripped = false → s.dev.get Obj.CLOCK_STATE (h.val / 64) = 0 →
        t.dev.get Obj.CLOCK_STATE (h.val / 64) = 1) ∧
      t = { s with dev := { s.dev with od := t.dev.od, edge := t.dev.edge } } ∧ s.dev.SameObjects t.dev [clockKey h.val]) ∧
  (∀ (s : State) (h : Fin 1024) (line : Fin 32768), s.dev.hearthOpen h.val = true → s.dev.clockOn (h.val / 64) = true →
    ∃ t, exec (.arrivalNotice h line) s = .next t ∧
      t.dev.get Obj.ARRIVAL_NOTICES h.val = (s.dev.get Obj.ARRIVAL_NOTICES h.val + 1) % 2 ^ 64 ∧
      (∀ w, s.dev.regionAt h.val line.val = some w → w.testBit 23 = true → ∀ k, (t.dev.hearth h.val).counter k =
        if k = bits w 22 17 then countBy ((s.dev.hearth h.val).counter k) 1 else (s.dev.hearth h.val).counter k) ∧
      (t.dev.hearth h.val).scr = (s.dev.hearth h.val).scr ∧ s.OnlyHearth t h.val [Obj.ARRIVAL_NOTICES.key h.val 0])

/-- FLUE entries of a hearth that the home router accepts in this cycle, its region's clock running or the entry's own (R160, R162): a write to a slot that is empty, not pending and on the lap expected is accepted and takes PUT;
a write to a slot not empty marks it ash and counts a breach; a read of a filled slot makes it draining and takes GET; a read of a slot
not filled underruns, counted. An entry that loses to a rival in its cycle does not fire.
The end of slot copies (R162, R163): the lines of a write are in the buffer of the setting it was accepted with and the slot is filled; the
lines of a read have reached its reader and the slot is empty, its ash flag cleared. -/
def Obligations.FlueEntriesAndSlotCopiesRun : Prop :=
  (∀ (s : State) (h : Fin 1024) (e : WEntry) (r : StepRun) (p f : Nat) (c : FlueCfg) (sram : List (Nat × SramOutcome))
      (rivals : List (Fin 1046)), f = (FlueBody.ofWord e.raw).number e.i e.t → c = s.dev.flueCfg f → (s.dev.hearth h.val).run = some r → s.dev.Fires h.val .flue e →
      (s.dev.hearth h.val).freePlace = some p → c.misused r.ctx = false → c.proxy = false →
      (f / 4096 = h.val / 64 ∨ s.dev.flueSleeps f = false) → s.dev.WinsFlue f h.val rivals →
      ((FlueBody.ofWord e.raw).fop = 1 → s.dev.hearthOpen (s.dev.flueHome f) = true →
        ((s.dev.flue f).slot ((s.dev.flue f).put % c.slots)).st = .empty →
        ((s.dev.flue f).slot ((s.dev.flue f).put % c.slots)).pending = false →
        lapBit (s.dev.flue f).put c.slots ≠ ((s.dev.flue f).slot ((s.dev.flue f).put % c.slots)).doneLap →
        ∃ t, exec (.flueEntryWrite h sram rivals) s = .next t ∧ (t.dev.flue f).put = (s.dev.flue f).put + 1 ∧
          ((t.dev.flue f).slot ((s.dev.flue f).put % c.slots)).pending = true ∧
          (∃ y ∈ (t.dev.flue f).copies, y.slot = (s.dev.flue f).put % c.slots ∧ y.write = true ∧ y.hearth = h.val ∧ y.place = p) ∧
          (∃ x, (t.dev.hearth h.val).place p = some x ∧ x.id = e.id ∧ x.flue = some ⟨f, true⟩ ∧ x.done = false) ∧
          (∀ g, g ≠ f → t.dev.flue g = s.dev.flue g) ∧ s.KeepsMemory t) ∧
      ((FlueBody.ofWord e.raw).fop = 1 → s.dev.hearthOpen (s.dev.flueHome f) = true →
        ((s.dev.flue f).slot ((s.dev.flue f).put % c.slots)).st ≠ .empty →
        ∃ t, exec (.flueEntryWrite h sram rivals) s = .next t ∧ (t.dev.flue f).put = (s.dev.flue f).put + 1 ∧
          ((t.dev.flue f).slot ((s.dev.flue f).put % c.slots)).ash = true ∧
          t.dev.get Obj.FLUE_BREACHES f = (s.dev.get Obj.FLUE_BREACHES f + 1) % 2 ^ 32 ∧
          (∃ x, (t.dev.hearth h.val).place p = some x ∧ x.id = e.id ∧ x.done = true) ∧ s.KeepsMemory t) ∧
      ((FlueBody.ofWord e.raw).fop = 0 → h.val = s.dev.flueHome f →
        ((s.dev.flue f).slot ((s.dev.flue f).get % c.slots)).st = .filled →
        ∃ t, exec (.flueEntryRead h sram rivals) s = .next t ∧ (t.dev.flue f).get = (s.dev.flue f).get + 1 ∧
          ((t.dev.flue f).slot ((s.dev.flue f).get % c.slots)).st = .draining ∧
          ((t.dev.flue f).slot ((s.dev.flue f).get % c.slots)).doneLap = lapBit (s.dev.flue f).get c.slots ∧
          (∃ y ∈ (t.dev.flue f).copies, y.slot = (s.dev.flue f).get % c.slots ∧ y.write = false ∧ y.hearth = h.val ∧ y.place = p ∧
            y.stale = false) ∧ s.KeepsMemory t) ∧
      ((FlueBody.ofWord e.raw).fop = 0 → h.val = s.dev.flueHome f →
        ((s.dev.flue f).slot ((s.dev.flue f).get % c.slots)).st ≠ .filled →
        ∃ t, exec (.flueEntryRead h sram rivals) s = .next t ∧ (t.dev.flue f).get = (s.dev.flue f).get + 1 ∧
          t.dev.get Obj.FLUE_UNDERRUNS f = (s.dev.get Obj.FLUE_UNDERRUNS f + 1) % 2 ^ 32 ∧ s.KeepsMemory t)) ∧
  (∀ (s : State) (h : Fin 1024) (e : WEntry) (f w : Nat) (sram : List (Nat × SramOutcome)) (rivals : List (Fin 1046)),
      f = (FlueBody.ofWord e.raw).number e.i e.t → s.dev.Fires h.val .flue e → (FlueBody.ofWord e.raw).fop = 1 →
      (f / 4096 = h.val / 64 ∨ s.dev.flueSleeps f = false) →
      rotPick requesters (tget 0 s.dev.arb (arbFlue f)) (h.val :: rivals.map Fin.val) = some w → w ≠ h.val →
      ∃ t, exec (.flueEntryWrite h sram rivals) s = .next t ∧ t.dev.hearths = s.dev.hearths ∧ t.dev.flues = s.dev.flues ∧
        t = { s with dev := { s.dev with od := t.dev.od, arb := t.dev.arb } } ∧
        s.dev.SameObjects t.dev [Obj.EGRESS_HOLD_CYCLES.key h.val 0]) ∧
  (∀ (s : State) (f : Fin 65536) (i : Fin 256) (c : FCopy), (s.dev.flue f.val).due = false →
      ((s.dev.flue f.val).copies.find? (fun c => c.slot = i.val && c.write = true) = some c → c.stale = false → c.data.length ≤ 32768 →
        s.dev.hearthDrained ((FlueCfg.ofWord c.cfg).home f.val) = false →
        ∃ t, exec (.flueWriteCopyEnd f i) s = .next t ∧ ((t.dev.flue f.val).slot i.val).st = .filled ∧
          ((t.dev.flue f.val).slot i.val).pending = false ∧ (t.dev.flue f.val).put = (s.dev.flue f.val).put ∧
          (∀ k v, c.data[k]? = some v → (t.dev.hearth ((FlueCfg.ofWord c.cfg).home f.val)).line (c.line + k) = ⟨fit 0 64 v.bytes, v.ash⟩) ∧
          (∀ x, (s.dev.hearth c.hearth).place c.place = some x → x.flue = some ⟨f.val, true⟩ →
            (t.dev.hearth c.hearth).place c.place = some { x with done := true }) ∧
          (∀ g, g ≠ f.val → t.dev.flue g = s.dev.flue g) ∧ s.KeepsMemory t) ∧
      ((s.dev.flue f.val).copies.find? (fun c => c.slot = i.val && c.write = false) = some c → c.stale = false → c.place < 32 →
        ((s.dev.flue f.val).slot i.val).st = .draining → c.data.length ≤ 32768 →
        ∃ t, exec (.flueReadCopyEnd f i) s = .next t ∧ ((t.dev.flue f.val).slot i.val).st = .empty ∧
          ((t.dev.flue f.val).slot i.val).ash = false ∧
          (∀ k v, c.data[k]? = some v → (t.dev.hearth c.hearth).line (c.line + k) = ⟨fit 0 64 v.bytes, v.ash⟩) ∧
          (∀ g, g ≠ f.val → t.dev.flue g = s.dev.flue g) ∧ s.KeepsMemory t))

/-- FLUE_CFG and FLUE_DOORBELL (R158, R161, R166), where the flue's region is served and no abort of its slot waits for its reset: an accepted write
to FLUE_CFG resets the flue and applies its bits, reserved ones as 0; a busy flue answers the instance-busy error and keeps both. A doorbell
that has its turn: RESET empties every slot and zeroes PUT and GET; FILL and DRAIN of an enabled flue that is no proxy advance PUT and GET by
their count. One that loses to a rival changes nothing but the pointer (R335; DESIGN CHOICE, log entry 8). -/
def Obligations.FlueCfgAndDoorbellsSetTheFlue : Prop :=
  (∀ (s : State) (f : Fin 65536), s.dev.RegionServes (f.val / 4096) Obj.FLUE_CFG f.val 0 → (s.dev.ctx (s.dev.flueCfg f.val).ctx).abortDue = none →
    (∀ v, v < 2 ^ 64 → s.dev.flueBusy f.val = false →
      ∃ t, exec (.flueCfgWrite f v) s = .next t ∧
        t.dev.get Obj.FLUE_CFG f.val = (if v.testBit 62 then bits v 63 58 * 2 ^ 58 + bits v 46 36 * 2 ^ 36 else bits v 63 7 * 2 ^ 7) ∧
        (t.dev.flue f.val).put = 0 ∧ (t.dev.flue f.val).get = 0 ∧ (∀ i, (t.dev.flue f.val).slot i = FSlot.fresh) ∧
        t.dev.reply = ⟨0, 0, []⟩ ∧ (∀ g, g ≠ f.val → t.dev.flue g = s.dev.flue g) ∧
        t = { s with dev := { s.dev with od := t.dev.od, flues := t.dev.flues, reply := t.dev.reply } } ∧
        s.dev.SameObjects t.dev [Obj.FLUE_CFG.key f.val 0]) ∧
    (∀ v, s.dev.flueBusy f.val = true →
      ∃ t, exec (.flueCfgWrite f v) s = .next t ∧ t.dev.reply = ⟨3, 0, []⟩ ∧ s.OnlyObjects t [])) ∧
  (∀ (s : State) (f : Fin 65536) (u : Turn), s.dev.RegionServes (f.val / 4096) Obj.FLUE_DOORBELL f.val 0 →
    (s.dev.ctx (s.dev.flueCfg f.val).ctx).abortDue = none → s.dev.WinsFlue f.val u.who.val u.rivals →
    (∃ t, exec (.flueReset f u) s = .next t ∧ (t.dev.flue f.val).put = 0 ∧ (t.dev.flue f.val).get = 0 ∧
      (∀ i, (t.dev.flue f.val).slot i = FSlot.fresh) ∧ t.dev.reply = ⟨0, 0, []⟩ ∧ (∀ g, g ≠ f.val → t.dev.flue g = s.dev.flue g) ∧
      t = { s with dev := { s.dev with flues := t.dev.flues, arb := t.dev.arb, reply := t.dev.reply } }) ∧
    (∀ n : Fin 256, (s.dev.flueCfg f.val).enable = true → (s.dev.flueCfg f.val).proxy = false →
      s.dev.hearthOpen (s.dev.flueHome f.val) = true → (s.dev.flue f.val).due = false →
      (∃ t, exec (.flueFill f n u) s = .next t ∧ (t.dev.flue f.val).put = (s.dev.flue f.val).put + (n.val + 1) ∧ t.dev.reply = ⟨0, 0, []⟩ ∧
        (∀ g, g ≠ f.val → t.dev.flue g = s.dev.flue g) ∧ s.KeepsMemory t) ∧
      (∃ t, exec (.flueDrain f n u) s = .next t ∧ (t.dev.flue f.val).get = (s.dev.flue f.val).get + (n.val + 1) ∧ t.dev.reply = ⟨0, 0, []⟩ ∧
        (∀ g, g ≠ f.val → t.dev.flue g = s.dev.flue g) ∧ s.KeepsMemory t))) ∧
  (∀ (s : State) (f : Fin 65536) (u : Turn) (w : Nat), s.dev.RegionServes (f.val / 4096) Obj.FLUE_DOORBELL f.val 0 →
    rotPick requesters (tget 0 s.dev.arb (arbFlue f.val)) (u.who.val :: u.rivals.map Fin.val) = some w → w ≠ u.who.val →
    ∃ t, exec (.flueReset f u) s = .next t ∧ t = { s with dev := { s.dev with arb := t.dev.arb } })

/-- HBM_WRITE (R174, R180, R187, R194), of a request that wins its cycle and finds none before it at the region boundary: a write that a base die
serves, with no block-maximum window armed, stores the sector, an ash sector when the data or what a partial write merges carries a mark, and
touches no other; its fifth failed transfer stores an ash sector; a FAILED channel absorbs it and counts it; an absent stack answers absent.
A request that loses its cycle waits at the boundary, as does one whose region's clock does not run (R25), and one for a retraining channel waits with its tag
(R186). -/
def Obligations.HbmWriteStoresExactlyOneSector : Prop :=
  ∀ (s : State) (st : Fin 32) (sec : Nat) (data : List Byte) (mask : List Bool) (ash : Bool) (ctx : Option (Fin 16)) (crc : Nat) (u : Turn),
    sec < 2 ^ 30 →
    (s.dev.WinsStack st.val u →
      (s.dev.gate st.val sec = .serve → s.dev.NoWindow st.val → crc < 5 → mask = [] →
        ∃ t, exec (.hbmWrite st sec data mask ash ctx crc u) s = .next t ∧
          t.dev.sector st.val sec = (if ash then Sector.ashSector else ⟨fit 0 64 data, false, []⟩) ∧
          s.dev.OnlySector t.dev st.val sec ∧ t.dev.reply = ⟨0, 0, []⟩ ∧ s.OnlyStack t st.val) ∧
      (s.dev.gate st.val sec = .serve → s.dev.NoWindow st.val → crc < 5 → mask ≠ [] →
        ∃ t, exec (.hbmWrite st sec data mask ash ctx crc u) s = .next t ∧
          t.dev.sector st.val sec = (if (s.dev.peek st.val sec).ash || ash then Sector.ashSector else
            ⟨(List.range 64).map fun i => if mask.getD i false then data.getD i 0 else (s.dev.peek st.val sec).bytes.getD i 0, false, []⟩) ∧
          s.dev.OnlySector t.dev st.val sec ∧ t.dev.reply = ⟨0, 0, []⟩ ∧ s.OnlyStack t st.val) ∧
      (s.dev.gate st.val sec = .serve → s.dev.NoWindow st.val → 5 ≤ crc →
        ∃ t, exec (.hbmWrite st sec data mask ash ctx crc u) s = .next t ∧ t.dev.sector st.val sec = Sector.ashSector ∧
          t.dev.get Obj.CRC_REPLAYS st.val = (s.dev.get Obj.CRC_REPLAYS st.val + 4) % 2 ^ 64 ∧
          s.dev.OnlySector t.dev st.val sec ∧ s.OnlyStack t st.val) ∧
      (s.dev.gate st.val sec = .failed →
        ∃ t, exec (.hbmWrite st sec data mask ash ctx crc u) s = .next t ∧ t.dev.hbm = s.dev.hbm ∧ t.dev.reply = ⟨0, 0, []⟩ ∧
          t.dev.get Obj.LATE_WRITES_ABSORBED st.val = (s.dev.get Obj.LATE_WRITES_ABSORBED st.val + 1) % 2 ^ 64) ∧
      (s.dev.gate st.val sec = .absent →
        ∃ t, exec (.hbmWrite st sec data mask ash ctx crc u) s = .next t ∧ t.dev.reply = ⟨2, 0, []⟩ ∧ s.OnlyGrant t) ∧
      (s.dev.gate st.val sec = .stopped →
        ∃ t, exec (.hbmWrite st sec data mask ash ctx crc u) s = .next t ∧
          s.AtBoundary t st.val ⟨sec, none, true, none, data, mask, ash, ctx.map Fin.val, .demand, [], crc⟩) ∧
      (s.dev.gate st.val sec = .waits → s.dev.tagFree st.val sec = true →
        ∃ t, exec (.hbmWrite st sec data mask ash ctx crc u) s = .next t ∧
          s.HoldsTag t st.val ⟨sec, none, true, none, data, mask, ash, ctx.map Fin.val, .demand, [], crc⟩)) ∧
    (s.dev.LosesStack st.val u →
      ∃ t, exec (.hbmWrite st sec data mask ash ctx crc u) s = .next t ∧
        s.AtBoundary t st.val ⟨sec, none, true, none, data, mask, ash, ctx.map Fin.val, .demand, [], crc⟩)

/-- HBM_READ (R187, R192, R193, R217), of a request that wins its cycle and finds none before it at the region boundary: a read without a chain
delivers what the decoder makes of the stored word; a clean read stores nothing, an uncorrectable one is counted and logged first in UE_LOG,
as is one whose fifth transfer attempt fails, delivered with its mark (R174); a FAILED channel answers zeros marked ash, and an absent stack the absent response.
Through a chain of operations on single elements the line is widened, the operations act in order on each element, and the results are narrowed (R208);
a chain that is not one answers zeros marked ash and counts a misuse (R211).
What a base die stores it delivers: a whole sector written without a mark, and read back without a chain, is the data written (R193, R194). -/
def Obligations.HbmReadsDeliverWhatIsStored : Prop :=
  (∀ (s : State) (st : Fin 32) (sec : Nat) (rq : HbmReq) (u : Turn), sec < 2 ^ 30 → s.dev.WinsStack st.val u →
      (rq.chain = 0 → s.dev.gate st.val sec = .serve →
        (∀ crc < 5, ∃ t, exec (.hbmRead st sec rq [] crc u) s = .next t ∧
          t.dev.reply = ⟨0, if (s.dev.peek st.val sec).ash then 1 else 0, (s.dev.peek st.val sec).bytes⟩ ∧
          (∀ l, s.dev.verdict st.val sec = .clean l → t.dev.hbm = s.dev.hbm) ∧
          (∀ l, s.dev.verdict st.val sec = .corrected l → (t.dev.sector st.val sec).errs = l ∧
            (t.dev.sector st.val sec).data = (s.dev.sector st.val sec).data) ∧
          (∀ l, s.dev.verdict st.val sec = .bad l →
            t.dev.get Obj.SECTORS_UNCORRECTABLE st.val = (s.dev.get Obj.SECTORS_UNCORRECTABLE st.val + 1) % 2 ^ 64 ∧
            t.dev.get Obj.UE_LOG st.val 0 = 2 ^ 63 + srcCode rq.source * 2 ^ 61 + 64 * sec ∧
            t.dev.get Obj.UE_LOG st.val 1 = s.dev.get Obj.UE_LOG st.val 0 % 2 ^ 64) ∧
          s.dev.OnlySector t.dev st.val sec ∧ s.OnlyStack t st.val) ∧
        (∀ crc ≥ 5, ∃ t, exec (.hbmRead st sec rq [] crc u) s = .next t ∧ t.dev.reply.status = 0 ∧ t.dev.reply.value = 1 ∧
          t.dev.get Obj.SECTORS_UNCORRECTABLE st.val = (s.dev.get Obj.SECTORS_UNCORRECTABLE st.val + 1) % 2 ^ 64 ∧
          t.dev.get Obj.CRC_REPLAYS st.val = (s.dev.get Obj.CRC_REPLAYS st.val + 4) % 2 ^ 64 ∧ t.dev.hbm = s.dev.hbm ∧ s.OnlyStack t st.val)) ∧
      (∀ c, rq.chain ≠ 0 → s.dev.gate st.val sec = .serve → chainOf (s.dev.chainEntries st.val rq.chain.val) = some c →
        (∀ o ∈ c.ops, o.opc ≤ 7) →
        ∃ t, exec (.hbmRead st sec rq [] 0 u) s = .next t ∧
          t.dev.reply = (let v := packLine c.bf16 ((wideElems c.bf16 (s.dev.peek st.val sec)).map fun x =>
              chainNarrow c.bf16 (c.ops.foldl (fun x o => chainUnary o.opc o.imm x) x.1, x.2))
            ⟨0, if v.ash then 1 else 0, v.bytes⟩) ∧
          s.Counted t Obj.CHAIN_ELEMENTS st.val (if c.bf16 then 32 else 16) ∧ (t.dev.stack st.val).hobClock = true ∧
          s.dev.OnlySector t.dev st.val sec ∧ s.OnlyStack t st.val) ∧
      (rq.chain ≠ 0 → s.dev.gate st.val sec = .serve → chainOf (s.dev.chainEntries st.val rq.chain.val) = none →
        ∃ t, exec (.hbmRead st sec rq [] 0 u) s = .next t ∧ t.dev.reply = ⟨0, 1, List.replicate 64 0⟩ ∧
          s.Counted t Obj.HOB_MISUSE st.val 1 ∧ t.dev.hbm = s.dev.hbm ∧ s.OnlyStack t st.val) ∧
      (∀ crc, s.dev.gate st.val sec = .failed →
        ∃ t, exec (.hbmRead st sec rq [] crc u) s = .next t ∧ t.dev.reply = ⟨0, 1, List.replicate 64 0⟩ ∧ t.dev.hbm = s.dev.hbm ∧
          s.OnlyStack t st.val) ∧
      (∀ crc, s.dev.gate st.val sec = .absent →
        ∃ t, exec (.hbmRead st sec rq [] crc u) s = .next t ∧ t.dev.reply = ⟨2, 1, List.replicate 64 0⟩ ∧ s.OnlyGrant t)) ∧
  (∀ (s : State) (st : Fin 32) (sec : Nat) (data : List Byte) (c : Option (Fin 16)) (rq : HbmReq) (u w : Turn), sec < 2 ^ 30 →
      data.length = 64 → s.dev.gate st.val sec = .serve → s.dev.NoWindow st.val → rq.chain = 0 → s.dev.WinsStack st.val u → w.rivals = [] →
      ∃ t v, exec (.hbmWrite st sec data [] false c 0 u) s = .next t ∧ exec (.hbmRead st sec rq [] 0 w) t = .next v ∧
        v.dev.reply = ⟨0, 0, data⟩)

/-- Scrubbing (R195) and pseudo-channel power states (R181): where its pseudo-channel keeps contents a scrub read of a sector that has taken no new
error writes it back when it is corrected; it moves on to the next sector, also from one it passes over, counting a pass at the end of the stack. An
idle pseudo-channel goes to POWER_DOWN or SELF_REFRESH and nothing is lost.
STACK_POWER_CTL (R185, R188): a write of 1 to an OFF stack makes every sector ash and starts training, and to another stores the bit; a write
of 0 starts the drain that ends in OFF, or ends the training at once. -/
def Obligations.ScrubsSleepAndStackPower : Prop :=
  (∀ (s : State) (st : Fin 32),
      (s.dev.get Obj.SCRUB_INTERVAL st.val ≠ 0 → s.dev.pch st.val (pchOfSec (s.dev.stack st.val).scrubNext) ≠ .failed →
        s.dev.pch st.val (pchOfSec (s.dev.stack st.val).scrubNext) ≠ .off → (s.dev.stack st.val).scrubNext + 1 < 2 ^ 30 →
        ∃ t, exec (.scrubRead st []) s = .next t ∧ (t.dev.stack st.val).scrubNext = (s.dev.stack st.val).scrubNext + 1 ∧
          (∀ l, s.dev.verdict st.val (s.dev.stack st.val).scrubNext = .corrected l → (t.dev.sector st.val (s.dev.stack st.val).scrubNext).errs = l) ∧
          s.dev.OnlySector t.dev st.val (s.dev.stack st.val).scrubNext ∧ s.OnlyStack t st.val) ∧
      (∀ errs, s.dev.get Obj.SCRUB_INTERVAL st.val ≠ 0 → (s.dev.pch st.val (pchOfSec (s.dev.stack st.val).scrubNext) = .failed ∨
          s.dev.pch st.val (pchOfSec (s.dev.stack st.val).scrubNext) = .off) → (s.dev.stack st.val).scrubNext + 1 < 2 ^ 30 →
        ∃ t, exec (.scrubRead st errs) s = .next t ∧ t.dev.stack st.val = { s.dev.stack st.val with scrubNext := (s.dev.stack st.val).scrubNext + 1 } ∧
          t = { s with dev := { s.dev with stks := t.dev.stks } } ∧ s.OnlyStack t st.val) ∧
      (s.dev.get Obj.SCRUB_INTERVAL st.val ≠ 0 → (s.dev.stack st.val).scrubNext = 2 ^ 30 - 1 →
        ∃ t, exec (.scrubRead st []) s = .next t ∧ (t.dev.stack st.val).scrubNext = 0 ∧
          t.dev.get Obj.SCRUB_PASSES st.val = (s.dev.get Obj.SCRUB_PASSES st.val + 1) % 2 ^ 32 ∧ s.OnlyStack t st.val) ∧
      (∀ p : Fin 64, s.dev.pch st.val p.val = .active →
        ∃ t, exec (.pseudoChannelPowerDown st p) s = .next t ∧ t.dev.pch st.val p.val = .powerDown ∧
          (∀ q, q ≠ p.val → t.dev.pch st.val q = s.dev.pch st.val q) ∧ t.dev.hbm = s.dev.hbm ∧ s.OnlyStack t st.val ∧
          s.dev.SameObjects t.dev [Obj.CHANNEL_STATE.key st.val (p.val / 2)]) ∧
      (∀ p : Fin 64, (s.dev.pch st.val p.val = .active ∨ s.dev.pch st.val p.val = .powerDown) →
        ∃ t, exec (.pseudoChannelSelfRefresh st p) s = .next t ∧ t.dev.pch st.val p.val = .selfRefresh ∧
          (∀ q, q ≠ p.val → t.dev.pch st.val q = s.dev.pch st.val q) ∧ t.dev.hbm = s.dev.hbm ∧ s.OnlyStack t st.val ∧
          s.dev.SameObjects t.dev [Obj.CHANNEL_STATE.key st.val (p.val / 2)])) ∧
  (∀ (s : State) (st : Fin 32), s.dev.Serves →
      (s.dev.get Obj.STACK_STATE st.val = 0 →
        ∃ t, exec (.stackPowerOn st) s = .next t ∧ t.dev.get Obj.STACK_STATE st.val = 1 ∧ t.dev.get Obj.STACK_POWER_CTL st.val = 1 ∧
          (∀ sec, t.dev.sector st.val sec = Sector.ashSector) ∧ (∀ k sec, k ≠ st.val → t.dev.sector k sec = s.dev.sector k sec) ∧
          t.dev.reply = ⟨0, 0, []⟩ ∧ s.OnlyStack t st.val) ∧
      (s.dev.get Obj.STACK_STATE st.val ≠ 0 →
        ∃ t, exec (.stackPowerOn st) s = .next t ∧ t.dev.get Obj.STACK_POWER_CTL st.val = 1 ∧ t.dev.reply = ⟨0, 0, []⟩ ∧
          s.OnlyObjects t [Obj.STACK_POWER_CTL.key st.val 0]) ∧
      (s.dev.get Obj.STACK_STATE st.val = 1 →
        ∃ t, exec (.stackPowerOff st) s = .next t ∧ t.dev.get Obj.STACK_STATE st.val = 0 ∧ t.dev.get Obj.STACK_POWER_CTL st.val = 0 ∧
          t.dev.reply = ⟨0, 0, []⟩ ∧ s.OnlyStack t st.val) ∧
      (∀ p < 64, 2 ≤ s.dev.get Obj.STACK_STATE st.val → s.dev.pch st.val p ≠ .hold → s.dev.pch st.val p ≠ .failed →
        ∃ t, exec (.stackPowerOff st) s = .next t ∧ (t.dev.stack st.val).draining = true ∧ (t.dev.stack st.val).powerOff = true ∧
          t.dev.get Obj.STACK_POWER_CTL st.val = 0 ∧ t.dev.hbm = s.dev.hbm ∧ t.dev.reply = ⟨0, 0, []⟩ ∧ s.OnlyStack t st.val) ∧
      (2 ≤ s.dev.get Obj.STACK_STATE st.val → (∀ p < 64, s.dev.pch st.val p = .hold) →
        ∃ t, exec (.stackPowerOff st) s = .next t ∧ t.dev.get Obj.STACK_STATE st.val = 0 ∧
          (∀ sec, t.dev.sector st.val sec = Sector.ashSector) ∧ (∀ p < 64, t.dev.pch st.val p = .off) ∧ s.OnlyStack t st.val))

/-- Drain and HOLD (R183, R184): a draining pseudo-channel without a write tag serves its reads and enters HOLD; at tick 500 the write tags left are
abandoned into the ash list; late data of an abandoned tag is absorbed and counted; at the end of the hold exactly the listed and marked sectors,
with those a failed bundle load owes, are ash, and the stack is READY, or DEGRADED where a channel is FAILED. -/
def Obligations.HoldsAbandonWritesIntoTheAshList : Prop :=
  ∀ (s : State) (st : Fin 32),
    (∀ p : Fin 64, s.dev.drains st.val p.val = true → s.dev.writeTags st.val p.val = [] → (s.dev.stack st.val).powerOff = false →
      ∃ t, exec (.holdEnter st p) s = .next t ∧ t.dev.pch st.val p.val = .hold ∧
        (∀ w ∈ (t.dev.stack st.val).waiting, pchOfSec w.sec ≠ p.val) ∧
        ((∀ q < 64, q ≠ p.val → s.dev.pch st.val q = .hold ∨ s.dev.pch st.val q = .failed) →
          t.dev.get Obj.STACK_STATE st.val = 4 ∧ (t.dev.stack st.val).draining = false) ∧ s.OnlyStack t st.val) ∧
    (∀ p : Fin 64, s.dev.drains st.val p.val = true → (s.dev.stack st.val).powerOff = false →
      (s.dev.stack st.val).ashList.length + (s.dev.writeTags st.val p.val).length ≤ 4096 →
      ∃ t, exec (.holdDrainTimeout st p) s = .next t ∧ t.dev.pch st.val p.val = .hold ∧
        (t.dev.stack st.val).ashList = (s.dev.stack st.val).ashList ++ (s.dev.writeTags st.val p.val).map (·.sec) ∧
        (t.dev.stack st.val).abandoned = (s.dev.stack st.val).abandoned ++
          (s.dev.writeTags st.val p.val).map (fun w => (w.sec, (s.dev.stack st.val).holdNo)) ∧
        (∀ w ∈ (t.dev.stack st.val).waiting, pchOfSec w.sec ≠ p.val) ∧
        ((∀ w ∈ (s.dev.stack st.val).waiting, pchOfSec w.sec = p.val → w ∈ s.dev.writeTags st.val p.val) → t.dev.hbm = s.dev.hbm) ∧
        s.OnlyStack t st.val) ∧
    (∀ sec < 2 ^ 30, ∀ a, (s.dev.stack st.val).abandoned.find? (fun a => a.1 = sec) = some a →
      ∃ t, exec (.lateWriteAbsorbed st sec) s = .next t ∧ (t.dev.stack st.val).abandoned = (s.dev.stack st.val).abandoned.erase a ∧
        t.dev.get Obj.LATE_WRITES_ABSORBED st.val = (s.dev.get Obj.LATE_WRITES_ABSORBED st.val + 1) % 2 ^ 64 ∧
        t.dev.hbm = s.dev.hbm ∧ s.OnlyStack t st.val) ∧
    (s.dev.get Obj.STACK_STATE st.val = 4 →
      ∃ t, exec (.holdEnd st) s = .next t ∧
        (∀ sec < 2 ^ 30, (sec ∈ (s.dev.stack st.val).ashList ∨ pchOfSec sec ∈ (s.dev.stack st.val).overflow) →
          t.dev.sector st.val sec = Sector.ashSector) ∧
        (∀ sec < 2 ^ 30, sec ∉ (s.dev.stack st.val).ashList → pchOfSec sec ∉ (s.dev.stack st.val).overflow →
          (∀ o ∈ s.dev.bundles.owedAsh, o.1 = st.val → sec < o.2.1 ∨ o.2.1 + o.2.2 ≤ sec) →
          t.dev.sector st.val sec = s.dev.sector st.val sec) ∧
        ((∃ p < 64, s.dev.pch st.val p = .failed) → t.dev.get Obj.STACK_STATE st.val = 3) ∧
        ((∀ p < 64, s.dev.pch st.val p ≠ .failed) → t.dev.get Obj.STACK_STATE st.val = 2) ∧
        (∀ p < 64, s.dev.pch st.val p = .hold → t.dev.pch st.val p = .active) ∧ (t.dev.stack st.val).ashList = [] ∧ s.OnlyStack t st.val)

/-- Retraining (R186, R187): a request starts the retraining of a channel in service, or queues it behind the one retraining; its end returns
the channel to ACTIVE and serves the requests that waited for it; the third failed attempt puts it in FAILED and a stack that is not draining in DEGRADED. An OFF
stack answers the instance-busy error. -/
def Obligations.RetrainingReturnsOrFailsTheChannel : Prop :=
  ∀ (s : State) (st ch : Fin 32),
    (s.dev.Serves → s.dev.get Obj.STACK_STATE st.val ≠ 0 → s.dev.chanInService st.val ch.val = true → (s.dev.stack st.val).draining = false →
      ch.val ∉ (s.dev.stack st.val).retrainQueue → (s.dev.stack st.val).retraining = none →
      ∃ t, exec (.retrainRequest st (2 ^ ch.val)) s = .next t ∧ (t.dev.stack st.val).retraining = some ch.val ∧
        t.dev.pch st.val (2 * ch.val) = .retrain ∧ t.dev.pch st.val (2 * ch.val + 1) = .retrain ∧
        t.dev.get Obj.RETRAINS st.val = (s.dev.get Obj.RETRAINS st.val + 1) % 2 ^ 32 ∧ t.dev.reply = ⟨0, 0, []⟩ ∧ t.dev.hbm = s.dev.hbm ∧
        s.OnlyStack t st.val) ∧
    (∀ other, s.dev.Serves → s.dev.get Obj.STACK_STATE st.val ≠ 0 → s.dev.chanInService st.val ch.val = true →
      (s.dev.stack st.val).draining = false → (s.dev.stack st.val).retraining = some other →
      ∃ t, exec (.retrainRequest st (2 ^ ch.val)) s = .next t ∧ ch.val ∈ (t.dev.stack st.val).retrainQueue ∧
        (t.dev.stack st.val).retraining = some other ∧ t.dev.reply = ⟨0, 0, []⟩ ∧ s.OnlyStack t st.val) ∧
    (∀ mask, s.dev.Serves → s.dev.get Obj.STACK_STATE st.val = 0 →
      ∃ t, exec (.retrainRequest st mask) s = .next t ∧ t.dev.reply = ⟨3, 0, []⟩ ∧ s.OnlyObjects t []) ∧
    ((s.dev.stack st.val).retraining = some ch.val → (s.dev.stack st.val).retrainQueue = [] →
      s.dev.pch st.val (2 * ch.val) = .retrain → s.dev.pch st.val (2 * ch.val + 1) = .retrain →
      (∀ w ∈ (s.dev.stack st.val).waiting ++ (s.dev.stack st.val).boundary, w.crc = 0) →
      ∃ t, exec (.channelRetrainDone st ch) s = .next t ∧ (t.dev.stack st.val).retraining = none ∧
        t.dev.pch st.val (2 * ch.val) = .active ∧ t.dev.pch st.val (2 * ch.val + 1) = .active ∧
        (∀ w ∈ (t.dev.stack st.val).waiting, w.win = none → chanOfSec w.sec ≠ ch.val) ∧ t.vault = s.vault ∧ t.pending = s.pending) ∧
    ((s.dev.stack st.val).retraining = some ch.val → tget 0 (s.dev.stack st.val).attempts ch.val + 1 < 3 →
      ∃ t, exec (.channelTrainTimeout st ch) s = .next t ∧
        tget 0 (t.dev.stack st.val).attempts ch.val = tget 0 (s.dev.stack st.val).attempts ch.val + 1 ∧
        t = { s with dev := { s.dev with stks := t.dev.stks } } ∧ s.OnlyStack t st.val) ∧
    ((s.dev.stack st.val).retraining = some ch.val → 3 ≤ tget 0 (s.dev.stack st.val).attempts ch.val + 1 →
      (s.dev.stack st.val).retrainQueue = [] → (s.dev.stack st.val).draining = false →
      ∃ t, exec (.channelTrainTimeout st ch) s = .next t ∧ t.dev.pch st.val (2 * ch.val) = .failed ∧
        t.dev.pch st.val (2 * ch.val + 1) = .failed ∧ t.dev.get Obj.STACK_STATE st.val = 3 ∧
        t.dev.get Obj.RETRAIN_FAILURES st.val = (s.dev.get Obj.RETRAIN_FAILURES st.val + 1) % 2 ^ 32 ∧ t.vault = s.vault ∧ t.pending = s.pending)

/-- Checkpoint apertures (R204, R206, R207, R218), of requests that win their cycle: a sector of an enabled window joins its partial block and the
sector that completes the block compresses it, and each is acknowledged; with the partial buffer full a sector that begins a block waits with its tag; a
window that is off, or a line outside it, counts a misuse; an idle partial block is stored, as an ash block where a line is missing; a read
delivers the decoded elements; a write to CKPT_WIN flushes the window's partial blocks. -/
def Obligations.ApertureSectorsCollectAndDecode : Prop :=
  ∀ (s : State) (st : Fin 32) (w : Fin 16), s.dev.NoWindow st.val → s.dev.NoneWaits st.val →
    (∀ line < 2 ^ 26, ∀ (data : List Byte) (ash : Bool) (crc : Nat) (u : Turn), crc < 5 → s.dev.WinsStack st.val u →
      s.dev.gate st.val (s.dev.srcSec st.val (.aper w.val line)) = .serve →
      (s.dev.aperOk st.val w.val line = false →
        ∃ t, exec (.apertureWrite st w line data ash crc u) s = .next t ∧ s.Counted t Obj.HOB_MISUSE st.val 1 ∧
          (t.dev.stack st.val).partials = (s.dev.stack st.val).partials ∧ t.dev.hbm = s.dev.hbm ∧ t.dev.reply = ⟨0, 0, []⟩ ∧
          s.OnlyStack t st.val) ∧
      (s.dev.aperOk st.val w.val line = true →
        tget none (s.dev.stack st.val).partials (partKey w.val (line / (s.dev.ckpt st.val w.val).lines)) = none →
        s.dev.partialLines st.val + (s.dev.ckpt st.val w.val).lines ≤ 2048 →
        ∃ t, exec (.apertureWrite st w line data ash crc u) s = .next t ∧
          tget none (t.dev.stack st.val).partials (partKey w.val (line / (s.dev.ckpt st.val w.val).lines)) =
            some ⟨tset none [] (line % (s.dev.ckpt st.val w.val).lines) (some ⟨fit 0 64 data, ash⟩)⟩ ∧
          (∀ k, k ≠ partKey w.val (line / (s.dev.ckpt st.val w.val).lines) →
            tget none (t.dev.stack st.val).partials k = tget none (s.dev.stack st.val).partials k) ∧
          t.dev.hbm = s.dev.hbm ∧ t.dev.reply = ⟨0, 0, []⟩ ∧ s.OnlyStack t st.val) ∧
      (s.dev.aperOk st.val w.val line = true →
        tget none (s.dev.stack st.val).partials (partKey w.val (line / (s.dev.ckpt st.val w.val).lines)) = none →
        2048 < s.dev.partialLines st.val + (s.dev.ckpt st.val w.val).lines → s.dev.tagFree st.val (s.dev.srcSec st.val (.aper w.val line)) = true →
        ∃ t, exec (.apertureWrite st w line data ash 0 u) s = .next t ∧
          (t.dev.stack st.val).waiting = (s.dev.stack st.val).waiting ++
            [⟨s.dev.srcSec st.val (.aper w.val line), some (w.val, line), true, none, data, [], ash, none, .demand, [], 0⟩] ∧
          (t.dev.stack st.val).partials = (s.dev.stack st.val).partials ∧ t.dev.hbm = s.dev.hbm ∧ t.dev.reply = s.dev.reply ∧
          s.OnlyStack t st.val) ∧
      (∀ p, s.dev.aperOk st.val w.val line = true →
        tget none (s.dev.stack st.val).partials (partKey w.val (line / (s.dev.ckpt st.val w.val).lines)) = some p →
        (tset none p.lines (line % (s.dev.ckpt st.val w.val).lines) (some ⟨fit 0 64 data, ash⟩)).length = (s.dev.ckpt st.val w.val).lines →
        ∃ t, exec (.apertureWrite st w line data ash crc u) s = .next t ∧
          tget none (t.dev.stack st.val).partials (partKey w.val (line / (s.dev.ckpt st.val w.val).lines)) = none ∧
          s.Counted t Obj.CKPT_BLOCKS_WRITTEN st.val 1 ∧ s.OtherStacksStored t st.val ∧ t.dev.reply = ⟨0, 0, []⟩ ∧ s.OnlyStack t st.val)) ∧
    (∀ b < 2 ^ 22, ∀ p, s.dev.get Obj.CKPT_STALE st.val ≠ 0 → tget none (s.dev.stack st.val).partials (partKey w.val b) = some p →
      ∃ t, exec (.ckptAgeFlush st w b) s = .next t ∧ tget none (t.dev.stack st.val).partials (partKey w.val b) = none ∧
        s.Counted t Obj.CKPT_AGE_FLUSHES st.val 1 ∧ s.Counted t Obj.CKPT_BLOCKS_WRITTEN st.val 1 ∧
        ((∃ i < (s.dev.ckpt st.val w.val).lines, tget none p.lines i = none) → s.Counted t Obj.CKPT_BLOCKS_ASH st.val 1 ∧
          (s.dev.secFailed st.val (((s.dev.ckpt st.val w.val).scale + b) / 64) = false →
            (t.dev.sector st.val (((s.dev.ckpt st.val w.val).scale + b) / 64)).data.getD (((s.dev.ckpt st.val w.val).scale + b) % 64) 0 = 0xFF)) ∧
        s.OtherStacksStored t st.val ∧ s.OnlyStack t st.val) ∧
    (∀ line < 2 ^ 26, ∀ (rq : HbmReq) (crc : Nat) (u : Turn), rq.chain = 0 → crc < 5 → s.dev.WinsStack st.val u →
      s.dev.gate st.val (s.dev.srcSec st.val (.aper w.val line)) = .serve →
      (s.dev.aperOk st.val w.val line = true →
        ∃ t, exec (.apertureRead st w line rq crc u) s = .next t ∧
          t.dev.reply = (let v := packLine (s.dev.ckpt st.val w.val).bf16 (s.dev.aperElems st.val w.val line); ⟨0, if v.ash then 1 else 0, v.bytes⟩) ∧
          s.OtherStacksStored t st.val ∧ s.OnlyStack t st.val) ∧
      (s.dev.aperOk st.val w.val line = false →
        ∃ t, exec (.apertureRead st w line rq crc u) s = .next t ∧ t.dev.reply = ⟨0, 1, List.replicate 64 0⟩ ∧
          s.Counted t Obj.HOB_MISUSE st.val 1 ∧ t.dev.hbm = s.dev.hbm ∧ s.OnlyStack t st.val)) ∧
    (∀ v, s.dev.Serves →
      ∃ t, exec (.ckptWinWrite st w v) s = .next t ∧ t.dev.get Obj.CKPT_WIN st.val w.val = (v / 8 * 8) % 2 ^ 64 ∧
        (∀ k, k / 2 ^ 22 = w.val → tget none (t.dev.stack st.val).partials k = none) ∧
        (∀ k, k / 2 ^ 22 ≠ w.val → tget none (t.dev.stack st.val).partials k = tget none (s.dev.stack st.val).partials k) ∧
        s.OtherStacksStored t st.val ∧ t.dev.reply = ⟨0, 0, []⟩ ∧ s.OnlyStack t st.val)

/-- Hob doorbells and fold-add (R212 to R215, R219, R374): a doorbell the stack takes joins its queue and starts the clock; with none ahead
a window is armed, closed or flushed at once; a doorbell that is not legal, or that the stack does not take, is turned away with its
status; the one at the front ends and leaves the queue; an idle engine's clock stops; fold-add, of a request that wins its cycle and whose transfer
does not fail five times, stores the sum of two lines, and an absent stack answers absent. -/
def Obligations.HobDoorbellsQueueAndFinish : Prop :=
  ∀ (s : State) (st : Fin 32),
    (∀ v, s.dev.Serves → s.dev.TakesBells st.val →
      ((s.dev.hobJob st.val (bits (bellWord 1 v) 58 51)).isSome →
        ∃ t, exec (.runJob st v) s = .next t ∧ (t.dev.stack st.val).doorbells = (s.dev.stack st.val).doorbells ++ [s.dev.queuedBell st.val (bellWord 1 v)] ∧
          (t.dev.stack st.val).hobClock = true ∧ t.dev.reply = ⟨0, 0, []⟩ ∧ t.dev.hbm = s.dev.hbm ∧ s.OnlyStack t st.val) ∧
      (s.dev.hobJob st.val (bits (bellWord 1 v) 58 51) = none →
        ∃ t, exec (.runJob st v) s = .next t ∧ t.dev.reply = ⟨4, 0, []⟩ ∧ s.OnlyObjects t []) ∧
      (s.dev.bmaxFits st.val (bits (bellWord 2 v) 58 56) true = true → (s.dev.stack st.val).doorbells = [] →
        ∃ t, exec (.armBmax st v) s = .next t ∧ (t.dev.stack st.val).doorbells = [bellWord 2 v] ∧
          tget none (t.dev.stack st.val).bmax (bits (bellWord 2 v) 58 56) = some ⟨[], 0xFFFFFFFF, 0, bellWord 2 v⟩ ∧
          t.dev.reply = ⟨0, 0, []⟩ ∧ t.dev.hbm = s.dev.hbm ∧ s.OnlyStack t st.val) ∧
      (s.dev.bmaxFits st.val (bits (bellWord 2 v) 58 56) true = false →
        ∃ t, exec (.armBmax st v) s = .next t ∧ t.dev.reply = ⟨4, 0, []⟩ ∧ s.OnlyObjects t []) ∧
      ((s.dev.stack st.val).doorbells = [] →
        ∃ t, exec (.closeBmax st v) s = .next t ∧ (t.dev.stack st.val).doorbells = [bellWord 3 v] ∧
          tget none (t.dev.stack st.val).bmax (bits (bellWord 3 v) 58 56) = none ∧ t.dev.reply = ⟨0, 0, []⟩ ∧ t.dev.slow = s.dev.slow ∧
          t.vault = s.vault ∧ t.pending = s.pending) ∧
      ((s.dev.stack st.val).doorbells = [] → s.dev.NoWindow st.val → s.dev.NoneWaits st.val →
        ∃ t, exec (.flushCkpt st v) s = .next t ∧ (t.dev.stack st.val).doorbells = [bellWord 4 v] ∧
          (∀ k, k / 2 ^ 22 = bits (bellWord 4 v) 58 55 → tget none (t.dev.stack st.val).partials k = none) ∧
          (∀ k, k / 2 ^ 22 ≠ bits (bellWord 4 v) 58 55 → tget none (t.dev.stack st.val).partials k = tget none (s.dev.stack st.val).partials k) ∧
          s.OtherStacksStored t st.val ∧ t.dev.reply = ⟨0, 0, []⟩ ∧ s.OnlyStack t st.val)) ∧
    (∀ v, s.dev.Serves → ¬ s.dev.TakesBells st.val →
      ∀ c ∈ [Instr.runJob st v, .armBmax st v, .closeBmax st v, .flushCkpt st v],
        ∃ t, exec c s = .next t ∧ t.dev.reply = ⟨3, 0, []⟩ ∧ s.OnlyObjects t []) ∧
    (∀ v rest, (s.dev.stack st.val).doorbells = v :: rest →
      ∃ t, exec (.hobDoorbellDone st) s = .next t ∧ (t.dev.stack st.val).doorbells = rest ∧
        (rest = [] → bits v 63 60 = 1 → (hobJobOf (v / 2 ^ 64)).isSome → s.Counted t Obj.JOBS_DONE st.val 1) ∧
        (rest = [] → bits v 63 60 ≠ 1 → t.dev.hbm = s.dev.hbm) ∧
        t.dev.slow = s.dev.slow ∧ t.vault = s.vault ∧ t.pending = s.pending) ∧
    ((s.dev.stack st.val).doorbells = [] → (s.dev.stack st.val).partials = [] →
      ∃ t, exec (.hobClockStop st) s = .next t ∧ (t.dev.stack st.val).hobClock = false ∧
        t = { s with dev := { s.dev with stks := t.dev.stks } } ∧ ∀ k, k ≠ st.val → t.dev.stack k = s.dev.stack k) ∧
    (∀ sec < 2 ^ 30, ∀ (bf16 : Bool) (data : List Byte) (ash : Bool) (crc : Nat) (u : Turn), s.dev.NoWindow st.val →
      s.dev.WinsStack st.val u →
      (s.dev.gate st.val sec = .serve → crc < 5 →
        ∃ t, exec (.foldAdd st sec bf16 data ash crc u) s = .next t ∧
          t.dev.sector st.val sec = (let l := foldLine bf16 (s.dev.peek st.val sec) ⟨data, ash⟩
            if l.ash then Sector.ashSector else ⟨fit 0 64 l.bytes, false, []⟩) ∧
          s.Counted t Obj.FOLD_ADD_SECTORS st.val 1 ∧ s.dev.OnlySector t.dev st.val sec ∧ t.dev.reply = ⟨0, 0, []⟩ ∧ s.OnlyStack t st.val) ∧
      (s.dev.gate st.val sec = .absent →
        ∃ t, exec (.foldAdd st sec bf16 data ash crc u) s = .next t ∧ t.dev.reply = ⟨2, 0, []⟩ ∧ s.OnlyGrant t))

/-- Stoker doorbells (R249 to R251, R270): one the Stoker accepts joins the queue and its groups read QUEUED; a READY Stoker with none in hand takes
it at once and its groups no longer do; a Stoker that is OFF or FAILED is busy whatever the word, as is one that is full; else a word that names another
Stoker's groups is invalid; a doorbell whose groups are finished leaves the Stoker, which takes the next. -/
def Obligations.StokerDoorbellsQueueAndFinish : Prop :=
  ∀ (s : State) (k : Fin 2),
    (∀ v, s.dev.Serves → ∀ op c, (op, c) ∈ [(1, Instr.update k v), (2, .norm k v), (3, .resetState k v)] →
      (bellOf k.val (bellWord op v) → s.dev.get Obj.STOKER_STATE k.val ≠ 0 → s.dev.get Obj.STOKER_STATE k.val ≠ 4 →
        (s.dev.stoker k.val).queue.length < 16 →
        ((s.dev.get Obj.STOKER_STATE k.val ≠ 2 ∨ (s.dev.stoker k.val).taken.isSome) →
          ∃ t, exec c s = .next t ∧ (t.dev.stoker k.val).queue = (s.dev.stoker k.val).queue ++ [bellWord op v] ∧
            (t.dev.stoker k.val).taken = (s.dev.stoker k.val).taken ∧ (∀ g ∈ bellGroups (bellWord op v), t.dev.groupBit g 3 = true) ∧
            t.dev.reply = ⟨0, 0, []⟩ ∧ s.OnlyStoker t k.val ((bellGroups (bellWord op v)).map fun g => Obj.GROUP_STATUS.key g 0)) ∧
        (s.dev.get Obj.STOKER_STATE k.val = 2 → (s.dev.stoker k.val).taken = none → (s.dev.stoker k.val).queue = [] →
          ∃ t, exec c s = .next t ∧ (t.dev.stoker k.val).queue = [] ∧
            (t.dev.stoker k.val).taken = some (bellWord op v, bellGroups (bellWord op v)) ∧
            (∀ g ∈ bellGroups (bellWord op v), t.dev.groupBit g 3 = false) ∧
            t.dev.reply = ⟨0, 0, []⟩ ∧ s.OnlyStoker t k.val ((bellGroups (bellWord op v)).map fun g => Obj.GROUP_STATUS.key g 0))) ∧
      ((s.dev.get Obj.STOKER_STATE k.val = 0 ∨ s.dev.get Obj.STOKER_STATE k.val = 4 ∨
          (bellOf k.val (bellWord op v) ∧ 16 ≤ (s.dev.stoker k.val).queue.length)) →
        ∃ t, exec c s = .next t ∧ t.dev.reply = ⟨3, 0, []⟩ ∧ s.OnlyObjects t []) ∧
      (¬ bellOf k.val (bellWord op v) → s.dev.get Obj.STOKER_STATE k.val ≠ 0 → s.dev.get Obj.STOKER_STATE k.val ≠ 4 →
        ∃ t, exec c s = .next t ∧ t.dev.reply = ⟨4, 0, []⟩ ∧ s.OnlyObjects t [])) ∧
    (∀ v gs, (s.dev.stoker k.val).taken = some (v, gs) → (s.dev.stoker k.val).code = none →
      (∀ g ∈ gs, s.dev.passesOver (bits v 63 60) g = true) →
      ((s.dev.stoker k.val).queue = [] →
        ∃ t, exec (.stokerDoorbellDone k) s = .next t ∧ (t.dev.stoker k.val).taken = none ∧
          (bit v 35 = false → t = { s with dev := { s.dev with stokers := t.dev.stokers } }) ∧
          (∀ j, j ≠ k.val → t.dev.stoker j = s.dev.stoker j) ∧ s.KeepsMemory t) ∧
      (∀ w rest, (s.dev.stoker k.val).queue = w :: rest → s.dev.get Obj.STOKER_STATE k.val = 2 →
        ∃ t, exec (.stokerDoorbellDone k) s = .next t ∧ (t.dev.stoker k.val).taken = some (w, bellGroups w) ∧
          (t.dev.stoker k.val).queue = rest ∧ (∀ j, j ≠ k.val → t.dev.stoker j = s.dev.stoker j) ∧ s.KeepsMemory t))

/-- The groups of a doorbell (R253, R254, R256, R257, R266, R267), where no transfer fails: the update of an elementwise group whose memory is
served ends with STEP_COUNT one higher and the group no longer RUNNING; that of a vector-code group begins with the first eight chunks dealt to the cores and the others left;
an uncorrectable error in the working SRAM leaves the group INCONSISTENT with STEP_COUNT as it was; NORM stores the sum of the scaled
squares; RESET_STATE zeroes the state, STEP_COUNT and the status bits; a chunk that returns leaves its core, and with none left the update ends;
a program fault, or an error in the working SRAM on a chunk's return, interrupts it. -/
def Obligations.StokerGroupsRunInOrder : Prop :=
  ∀ (s : State) (k : Fin 2),
    (∀ v g rest errs, s.dev.nextGroup k.val 1 = some (v, g, rest) → g / 2048 = k.val → s.dev.GroupServed g →
      ((s.dev.gcfg g).rule ≤ 1 →
        ∃ t, exec (.groupUpdate k none errs []) s = .next t ∧ s.Counted t Obj.STEP_COUNT g 1 ∧ t.dev.groupBit g 4 = false ∧
          t.dev.get Obj.CURRENT_GROUP k.val = 0xFFFF ∧ (t.dev.stoker k.val).taken = some (v, rest) ∧
          (∀ g', g' ≠ g → t.dev.get Obj.STEP_COUNT g' = s.dev.get Obj.STEP_COUNT g') ∧ s.KeepsUnits t) ∧
      ((s.dev.gcfg g).rule = 3 →
        ∃ t r, exec (.groupUpdate k none errs []) s = .next t ∧ (t.dev.stoker k.val).code = some r ∧ r.group = g ∧
          r.t = s.dev.get Obj.STEP_COUNT g + 1 ∧ r.left = (List.range (((s.dev.gcfg g).n + 1023) / 1024)).drop 8 ∧
          (∀ m < 8, m < ((s.dev.gcfg g).n + 1023) / 1024 → ∃ es, r.coreOf m = some (m, es)) ∧ r.latched = s.dev.latchGroup g ∧
          t.dev.groupBit g 4 = true ∧ t.dev.get Obj.CURRENT_GROUP k.val = g ∧ (t.dev.stoker k.val).taken = some (v, rest) ∧ s.KeepsUnits t) ∧
      ((s.dev.gcfg g).rule ≤ 1 → 0 < (s.dev.gcfg g).n →
        ∃ t, exec (.groupUpdate k (some 0) errs []) s = .next t ∧ t.dev.groupBit g 2 = true ∧ t.dev.groupBit g 4 = false ∧
          t.dev.get Obj.STEP_COUNT g = s.dev.get Obj.STEP_COUNT g ∧ (t.dev.stoker k.val).taken = some (v, rest) ∧ s.KeepsUnits t)) ∧
    (∀ v g rest, s.dev.nextGroup k.val 2 = some (v, g, rest) → g / 2048 = k.val →
      s.dev.RangeServed (s.dev.gcfg g).grad ((s.dev.gcfg g).gb * (s.dev.gcfg g).n) →
      s.dev.RangeClean (s.dev.gcfg g).grad ((s.dev.gcfg g).gb * (s.dev.gcfg g).n) →
      ∃ t, exec (.groupNorm k none []) s = .next t ∧ t.dev.get Obj.GRAD_SQ_SUM g = s.dev.gradNorm g % 2 ^ Obj.GRAD_SQ_SUM.bitsOf ∧
        t.dev.groupBit g 4 = false ∧ t.dev.get Obj.STEP_COUNT g = s.dev.get Obj.STEP_COUNT g ∧
        (t.dev.stoker k.val).taken = some (v, rest) ∧ s.KeepsMemory t ∧ s.KeepsUnits t) ∧
    (∀ v g rest, s.dev.nextGroup k.val 3 = some (v, g, rest) → g / 2048 = k.val →
      ∃ t, exec (.groupResetState k) s = .next t ∧ t.dev.get Obj.STEP_COUNT g = 0 ∧ t.dev.consecFails g = 0 ∧
        (∀ b < 3, t.dev.groupBit g b = false) ∧ t.dev.groupBit g 4 = false ∧ (t.dev.stoker k.val).taken = some (v, rest) ∧
        ((s.dev.gcfg g).rule ≠ 2 → ∀ i < (s.dev.gcfg g).ns * ((s.dev.gcfg g).n * (s.dev.gcfg g).mb),
          (t.dev.slowLine k.val (((s.dev.gcfg g).state + i) / 64)).data.getD (((s.dev.gcfg g).state + i) % 64) 0 = 0) ∧
        t.dev.hbm = s.dev.hbm ∧ s.KeepsUnits t) ∧
    (∀ r chunk els ws sts errs, (s.dev.stoker k.val).code = some r → r.coreOf chunk = some els → r.group / 2048 = k.val →
      s.dev.GroupServed r.group → (∀ m ∈ chunk :: r.left, 1024 * m < (s.dev.gcfg r.group).n) →
      ((r.left ≠ [] ∨ tset none r.cores (chunk % 8) none ≠ []) → chunk ∉ r.left →
        ∃ t r', exec (.programChunkDone k chunk ws sts errs false []) s = .next t ∧ (t.dev.stoker k.val).code = some r' ∧
          r'.coreOf chunk = none ∧ r'.group = r.group ∧ r'.t = r.t ∧ r'.latched = r.latched ∧ r'.headers = r.headers ∧
          t.dev.get Obj.STEP_COUNT r.group = s.dev.get Obj.STEP_COUNT r.group ∧ s.KeepsUnits t) ∧
      (r.left = [] → tset none r.cores (chunk % 8) none = [] → r.headers.length = (s.dev.gcfg r.group).shards →
        ∃ t, exec (.programChunkDone k chunk ws sts errs false []) s = .next t ∧ (t.dev.stoker k.val).code = none ∧
          t.dev.get Obj.STEP_COUNT r.group = r.t % 2 ^ Obj.STEP_COUNT.bitsOf ∧ t.dev.groupBit r.group 4 = false ∧ s.KeepsUnits t)) ∧
    (∀ r chunk els, (s.dev.stoker k.val).code = some r → r.coreOf chunk = some els →
      (∃ t, exec (.programFaulted k chunk) s = .next t ∧ (t.dev.stoker k.val).code = none ∧ t.dev.groupBit r.group 2 = true ∧
        t.dev.groupBit r.group 4 = false ∧ t.dev.get Obj.CURRENT_GROUP k.val = 0xFFFF ∧ s.KeepsMemory t ∧ s.KeepsUnits t) ∧
      (∀ ws sts errs crc, ∃ t, exec (.programChunkDone k chunk ws sts errs true crc) s = .next t ∧ (t.dev.stoker k.val).code = none ∧
        t.dev.groupBit r.group 2 = true ∧ t.dev.groupBit r.group 4 = false ∧ t.dev.get Obj.CURRENT_GROUP k.val = 0xFFFF ∧ s.KeepsMemory t ∧
        s.KeepsUnits t))

/-- Group settings and seeds (R60, R244, R246, R247, R268): a write to GROUP_CTL of an idle group stores it when it disables the group or when the
settings are legal and no range overlaps an enabled group's, and is refused otherwise; a write to GROUP_STATUS clears the bits it names,
FALLBACK with CONSEC_FAILS and a root step forced; a write to a seed restarts its sequence. -/
def Obligations.GroupCtlEnablesAndStatusClears : Prop :=
  ∀ (s : State), s.dev.Serves →
    (∀ (g : Fin 4096) (v w : Nat), w = v % 2 ^ 64 / 2 ^ 46 * 2 ^ 46 →
      (s.dev.groupIdle g.val = false → ∃ t, exec (.groupEnable g v) s = .next t ∧ t.dev.reply = ⟨3, 0, []⟩ ∧ s.OnlyObjects t []) ∧
      (s.dev.groupIdle g.val = true →
        (bit w 63 = false ∨ s.dev.groupLegal (s.dev.gcfgOf g.val w) = true ∧ s.dev.groupClash (s.dev.gcfgOf g.val w) = none) →
        ∃ t, exec (.groupEnable g v) s = .next t ∧ t.dev.get Obj.GROUP_CTL g.val = w ∧ t.dev.reply = ⟨0, 0, []⟩ ∧
          s.OnlyObjects t [Obj.GROUP_CTL.key g.val 0]) ∧
      (s.dev.groupIdle g.val = true → bit w 63 = true → s.dev.groupLegal (s.dev.gcfgOf g.val w) = false →
        ∃ t, exec (.groupEnable g v) s = .next t ∧ t.dev.reply = ⟨4, 0, []⟩ ∧ s.OnlyObjects t []) ∧
      (s.dev.groupIdle g.val = true → bit w 63 = true → s.dev.groupLegal (s.dev.gcfgOf g.val w) = true →
        (s.dev.groupClash (s.dev.gcfgOf g.val w)).isSome →
        ∃ t, exec (.groupEnable g v) s = .next t ∧ t.dev.reply = ⟨4, 0, []⟩ ∧ t.dev.get Obj.GROUP_CTL g.val = s.dev.get Obj.GROUP_CTL g.val ∧
          s.KeepsMemory t ∧ s.KeepsUnits t)) ∧
    (∀ (g : Fin 4096) (v : Nat),
      (s.dev.groupBit g.val 4 = true → ∃ t, exec (.groupStatusWrite g v) s = .next t ∧ t.dev.reply = ⟨3, 0, []⟩ ∧ s.OnlyObjects t []) ∧
      (s.dev.groupBit g.val 4 = false →
        ∃ t, exec (.groupStatusWrite g v) s = .next t ∧
          (∀ b < 3, t.dev.groupBit g.val b = (s.dev.groupBit g.val b && !bit v b)) ∧ t.dev.groupBit g.val 3 = s.dev.groupBit g.val 3 ∧
          t.dev.consecFails g.val = (if bit v 1 then 0 else s.dev.consecFails g.val) ∧
          (∀ x, x ∈ (t.dev.stoker (g.val / 2048)).forced ↔ x ∈ (s.dev.stoker (g.val / 2048)).forced ∨ (bit v 1 = true ∧ x = g.val)) ∧
          t.dev.reply = ⟨0, 0, []⟩ ∧ s.OnlyStoker t (g.val / 2048) [Obj.GROUP_STATUS.key g.val 0])) ∧
    (∀ (k : Fin 2) (v : Nat), s.dev.get Obj.STOKER_STATE k.val ≠ 0 → s.dev.get Obj.STOKER_STATE k.val ≠ 4 →
      ∃ t, exec (.stokerSrSeedWrite k v) s = .next t ∧ t.dev.get Obj.STOKER_SR_SEED k.val = v % 2 ^ Obj.STOKER_SR_SEED.bitsOf ∧
        t.dev.stoker k.val = { s.dev.stoker k.val with srDraws := 0 } ∧ t.dev.reply = ⟨0, 0, []⟩ ∧
        s.OnlyStoker t k.val [Obj.STOKER_SR_SEED.key k.val 0]) ∧
    (∀ (h : Fin 1024) (v : Nat), s.dev.HearthServes h.val Obj.HEARTH_SR_SEED 0 →
      ∃ t, exec (.hearthSrSeedWrite h v) s = .next t ∧ t.dev.get Obj.HEARTH_SR_SEED h.val = v % 2 ^ Obj.HEARTH_SR_SEED.bitsOf ∧
        t.dev.hearth h.val = { s.dev.hearth h.val with srDraws := 0 } ∧ (∀ j, j ≠ h.val → t.dev.hearth j = s.dev.hearth j) ∧
        t = { s with dev := { s.dev with od := t.dev.od, hearths := t.dev.hearths, reply := t.dev.reply } } ∧
        s.dev.SameObjects t.dev [Obj.HEARTH_SR_SEED.key h.val 0] ∧ t.dev.reply = ⟨0, 0, []⟩)

/-- Slow tiers and Stoker states (R239, R240, R241, R242, R270, R271): a READY Stoker delivers and stores the lines of a request that wins its cycle, a word written
as ash being poison, and counts their bytes; an OFF or FAILED one answers absent; while it trains or sleeps, or where the request loses its
cycle, it waits in order; an idle Stoker sleeps, and a wake returns it and serves what waited; it is READY with its memory and a link trained,
and FAILED at the third failure of its memory or of both links. -/
def Obligations.SlowTierServesAndStokersChangeState : Prop :=
  ∀ (s : State) (k : Fin 2),
    (∀ (h : Fin 1024) (line : Nat) (c : Fin 16) (rivals : List (Fin 3)), line < 2 ^ 32 → s.dev.WinsSlow k.val h.val rivals →
      (s.dev.stoker k.val).waiting = [] →
      (s.dev.get Obj.STOKER_STATE k.val = 2 →
        (∃ t, exec (.slowTierRead h k line c [] rivals) s = .next t ∧
          t.dev.reply = ⟨0, if (s.dev.slowLine k.val line).poison ≠ 0 then 1 else 0, fit 0 64 (s.dev.slowLine k.val line).data⟩ ∧
          s.Counted t Obj.STOKER_SLOW_BYTES k.val 64 ∧ s.Counted t Obj.CTX_SLOW_BYTES c.val 64 ∧ s.KeepsMemory t ∧ s.KeepsUnits t ∧
          s.dev.SameObjects t.dev [Obj.STOKER_SLOW_BYTES.key k.val 0, Obj.CTX_SLOW_BYTES.key c.val 0]) ∧
        (∀ words, (∃ w < 8, bit (s.dev.slowLine k.val line).poison w = false ∧ words.getD w .clean = SramOutcome.uncorrectable) →
          ∃ t, exec (.slowTierRead h k line c words rivals) s = .next t ∧ t.dev.reply.status = 0 ∧ t.dev.reply.value = 1 ∧
            (∀ j < 64, words.getD (j / 8) .clean ≠ SramOutcome.uncorrectable →
              t.dev.reply.bytes.getD j 0 = (s.dev.slowLine k.val line).data.getD j 0) ∧
            s.KeepsMemory t ∧ s.KeepsUnits t) ∧
        (∀ (data : List Byte) (ash : Bool), ∃ t, exec (.slowTierWrite h k line c data ash rivals) s = .next t ∧
          (t.dev.slowLine k.val line).data = (if ash then List.replicate 64 0 else fit 0 64 data) ∧
          (∀ w < 8, bit (t.dev.slowLine k.val line).poison w = ash) ∧
          (∀ j l, l < 2 ^ 32 → (j, l) ≠ (k.val, line) → t.dev.slowLine j l = s.dev.slowLine j l) ∧
          s.Counted t Obj.STOKER_SLOW_BYTES k.val 64 ∧ s.Counted t Obj.CTX_SLOW_BYTES c.val 64 ∧ t.dev.hbm = s.dev.hbm ∧
          t.dev.reply = ⟨0, 0, []⟩ ∧ s.KeepsUnits t)) ∧
      ((s.dev.get Obj.STOKER_STATE k.val = 0 ∨ s.dev.get Obj.STOKER_STATE k.val = 4) → ∀ words data ash,
        (∃ t, exec (.slowTierRead h k line c words rivals) s = .next t ∧ t.dev.reply = ⟨2, 1, List.replicate 64 0⟩ ∧
          t.dev.od = s.dev.od ∧ s.KeepsMemory t ∧ s.KeepsUnits t) ∧
        (∃ t, exec (.slowTierWrite h k line c data ash rivals) s = .next t ∧ t.dev.reply = ⟨2, 0, []⟩ ∧
          t.dev.od = s.dev.od ∧ s.KeepsMemory t ∧ s.KeepsUnits t)) ∧
      ((s.dev.get Obj.STOKER_STATE k.val = 1 ∨ s.dev.get Obj.STOKER_STATE k.val = 3) → ∀ words data ash,
        (∃ t, exec (.slowTierRead h k line c words rivals) s = .next t ∧
          s.SlowWaits t k.val ⟨line, false, [], false, c.val, words⟩) ∧
        (∃ t, exec (.slowTierWrite h k line c data ash rivals) s = .next t ∧
          s.SlowWaits t k.val ⟨line, true, data, ash, c.val, []⟩))) ∧
    (∀ (h : Fin 1024) (line : Nat) (c : Fin 16) (rivals : List (Fin 3)) (w : Nat) (words : List SramOutcome) (data : List Byte) (ash : Bool),
      line < 2 ^ 32 → rotPick 3 (tget 0 s.dev.arb (arbStoker k.val)) (slowPort h.val :: rivals.map Fin.val) = some w → w ≠ slowPort h.val →
      (∃ t, exec (.slowTierRead h k line c words rivals) s = .next t ∧ s.SlowWaits t k.val ⟨line, false, [], false, c.val, words⟩) ∧
      (∃ t, exec (.slowTierWrite h k line c data ash rivals) s = .next t ∧ s.SlowWaits t k.val ⟨line, true, data, ash, c.val, []⟩)) ∧
    (s.dev.get Obj.STOKER_STATE k.val = 2 → (s.dev.stoker k.val).queue = [] → (s.dev.stoker k.val).waiting = [] →
      (s.dev.stoker k.val).taken = none → s.dev.get Obj.SLEEP_IDLE k.val ≠ 0 →
      ∃ t, exec (.stokerSleep k) s = .next t ∧ t.dev.get Obj.STOKER_STATE k.val = 3 ∧ s.OnlyObjects t [Obj.STOKER_STATE.key k.val 0]) ∧
    (s.dev.get Obj.STOKER_STATE k.val = 3 → ∃ t, exec (.stokerWake k) s = .next t ∧ t.dev.get Obj.STOKER_STATE k.val = 2 ∧
      (t.dev.stoker k.val).waiting = [] ∧
      ((s.dev.stoker k.val).queue = [] → (s.dev.stoker k.val).waiting = [] → s.OnlyStoker t k.val [Obj.STOKER_STATE.key k.val 0]) ∧
      (∀ w, (s.dev.stoker k.val).waiting = [w] → w.write = true → w.line < 2 ^ 32 →
        (t.dev.slowLine k.val w.line).data = (if w.ash then List.replicate 64 0 else fit 0 64 w.data)) ∧ t.dev.hbm = s.dev.hbm ∧ s.KeepsUnits t) ∧
    (∀ links, s.dev.get Obj.STOKER_STATE k.val = 1 → (s.dev.stoker k.val).failedAt 0 < 3 →
      (∃ l < 2, bit links l = true ∧ (s.dev.stoker k.val).failedAt (l + 1) < 3) →
      ∃ t, exec (.stokerReady k links) s = .next t ∧ t.dev.get Obj.STOKER_STATE k.val = 2 ∧ (t.dev.stoker k.val).waiting = [] ∧
        ((s.dev.stoker k.val).queue = [] → (s.dev.stoker k.val).waiting = [] → s.OnlyStoker t k.val [Obj.STOKER_STATE.key k.val 0]) ∧
        t.dev.hbm = s.dev.hbm ∧ s.KeepsUnits t) ∧
    (∀ (part : Fin 3) (n : Nat → Nat),
      (∀ q, n q = if q = part.val then min 3 ((s.dev.stoker k.val).failedAt part.val + 1) else (s.dev.stoker k.val).failedAt q) →
      s.dev.get Obj.STOKER_STATE k.val = 1 →
      ∃ t, exec (.stokerTrainTimeout k part) s = .next t ∧ (∀ q, (t.dev.stoker k.val).failedAt q = n q) ∧
        t.dev.get Obj.STOKER_STATE k.val = (if n 0 = 3 ∨ (n 1 = 3 ∧ n 2 = 3) then 4 else 1) ∧ s.KeepsMemory t ∧ s.KeepsUnits t)

/-- Frames that ask for service (R134, R174, R213, R276, R282, R292, R293, R374): WRITE and WRITE_PARTIAL store their lines or bytes, ADD adds its line, READ_REQ is
answered with what the line holds; a scratchpad line outside a region open to remote writes is refused, an aperture refuses ADD, a hearth or
stack that is not there answers absent; each is answered to its sender, and nothing else is stored. A frame waits in the receive buffer behind
one of its VL, and a WRITE or READ_REQ for the clock of the region it addresses (R292, R374). -/
def Obligations.RequestFramesAreServedAndAnswered : Prop :=
  ∀ (s : State) (p : Fin 16) (f : Frame) (q : Nat) (crc : List (Nat × Nat)), s.dev.NoSubscriber → s.dev.AnswersVia f.srcId f.vl.val q →
    (∀ h off, s.dev.FrameFor p.val 1 f → s.dev.area f.addr = .scr h off →
      (s.dev.hearthOpen h = true → s.dev.clockOn (h / 64) = true → s.dev.remoteOk h (off / 64) (off / 64 + f.linesM1.val) = true → off / 64 + f.linesM1.val < 32768 →
        ∃ t, exec (.write p f crc) s = .next t ∧ (∀ k ≤ f.linesM1.val, (t.dev.hearth h).line (off / 64 + k) = Frame.lineAt f k) ∧
          (∀ l < 32768, l < off / 64 ∨ off / 64 + f.linesM1.val < l → (t.dev.hearth h).line l = (s.dev.hearth h).line l) ∧
          (∀ j, j ≠ h → t.dev.hearth j = s.dev.hearth j) ∧ s.Answered t f 0xB 0 q [] [] ∧ s.Counted t Obj.FRAMES_RX p.val 1 ∧
          s.KeepsMemory t) ∧
      (s.dev.hearthOpen h = true → s.dev.clockOn (h / 64) = false →
        ∃ t, exec (.write p f crc) s = .next t ∧ s.FrameWaits t p.val (rxOf (frameOf 1 f) crc)) ∧
      (s.dev.hearthOpen h = true → s.dev.clockOn (h / 64) = true → s.dev.remoteOk h (off / 64) (off / 64 + f.linesM1.val) = false →
        ∃ t, exec (.write p f crc) s = .next t ∧ (∀ l, (t.dev.hearth h).line l = (s.dev.hearth h).line l) ∧ s.Answered t f 0xB 1 q [] [] ∧
          s.Counted t Obj.REMOTE_WRITES_REFUSED h 1 ∧ s.KeepsMemory t) ∧
      (s.dev.hearthOpen h = false →
        ∃ t, exec (.write p f crc) s = .next t ∧ t.dev.hearths = s.dev.hearths ∧ s.Answered t f 0xB 2 q [] [] ∧ s.KeepsMemory t)) ∧
    (∀ st sec, s.dev.FrameFor p.val 1 f → s.dev.area f.addr = .hbm st sec → f.linesM1 = 0 →
      (s.dev.gate st sec = .serve → s.dev.NoWindow st → tget 0 crc (hbmKey st sec) < 5 →
        ∃ t, exec (.write p f crc) s = .next t ∧
          t.dev.sector st sec = (if f.ash.getD 0 false then Sector.ashSector else ⟨(Frame.lineAt f 0).bytes, false, []⟩) ∧
          s.dev.OnlySector t.dev st sec ∧ s.Answered t f 0xB 0 q [] [] ∧ t.dev.hearths = s.dev.hearths ∧ t.dev.slow = s.dev.slow) ∧
      (s.dev.gate st sec = .serve → s.dev.NoWindow st → 5 ≤ tget 0 crc (hbmKey st sec) →
        ∃ t, exec (.write p f crc) s = .next t ∧ t.dev.sector st sec = Sector.ashSector ∧ s.dev.OnlySector t.dev st sec ∧
          s.Answered t f 0xB 0 q [] [] ∧ t.dev.hearths = s.dev.hearths ∧ t.dev.slow = s.dev.slow) ∧
      (s.dev.gate st sec = .stopped →
        ∃ t, exec (.write p f crc) s = .next t ∧ s.FrameWaits t p.val (rxOf (frameOf 1 f) crc)) ∧
      (s.dev.gate st sec = .absent →
        ∃ t, exec (.write p f crc) s = .next t ∧ s.Answered t f 0xB 2 q [] [] ∧ t.dev.hearths = s.dev.hearths ∧ s.KeepsMemory t)) ∧
    (∀ h off, s.dev.FrameFor p.val 2 f → s.dev.area f.addr = .scr h off →
      (f.linesM1 = 0 → s.dev.hearthOpen h = true → s.dev.clockOn (h / 64) = true → s.dev.remoteOk h (off / 64) (off / 64) = true → off + 64 ≤ 2097152 →
        ∃ t, exec (.writePartial p f crc) s = .next t ∧
          (∀ j < 64, (t.dev.hearth h).byte (off + j) = if bit f.ext j then f.payload.getD j 0 else (s.dev.hearth h).byte (off + j)) ∧
          (∀ a < 2097152, a < off ∨ off + 64 ≤ a → (t.dev.hearth h).byte a = (s.dev.hearth h).byte a) ∧
          (∀ j, j ≠ h → t.dev.hearth j = s.dev.hearth j) ∧ s.Answered t f 0xB 0 q [] [] ∧ s.KeepsMemory t) ∧
      (f.linesM1 ≠ 0 →
        ∃ t, exec (.writePartial p f crc) s = .next t ∧ t.dev.hearths = s.dev.hearths ∧ s.Answered t f 0xB 3 q [] [] ∧ s.KeepsMemory t)) ∧
    (s.dev.FrameFor p.val 3 f → f.linesM1 = 0 →
      (∀ st sec, s.dev.area f.addr = .hbm st sec → s.dev.gate st sec = .serve → s.dev.NoWindow st → tget 0 crc (hbmKey st sec) < 5 →
        ∃ t, exec (.add p f crc) s = .next t ∧
          t.dev.sector st sec = (let l := foldLine (f.attr = 1) (s.dev.peek st sec) (Frame.lineAt f 0)
            if l.ash then Sector.ashSector else ⟨fit 0 64 l.bytes, false, []⟩) ∧
          s.Counted t Obj.FOLD_ADD_SECTORS st 1 ∧ s.dev.OnlySector t.dev st sec ∧ s.Answered t f 0xB 0 q [] [] ∧ t.dev.slow = s.dev.slow) ∧
      (∀ st w l, s.dev.area f.addr = .aper st w l →
        ∃ t, exec (.add p f crc) s = .next t ∧ s.Answered t f 0xB 1 q [] [] ∧ t.dev.hearths = s.dev.hearths ∧ s.KeepsMemory t) ∧
      (∀ h off, s.dev.area f.addr = .scr h off →
        ∃ t, exec (.add p f crc) s = .next t ∧ s.Answered t f 0xB 3 q [] [] ∧ t.dev.hearths = s.dev.hearths ∧ s.KeepsMemory t)) ∧
    (s.dev.FrameFor p.val 4 f → f.linesM1 = 0 →
      (∀ h off, s.dev.area f.addr = .scr h off → s.dev.hearthOpen h = true → s.dev.clockOn (h / 64) = true → s.dev.heldRead h off 64 = false →
        ∃ t, exec (.readReq p f [] crc) s = .next t ∧
          s.Answered t f 5 0 q ((s.dev.hearth h).line (off / 64)).bytes [((s.dev.hearth h).line (off / 64)).ash] ∧
          t.dev.hearths = s.dev.hearths ∧ s.KeepsMemory t) ∧
      (∀ st sec, s.dev.area f.addr = .hbm st sec → s.dev.gate st sec = .serve → tget 0 crc (hbmKey st sec) < 5 →
        ∃ t, exec (.readReq p f [] crc) s = .next t ∧ s.Answered t f 5 0 q (s.dev.peek st sec).bytes [(s.dev.peek st sec).ash] ∧
          s.dev.OnlySector t.dev st sec ∧ t.dev.hearths = s.dev.hearths ∧ t.dev.slow = s.dev.slow) ∧
      (∀ h off errs, s.dev.area f.addr = .scr h off → s.dev.hearthOpen h = false →
        ∃ t, exec (.readReq p f errs crc) s = .next t ∧ s.Answered t f 5 2 q [] [] ∧ t.dev.hearths = s.dev.hearths ∧ s.KeepsMemory t) ∧
      (∀ h off errs, s.dev.area f.addr = .scr h off → s.dev.hearthOpen h = true → s.dev.clockOn (h / 64) = false →
        ∃ t, exec (.readReq p f errs crc) s = .next t ∧ s.FrameWaits t p.val { rxOf (frameOf 4 f) crc with errs := errs })) ∧
    (∀ ty c, (ty, c) ∈ [(1, Instr.write p f crc), (2, .writePartial p f crc), (3, .add p f crc), (4, .readReq p f [] crc)] →
      s.dev.Takes p.val (frameOf ty f) → Frame.laneOk (frameOf ty f) = true → s.dev.ownId = some f.dstId →
      ((s.dev.port p.val).rx.any fun r => r.frame.vl = f.vl) = true →
      ∃ t, exec c s = .next t ∧ s.FrameWaits t p.val (rxOf (frameOf ty f) crc))

/-- Answers, notices and slot writes (R135, R277, R294, R295, R300, R461): an answer that nothing waits for is counted late; a line read for a
transfer is in its scratchpad and no longer waited for, as is a line acknowledged; a host load's line is what it returns; a notice adds to the
counter it names; the lines of a proxied slot write go to the slot's buffer of the home its write began under; a probe's answer records the
distance; the notice of an event of another device enters the ring. A notice waits at its region's boundary for the clock, and a slot write in
the receive buffer for the clock and its turn at the router (R25, R162, R374). -/
def Obligations.AnswersNoticesAndSlotWritesArrive : Prop :=
  ∀ (s : State) (p : Fin 16) (f : Frame),
    (∀ ty c, (ty, c) ∈ [(5, Instr.readResp p f), (0xB, .ack p f)] → s.dev.FrameFor p.val ty f →
      tget none s.dev.net.awaits f.xferTag = none →
      ∃ t, exec c s = .next t ∧ s.Counted t Obj.LATE_ANSWERS 0 1 ∧ t.dev.hearths = s.dev.hearths ∧ t.dev.net = s.dev.net ∧ s.KeepsMemory t) ∧
    (∀ h k x w, s.dev.FrameFor p.val 5 f → f.linesM1 = 0 → f.attr = 0 → tget none s.dev.net.awaits f.xferTag = some (.xfer h k) →
      (s.dev.hearth h).place k = some x → x.tag = some f.xferTag → x.waiting.find? (fun w => w.2 = f.addr) = some w →
      ∃ t, exec (.readResp p f) s = .next t ∧ (t.dev.hearth h).line (x.lineOf w.1) = Frame.lineAt f 0 ∧
        (t.dev.hearth h).place k = some { x with waiting := x.waiting.erase w } ∧ s.Counted t Obj.STREAM_BYTES_IN h 64 ∧
        s.Counted t Obj.FABRIC_BYTES x.ctx 64 ∧ (∀ j, j ≠ h → t.dev.hearth j = s.dev.hearth j) ∧ s.KeepsMemory t) ∧
    (∀ dst a off len, s.dev.FrameFor p.val 5 f → f.linesM1 = 0 → f.attr = 0 → f.addr = a → inOdWindow a = false → off + len ≤ 64 → 0 < len →
      tget none s.dev.net.awaits f.xferTag = some (.hostLoad dst a off len []) →
      ∃ t, exec (.readResp p f) s = .next t ∧ t.dev.reply = ⟨0, 0, ((Frame.lineAt f 0).bytes.drop off).take len⟩ ∧
        tget none t.dev.net.awaits f.xferTag = none ∧ t.dev.hearths = s.dev.hearths ∧ s.KeepsMemory t) ∧
    (∀ h k x w, s.dev.FrameFor p.val 0xB f → f.linesM1 = 0 → f.attr = 0 → tget none s.dev.net.awaits f.xferTag = some (.xfer h k) →
      (s.dev.hearth h).place k = some x → x.tag = some f.xferTag → x.waiting.find? (fun w => w.2 = f.addr) = some w →
      ∃ t, exec (.ack p f) s = .next t ∧ (t.dev.hearth h).place k = some { x with waiting := x.waiting.erase w } ∧
        (∀ l, (t.dev.hearth h).line l = (s.dev.hearth h).line l) ∧ (∀ j, j ≠ h → t.dev.hearth j = s.dev.hearth j) ∧ s.KeepsMemory t) ∧
    (∀ dst, s.dev.FrameFor p.val 0xB f → s.dev.host.held = [] → tget none s.dev.net.awaits f.xferTag = some (.hostStore dst) →
      ∃ t, exec (.ack p f) s = .next t ∧ tget none t.dev.net.awaits f.xferTag = none ∧ t.dev.hearths = s.dev.hearths ∧ s.KeepsMemory t) ∧
    (∀ h off, s.dev.FrameFor p.val 6 f → s.dev.area f.addr = .scr h off → s.dev.hearthOpen h = true →
      (bit f.ext 63 = true → s.dev.clockOn (h / 64) = true →
        ∃ t, exec (.notice p f) s = .next t ∧
          (∀ k, (t.dev.hearth h).counter k = if k = bits f.ext 62 57 then countBy ((s.dev.hearth h).counter k) 1 else (s.dev.hearth h).counter k) ∧
          (∀ j, j ≠ h → t.dev.hearth j = s.dev.hearth j) ∧ s.KeepsMemory t) ∧
      (s.dev.clockOn (h / 64) = false →
        ∃ t, exec (.notice p f) s = .next t ∧ tget [] t.dev.edge (h / 64) = tget [] s.dev.edge (h / 64) ++
          [if bit f.ext 63 then EdgeReq.counter h (bits f.ext 62 57) else .notice h (off / 64)] ∧
          t.dev.hearths = s.dev.hearths ∧ s.KeepsMemory t) ∧
      (∀ w, bit f.ext 63 = false → s.dev.clockOn (h / 64) = true → s.dev.regionAt h (off / 64) = some w → bit w 23 = true →
        ∃ t, exec (.notice p f) s = .next t ∧ s.Counted t Obj.ARRIVAL_NOTICES h 1 ∧
          (∀ k, (t.dev.hearth h).counter k = if k = bits w 22 17 then countBy ((s.dev.hearth h).counter k) 1 else (s.dev.hearth h).counter k) ∧
          (∀ j, j ≠ h → t.dev.hearth j = s.dev.hearth j) ∧ s.KeepsMemory t)) ∧
    (∀ fl lines low rivals, s.dev.FrameFor p.val 7 f → (fl, lines, low) = flueExt f →
      (∀ q, s.dev.hearthOpen (s.dev.flueFrameHome (frameOf 7 f)) = false → s.dev.WinsFlue fl (whoPort p.val) rivals → f.last = true → s.dev.AnswersVia f.srcId f.vl.val q →
        ∃ t, exec (.flueWrite p f rivals) s = .next t ∧ s.Answered t f 0xB 2 q [] [] ∧ t.dev.hearths = s.dev.hearths ∧ t.dev.flues = s.dev.flues ∧
          s.KeepsMemory t) ∧
      (∀ a b home, s.dev.flueBegun (frameOf 7 f) = some a → home = (FlueCfg.ofWord a.cfg).home fl → s.dev.hearthOpen home = true →
        s.dev.clockOn (home / 64) = true → a.buf = some b → a.ack = none →
        f.last = false → f.payload.length / 64 ≤ 256 → f.payload.length / 64 < a.left →
        ∃ t, exec (.flueWrite p f rivals) s = .next t ∧
          (∀ i < f.payload.length / 64, (t.dev.hearth home).line (b + f.addr / 64 + i) =
            ⟨fit 0 64 ((f.payload.drop (64 * i)).take 64), f.ash.getD i false⟩) ∧
          { a with left := a.left - f.payload.length / 64 } ∈ (t.dev.flue fl).arrivals ∧ (∀ g, g ≠ fl → t.dev.flue g = s.dev.flue g) ∧
          s.KeepsMemory t) ∧
      (s.dev.hearthOpen (s.dev.flueFrameHome (frameOf 7 f)) = true →
        (s.dev.clockOn (s.dev.flueFrameHome (frameOf 7 f) / 64) = false ∨
          (s.dev.flueBegun (frameOf 7 f) = none ∧ ¬ s.dev.WinsFlue fl (whoPort p.val) rivals)) →
        ∃ t, exec (.flueWrite p f rivals) s = .next t ∧ s.FrameWaits t p.val (rxOf (frameOf 7 f) [])) ∧
      (∀ w i, s.dev.hearthOpen (s.dev.flueHome fl) = true → s.dev.clockOn (s.dev.flueHome fl / 64) = true →
        s.dev.WinsFlue fl (whoPort p.val) rivals → (s.dev.flueCfg fl).enable = true → (s.dev.flueCfg fl).proxy = false →
        (s.dev.flueCfg fl).lines = lines → s.dev.flueBegun (frameOf 7 f) = none →
        w = fullStamp (s.dev.flue fl).put low → i = w % (s.dev.flueCfg fl).slots → ((s.dev.flue fl).slot i).st = .empty →
        ((s.dev.flue fl).slot i).pending = false → lapBit w (s.dev.flueCfg fl).slots ≠ ((s.dev.flue fl).slot i).doneLap →
        f.last = false → f.payload.length / 64 < lines →
        ∃ t, exec (.flueWrite p f rivals) s = .next t ∧ (t.dev.flue fl).put = max (s.dev.flue fl).put (w + 1) ∧
          ((t.dev.flue fl).slot i).pending = true ∧
          (∃ a ∈ (t.dev.flue fl).arrivals, a.src = f.srcId ∧ a.stamp = low ∧ a.slot = i ∧ a.buf = some (s.dev.flueBuf fl i) ∧
            a.left = lines - f.payload.length / 64) ∧ (∀ g, g ≠ fl → t.dev.flue g = s.dev.flue g) ∧ s.KeepsMemory t)) ∧
    (∀ w, s.dev.FrameFor p.val 9 f → w = leNat (f.payload.take 32) →
      (∀ m < 512, bits w 255 248 ≠ 6 → tget none s.dev.net.awaits (bits w 207 192) = some (.probe m) → f.srcId % 512 = m →
        ∃ t, exec (.odResp p f) s = .next t ∧ t.dev.domByte Obj.HOP_MAP m = BitVec.ofNat 8 (f.hops.val + 1) ∧
          bits (t.dev.domByte Obj.DISTANCE_MAP (m / 4)).toNat (2 * (m % 4) + 1) (2 * (m % 4)) = (if f.hops = 0 then 1 else 2) ∧
          tget none t.dev.net.awaits (bits w 207 192) = none ∧ t.dev.hearths = s.dev.hearths ∧ s.KeepsMemory t) ∧
      (bits w 255 248 = 6 → s.dev.pilot.restarting = false → s.dev.eventOn Event.remote .global 0 = true → s.dev.events.ring.length < 4096 →
        ∃ t, exec (.odResp p f) s = .next t ∧
          t.dev.events.ring = s.dev.events.ring ++ [⟨Event.remote.code, blockOf .global 0, none, s.dev.get Obj.EVENT_NEXT_SEQ,
            bits (leNat ((f.payload.drop 32).take 32)) 191 160, s.dev.tick, f.srcId⟩] ∧ t.dev.hearths = s.dev.hearths ∧ s.KeepsMemory t))

/-- Frames on the link (R276, R278, R279, R288, R290, R291, R295, R296, R299): a frame on a lane that is not its own is counted and dropped; a
frame with a LINK_SEQ other than the one due is not taken, and a later one has a replay asked for, as has a corrupted one; the sixteenth tag
failure discards the keys; a frame for another device goes to its port with HOPS one higher, or at HOPS 15 is counted unroutable and
answered ABSENT where its type is answered; a sent frame takes credits, is kept for a replay and leaves as its bytes under the session; an
AUTHENTICATING or REJECTED port sends SEC messages alone; returned credits do not pass the buffer; a replay confirms the frames before it; a
line unanswered in time is counted, and lost. -/
def Obligations.FramesAreForwardedSentAndReplayed : Prop :=
  ∀ (s : State) (p : Fin 16),
    (∀ f, s.dev.Takes p.val f → Frame.laneOk f = false →
      ∃ t, exec (.unknownFrame p f) s = .next t ∧ s.Counted t Obj.FRAMES_RX p.val 1 ∧ s.Counted t Obj.FRAMES_DROPPED p.val 1 ∧
        t.dev.net = s.dev.net ∧ t.dev.hearths = s.dev.hearths ∧ s.OnlyPort t p.val ∧ s.KeepsMemory t) ∧
    (∀ f ty c k, (ty, c) ∈ [(0xB, Instr.ack p f), (5, .readResp p f), (6, .notice p f)] → s.dev.portUp p.val = true →
      tget none (s.dev.port p.val).keySlots f.keyIdx.val = some k → k.rx.isSome = true →
      (s.dev.port p.val).held f.vl.val + Frame.cost (frameOf ty f) ≤ vlCredits f.vl.val →
      (f.linkSeq < (s.dev.port p.val).dueSeq f.keyIdx.val → exec c s = .next s) ∧
      ((s.dev.port p.val).dueSeq f.keyIdx.val < f.linkSeq →
        ∃ t, exec c s = .next t ∧ t.dev.port p.val = { s.dev.port p.val with
            replayFrom := some ((s.dev.port p.val).replayFrom.getD ((s.dev.port p.val).dueSeq f.keyIdx.val)) } ∧
          t = { s with dev := { s.dev with ports := t.dev.ports } } ∧ s.OnlyPort t p.val)) ∧
    (3 ≤ s.dev.get Obj.PORT_STATE p.val → (s.dev.port p.val).replayFrom = none →
      (∃ t, exec (.corruptedFrame p false) s = .next t ∧ t.dev.port p.val = { s.dev.port p.val with replayFrom := some (s.dev.port p.val).seqRx } ∧
        t = { s with dev := { s.dev with ports := t.dev.ports } } ∧ s.OnlyPort t p.val) ∧
      ((s.dev.port p.val).authTicks.length < 15 →
        ∃ t, exec (.corruptedFrame p true) s = .next t ∧ s.Counted t Obj.AUTH_FAILURES p.val 1 ∧
          (t.dev.port p.val).replayFrom = some (s.dev.port p.val).seqRx ∧ (t.dev.port p.val).keySlots = (s.dev.port p.val).keySlots ∧
          s.OnlyPort t p.val ∧ s.KeepsMemory t) ∧
      (15 ≤ (s.dev.port p.val).authTicks.length → (∀ x ∈ (s.dev.port p.val).authTicks, s.dev.tick < x + 50000) →
        ∃ t, exec (.corruptedFrame p true) s = .next t ∧ s.Counted t Obj.AUTH_FAILURES p.val 1 ∧ t.dev.get Obj.PORT_STATE p.val = 3 ∧
          (t.dev.port p.val).keySlots = [] ∧ (t.dev.port p.val).offer = none ∧ s.OnlyPort t p.val ∧ s.KeepsMemory t)) ∧
    (∀ f o, s.dev.Takes p.val f → Frame.laneOk f = true → f.nbr = false → s.dev.ownId = some o → o ≠ f.dstId → s.dev.NoSubscriber →
      (∀ q, f.hops ≠ 15 → s.dev.AnswersVia f.dstId f.vl.val q →
        ∃ t, exec (.frameForward p f) s = .next t ∧ t.dev.net.queue = s.dev.net.queue ++ [(q, { f with hops := f.hops + 1 })] ∧
          s.Counted t Obj.FRAMES_RX p.val 1 ∧ t.dev.hearths = s.dev.hearths ∧ s.OnlyPort t p.val ∧ s.KeepsMemory t) ∧
      (∀ q, f.hops = 15 → Frame.unanswered f = false → f.srcId ≠ o → s.dev.AnswersVia f.srcId (Frame.absentAnswer f).vl.val q →
        ∃ t, exec (.frameForward p f) s = .next t ∧ s.Counted t Obj.FRAMES_UNROUTABLE 0 1 ∧
          t.dev.net.queue = s.dev.net.queue ++ [(q, Frame.absentAnswer f)] ∧ t.dev.hearths = s.dev.hearths ∧ s.OnlyPort t p.val ∧
          s.KeepsMemory t) ∧
      (f.hops = 15 → Frame.unanswered f = true →
        ∃ t, exec (.frameForward p f) s = .next t ∧ s.Counted t Obj.FRAMES_UNROUTABLE 0 1 ∧ t.dev.net.queue = s.dev.net.queue ∧
          t.dev.hearths = s.dev.hearths ∧ s.OnlyPort t p.val ∧ s.KeepsMemory t)) ∧
    (∀ f, s.dev.get Obj.PORT_STATE p.val = 4 → (s.dev.port p.val).changing = false →
      (tget none (s.dev.port p.val).keySlots (s.dev.port p.val).keyTx).isSome → s.dev.nextFrame p.val = some f → s.dev.net.newRoutes = [] →
      ∃ t, exec (.frameTransmit p) s = .next t ∧ t.dev.net.queue = s.dev.net.queue.erase (p.val, f) ∧
        (t.dev.port p.val).retry = (s.dev.port p.val).retry ++ [(s.dev.port p.val).stamp f] ∧
        (t.dev.port p.val).seqTx = (s.dev.port p.val).seqTx + 1 ∧
        t.dev.creditsOf p.val f.vl.val = s.dev.creditsOf p.val f.vl.val - Frame.cost f ∧ s.Counted t Obj.FRAMES_TX p.val 1 ∧
        t.dev.reply = ⟨0, 0, Frame.wire ((s.dev.port p.val).stamp f) (s.dev.port p.val).txSession⟩ ∧
        t.dev.hearths = s.dev.hearths ∧ s.OnlyPort t p.val ∧ s.KeepsMemory t) ∧
    (∀ f, (s.dev.get Obj.PORT_STATE p.val = 3 ∨ s.dev.get Obj.PORT_STATE p.val = 6) → (s.dev.port p.val).changing = false →
      s.dev.headOf p.val 3 = some f → s.dev.net.newRoutes = [] →
      (f.ftype.val = 0xA → s.dev.canSend p.val f = true →
        ∃ t, exec (.frameTransmit p) s = .next t ∧ t.dev.net.queue = s.dev.net.queue.erase (p.val, f) ∧
          (t.dev.port p.val).retry = (s.dev.port p.val).retry ++ [(s.dev.port p.val).stamp f] ∧
          t.dev.reply = ⟨0, 0, Frame.wire ((s.dev.port p.val).stamp f) (s.dev.port p.val).txSession⟩ ∧ s.Counted t Obj.FRAMES_TX p.val 1 ∧
          t.dev.hearths = s.dev.hearths ∧ s.OnlyPort t p.val ∧ s.KeepsMemory t) ∧
      (f.ftype.val ≠ 0xA → exec (.frameTransmit p) s = .next s)) ∧
    (∀ (vl : Fin 4) n c, ∃ t, exec (.creditReturn p vl n c) s = .next t ∧
      t.dev.creditsOf p.val vl.val = min (if vl.val < 2 then 16384 else 512) (s.dev.creditsOf p.val vl.val + n) ∧
      (∀ v, v ≠ vl.val → t.dev.creditsOf p.val v = s.dev.creditsOf p.val v) ∧ (t.dev.port p.val).retry = (s.dev.port p.val).confirm c ∧
      t = { s with dev := { s.dev with ports := t.dev.ports } } ∧ s.OnlyPort t p.val) ∧
    (∀ f l, (s.dev.port p.val).confirm f.linkSeq = f :: l →
      ∃ t, exec (.replayRequest p f.linkSeq) s = .next t ∧ t.dev.port p.val = { s.dev.port p.val with retry := f :: l } ∧
        s.Counted t Obj.RETRIES p.val 1 ∧ s.dev.SameObjects t.dev [Obj.RETRIES.key p.val 0] ∧ t.dev.net = s.dev.net ∧
        t.dev.reply = ⟨0, 0, (f :: l).flatMap fun g => Frame.wire g ((s.dev.port p.val).sessionOf g)⟩ ∧
        t.dev.hearths = s.dev.hearths ∧ s.OnlyPort t p.val ∧ s.KeepsMemory t) ∧
    (∀ (vl : Fin 4) f, s.dev.headOf p.val vl.val = some f → s.dev.get Obj.CREDIT_STALL_LIMIT ≠ 0 →
      (s.dev.creditsOf p.val f.vl.val < Frame.cost f + s.dev.reserve f →
        ∃ t, exec (.creditStall p vl) s = .next t ∧ s.Counted t Obj.CREDIT_STALLS p.val 1 ∧ t.dev.ports = s.dev.ports ∧
          t.dev.hearths = s.dev.hearths ∧ s.KeepsMemory t) ∧
      (Frame.cost f + s.dev.reserve f ≤ s.dev.creditsOf p.val f.vl.val → exec (.creditStall p vl) s = .next s)) ∧
    (∀ tag,
      (∀ h k x w rest, tget none s.dev.net.awaits tag = some (.xfer h k) → (s.dev.hearth h).place k = some x → x.waiting = w :: rest →
        x.tag = some tag →
        ∃ t, exec (.fabricTimeout tag) s = .next t ∧ s.Counted t Obj.FABRIC_TIMEOUTS 0 1 ∧ s.Counted t Obj.STREAM_FAULT_LINES h 1 ∧
          (t.dev.hearth h).place k = some ({ x with waiting := rest }.noNotice w.1) ∧
          (x.d.dir = 0 → (t.dev.hearth h).line (x.lineOf w.1) = Line.zerosAsh) ∧ (∀ j, j ≠ h → t.dev.hearth j = s.dev.hearth j) ∧
          s.KeepsMemory t) ∧
      (∀ dst a off len got, tget none s.dev.net.awaits tag = some (.hostLoad dst a off len got) → 0 < len →
        ∃ t, exec (.fabricTimeout tag) s = .next t ∧ s.Counted t Obj.FABRIC_TIMEOUTS 0 (piecesLeft a off len got) ∧
          s.Counted t Obj.HOST_ERRORS 0 1 ∧ tget none t.dev.net.awaits tag = none ∧
          t.dev.reply = ⟨0, 0, List.replicate len 0xFF⟩ ∧ t.dev.hearths = s.dev.hearths ∧ s.KeepsMemory t) ∧
      (tget none s.dev.net.awaits tag = none → exec (.fabricTimeout tag) s = .next s))

/-- Sessions (R285, R296 to R299, R426, R427): an OFFER whose checks pass is kept and answered with a KEY, then a KEY whose signature passes and
whose roles fit with a FINISH, then a FINISH brings the port UP with a session of fresh keys in slot 0, or fills the other slot in a rekey; a
check that fails leaves the port REJECTED without keys; a key slot change moves traffic; a rekey begins over the running session, by this
end's OFFER, or by the neighbour's. -/
def Obligations.SessionsAreEstablishedAndRenewed : Prop :=
  ∀ (s : State) (p : Fin 16) (lines : Nat),
    (s.dev.get Obj.PORT_STATE p.val = 3 → ∀ (random devId : Nat) (serial : List Byte),
      (∃ t m, exec (.secOffer p random devId serial true true lines) s = .next t ∧
        t.dev.port p.val = { s.dev.port p.val with
          offer := some ⟨random, devId, serial⟩, ephemeral := none, seqRx := (s.dev.port p.val).seqRx + 1, replayFrom := none } ∧
        t.dev.net.queue = s.dev.net.queue ++ [(p.val, m)] ∧ m.ftype.val = 0xA ∧ m.vl.val = 3 ∧ m.nbr = true ∧
        m.payload.take (s.dev.keyMessage p.val ⟨random, devId, serial⟩).length = s.dev.keyMessage p.val ⟨random, devId, serial⟩ ∧
        s.Counted t Obj.FRAMES_RX p.val 1 ∧ s.OnlyPort t p.val ∧ s.KeepsMemory t) ∧
      (∀ chain cert, chain = false ∨ cert = false →
        ∃ t, exec (.secOffer p random devId serial chain cert lines) s = .next t ∧ t.dev.get Obj.PORT_STATE p.val = 6 ∧
          (t.dev.port p.val).keySlots = [] ∧ (t.dev.port p.val).offer = none ∧ s.OnlyPort t p.val ∧ s.KeepsMemory t)) ∧
    (s.dev.get Obj.PORT_STATE p.val = 3 → ∀ o e, (s.dev.port p.val).offer = some o →
      (s.dev.breaksRole p.val o.devId = false →
        ∃ t m, exec (.secKey p e true lines) s = .next t ∧ t.dev.port p.val = { s.dev.port p.val with
            ephemeral := some e, seqRx := (s.dev.port p.val).seqRx + 1, replayFrom := none } ∧
          t.dev.net.queue = s.dev.net.queue ++ [(p.val, m)] ∧ m.ftype.val = 0xA ∧ m.vl.val = 3 ∧ m.nbr = true ∧
          m.payload = fit 0 64 (s.dev.finishMessage p.val o e) ∧ s.OnlyPort t p.val ∧ s.KeepsMemory t) ∧
      (∀ ok, ok = false ∨ s.dev.breaksRole p.val o.devId = true →
        ∃ t, exec (.secKey p e ok lines) s = .next t ∧ t.dev.get Obj.PORT_STATE p.val = 6 ∧ (t.dev.port p.val).keySlots = [] ∧
          s.OnlyPort t p.val ∧ s.KeepsMemory t)) ∧
    (s.dev.get Obj.PORT_STATE p.val = 3 → ∀ o e, (s.dev.port p.val).offer = some o → (s.dev.port p.val).ephemeral = some e →
      (∃ t, exec (.secFinish p true lines) s = .next t ∧ t.dev.get Obj.PORT_STATE p.val = 4 ∧
        t.dev.get Obj.NEIGHBOUR_ID p.val = 2 ^ 31 + o.devId % 2 ^ 20 ∧ (t.dev.port p.val).keySlots = [(0, some (s.dev.newSession p.val o e))] ∧
        (t.dev.port p.val).keyTx = 0 ∧ (t.dev.port p.val).keyRx = 0 ∧ (t.dev.port p.val).seqTx = 0 ∧ (t.dev.port p.val).seqRx = 0 ∧
        (∀ v, t.dev.creditsOf p.val v = if v < 2 then 16384 else 512) ∧ (t.dev.port p.val).retry = [] ∧ s.OnlyPort t p.val ∧ s.KeepsMemory t) ∧
      (∃ t, exec (.secFinish p false lines) s = .next t ∧ t.dev.get Obj.PORT_STATE p.val = 6 ∧ (t.dev.port p.val).keySlots = [] ∧
        s.OnlyPort t p.val ∧ s.KeepsMemory t)) ∧
    (s.dev.portUp p.val = true → (s.dev.port p.val).rekeying = true → ∀ o e, (s.dev.port p.val).offer = some o →
      (s.dev.port p.val).ephemeral = some e →
      ∃ t, exec (.secFinish p true lines) s = .next t ∧ s.Counted t Obj.REKEYS p.val 1 ∧
        (t.dev.port p.val).keySlots = tset none (s.dev.port p.val).keySlots (((s.dev.port p.val).keyTx + 1) % 2) (some (s.dev.newSession p.val o e)) ∧
        (t.dev.port p.val).rekeying = false ∧ t.dev.get Obj.PORT_STATE p.val = s.dev.get Obj.PORT_STATE p.val ∧ t.dev.net = s.dev.net ∧
        s.OnlyPort t p.val ∧ s.KeepsMemory t) ∧
    (s.dev.portUp p.val = true → (s.dev.port p.val).rekeying = false →
      (∃ t m, exec (.rekey p) s = .next t ∧ (t.dev.port p.val).rekeying = true ∧ (t.dev.port p.val).offer = none ∧
        (t.dev.port p.val).keySlots = (s.dev.port p.val).keySlots ∧
        t.dev.net.queue = (s.dev.net.queue.filter fun q => !secAt p.val q) ++ [(p.val, m)] ∧ m.ftype.val = 0xA ∧ m.vl.val = 3 ∧ m.nbr = true ∧
        m.payload.take 32 = leBytes 32 (t.dev.port p.val).ownRandom ∧
        t = { s with dev := { s.dev with ports := t.dev.ports, net := t.dev.net, free := s.dev.free + 2 } } ∧ s.OnlyPort t p.val) ∧
      (∀ random devId serial, ∃ t, exec (.secOffer p random devId serial true true lines) s = .next t ∧
        (t.dev.port p.val).rekeying = true ∧ (t.dev.port p.val).offer = some ⟨random, devId, serial⟩ ∧
        (t.dev.port p.val).keySlots = (s.dev.port p.val).keySlots ∧ t.dev.net.queue.length = (s.dev.net.queue.filter fun q => !secAt p.val q).length + 2 ∧
        t.dev.get Obj.PORT_STATE p.val = s.dev.get Obj.PORT_STATE p.val ∧ s.OnlyPort t p.val ∧ s.KeepsMemory t)) ∧
    (∀ k : Fin 2, (tget none (s.dev.port p.val).keySlots k.val).isSome → k.val ≠ (s.dev.port p.val).keyTx →
      ∃ t, exec (.keySlotChange p k) s = .next t ∧ t.dev.port p.val = { s.dev.port p.val with keyTx := k.val, seqTx := 0 } ∧
        t = { s with dev := { s.dev with ports := t.dev.ports } } ∧ s.OnlyPort t p.val)

/-- Lanes and port states (R299, R301 to R305, R313, R446, R447): trained lanes bring a port to authentication, back UP, or DOWN where a direction has
none; a dark fibre or a failed lane marks its lane down, and the direction narrows, counted, or the port goes DOWN; lanes that train again
are good; an idle port's lanes idle and wake; a port enabled trains, one disabled forgets its session, and what a port held is
discarded and counted. -/
def Obligations.PortsTrainNarrowAndGoDown : Prop :=
  ∀ (s : State) (p : Fin 16) (x : Port), x = s.dev.port p.val →
    (∀ tx rx own other y, s.dev.get Obj.PORT_CTL p.val ≠ 0 → (s.dev.get Obj.PORT_STATE p.val = 1 ∨ s.dev.get Obj.PORT_STATE p.val = 2) →
      y = { x with txGood := tx % 256, rxGood := rx % 256, changing := false, marked := untrained tx rx } →
      (∀ swap, (swap = true → own ≠ other) →
        ∃ t, exec (.portTrained p tx rx own other swap) s = .next t ∧ t.dev.get Obj.PORT_STATE p.val =
            (if y.txWidth = 0 ∨ y.rxWidth = 0 then 1 else if y.keySlots = [] then 3 else 4) ∧
          bits (t.dev.get Obj.FIBRE_STATE 0 p.val) 1 0 = (if swap = true ∧ own < other then 2 else 1) ∧
          (t.dev.port p.val).txGood = tx % 256 ∧ (t.dev.port p.val).rxGood = rx % 256 ∧ s.OnlyPort t p.val ∧ s.KeepsMemory t) ∧
      (own = other → exec (.portTrained p tx rx own other true) s = .next s)) ∧
    (∀ pos l, 1 ≤ pos → pos ≤ 16 → l = laneAt (bits (s.dev.get Obj.FIBRE_STATE 0 p.val) 1 0 = 2) pos →
      ∃ t, exec (.fibreDark p pos) s = .next t ∧ bit (t.dev.get Obj.FIBRE_STATE 0 p.val) (15 + pos) = true ∧
        (t.dev.port p.val).txGood = (x.setLane l.1 l.2 false).txGood ∧ (t.dev.port p.val).rxGood = (x.setLane l.1 l.2 false).rxGood ∧
        s.OnlyPort t p.val ∧ s.KeepsMemory t) ∧
    (∀ (rx : Bool) (lane : Fin 8) y, y = x.setLane rx lane.val false →
      (s.dev.get Obj.PORT_STATE p.val < 3 →
        ∃ t, exec (.laneDown p rx lane) s = .next t ∧ t.dev.port p.val = y ∧
          t = { s with dev := { s.dev with od := t.dev.od, ports := t.dev.ports } } ∧ s.dev.SameObjects t.dev (laneKeys p.val) ∧ s.OnlyPort t p.val) ∧
      (3 ≤ s.dev.get Obj.PORT_STATE p.val → s.dev.get Obj.PORT_STATE p.val ≠ 6 → (y.txWidth = 0 ∨ y.rxWidth = 0) →
        ∃ t, exec (.laneDown p rx lane) s = .next t ∧ t.dev.get Obj.PORT_STATE p.val = 1 ∧ (t.dev.port p.val).txGood = y.txGood ∧
          (t.dev.port p.val).rxGood = y.rxGood ∧ s.OnlyPort t p.val ∧ s.KeepsMemory t) ∧
      (s.dev.get Obj.PORT_STATE p.val = 6 → ∃ t, exec (.laneDown p rx lane) s = .next t ∧ t.dev.get Obj.PORT_STATE p.val = 6 ∧
          (t.dev.port p.val).txGood = y.txGood ∧ (t.dev.port p.val).rxGood = y.rxGood ∧ s.OnlyPort t p.val ∧ s.KeepsMemory t) ∧
      (3 ≤ s.dev.get Obj.PORT_STATE p.val → y.txWidth ≠ 0 → y.rxWidth ≠ 0 → (y.txWidth < x.txWidth ∨ y.rxWidth < x.rxWidth) →
        ∃ t, exec (.laneDown p rx lane) s = .next t ∧ s.Counted t Obj.NARROWINGS p.val 1 ∧
          t.dev.get Obj.PORT_STATE p.val = s.dev.get Obj.PORT_STATE p.val ∧ (t.dev.port p.val).txGood = y.txGood ∧
          (t.dev.port p.val).rxGood = y.rxGood ∧ s.OnlyPort t p.val ∧ s.KeepsMemory t)) ∧
    (x.changing = true →
      ∃ t, exec (.widthChangeDone p) s = .next t ∧ t.dev.port p.val = { x with changing := false } ∧
        (x.retry ≠ [] → s.Counted t Obj.RETRIES p.val 1) ∧
        t = { s with dev := { s.dev with od := t.dev.od, ports := t.dev.ports } } ∧ s.dev.SameObjects t.dev [Obj.RETRIES.key p.val 0] ∧
        s.OnlyPort t p.val) ∧
    (∀ n, s.dev.portUp p.val = false → n = x.retry.length + (s.dev.net.queue.filter fun q => q.1 = p.val).length →
      ∃ t, exec (.portDownHoldExpiry p) s = .next t ∧ (t.dev.port p.val).retry = [] ∧ (t.dev.port p.val).keySlots = [] ∧
        (0 < n → s.Counted t Obj.FRAMES_DROPPED p.val n) ∧ s.OnlyPort t p.val ∧ t.dev.hbm = s.dev.hbm ∧ t.vault = s.vault ∧ t.pending = s.pending) ∧
    (∀ trained, s.dev.portUp p.val = true →
      ∃ t, exec (.laneRetry p trained) s = .next t ∧
        (∀ l ∈ trained, l.2 < 8 → bit (if l.1 then (t.dev.port p.val).rxGood else (t.dev.port p.val).txGood) l.2 = true) ∧
        (∀ (rx : Bool) n, (rx, n) ∉ trained → bit (if rx then (t.dev.port p.val).rxGood else (t.dev.port p.val).txGood) n =
          bit (if rx then x.rxGood else x.txGood) n) ∧ s.OnlyPort t p.val ∧ s.KeepsMemory t) ∧
    (s.dev.get Obj.PORT_STATE p.val = 4 → s.dev.get Obj.LANE_IDLE p.val ≠ 0 → x.retry = [] → (∀ q ∈ s.dev.net.queue, q.1 ≠ p.val) →
      ∃ t, exec (.laneIdle p) s = .next t ∧ t.dev.get Obj.PORT_STATE p.val = 5 ∧ s.OnlyObjects t (laneKeys p.val)) ∧
    (s.dev.get Obj.PORT_STATE p.val = 5 →
      ∃ t, exec (.laneWake p) s = .next t ∧ t.dev.get Obj.PORT_STATE p.val = 4 ∧ s.OnlyObjects t (laneKeys p.val)) ∧
    (s.dev.Serves → s.dev.get Obj.PORT_STATE p.val = 0 →
      ∃ t, exec (.portEnable p) s = .next t ∧ t.dev.get Obj.PORT_CTL p.val = 1 ∧ t.dev.get Obj.PORT_STATE p.val = 2 ∧ t.dev.reply = ⟨0, 0, []⟩ ∧
        s.Persists t (Obj.PORT_CTL.key p.val 0 :: laneKeys p.val)) ∧
    (s.dev.Serves →
      ∃ t, exec (.portDisable p) s = .next t ∧ t.dev.get Obj.PORT_CTL p.val = 0 ∧ t.dev.get Obj.PORT_STATE p.val = 0 ∧
        t.dev.get Obj.NEIGHBOUR_ID p.val = 0 ∧ t.dev.port p.val = { Port.fresh with present := x.present, throttled := x.throttled, rx := x.rx } ∧
        (∀ q ∈ t.dev.net.queue, q.1 ≠ p.val) ∧ t.dev.reply = ⟨0, 0, []⟩ ∧ s.OnlyPort t p.val ∧ t.dev.hbm = s.dev.hbm ∧ t.vault = s.vault ∧
        t.pending = s.pending)

/-- Routes, distances and the bridge's host side (R286, R287, R289, R300, R306 to R309, R311, R312, R361, R365, R369, R439): a legal write to a route map is in the
map and one beyond its end or to a port of the wrong role is refused; a member without an answer is 0xFF in HOP_MAP; a host access through
a window reaches the device's own HBM, one without a window is a host error and loads all ones, as does a load without an answer; the
host link comes up and down with its requests, and with them the MSI-X table; a slot of BAR 0 is read, written, reported where it fails, or
waits for its clock; a vector that is unmasked in BAR 4 is raised if it was pending. -/
def Obligations.RoutesAndHostAccessesAreServed : Prop :=
  ∀ (s : State),
    (∀ off (data : List Byte), s.dev.PilotServes →
      (off + data.length ≤ 512 → (∀ b ∈ data, b = 0xFF ∨ b.toNat < 16 ∧ s.dev.get Obj.PORT_ROLE b.toNat ≠ 1) →
        ∃ t, exec (.routeInGroupWrite off data) s = .next t ∧ (∀ k < data.length, t.dev.domByte Obj.ROUTE_IN_GROUP (off + k) = data.getD k 0) ∧
          (∀ k < 512, k < off ∨ off + data.length ≤ k → t.dev.domByte Obj.ROUTE_IN_GROUP k = s.dev.domByte Obj.ROUTE_IN_GROUP k) ∧
          t.dev.store = { s.dev.store with touched := true } ∧
          t.dev.reply = ⟨0, 0, []⟩ ∧ t.vault = s.vault ∧ t.pending = s.pending) ∧
      (off + data.length ≤ 512 → (∃ b ∈ data, b ≠ 0xFF ∧ (16 ≤ b.toNat ∨ s.dev.get Obj.PORT_ROLE b.toNat = 1)) →
        ∃ t, exec (.routeInGroupWrite off data) s = .next t ∧ t.dev.reply = ⟨4, 0, []⟩ ∧ s.OnlyObjects t []) ∧
      (512 < off + data.length →
        ∃ t, exec (.routeInGroupWrite off data) s = .next t ∧ t.dev.reply = ⟨6, 0, []⟩ ∧ s.OnlyObjects t []) ∧
      (off + data.length ≤ 4096 →
        ∃ t, exec (.routeCrossGroupWrite off data) s = .next t ∧
          (∀ k < data.length, t.dev.domByte Obj.ROUTE_CROSS_GROUP (off + k) = data.getD k 0) ∧ t.dev.reply = ⟨0, 0, []⟩ ∧
          t.dev.hearths = s.dev.hearths ∧ s.KeepsMemory t) ∧
      (4096 < off + data.length →
        ∃ t, exec (.routeCrossGroupWrite off data) s = .next t ∧ t.dev.reply = ⟨6, 0, []⟩ ∧ s.OnlyObjects t [])) ∧
    (∀ (m : Fin 512) e, s.dev.net.awaits.find? (fun e => e.2 = some (.probe m.val)) = some e →
      ∃ t, exec (.distanceProbeTimeout m) s = .next t ∧ t.dev.domByte Obj.HOP_MAP m.val = 0xFF ∧ tget none t.dev.net.awaits e.1 = none ∧
        t.dev.od = s.dev.od ∧ t.dev.hearths = s.dev.hearths ∧ s.KeepsMemory t) ∧
    (s.dev.hostUp = true → ∀ off,
      (s.dev.window off = none → ∀ data len crc,
        (∃ t, exec (.hostWindowStore off data crc) s = .next t ∧ s.Counted t Obj.HOST_ERRORS 0 1 ∧ t.dev.reply = ⟨0, 0, []⟩ ∧
          t.dev.hearths = s.dev.hearths ∧ s.KeepsMemory t) ∧
        (∃ t, exec (.hostWindowLoad off len crc) s = .next t ∧ s.Counted t Obj.HOST_ERRORS 0 1 ∧ t.dev.reply = ⟨0, 0, List.replicate len 0xFF⟩ ∧
          t.dev.hearths = s.dev.hearths ∧ s.KeepsMemory t)) ∧
      (∀ a st sec crc, s.dev.window off = some (s.dev.selfId, a) → s.dev.windowRefused a = false → s.dev.area (a / 64 * 64) = .hbm st sec →
        (s.dev.host.waits ≠ [] → ∀ data len,
          (∃ t, exec (.hostWindowStore off data crc) s = .next t ∧ t = { s with dev := { s.dev with
            host := { s.dev.host with waits := s.dev.host.waits ++ [⟨a, some data, data.length, 0, none, crc⟩] } } }) ∧
          (∃ t, exec (.hostWindowLoad off len crc) s = .next t ∧ t = { s with dev := { s.dev with
            host := { s.dev.host with waits := s.dev.host.waits ++ [⟨a, none, len, 0, some [], crc⟩] } } })) ∧
        (s.dev.host.waits = [] → s.dev.gate st sec = .serve → tget 0 crc (hbmKey st sec) < 5 →
        (∀ data, a % 64 = 0 → data.length = 64 → s.dev.NoWindow st →
          ∃ t, exec (.hostWindowStore off data crc) s = .next t ∧ t.dev.sector st sec = ⟨data, false, []⟩ ∧ s.dev.OnlySector t.dev st sec ∧
            t.dev.reply = ⟨0, 0, []⟩ ∧ t.dev.hearths = s.dev.hearths ∧ t.dev.slow = s.dev.slow ∧ t.vault = s.vault) ∧
        (∀ len, 0 < len → a % 64 + len ≤ 64 →
          ∃ t, exec (.hostWindowLoad off len crc) s = .next t ∧ t.dev.reply = ⟨0, 0, ((s.dev.peek st sec).bytes.drop (a % 64)).take len⟩ ∧
            s.dev.OnlySector t.dev st sec ∧ t.dev.hearths = s.dev.hearths ∧ t.dev.slow = s.dev.slow ∧ t.vault = s.vault)))) ∧
    (∀ tag dst a off len got, tag < 65536 → tget none s.dev.net.awaits tag = some (.hostLoad dst a off len got) →
      ∃ t, exec (.hostLoadTimeout tag) s = .next t ∧ t.dev.reply = ⟨0, 0, List.replicate len 0xFF⟩ ∧ s.Counted t Obj.HOST_ERRORS 0 1 ∧
        tget none t.dev.net.awaits tag = some (.hostLate dst (piecesLeft a off len got)) ∧ t.dev.hearths = s.dev.hearths ∧ s.KeepsMemory t) ∧
    (∀ speed width, s.dev.get Obj.HOST_LINK_STATE = 1 →
      ∃ t, exec (.hostLinkUp speed width) s = .next t ∧ t.dev.get Obj.HOST_LINK_STATE = 2 ∧
        t.dev.get Obj.HOST_LINK_SPEED = speed % 2 ^ Obj.HOST_LINK_SPEED.bitsOf ∧ t.dev.get Obj.HOST_LINK_WIDTH = width % 2 ^ Obj.HOST_LINK_WIDTH.bitsOf ∧
        s.OnlyObjects t [Obj.HOST_LINK_STATE.key 0 0, Obj.HOST_LINK_SPEED.key 0 0, Obj.HOST_LINK_WIDTH.key 0 0]) ∧
    (∀ c ∈ [Instr.hostLinkDown, .perst], s.dev.get Obj.HOST_LINK_STATE = 2 →
      ∃ t, exec c s = .next t ∧ t.dev.get Obj.HOST_LINK_STATE = 1 ∧ t.dev.host.held = [] ∧ t.dev.host.waits = [] ∧ t.dev.host.table = [] ∧
        t.dev.host.pba = [] ∧ t.dev.host.msix = s.dev.host.msix ∧
        (∀ tag, tget none t.dev.net.awaits tag = (tget none s.dev.net.awaits tag).map Await.lost) ∧ t.dev.hearths = s.dev.hearths ∧
        s.KeepsMemory t) ∧
    (s.dev.get Obj.HOST_LINK_STATE ≠ 2 → exec .hostLinkDown s = .next s) ∧
    (s.dev.get Obj.HOST_LINK_STATE = 1 →
      ∃ t, exec .perst s = .next t ∧ t = { s with dev := { s.dev with host := { s.dev.host with table := [], pba := [] } } }) ∧
    (s.dev.get Obj.HOST_LINK_STATE = 0 → exec .perst s = .next s) ∧
    (s.dev.hostUp = true → ∀ index sub off word, sub < 256 → off = 8 * (index * 256 + sub) →
      (∀ write, word = index * 2 ^ 36 + sub * 2 ^ 28 + (if write = true then 1 else 0) → s.dev.NoSubscriber →
        (s.dev.serves .host = false ∨ s.dev.pilotAway .host index = true) → ∀ (v : List Byte), v.length = 8 →
        ∃ t, exec (.barAccess false off 8 (if write then some v else none)) s = .next t ∧
          t.dev.get Obj.MM_LAST_ERROR = (7 * 2 ^ 56 + word) % 2 ^ 64 ∧ s.Counted t Obj.MM_ERRORS 0 1 ∧
          t.dev.reply = ⟨0, 0, if write then [] else List.replicate 8 0xFF⟩ ∧ t.dev.hearths = s.dev.hearths ∧ s.KeepsMemory t) ∧
      (s.dev.serves .host = true → s.dev.pilotAway .host index = false →
        (∀ r, s.dev.mustWait (s.dev.needs index sub false) (.bar off 8 none 0 []) = false → r = s.readTarget (s.dev.target index sub) 0 0 →
          (r.2.1 = 0 → ∃ t, exec (.barAccess false off 8 none) s = .next t ∧
            t.dev.reply = ⟨0, 0, (slotBytes (s.dev.target index sub) r.2.2.1 r.2.2.2).take 8⟩ ∧
            t = { r.1 with dev := { r.1.dev with reply := t.dev.reply } }) ∧
          (r.2.1 ≠ 0 → word = index * 2 ^ 36 + sub * 2 ^ 28 → s.dev.NoSubscriber →
            ∃ t, exec (.barAccess false off 8 none) s = .next t ∧ t.dev.get Obj.MM_LAST_ERROR = (r.2.1 * 2 ^ 56 + word) % 2 ^ 64 ∧
              s.Counted t Obj.MM_ERRORS 0 1 ∧ t.dev.reply = ⟨0, 0, List.replicate 8 0xFF⟩ ∧ t.dev.hearths = s.dev.hearths ∧ s.KeepsMemory t)) ∧
        (s.dev.mustWait (s.dev.needs index sub false) (.bar off 8 none 0 []) = true →
          ∃ t, exec (.barAccess false off 8 none) s = .next t ∧ s.Queues t (.bar off 8 none 0 [])) ∧
        (∀ v : List Byte, v.length = 8 → (s.dev.target index sub).mmRefused 0 8 = 0 →
          (s.refused .host index sub ≠ 0 → word = index * 2 ^ 36 + sub * 2 ^ 28 + 1 → s.dev.NoSubscriber →
            ∃ t, exec (.barAccess false off 8 (some v)) s = .next t ∧
              t.dev.get Obj.MM_LAST_ERROR = (s.refused .host index sub * 2 ^ 56 + word) % 2 ^ 64 ∧ s.Counted t Obj.MM_ERRORS 0 1 ∧
              t.dev.reply = ⟨0, 0, []⟩ ∧ t.dev.hearths = s.dev.hearths ∧ s.KeepsMemory t) ∧
          (s.refused .host index sub = 0 →
            (s.dev.mustWait (s.dev.needs index sub true) (.bar off 8 (some v) 0 []) = true →
              ∃ t, exec (.barAccess false off 8 (some v)) s = .next t ∧ s.Queues t (.bar off 8 (some v) 0 [])) ∧
            (∀ r, s.dev.mustWait (s.dev.needs index sub true) (.bar off 8 (some v) 0 []) = false →
              r = s.setScalar whoBridge index sub (leNat v) → r.2 = 0 →
              ∃ t, exec (.barAccess false off 8 (some v)) s = .next t ∧ t = { r.1 with dev := { r.1.dev with reply := ⟨0, 0, []⟩ } }))))) ∧
    (s.dev.hostUp = true → ∀ off,
      (∀ len, ∃ t, exec (.barAccess true off len none) s = .next t ∧
        t = { s with dev := { s.dev with reply := ⟨0, 0, (List.range len).map fun j => s.dev.host.barByte (off + j)⟩ } }) ∧
      (∀ data : List Byte, ∃ t, exec (.barAccess true off data.length (some data)) s = .next t ∧
        (∀ k < 1024, t.dev.host.tableByte k = if off ≤ k ∧ k < off + data.length then data.getD (k - off) 0 else s.dev.host.tableByte k) ∧
        (∀ v ∈ t.dev.host.pba, t.dev.host.masked v = true) ∧
        (∀ v < 64, v ∈ s.dev.host.pba → t.dev.host.masked v = false → v ∈ t.dev.host.msix) ∧
        t = { s with dev := { s.dev with host := t.dev.host, reply := ⟨0, 0, []⟩ } }))

/-- Writes by number (R8, R341, R345, R346, R350, R352, R354, R356 to R358, R363 to R365): a write that the right, the instance and the type allow is
stored without its reserved bits, a 1 clears a bit of an RW1C object, and a P object becomes DIRTY; every other write answers its
status and stores nothing; one that needs a stopped clock waits. A WRITE command, from a message or an OD_REQ frame, is the same for a
scalar of its size, replaces the bytes of a STRING or DOMAIN, and answers on its path. -/
def Obligations.WritesByNumberAreCheckedAndStored : Prop :=
  ∀ (s : State) (path : Path) (index sub : Nat),
    (∀ v,
      ((s.dev.serves path = false ∨ s.dev.pilotAway path index = true) → ∃ t, exec (.objectWrite path index sub v) s = .next t ∧ s.Refused t 7) ∧
      (s.dev.serves path = true → s.dev.pilotAway path index = false → s.dev.target index sub = .absent →
        ∃ t, exec (.objectWrite path index sub v) s = .next t ∧ s.Refused t 1) ∧
      (s.dev.serves path = true → s.dev.pilotAway path index = false → ∀ n, s.dev.target index sub = .highest n →
        ∃ t, exec (.objectWrite path index sub v) s = .next t ∧ s.Refused t 2) ∧
      ∀ o i e, s.dev.Reaches path index sub o i e →
        (o.typ.isBlock = true → ∃ t, exec (.objectWrite path index sub v) s = .next t ∧ s.Refused t 2) ∧
        (o.typ.isBlock = false → s.dev.writeRefused o i e ≠ 0 →
          ∃ t, exec (.objectWrite path index sub v) s = .next t ∧ s.Refused t (s.dev.writeRefused o i e)) ∧
        (o.typ.isBlock = false → s.dev.writeRefused o i e = 0 → ∀ w, w = v % 2 ^ (8 * o.typ.bytes) →
          (s.dev.mustWait (s.dev.needs index sub true) (.object path index sub v) = true →
            ∃ t, exec (.objectWrite path index sub v) s = .next t ∧ s.Queues t (.object path index sub v)) ∧
          (s.dev.WritesNow path index sub →
            (o.forbids w = true → ∃ t, exec (.objectWrite path index sub v) s = .next t ∧ s.Refused t 4) ∧
            (o.forbids w = false → o ∉ ruledObjs →
              ∃ t, exec (.objectWrite path index sub v) s = .next t ∧ t.dev.get o i e = s.dev.stored o i e w ∧ t.dev.reply = ⟨0, 0, []⟩ ∧
                s.MarksDirty t o ∧ t = { s with dev := { s.dev with od := t.dev.od, store := t.dev.store, reply := t.dev.reply } } ∧
                s.dev.SameObjects t.dev [o.key i e, Obj.PERSIST_STATE.key 0 0])))) ∧
    (∀ c hdr (bs : List Byte) off, s.Brings 2 c path hdr bs → index = bits hdr 239 220 → sub = bits hdr 219 212 → off = bits hdr 191 160 →
      (s.dev.serves path = false → ∃ t, exec (.odWrite c) s = .next t ∧ s.CmdRefused t path hdr 7) ∧
      (s.dev.serves path = true → malformed hdr (Carrier.fits c) = true → ∃ t, exec (.odWrite c) s = .next t ∧ s.CmdRefused t path hdr 8) ∧
      (s.dev.serves path = true → malformed hdr (Carrier.fits c) = false → s.dev.pilotAway path index = true →
        ∃ t, exec (.odWrite c) s = .next t ∧ s.CmdRefused t path hdr 7) ∧
      (s.Accepts c path index →
        (s.dev.target index sub = .absent → ∃ t, exec (.odWrite c) s = .next t ∧ s.CmdRefused t path hdr 1) ∧
        (∀ n, s.dev.target index sub = .highest n → ∃ t, exec (.odWrite c) s = .next t ∧ s.CmdRefused t path hdr 2) ∧
        (∀ o i e, s.dev.target index sub = .elem o i e → o.typ.isBlock = false →
          (bs.length ≠ o.typ.bytes → ∃ t, exec (.odWrite c) s = .next t ∧ s.CmdRefused t path hdr 5) ∧
          (bs.length = o.typ.bytes → s.dev.writeRefused o i e ≠ 0 →
            ∃ t, exec (.odWrite c) s = .next t ∧ s.CmdRefused t path hdr (s.dev.writeRefused o i e)) ∧
          (bs.length = o.typ.bytes → s.dev.writeRefused o i e = 0 →
            (¬ s.dev.CmdNow path hdr bs true → ∃ t, exec (.odWrite c) s = .next t ∧ s.Queues t (.cmd path hdr bs)) ∧
            (s.dev.CmdNow path hdr bs true → o.forbids (leNat bs) = true → ∃ t, exec (.odWrite c) s = .next t ∧ s.CmdRefused t path hdr 4) ∧
            (s.dev.CmdNow path hdr bs true → o.forbids (leNat bs) = false → o ∉ ruledObjs →
              ∃ t, exec (.odWrite c) s = .next t ∧ t.dev.get o i e = s.dev.stored o i e (leNat bs) ∧ s.Responds t path hdr 0 0 [] ∧
                s.MarksDirty t o ∧ s.OnlyResponse t path [o.key i e, Obj.PERSIST_STATE.key 0 0]))) ∧
        (∀ o i e, s.dev.target index sub = .elem o i e → o.typ.isBlock = true →
          (bs = [] → ∃ t, exec (.odWrite c) s = .next t ∧ s.CmdRefused t path hdr 8) ∧
          (bs ≠ [] → ¬ s.dev.CmdNow path hdr bs true → ∃ t, exec (.odWrite c) s = .next t ∧ s.Queues t (.cmd path hdr bs)) ∧
          (bs ≠ [] → s.dev.CmdNow path hdr bs true →
            (o.typ = .string → off ≠ 0 ∨ 256 < bs.length → ∃ t, exec (.odWrite c) s = .next t ∧ s.CmdRefused t path hdr 6) ∧
            ((o.typ = .string → off = 0 ∧ bs.length ≤ 256) →
              (s.dev.writeRefused o i e ≠ 0 →
                ∃ t, exec (.odWrite c) s = .next t ∧ s.CmdRefused t path hdr (s.dev.writeRefused o i e)) ∧
              (s.dev.writeRefused o i e = 0 → o.size < off + bs.length → ∃ t, exec (.odWrite c) s = .next t ∧ s.CmdRefused t path hdr 6) ∧
              (s.dev.writeRefused o i e = 0 → off + bs.length ≤ o.size → o ∉ [Obj.ROUTE_IN_GROUP, Obj.ROUTE_CROSS_GROUP, Obj.QUOTE_REQ] →
                (o ∉ [Obj.HOB_TABLE_0, Obj.HOB_TABLE_1] →
                  ∃ t, exec (.odWrite c) s = .next t ∧ s.BlockWritten t o i e off bs ∧ s.Responds t path hdr 0 0 [] ∧ s.MarksDirty t o ∧
                    s.OnlyResponse { t with dev := { t.dev with dom := s.dev.dom } } path [Obj.PERSIST_STATE.key 0 0]) ∧
                (o ∈ [Obj.HOB_TABLE_0, Obj.HOB_TABLE_1] → off % 16 = 0 → bs.length = 16 →
                  ∃ t, exec (.odWrite c) s = .next t ∧ s.BlockWritten t o i e off (leBytes 16 (hobEntryKept (leNat bs))) ∧
                    s.Responds t path hdr 0 0 [] ∧
                    s.OnlyResponse { t with dev := { t.dev with dom := s.dev.dom } } path [Obj.PERSIST_STATE.key 0 0])))))))

/-- Reads by number and descriptions (R339, R345, R352, R356, R357, R360, R363 to R365, R369): a read answers the value, or the bytes from the offset
to the end of a STRING or DOMAIN at most, under the request's header on the path it came by; a description answers type, right, attributes,
size and default; one that needs a stopped clock waits; the describe objects and the domain port do the same; reading EVENT_OLDEST_SEQ
arms event-overwrite. -/
def Obligations.ReadsByNumberAndDescriptionsAreAnswered : Prop :=
  ∀ (s : State) (path : Path) (index sub off len : Nat),
    (∀ c hdr (bs : List Byte), index = bits hdr 239 220 → sub = bits hdr 219 212 → off = bits hdr 191 160 → len = bits hdr 159 144 →
      (∀ op i, (op, i) ∈ [(1, Instr.odRead c), (3, .describe c)] → s.Brings op c path hdr bs →
        (s.dev.serves path = false → ∃ t, exec i s = .next t ∧ s.CmdRefused t path hdr 7) ∧
        (s.dev.serves path = true → malformed hdr (Carrier.fits c) = true → ∃ t, exec i s = .next t ∧ s.CmdRefused t path hdr 8) ∧
        (s.dev.serves path = true → malformed hdr (Carrier.fits c) = false → s.dev.pilotAway path (if op = 1 then index else 0) = true →
          ∃ t, exec i s = .next t ∧ s.CmdRefused t path hdr 7)) ∧
      (s.Brings 1 c path hdr bs → s.Accepts c path index →
        (¬ s.dev.CmdNow path hdr bs false → ∃ t, exec (.odRead c) s = .next t ∧ s.Queues t (.cmd path hdr bs)) ∧
        (s.dev.CmdNow path hdr bs false →
          (s.dev.target index sub = .absent → ∃ t, exec (.odRead c) s = .next t ∧ s.CmdRefused t path hdr 1) ∧
          (∀ n, s.dev.target index sub = .highest n →
            ∃ t, exec (.odRead c) s = .next t ∧ s.Responds t path hdr 0 n [BitVec.ofNat 8 n] ∧ s.OnlyResponse t path []) ∧
          (∀ o i e, s.dev.target index sub = .elem o i e →
            (o.right = .wo → ∃ t, exec (.odRead c) s = .next t ∧ s.CmdRefused t path hdr 2) ∧
            (o.right ≠ .wo → o.typ.isBlock = true →
              ∃ t, exec (.odRead c) s = .next t ∧ s.Responds t path hdr 0 0 (s.blockBytes o i e off len) ∧ s.OnlyResponse t path [] ∧
                t.dev.store = s.dev.store) ∧
            (o.right ≠ .wo → o.typ.isBlock = false →
              ∃ t, exec (.odRead c) s = .next t ∧ ((o ∈ [Obj.FRAMES_RX, Obj.PAYLOAD_BYTES_RX] → ∀ p src, path ≠ .fabric p src) →
                s.Responds t path hdr 0 (s.shown o i e) (leBytes o.typ.bytes (s.shown o i e))) ∧
                (o ≠ Obj.EVENT_OLDEST_SEQ → o ≠ Obj.SCALE_SLOT → s.OnlyResponse t path [] ∧ t.dev.store = s.dev.store))))) ∧
      (s.Brings 3 c path hdr bs → s.Accepts c path 0 → s.dev.mustWait [] (.cmd path hdr bs) = false →
        (sub = 0 → ∀ n, highestSub index = some n →
          ∃ t, exec (.describe c) s = .next t ∧ s.Responds t path hdr 0 (2 ^ 60 + 1) (leBytes 8 (2 ^ 60 + 1) ++ leBytes 8 n) ∧
            s.OnlyResponse t path [] ∧ t.dev.store = s.dev.store) ∧
        (s.dev.target index sub = .absent →
          ∃ t, exec (.describe c) s = .next t ∧ s.Responds t path hdr 0 (2 ^ 53) (leBytes 8 (2 ^ 53) ++ leBytes 8 0) ∧
            s.OnlyResponse t path [] ∧ t.dev.store = s.dev.store) ∧
        (∀ o i e, s.dev.target index sub = .elem o i e →
          ∃ t r1 r2, exec (.describe c) s = .next t ∧ s.Responds t path hdr 0 r1 (leBytes 8 r1 ++ leBytes 8 r2) ∧
            bits r1 63 60 = o.typ.code ∧ bits r1 59 57 = o.right.code ∧ bit r1 56 = o.attrP ∧ bit r1 55 = o.attrC ∧ bit r1 54 = o.attrL ∧
            bit r1 53 = false ∧ r1 % 2 ^ 53 = (if o.typ.isBlock then o.size else o.typ.bytes) ∧
            (o.typ.isBlock = true → r2 = 0) ∧ (o = Obj.POWER_CAP_W → r2 = envelopeOf s.vault.coolingClass) ∧
            (o.typ.isBlock = false → o ≠ Obj.POWER_CAP_W → s.vault.valueOf o e = none → r2 = o.resetVal i e) ∧
            s.OnlyResponse t path [] ∧ t.dev.store = s.dev.store))) ∧
    (∀ hdr, hdr = leNat (odHeader 1 0 0x5000 2 0 0 0) → s.dev.serves path = true → s.dev.pilot.restarting = false →
      s.dev.mustWait [] (.cmd path hdr []) = false → (∀ p src, path = .fabric p src → s.dev.ownId ≠ none ∧ ∃ q, s.dev.AnswersVia src 2 q) →
      ∃ t, exec (.eventOldestSeqRead path) s = .next t ∧ t.dev.events.overwriteArmed = true ∧ t.dev.events.ring = s.dev.events.ring ∧
        s.Responds t path hdr 0 (s.dev.get Obj.EVENT_OLDEST_SEQ) (leBytes 4 (s.dev.get Obj.EVENT_OLDEST_SEQ)) ∧
        t = { s with dev := { s.dev with events := t.dev.events, net := t.dev.net, i3c := t.dev.i3c, reply := t.dev.reply } }) ∧
    (s.dev.PilotServes → ∀ v r, r = s.describe (bits v 27 8) (bits v 7 0) →
      ∃ t, exec (.descTargetWrite v) s = .next t ∧ t.dev.get Obj.DESC_TARGET = v % 2 ^ 28 ∧ t.dev.get Obj.DESC_RESULT = r.1 % 2 ^ 64 ∧
        t.dev.get Obj.DESC_DEFAULT = r.2 % 2 ^ 64 ∧ t.dev.reply = ⟨0, 0, []⟩ ∧
        s.OnlyObjects t [Obj.DESC_TARGET.key 0 0, Obj.DESC_RESULT.key 0 0, Obj.DESC_DEFAULT.key 0 0]) ∧
    (s.dev.PilotServes → off = s.dev.get Obj.DP_OFFSET → len = s.dev.get Obj.DP_LENGTH →
      index = bits (s.dev.get Obj.DP_TARGET) 27 8 → sub = bits (s.dev.get Obj.DP_TARGET) 7 0 →
      (len = 0 ∨ 256 < len → ∀ c ∈ [Instr.dpGoRead, .dpGoWrite],
        ∃ t, exec c s = .next t ∧ t.dev.get Obj.DP_STATUS = 6 ∧ t.dev.reply = ⟨0, 0, []⟩ ∧ s.OnlyObjects t [Obj.DP_STATUS.key 0 0]) ∧
      (0 < len → len ≤ 256 → s.dev.target index sub = .absent → ∀ c ∈ [Instr.dpGoRead, .dpGoWrite],
        ∃ t, exec c s = .next t ∧ t.dev.get Obj.DP_STATUS = 1 ∧ t.dev.reply = ⟨0, 0, []⟩ ∧ s.OnlyObjects t [Obj.DP_STATUS.key 0 0]) ∧
      (∀ o i e, 0 < len → len ≤ 256 → s.dev.target index sub = .elem o i e → o.typ.isBlock = false → ∀ c ∈ [Instr.dpGoRead, .dpGoWrite],
        ∃ t, exec c s = .next t ∧ t.dev.get Obj.DP_STATUS = 2 ∧ t.dev.reply = ⟨0, 0, []⟩ ∧ s.OnlyObjects t [Obj.DP_STATUS.key 0 0]) ∧
      (∀ o i e, 0 < len → len ≤ 256 → s.dev.target index sub = .elem o i e → o.typ.isBlock = true →
        (o.right ≠ .wo → o.typ = .domain → o.size < off + len →
          ∃ t, exec .dpGoRead s = .next t ∧ t.dev.get Obj.DP_STATUS = 6 ∧ t.dev.reply = ⟨0, 0, []⟩ ∧ s.OnlyObjects t [Obj.DP_STATUS.key 0 0]) ∧
        (o.right ≠ .wo → (o.typ = .domain → off + len ≤ o.size) →
          ∃ t, exec .dpGoRead s = .next t ∧ t.dev.get Obj.DP_STATUS = 0 ∧
            t.dev.dpData = (s.blockBytes o i e off len) ++ s.dev.dpData.drop (s.blockBytes o i e off len).length ∧ t.dev.reply = ⟨0, 0, []⟩ ∧
            s.OnlyObjects t (Obj.DP_STATUS.key 0 0 :: Obj.DP_DATA.keys 0)) ∧
        ((o.typ = .string → off = 0) →
          (s.dev.writeRefused o i e ≠ 0 →
            ∃ t, exec .dpGoWrite s = .next t ∧ t.dev.get Obj.DP_STATUS = s.dev.writeRefused o i e ∧ t.dev.reply = ⟨0, 0, []⟩ ∧
              s.OnlyObjects t [Obj.DP_STATUS.key 0 0]) ∧
          (s.dev.writeRefused o i e = 0 → off + len ≤ o.size → o ∉ [Obj.ROUTE_IN_GROUP, Obj.ROUTE_CROSS_GROUP, Obj.QUOTE_REQ, Obj.HOB_TABLE_0, Obj.HOB_TABLE_1] →
            ∃ t, exec .dpGoWrite s = .next t ∧ t.dev.get Obj.DP_STATUS = 0 ∧ s.BlockWritten t o i e off (s.dev.dpData.take len) ∧
              t.dev.reply = ⟨0, 0, []⟩ ∧
              t = { s with dev := { s.dev with od := t.dev.od, dom := t.dev.dom, store := t.dev.store, reply := t.dev.reply } } ∧
              s.dev.SameObjects t.dev [Obj.DP_STATUS.key 0 0, Obj.PERSIST_STATE.key 0 0]))))

/-- Events and the persistent record (R349 to R351, R356, R369, R370): a read of events answers the whole records that LENGTH holds, oldest first, and
one of a number not raised yet says so; a notice of another device becomes a record here; FETCH_SEQ captures a record; PERSIST_SAVE
takes the values of every P object and queues their writing to the area that does not hold the last record; the mark for defaults is
set. That a later save replaces an earlier one in the queue is the model's reading (log entry 24). -/
def Obligations.EventsAreReadAndSavesQueued : Prop :=
  ∀ (s : State),
    (∀ c path hdr (bs : List Byte) off len, s.Brings 4 c path hdr bs → off = bits hdr 191 160 → len = bits hdr 159 144 →
      (s.dev.serves path = false → ∃ t, exec (.eventRead c) s = .next t ∧ s.CmdRefused t path hdr 7) ∧
      (s.dev.serves path = true → malformed hdr (Carrier.fits c) = true → ∃ t, exec (.eventRead c) s = .next t ∧ s.CmdRefused t path hdr 8) ∧
      (s.Accepts c path 0 → s.dev.mustWait [] (.cmd path hdr bs) = false →
        (s.dev.notYet off = true → ∃ t, exec (.eventRead c) s = .next t ∧ s.Responds t path hdr 9 0 [] ∧ s.OnlyResponse t path []) ∧
        (s.dev.notYet off = false → ∀ rs, rs = s.dev.recordsFrom off →
          ∃ t, exec (.eventRead c) s = .next t ∧
            s.Responds t path hdr 0 0 ((rs.take (len / 32)).flatMap fun (r : EventRec) => leBytes 32 r.toNat) ∧ s.OnlyResponse t path [] ∧
            (path = .i3c → (t.dev.i3c.ibiPending = true ↔ rs.drop (len / 32) ≠ [] ∧ s.dev.get Obj.IBI_ENABLE = 1 ∧ s.dev.i3c.ibi = true))))) ∧
    (∀ src seq, s.dev.Serves → s.dev.pilot.restarting = false → s.dev.eventOn Event.remote .global 0 = true → s.dev.events.ring.length < 4096 →
      s.dev.NoSubscriber →
      ∃ t, exec (.eventNotice src seq) s = .next t ∧
        t.dev.events.ring = s.dev.events.ring ++
          [⟨Event.remote.code, 0, none, s.dev.get Obj.EVENT_NEXT_SEQ, seq % 2 ^ 32, s.dev.tick, src % 2 ^ 20⟩] ∧
        t.dev.get Obj.EVENT_NEXT_SEQ = (s.dev.get Obj.EVENT_NEXT_SEQ + 1) % 2 ^ 32 ∧ t.dev.hearths = s.dev.hearths ∧ s.KeepsMemory t) ∧
    (∀ v, s.dev.PilotServes → v < 2 ^ 32 →
      (s.dev.notYet v = true →
        ∃ t, exec (.fetchSeqWrite v) s = .next t ∧ t.dev.get Obj.FETCH_SEQ = v ∧ t.dev.get Obj.FETCH_STATUS = 2 ∧
          (∀ k < 4, t.dev.get Obj.FETCH_W 0 k = 0) ∧ t.dev.reply = ⟨0, 0, []⟩ ∧
          s.OnlyObjects t (Obj.FETCH_SEQ.key 0 0 :: Obj.FETCH_STATUS.key 0 0 :: Obj.FETCH_W.keys 0)) ∧
      (∀ r, s.dev.notYet v = false → s.dev.events.ring.find? (fun r => r.seq = v) = some r →
        ∃ t, exec (.fetchSeqWrite v) s = .next t ∧ t.dev.get Obj.FETCH_SEQ = v ∧ t.dev.get Obj.FETCH_STATUS = 0 ∧
          (∀ k < 4, t.dev.get Obj.FETCH_W 0 k = r.toNat / 2 ^ (64 * k) % 2 ^ 64) ∧ t.dev.reply = ⟨0, 0, []⟩ ∧
          s.OnlyObjects t (Obj.FETCH_SEQ.key 0 0 :: Obj.FETCH_STATUS.key 0 0 :: Obj.FETCH_W.keys 0)) ∧
      (s.dev.notYet v = false → s.dev.events.ring.find? (fun r => r.seq = v) = none →
        ∃ t, exec (.fetchSeqWrite v) s = .next t ∧ t.dev.get Obj.FETCH_SEQ = v ∧ t.dev.get Obj.FETCH_STATUS = 1 ∧
          (∀ k < 4, t.dev.get Obj.FETCH_W 0 k = 0) ∧ t.dev.reply = ⟨0, 0, []⟩ ∧
          s.OnlyObjects t (Obj.FETCH_SEQ.key 0 0 :: Obj.FETCH_STATUS.key 0 0 :: Obj.FETCH_W.keys 0))) ∧
    (s.dev.PilotServes →
      (∀ m, (m = 0 ∧ s.dev.mirrorUp 0 = true ∨ m = 1 ∧ s.dev.mirrorUp 0 = false ∧ s.dev.mirrorUp 1 = true) →
        ∃ t, exec (.persistSave 1) s = .next t ∧ t.dev.get Obj.PERSIST_STATE = 2 ∧ t.dev.saveOd = s.dev.persistVals ∧
          t.dev.saveDom = s.dev.persistBytes ∧ t.dev.store.touched = false ∧ t.dev.store.saveSeq = s.dev.store.saveSeq + 1 ∧
          (⟨.persistErase (1 - s.vault.persistArea) (s.dev.store.saveSeq + 1), m, false⟩ : StoreOp) ∈ t.dev.store.queue ∧
          (∀ o ∈ t.dev.store.queue, (∀ a q, o.job ≠ .persist a q) ∧ ∀ a q, o.job = .persistErase a q → q = s.dev.store.saveSeq + 1) ∧
          t.dev.reply = ⟨0, 0, []⟩ ∧
          t = { s with dev := { s.dev with od := t.dev.od, saveOd := t.dev.saveOd, saveDom := t.dev.saveDom, store := t.dev.store, reply := t.dev.reply } } ∧
          s.dev.SameObjects t.dev [Obj.PERSIST_STATE.key 0 0]) ∧
      (∃ t, exec (.persistRestoreDefaults 1) s = .next t ∧
        t = { s with vault := { s.vault with persistDefaults := true }, dev := { s.dev with reply := ⟨0, 0, []⟩ } }) ∧
      (∀ v, ∀ c ∈ [Instr.persistSave v, .persistRestoreDefaults v],
        (v = 0 → ∃ t, exec c s = .next t ∧ s.Refused t 0) ∧ (1 < v → ∃ t, exec c s = .next t ∧ s.Refused t 4)))

/-- The ember store (R350, R351, R402, R404, R424, R425, R454 to R458): an operation starts when the measured energy meets its charge, is deferred when it
does not and fails when the capacity never can; one that ends on mirror 0 is made on mirror 1 next and its record counts at once; an
error takes the mirror out of service and what was to be written there goes to the other; a full log is erased and begun again, one mirror after the
other; after an input loss the Pilot powers down
when its operation ends, or starts again. That an operation of an older save ends without effect is the model's reading (log entry 24). -/
def Obligations.StoreOperationsStartDeferEndAndFail : Prop :=
  ∀ (s : State),
    (s.dev.storeReady = true → ∀ mj, ∀ c ∈ [(Instr.storeOperationStart mj, s.dev.nextStore), (.storeRetry mj, s.dev.nextDeferred)],
      (c.2 = none → exec c.1 s = .next s) ∧
      ∀ o, c.2 = some o →
        (s.dev.get Obj.HOLDUP_CAPACITY_MJ ≠ 0 → 10 * s.dev.get Obj.HOLDUP_CAPACITY_MJ < o.job.charge →
          ∃ t, exec c.1 s = .next t ∧ t.dev.store = { s.dev.store with queue := s.dev.store.queue.erase o } ∧
            (∀ a q, o.job = .persist a q ∨ o.job = .persistErase a q → t.dev.get Obj.PERSIST_STATE = 4) ∧
            (o.job.isFw = true → t.dev.get Obj.FW_UPDATE_STATE = 4) ∧ (∀ r, o.job = .defect r → bit (t.dev.get Obj.DEFECT_STATUS) 1 = true) ∧
            t = { s with dev := { s.dev with od := t.dev.od, store := t.dev.store } } ∧
            s.dev.SameObjects t.dev [Obj.HOLDUP_ENERGY_MJ.key 0 0, Obj.PERSIST_STATE.key 0 0, Obj.FW_UPDATE_STATE.key 0 0, Obj.DEFECT_STATUS.key 0 0]) ∧
        ((s.dev.get Obj.HOLDUP_CAPACITY_MJ = 0 ∨ o.job.charge ≤ 10 * s.dev.get Obj.HOLDUP_CAPACITY_MJ) → 10 * mj < o.job.charge →
          ∃ t, exec c.1 s = .next t ∧ t.dev.get Obj.STORE_STATE = 3 ∧ s.Counted t Obj.STORE_DEFERRALS 0 1 ∧
            t.dev.store = { s.dev.store with queue := s.dev.store.queue.map fun (x : StoreOp) => if x = o then { x with deferred := true } else x } ∧
            (∀ a q, o.job = .persist a q ∨ o.job = .persistErase a q → t.dev.get Obj.PERSIST_STATE = 3) ∧
            (o.job.isFw = true → t.dev.get Obj.FW_UPDATE_STATE = 2) ∧ (∀ r, o.job = .defect r → bit (t.dev.get Obj.DEFECT_STATUS) 1 = true) ∧
            t.dev.hearths = s.dev.hearths ∧ s.KeepsMemory t) ∧
        ((s.dev.get Obj.HOLDUP_CAPACITY_MJ = 0 ∨ o.job.charge ≤ 10 * s.dev.get Obj.HOLDUP_CAPACITY_MJ) → o.job.charge ≤ 10 * mj →
          ∃ t, exec c.1 s = .next t ∧ t.dev.store = { s.dev.store with queue := s.dev.store.queue.erase o, running := some o } ∧
            t.dev.get Obj.STORE_STATE = (if o.job.isErase = true then 2 else 1) ∧
            t.dev.get Obj.HOLDUP_ENERGY_MJ = mj % 2 ^ Obj.HOLDUP_ENERGY_MJ.bitsOf ∧
            (∀ a q, o.job = .persist a q ∨ o.job = .persistErase a q → t.dev.get Obj.PERSIST_STATE = 2) ∧
            (o.job.isFw = true → t.dev.get Obj.FW_UPDATE_STATE = 1) ∧
            t = { s with dev := { s.dev with od := t.dev.od, store := t.dev.store } } ∧
            s.dev.SameObjects t.dev [Obj.HOLDUP_ENERGY_MJ.key 0 0, Obj.STORE_STATE.key 0 0, Obj.PERSIST_STATE.key 0 0, Obj.FW_UPDATE_STATE.key 0 0])) ∧
    (∀ mj, s.dev.storeReady = false → exec (.storeOperationStart mj) s = .next s ∧ exec (.storeRetry mj) s = .next s) ∧
    (s.dev.store.running = none → ∀ ok, exec (.storeOperationDone ok) s = .next s) ∧
    (∀ j m df next, s.dev.store.running = some ⟨j, m, df⟩ → m < 2 → next = (decide (m = 0) && s.dev.mirrorUp 1) → s.dev.power.onBank = false →
      (j.item ≠ none ∨ (∃ sl b, j = .slotErase sl b) → (∀ k a, j ≠ .repair k a) →
        ∃ t, exec (.storeOperationDone true) s = .next t ∧
          (next = true → t.dev.store = { s.dev.store with running := none, queue := ⟨j, 1, false⟩ :: s.dev.store.queue }) ∧
          (next = false → (∀ n, j.log = some n → t.vault.logFull n = false) → t.dev.store = { s.dev.store with running := none }) ∧
          (next = false → ∀ n k, j.log = some n → t.vault.logFull n = true → (∀ x ∈ s.dev.store.queue, x.job ≠ .logErase n) →
            (k = 0 ∧ s.dev.mirrorUp 0 = true ∨ k = 1 ∧ s.dev.mirrorUp 0 = false ∧ s.dev.mirrorUp 1 = true) →
            t.dev.store = { s.dev.store with running := none, queue := s.dev.store.queue ++ [⟨.logErase n, k, false⟩] }) ∧
          t.dev.get Obj.STORE_STATE = (if t.dev.store.queue.any (fun (o : StoreOp) => o.deferred) = true then 3 else 0) ∧
          (∀ r, j = .defect r → s.vault.defects.length < 4096 → r ∈ t.vault.defects) ∧
          (∀ r ∈ s.vault.defects, r ∈ t.vault.defects) ∧
          (∀ n, j = .bootCount n → t.vault.bootCount = max s.vault.bootCount n) ∧
          (∀ n, j = .secVersion n → t.vault.secVersion = max s.vault.secVersion n) ∧ (∀ n, j = .slotSelect n → t.vault.activeSlot = n) ∧
          (∀ sl off bs, j = .slotProgram sl off bs →
            (∀ k < bs.length, tget 0 t.vault.slotBytes (sl * 2 ^ 21 + off + k) = bs.getD k 0) ∧
            ∀ a, a < sl * 2 ^ 21 + off ∨ sl * 2 ^ 21 + off + bs.length ≤ a → tget 0 t.vault.slotBytes a = tget 0 s.vault.slotBytes a) ∧
          (∀ sl b, j = .slotErase sl b → ∀ a,
            tget 0 t.vault.slotBytes a = if a / 2 ^ 16 = sl * 32 + b then 0 else tget 0 s.vault.slotBytes a) ∧
          t.dev.hearths = s.dev.hearths ∧ t.dev.hbm = s.dev.hbm ∧ t.pending = s.pending) ∧
      (∀ a q, j = .persistErase a q → q = s.dev.store.saveSeq →
        ∃ t, exec (.storeOperationDone true) s = .next t ∧ t.dev.store.running = none ∧
          t.dev.store.queue = ⟨.persist a q, m, false⟩ :: (if next = true then [⟨.persistErase a q, 1, false⟩] else []) ++ s.dev.store.queue ∧
          (a, m) ∉ t.vault.persistMirrors ∧ t.vault.persistOd = s.vault.persistOd ∧ t.dev.hearths = s.dev.hearths ∧ t.dev.hbm = s.dev.hbm ∧
          t.pending = s.pending) ∧
      (∀ a q, j = .persist a q → q = s.dev.store.saveSeq →
        ∃ t, exec (.storeOperationDone true) s = .next t ∧ t.dev.store = { s.dev.store with running := none } ∧ t.vault.persistOd = s.dev.saveOd ∧
          t.vault.persistDom = s.dev.saveDom ∧ t.vault.persistValid = true ∧ t.vault.persistArea = a ∧ (a, m) ∈ t.vault.persistMirrors ∧
          (next = false → s.Counted t Obj.PERSIST_SAVES 0 1 ∧
            t.dev.get Obj.PERSIST_STATE = (if (a, 1 - m) ∉ s.vault.persistMirrors then 4 else if s.dev.store.touched = true then 1 else 0)) ∧
          t.dev.hearths = s.dev.hearths ∧ t.dev.hbm = s.dev.hbm ∧ t.pending = s.pending) ∧
      (∀ a q, (j = .persist a q ∨ j = .persistErase a q) → q ≠ s.dev.store.saveSeq →
        ∃ t, exec (.storeOperationDone true) s = .next t ∧ t.dev.store = { s.dev.store with running := none } ∧
          t.vault.persistOd = s.vault.persistOd ∧ t.dev.hearths = s.dev.hearths ∧ t.dev.hbm = s.dev.hbm ∧ t.pending = s.pending) ∧
      (∀ n, j = .logErase n →
        ∃ t, exec (.storeOperationDone true) s = .next t ∧ t.vault.logCount n m = 0 ∧
          t.dev.store = { s.dev.store with running := none, queue :=
            ⟨.logFirst n, m, false⟩ :: (if next = true then [⟨.logErase n, 1, false⟩] else []) ++ s.dev.store.queue } ∧
          t.vault.activeSlot = s.vault.activeSlot ∧ t.vault.bootCount = s.vault.bootCount ∧ t.vault.secVersion = s.vault.secVersion ∧
          t.dev.hearths = s.dev.hearths ∧ t.dev.hbm = s.dev.hbm ∧ t.pending = s.pending) ∧
      (∀ n, j = .logFirst n →
        ∃ t, exec (.storeOperationDone true) s = .next t ∧ t.vault.logCount n m = (s.vault.logItems n).length ∧
          (∀ x ∈ s.vault.logItems n, (x.1, x.2, m) ∉ t.vault.halfDone) ∧ t.dev.store = { s.dev.store with running := none } ∧
          t.dev.hearths = s.dev.hearths ∧ t.dev.hbm = s.dev.hbm ∧ t.pending = s.pending) ∧
      (∀ k a, j = .repair k a →
        ∃ t, exec (.storeOperationDone true) s = .next t ∧ t.dev.store = { s.dev.store with running := none } ∧
          s.Counted t Obj.STORE_REPAIRS 0 1 ∧ (k = 4 → (a, m) ∈ t.vault.persistMirrors) ∧
          (k ≠ 4 → t.vault.halfDone = s.vault.halfDone.erase (k, a, m)) ∧ t.dev.hearths = s.dev.hearths ∧ t.dev.hbm = s.dev.hbm ∧
          t.pending = s.pending) ∧
      (∃ t, exec (.storeOperationDone false) s = .next t ∧ t.dev.store.running = none ∧ t.dev.mirrorUp m = false ∧
        t.dev.mirrorUp (1 - m) = s.dev.mirrorUp (1 - m) ∧ (∀ o ∈ t.dev.store.queue, o.mirror ≠ m) ∧
        (next = true → (∀ k a, j ≠ .repair k a) → (⟨j, 1, false⟩ : StoreOp) ∈ t.dev.store.queue) ∧ t.vault = s.vault ∧
        t.dev.hearths = s.dev.hearths ∧ t.dev.hbm = s.dev.hbm ∧ t.pending = s.pending)) ∧
    (∀ o ok, s.dev.store.running = some o → s.dev.power.onBank = true →
      ∃ t, exec (.storeOperationDone ok) s = .next t ∧
        (s.dev.power.inputBack = false → t.vault.lastShutdown = 3 ∧ t.dev = { Dev.fresh with free := t.dev.free }) ∧
        (s.dev.power.inputBack = true → t.dev.get Obj.BOOT_STATE = 1) ∧ t.pending = s.pending)

/-- Restarts of the management core (R371, R372, R392): a single-bit error of its memory is corrected and counted; an expired watchdog or another error of its memory begins one, and from then on it is away; when it is done what
was held is written, what was lost is counted, and the third within 50,000,000 ticks degrades the core, with every power ceiling at OP4 at most. That a restart waits on where the
running image does not verify is the model's reading (log entry 25).
The I3C target and its MCTP endpoint (R364, R369, R372): the endpoint ID is kept and read back; a target takes a dynamic address only while it has
none, SETDASA only under its static address, and drops it on RSTDAA; ENEC and DISEC enable and disable in-band interrupts; what the spec
gives no bytes for answers constants of Config (log entry 5), and the endpoint answers SERVER_BUSY while the management core is away. -/
def Obligations.CoreRestartsAndI3cAnswers : Prop :=
  (∀ (s : State),
      (∀ c ∈ [Instr.pilotWatchdogExpiry, .pilotSramError false],
        (2 ≤ s.dev.get Obj.BOOT_STATE → s.dev.pilot.restarting = false →
          ∃ t, exec c s = .next t ∧ t.dev.pilot.restarting = true ∧ t.dev.pilot.held = s.dev.pilot.held ∧
            t.dev.pilot.restarts = (s.dev.pilot.restarts.filter fun (n : Nat) => decide (s.dev.tick ≤ n + 50000000)) ++ [s.dev.tick] ∧
            t.dev.get Obj.PILOT_STATE = (if s.dev.get Obj.PILOT_STATE = 2 then 2 else 1) ∧
            t = { s with dev := { s.dev with od := t.dev.od, pilot := t.dev.pilot } } ∧ s.dev.SameObjects t.dev [Obj.PILOT_STATE.key 0 0]) ∧
        (s.dev.get Obj.BOOT_STATE < 2 ∨ s.dev.pilot.restarting = true → exec c s = .next s)) ∧
      (2 ≤ s.dev.get Obj.BOOT_STATE →
        ∃ t, exec (.pilotSramError true) s = .next t ∧ s.Counted t Obj.PILOT_SRAM_CORRECTED 0 1 ∧
          t = { s with dev := { s.dev with od := t.dev.od } } ∧ s.dev.SameObjects t.dev [Obj.PILOT_SRAM_CORRECTED.key 0 0]) ∧
      (∀ crypto img, img = s.vault.verify (s.dev.get Obj.FW_KEY_REVOKED) (s.dev.get Obj.FW_ACTIVE_SLOT) crypto crypto crypto →
        (s.dev.pilot.restarting = true → img = 0 →
          ∃ t, exec (.pilotRestartDone crypto) s = .next t ∧ t.dev.pilot.restarting = false ∧ t.dev.pilot.held = [] ∧ t.dev.pilot.lost = 0 ∧
            s.Counted t Obj.PILOT_RESTARTS 0 1 ∧
            t.dev.get Obj.PILOT_STATE = (if 3 ≤ s.dev.pilot.restarts.length ∨ s.dev.get Obj.PILOT_STATE = 2 then 2 else 0) ∧
            (t.dev.get Obj.PILOT_STATE = 2 → ∀ g < 16, t.dev.get Obj.POWER_CEILING g = min 4 (s.dev.get Obj.POWER_CEILING g)) ∧
            (s.dev.NoSubscriber → s.dev.events.ring.length + s.dev.pilot.held.length + 2 ≤ 4096 →
              (∀ r ∈ s.dev.pilot.held, ∃ n, { r with seq := n } ∈ t.dev.events.ring) ∧
              (0 < s.dev.pilot.lost → s.Counted t Obj.EVENTS_OVERWRITTEN 0 s.dev.pilot.lost)) ∧
            t.dev.hearths = s.dev.hearths ∧ s.KeepsMemory t) ∧
        (s.dev.pilot.restarting = false ∨ img ≠ 0 → exec (.pilotRestartDone crypto) s = .next s))) ∧
  (∀ (s : State) (eid typ selector : Byte) (stat addr : Fin 128),
      (2 ≤ s.dev.get Obj.BOOT_STATE → s.dev.pilot.restarting = false →
        (∃ t, exec (.setEndpointId eid) s = .next t ∧
          t = { s with dev := { s.dev with i3c := { s.dev.i3c with eid := eid.toNat }, reply := ⟨0, 0, []⟩ } }) ∧
        (∃ t, exec .getEndpointId s = .next t ∧ t = { s with dev := { s.dev with reply := ⟨0, s.dev.i3c.eid, []⟩ } }) ∧
        (∃ t, exec (.getMctpVersionSupport typ) s = .next t ∧
          t = { s with dev := { s.dev with reply := ⟨0, 0, Config.mctpAnswer 4 typ.toNat⟩ } }) ∧
        (∃ t, exec .getMessageTypeSupport s = .next t ∧ t = { s with dev := { s.dev with reply := ⟨0, 0, Config.mctpAnswer 5 0⟩ } }) ∧
        (∃ t, exec (.getVendorDefinedMessageSupport selector) s = .next t ∧
          t = { s with dev := { s.dev with reply := ⟨0, 0, Config.mctpAnswer 6 selector.toNat⟩ } })) ∧
      (s.dev.get Obj.BOOT_STATE < 2 ∨ s.dev.pilot.restarting = true →
        ∀ c ∈ [Instr.setEndpointId eid, .getEndpointId, .getMctpVersionSupport typ, .getMessageTypeSupport, .getVendorDefinedMessageSupport selector],
          ∃ t, exec c s = .next t ∧ s.Refused t 7) ∧
      (s.dev.i3c.addr = none →
        (∃ t, exec (.entdaa addr) s = .next t ∧ t = { s with dev := { s.dev with i3c := { s.dev.i3c with addr := some addr.val } } }) ∧
        (stat.val = Config.i3cStatic →
          ∃ t, exec (.setdasa stat addr) s = .next t ∧ t = { s with dev := { s.dev with i3c := { s.dev.i3c with addr := some addr.val } } })) ∧
      (s.dev.i3c.addr ≠ none → exec (.entdaa addr) s = .next s ∧ exec (.setdasa stat addr) s = .next s) ∧
      (stat.val ≠ Config.i3cStatic → exec (.setdasa stat addr) s = .next s) ∧
      (∃ t, exec .rstdaa s = .next t ∧ t = { s with dev := { s.dev with i3c := { s.dev.i3c with addr := none } } }) ∧
      (∃ t, exec .enec s = .next t ∧ t = { s with dev := { s.dev with i3c := { s.dev.i3c with ibi := true } } }) ∧
      (∃ t, exec .disec s = .next t ∧ t = { s with dev := { s.dev with i3c := { s.dev.i3c with ibi := false } } }) ∧
      (∀ c ∈ [(Instr.getpid, 0x8D), (.getbcr, 0x8E), (.getdcr, 0x8F), (.getmxds, 0x94), (.getstatus, 0x90)],
        ∃ t, exec c.1 s = .next t ∧ t = { s with dev := { s.dev with reply := ⟨0, 0, Config.mctpAnswer c.2 0⟩ } }))

/-- Clocks and moves (R25, R365, R374, R375, R377, R378, R385): the clock of a region in service that is idle stops; a stopped one starts and runs at its
target, or first at OP0 where the damper fell meanwhile; a move ends at the point it was for and a new one begins where the target has
changed. With the clock, what waited at the region's boundary is served. -/
def Obligations.ClocksStopStartAndMove : Prop :=
  ∀ (s : State) (g : Fin 16),
    (∀ ok, ok = (decide (s.dev.get Obj.REGION_IDLE ≠ 0) && decide (s.dev.get Obj.CLOCK_STATE g.val = 2) && s.dev.inService g.val &&
        s.dev.regionIdle g.val) →
      (ok = true → ∃ t, exec (.regionClockStop g) s = .next t ∧ t.dev.get Obj.CLOCK_STATE g.val = 0 ∧ s.OnlyObjects t [Obj.CLOCK_STATE.key g.val 0]) ∧
      (ok = false → exec (.regionClockStop g) s = .next s)) ∧
    (∀ c op, (c = Instr.regionClockStart g ∧ s.dev.get Obj.CLOCK_STATE g.val ≤ 1 ∧ s.dev.inService g.val = true ∧ s.dev.power.tripped = false ∧
        op = (if s.dev.power.clamped.contains g.val = true then 0 else s.dev.regionTarget g.val) % 2 ^ Obj.REGION_OP.bitsOf) ∨
        (c = .opMoveDone g ∧ s.dev.get Obj.CLOCK_STATE g.val = 3 ∧ op = tget 0 s.dev.power.dest g.val % 2 ^ Obj.REGION_OP.bitsOf) →
      (s.dev.NoneAtBoundary g.val →
        ∃ t, exec c s = .next t ∧ s.RunsAt t g.val op ∧ (c = .regionClockStart g → g.val ∉ t.dev.power.clamped)) ∧
      (∀ h line, tget [] s.dev.edge g.val = [.notice h line] → h / 64 = g.val → s.dev.hearthOpen h = true →
        ∃ t, exec c s = .next t ∧ s.Counted t Obj.ARRIVAL_NOTICES h 1 ∧ tget [] t.dev.edge g.val = []) ∧
      (∀ h off (data : List Byte) ash, tget [] s.dev.edge g.val = [.write h off data ash] → h / 64 = g.val → s.dev.hearthOpen h = true →
        data ≠ [] → off + data.length ≤ scrBytes → s.dev.remoteOk h (off / 64) ((off + data.length - 1) / 64) = true →
        ∃ t, exec c s = .next t ∧ (∀ k < data.length, (t.dev.hearth h).byte (off + k) = data.getD k 0) ∧ tget [] t.dev.edge g.val = []) ∧
      (∀ st (w : HbmWait), st / 2 = g.val → tget [] s.dev.edge g.val = [] → (s.dev.stack st).boundary = [w] → w.write = true → w.win = none →
        w.fold = none → w.mask = [] → w.crc < 5 → s.dev.chanGate st w.sec = .serve → s.dev.get Obj.STACK_STATE st ≠ 0 →
        s.dev.get Obj.STACK_STATE st ≠ 1 → (s.dev.stack st).draining = false → s.dev.NoWindow st → (s.dev.stack (st + 1 - 2 * (st % 2))).boundary = [] →
        ∃ t, exec c s = .next t ∧ t.dev.sector st w.sec = (if w.ash then Sector.ashSector else ⟨fit 0 64 w.data, false, []⟩) ∧
          s.dev.OnlySector t.dev st w.sec ∧ (t.dev.stack st).boundary = [] ∧ t.dev.hearths = s.dev.hearths ∧ t.dev.slow = s.dev.slow)) ∧
    ((1 < s.dev.get Obj.CLOCK_STATE g.val ∨ s.dev.inService g.val = false ∨ s.dev.power.tripped = true) →
      exec (.regionClockStart g) s = .next s) ∧
    (s.dev.get Obj.CLOCK_STATE g.val ≠ 3 → exec (.opMoveDone g) s = .next s)

/-- The damper (R242, R385 to R387, R440, R448): a fall of the pin or of the internal net, or an overcurrent, is counted, puts every ceiling and every
running region at OP0, marks the stopped ones to start there, and slows the Stokers; a fall in the tick of the rise before it is the same assertion; a rise begins the hold, and
with its end every region moves to its target, and the hearths of running steps wait for their clusters' release. -/
def Obligations.DamperClampsAndReleases : Prop :=
  ∀ (s : State),
    (∀ internal, ∀ c ∈ (if internal = true then [Instr.damperNFall true, .inputOvercurrent] else [Instr.damperNFall false]),
      (s.dev.damperLow = false → s.dev.power.rise ≠ some s.dev.tick →
        ∃ t, exec c s = .next t ∧ t.dev.damperLow = true ∧ t.dev.power.rise = none ∧ s.Counted t Obj.DAMPER_ASSERTIONS 0 1 ∧
          (∀ g < 16, t.dev.get Obj.POWER_CEILING g = 0 ∧ (s.dev.get Obj.CLOCK_STATE g ≤ 1 → g ∈ t.dev.power.clamped) ∧
            (s.dev.get Obj.CLOCK_STATE g = 2 → s.dev.get Obj.REGION_OP g ≠ 0 → t.dev.get Obj.CLOCK_STATE g = 3 ∧ s.Counted t Obj.OP_MOVES g 1) ∧
            (s.dev.get Obj.CLOCK_STATE g = 3 ∨ s.dev.get Obj.CLOCK_STATE g = 2 ∧ s.dev.get Obj.REGION_OP g ≠ 0 → tget 0 t.dev.power.dest g = 0)) ∧
          (∀ k < 2, (t.dev.stoker k).half = true) ∧ t.dev.hearths = s.dev.hearths ∧ s.KeepsMemory t) ∧
      (s.dev.damperLow = false → s.dev.power.rise = some s.dev.tick →
        ∃ t, exec c s = .next t ∧ t.dev.damperLow = true ∧ t.dev.power.rise = none ∧ (∀ k < 2, (t.dev.stoker k).half = true) ∧
          t = { s with dev := { s.dev with power := t.dev.power, stokers := t.dev.stokers } }) ∧
      (s.dev.damperLow = true →
        ∃ t, exec c s = .next t ∧ t.dev.damperLow = true ∧ t.dev.power.rise = s.dev.power.rise ∧ t = { s with dev := { s.dev with power := t.dev.power } })) ∧
    (∀ internal : Bool,
      (s.dev.damperLow = true → s.dev.power.pin = internal → s.dev.power.net = !internal →
        ∃ t, exec (.damperNRise internal) s = .next t ∧ t.dev.damperLow = false ∧ t.dev.power.rise = some s.dev.tick ∧
          (∀ g < 16, t.dev.get Obj.POWER_CEILING g = s.dev.get Obj.POWER_CEILING g) ∧
          (∀ k < 2, (t.dev.stoker k).half = (s.dev.power.critical || s.dev.power.hotStokers.contains k)) ∧
          t = { s with dev := { s.dev with od := t.dev.od, power := t.dev.power, stokers := t.dev.stokers, clockHeld := t.dev.clockHeld } }) ∧
      (s.dev.power.pin = false → s.dev.power.net = false →
        ∃ t, exec (.damperNRise internal) s = .next t ∧ t.dev.damperLow = true ∧ t.dev.power.pin = !internal ∧ t.dev.power.net = internal ∧
          t = { s with dev := { s.dev with power := t.dev.power } })) ∧
    (s.dev.power.rise ≠ none → s.dev.damperLow = false →
      ∃ t, exec .damperRelease s = .next t ∧ t.dev.power.rise = none ∧
        (∀ g < 16, s.dev.get Obj.CLOCK_STATE g = 2 → s.dev.get Obj.REGION_OP g ≠ s.dev.regionTarget g →
          t.dev.get Obj.CLOCK_STATE g = 3 ∧ tget 0 t.dev.power.dest g = s.dev.regionTarget g) ∧
        (s.dev.get Obj.RELEASE_STAGGER_EN = 0 → t.dev.hearths = s.dev.hearths) ∧
        (s.dev.get Obj.RELEASE_STAGGER_EN ≠ 0 → ∀ h r, (s.dev.hearth h).run = some r → (t.dev.hearth h).run = some { r with released := false }) ∧
        t = { s with dev := { s.dev with od := t.dev.od, power := t.dev.power, clockHeld := t.dev.clockHeld, hearths := t.dev.hearths } }) ∧
    ((s.dev.power.rise = none ∨ s.dev.damperLow = true) → exec .damperRelease s = .next s)

/-- A control period (R381, R382, R384, R387, R389 to R391, R440): over the limit the highest ceilings come down together, and once all stand at OP0 the
firing duty does; five periods below 98% of it raise the duty first, then the lowest ceiling; in between nothing moves. Readings are
means of up to 100 periods; a hot sensor lowers its region's ceiling; a critical one asserts THERM_ALERT_N until every sensor is 5 °C below, and the hearths of running steps
then wait for their clusters' release; a trip removes power and asserts THERM_TRIP_N. -/
def Obligations.ControlPeriodsSteerPowerAndHeat : Prop :=
  ∀ (s : State) (m si : Nat) (dies : List Nat) (temps : List (Sensor × Int)) (d : Dev),
    d = temps.foldl (fun (d : Dev) (x : Sensor × Int) => d.putTemp x.1 x.2) s.dev →
    ∃ t, exec (.controlPeriod m si dies temps) s = .next t ∧ t.vault = s.vault ∧ t.pending = s.pending ∧
      (∀ x ∈ allSensors, t.dev.temp x = d.temp x) ∧
      (∀ past, past = ((m :: si :: fit 0 4 dies) :: s.dev.power.past).take 100 →
        (∀ k < 4, t.dev.get Obj.DIE_POWER_MW k = meanOf past (2 + k) % 2 ^ Obj.DIE_POWER_MW.bitsOf) ∧
        (s.dev.get Obj.CONFIDENTIAL_ACTIVE ≠ 1 → t.dev.get Obj.MODULE_POWER_MW = meanOf past 0 % 2 ^ Obj.MODULE_POWER_MW.bitsOf ∧
          t.dev.get Obj.SILICON_POWER_MW = meanOf past 1 % 2 ^ Obj.SILICON_POWER_MW.bitsOf)) ∧
      (∀ g < 16, (regionSensors g).any d.hot = true →
        t.dev.get Obj.THERMAL_CEILING g = (s.dev.get Obj.THERMAL_CEILING g - 1) % 2 ^ Obj.THERMAL_CEILING.bitsOf) ∧
      (∀ g < 16, (regionSensors g).any d.hot = false → (regionSensors g).all d.cool = false →
        t.dev.get Obj.THERMAL_CEILING g = s.dev.get Obj.THERMAL_CEILING g) ∧
      ((∃ x ∈ allSensors, (thresholds x).2.2 < d.temp x) → s.dev.power.tripped = false →
        t.dev.power.tripped = true ∧ t.dev.power.thermTrip = true ∧ t.dev.power.thermAlert = true ∧ bit (t.dev.get Obj.POWER_STATUS) 6 = true ∧ t.dev.hbm = [] ∧ t.dev.slow = [] ∧ t.dev.hearths = [] ∧
        ∀ g < 16, t.dev.get Obj.REGION_STATE g = 0 ∧ t.dev.get Obj.CLOCK_STATE g = 0) ∧
      ((∃ x ∈ allSensors, (thresholds x).2.1 < d.temp x) → t.dev.power.critical = true ∧ (s.dev.power.critical = false → t.dev.power.thermAlert = true)) ∧
      ((∀ x ∈ allSensors, d.temp x + 50 ≤ (thresholds x).2.1) → s.dev.power.critical = true →
        t.dev.power.critical = false ∧ t.dev.power.thermAlert = s.dev.power.tripped ∧
        (s.dev.get Obj.RELEASE_STAGGER_EN ≠ 0 → ∀ h r, (s.dev.hearth h).run = some r → (t.dev.hearth h).run = some { r with released := false })) ∧
      (s.dev.power.critical = false → (∀ x ∈ allSensors, d.temp x ≤ (thresholds x).2.1) → ∀ limit top, limit = s.dev.powerLimit →
        top = (List.range 16).foldl (fun (a : Nat) g => max a (s.dev.get Obj.POWER_CEILING g)) 0 →
        (limit < m → top = 0 →
          t.dev.get Obj.FIRING_DUTY = max 1 (s.dev.get Obj.FIRING_DUTY - 1) % 2 ^ Obj.FIRING_DUTY.bitsOf ∧
          ∀ g < 16, t.dev.get Obj.POWER_CEILING g = s.dev.get Obj.POWER_CEILING g) ∧
        (limit < m → top ≠ 0 → (∃ g < 16, 0 < s.dev.get Obj.REGION_OP g) →
          t.dev.get Obj.FIRING_DUTY = s.dev.get Obj.FIRING_DUTY ∧
          ∀ g < 16, t.dev.get Obj.POWER_CEILING g =
            if s.dev.get Obj.POWER_CEILING g = top then (top - 1) % 2 ^ Obj.POWER_CEILING.bitsOf else s.dev.get Obj.POWER_CEILING g) ∧
        (limit < m → top ≠ 0 → (∀ g < 16, s.dev.get Obj.REGION_OP g = 0) →
          t.dev.get Obj.FIRING_DUTY = s.dev.get Obj.FIRING_DUTY ∧
          ∀ g < 16, t.dev.get Obj.POWER_CEILING g = s.dev.get Obj.POWER_CEILING g) ∧
        (50 * m < 49 * limit → 4 ≤ s.dev.power.under → s.dev.damped = false →
          (s.dev.get Obj.FIRING_DUTY < 16 →
            t.dev.get Obj.FIRING_DUTY = s.dev.get Obj.FIRING_DUTY + 1 ∧
            ∀ g < 16, t.dev.get Obj.POWER_CEILING g = s.dev.get Obj.POWER_CEILING g) ∧
          (16 ≤ s.dev.get Obj.FIRING_DUTY → ∀ x, s.dev.lowest = some x →
            t.dev.get Obj.FIRING_DUTY = s.dev.get Obj.FIRING_DUTY ∧ s.Counted t Obj.POWER_CEILING x 1 ∧
            ∀ g < 16, g ≠ x → t.dev.get Obj.POWER_CEILING g = s.dev.get Obj.POWER_CEILING g)) ∧
        (m ≤ limit → (49 * limit ≤ 50 * m ∨ s.dev.power.under < 4 ∨ s.dev.damped = true) →
          t.dev.get Obj.FIRING_DUTY = s.dev.get Obj.FIRING_DUTY ∧
          ∀ g < 16, t.dev.get Obj.POWER_CEILING g = s.dev.get Obj.POWER_CEILING g))

/-- The module's input, pins and hold-up bank (R440, R448 to R452, R459): a lost input takes what the silicon holds with it, and the Pilot powers down
unless the store is at work; a low input is reported at each entry; a reversal is recorded for the next power-on; a pin's fault is shown
and latched once; the bank's first full charge is its capacity, and one below 12 J is reported. -/
def Obligations.InputPinsAndBankAreReported : Prop :=
  ∀ (s : State),
    (s.dev.get Obj.BOOT_STATE ≠ 0 → s.dev.power.onBank = false →
      (s.dev.store.running = none →
        ∃ t, exec .inputLoss s = .next t ∧ t.dev = { Dev.fresh with free := t.dev.free } ∧ t.vault = { s.vault with lastShutdown := 2 } ∧
          t.pending = s.pending) ∧
      (∀ o, s.dev.store.running = some o →
        ∃ t, exec .inputLoss s = .next t ∧ t.dev.power.onBank = true ∧ t.dev.store = s.dev.store ∧ t.dev.hbm = [] ∧ t.dev.slow = [] ∧
          t.dev.hearths = [] ∧ t.dev.stks = [] ∧ (∀ g < 16, t.dev.get Obj.REGION_STATE g = 0) ∧ t.vault = s.vault ∧ t.pending = s.pending)) ∧
    (s.dev.get Obj.BOOT_STATE = 0 ∨ s.dev.power.onBank = true → exec .inputLoss s = .next s) ∧
    (s.dev.power.onBank = true →
      ∃ t, exec .inputReturn s = .next t ∧ t = { s with dev := { s.dev with power := { s.dev.power with inputBack := true } } }) ∧
    (s.dev.power.onBank = false → exec .inputReturn s = .next s) ∧
    (∀ mv,
      (42000 ≤ mv → mv < 46000 →
        (s.dev.get Obj.INPUT_STATE = 1 →
          ∃ t, exec (.inputLow mv) s = .next t ∧ t.dev.get Obj.INPUT_VOLTAGE_MV = mv ∧
            t = { s with dev := { s.dev with od := t.dev.od, power := { s.dev.power with inputMv := mv } } } ∧
            s.dev.SameObjects t.dev [Obj.INPUT_VOLTAGE_MV.key 0 0]) ∧
        (s.dev.get Obj.INPUT_STATE ≠ 1 →
          ∃ t, exec (.inputLow mv) s = .next t ∧ t.dev.get Obj.INPUT_STATE = 1 ∧ t.dev.get Obj.INPUT_VOLTAGE_MV = mv ∧
            t.dev.power = { s.dev.power with inputMv := mv } ∧ t.dev.hearths = s.dev.hearths ∧ s.KeepsMemory t)) ∧
      ((mv < 42000 ∨ 46000 ≤ mv) → exec (.inputLow mv) s = .next s) ∧
      (46000 ≤ mv →
        ∃ t, exec (.inputNormal mv) s = .next t ∧ t.dev.get Obj.INPUT_STATE = 0 ∧
          t.dev.get Obj.INPUT_VOLTAGE_MV = mv % 2 ^ Obj.INPUT_VOLTAGE_MV.bitsOf ∧
          t = { s with dev := { s.dev with od := t.dev.od, power := { s.dev.power with inputMv := mv } } } ∧
          s.dev.SameObjects t.dev [Obj.INPUT_VOLTAGE_MV.key 0 0, Obj.INPUT_STATE.key 0 0]) ∧
      (mv < 46000 → exec (.inputNormal mv) s = .next s)) ∧
    (∃ t, exec .inputReversed s = .next t ∧ t = { s with vault := { s.vault with reversed := true } }) ∧
    (∀ (n : Fin 9) c, c ∈ (Instr.sidebandPinFault n true :: if n.val = 0 then [.pulldownTest true false] else if n.val = 1 then [.pulldownTest false true] else []) →
      (bit (s.dev.get Obj.SIDEBAND_STATUS) n.val = false →
        ∃ t, exec c s = .next t ∧ bit (t.dev.get Obj.SIDEBAND_STATUS) n.val = true ∧ bit (t.dev.get Obj.SIDEBAND_FAULTS) n.val = true ∧
          (∀ k < 9, k ≠ n.val → bit (t.dev.get Obj.SIDEBAND_STATUS) k = bit (s.dev.get Obj.SIDEBAND_STATUS) k ∧
            bit (t.dev.get Obj.SIDEBAND_FAULTS) k = bit (s.dev.get Obj.SIDEBAND_FAULTS) k) ∧ t.dev.hearths = s.dev.hearths ∧ s.KeepsMemory t) ∧
      (bit (s.dev.get Obj.SIDEBAND_STATUS) n.val = true → exec c s = .next s)) ∧
    (∀ n : Fin 9, ∃ t, exec (.sidebandPinFault n false) s = .next t ∧ bit (t.dev.get Obj.SIDEBAND_STATUS) n.val = false ∧
      s.OnlyObjects t [Obj.SIDEBAND_STATUS.key 0 0]) ∧
    (exec (.pulldownTest false false) s = .next s) ∧
    (∀ mj full, mj < 2 ^ 32 →
      ∃ t, exec (.holdupMeasure mj full) s = .next t ∧ t.dev.get Obj.HOLDUP_ENERGY_MJ = mj ∧ bit (t.dev.get Obj.HOLDUP_STATUS) 0 = !full ∧
        (full = true → s.dev.get Obj.HOLDUP_CAPACITY_MJ = 0 → t.dev.get Obj.HOLDUP_CAPACITY_MJ = mj ∧
          (mj < 12000 → bit (t.dev.get Obj.HOLDUP_STATUS) 1 = true)) ∧
        ((full = false ∨ s.dev.get Obj.HOLDUP_CAPACITY_MJ ≠ 0) → s.OnlyObjects t [Obj.HOLDUP_ENERGY_MJ.key 0 0, Obj.HOLDUP_STATUS.key 0 0]) ∧
        t.dev.hearths = s.dev.hearths ∧ s.KeepsMemory t)

/-- Firmware update (R372, R423 to R425): one operation at a time; BEGIN queues the slot's 32 block erases and PROGRAM the 512 pages of the staged bytes;
VERIFY makes the slot VERIFIED with its measurement pending, or REJECTED with the reason; ACTIVATE queues the slot-select record; ABORT
empties the slot; FW_CONFIRM queues a higher security version; a command out of its state is refused. -/
def Obligations.FirmwareUpdatesFollowTheirStates : Prop :=
  ∀ (s : State) (off v : Nat) (k1 k2 k3 : Bool) (idle : Nat), idle = s.dev.idleSlot →
    (¬ s.dev.PilotServes → ∀ c ∈ [Instr.fwBegin, .fwProgram off, .fwVerify k1 k2 k3, .fwActivate, .fwUpdateAbort, .fwConfirm v],
      ∃ t, exec c s = .next t ∧ s.Refused t 7) ∧
    (s.dev.PilotServes →
      (s.dev.fwBusy = true → ∀ c ∈ [Instr.fwBegin, .fwProgram off, .fwVerify k1 k2 k3, .fwActivate, .fwUpdateAbort],
        ∃ t, exec c s = .next t ∧ s.Refused t 3) ∧
      (s.dev.fwBusy = false →
        (s.dev.fwPending = true → ∃ t, exec .fwBegin s = .next t ∧ s.Refused t 4) ∧
        (s.dev.fwPending = false → s.dev.mirrorUp 0 = true →
          ∃ t, exec .fwBegin s = .next t ∧ t.dev.fwPending = true ∧ t.dev.get Obj.FW_UPDATE_STATE = 1 ∧ tget 0 t.vault.slotState idle = 1 ∧
            t.dev.store = { s.dev.store with
              queue := s.dev.store.queue ++ (List.range 32).map fun b => (⟨.slotErase idle b, 0, false⟩ : StoreOp) } ∧ t.dev.reply = ⟨0, 0, []⟩ ∧
            t.vault = { s.vault with slotState := t.vault.slotState } ∧ t.dev.hearths = s.dev.hearths ∧ t.dev.hbm = s.dev.hbm ∧
            s.dev.SameObjects t.dev [Obj.FW_UPDATE_STATE.key 0 0]) ∧
        (s.idleState ≠ 1 ∨ off % 131072 ≠ 0 → ∃ t, exec (.fwProgram off) s = .next t ∧ s.Refused t 4) ∧
        (s.idleState = 1 → off % 131072 = 0 → off < 2 ^ 21 → s.dev.mirrorUp 0 = true → ∀ bs, bs = s.dev.domRead Obj.FW_STAGE 0 131072 →
          ∃ t, exec (.fwProgram off) s = .next t ∧ t.dev.get Obj.FW_UPDATE_STATE = 1 ∧ t.dev.reply = ⟨0, 0, []⟩ ∧
            t.dev.store = { s.dev.store with queue := s.dev.store.queue ++ (List.range 512).map fun k =>
              (⟨.slotProgram idle (off + 256 * k) ((bs.drop (256 * k)).take 256), 0, false⟩ : StoreOp) } ∧
            t = { s with dev := { s.dev with od := t.dev.od, store := t.dev.store, reply := t.dev.reply } } ∧
            s.dev.SameObjects t.dev [Obj.FW_UPDATE_STATE.key 0 0]) ∧
        (s.idleState ≠ 1 → ∃ t, exec (.fwVerify k1 k2 k3) s = .next t ∧ s.Refused t 4) ∧
        (s.idleState = 1 → ∀ r, r = s.vault.verify (s.dev.get Obj.FW_KEY_REVOKED) idle k1 k2 k3 →
          ∃ t, exec (.fwVerify k1 k2 k3) s = .next t ∧ t.dev.get Obj.FW_UPDATE_STATE = 3 ∧ t.dev.get Obj.FW_REJECT_REASON = r ∧
            t.dev.reply = ⟨0, 0, []⟩ ∧
            (r = 0 → tget 0 t.vault.slotState idle = 2 ∧ s.BlockWritten t Obj.PENDING_MEASUREMENT 0 0 0 (s.vault.measurement idle)) ∧
            (r ≠ 0 → tget 0 t.vault.slotState idle = 3 ∧ t.dev.dom = s.dev.dom) ∧
            t.vault = { s.vault with slotState := t.vault.slotState } ∧ t.dev.hearths = s.dev.hearths ∧ t.dev.hbm = s.dev.hbm ∧
            t.dev.store = s.dev.store) ∧
        (s.idleState ≠ 2 → ∃ t, exec .fwActivate s = .next t ∧ s.Refused t 4) ∧
        (s.idleState = 2 → s.dev.mirrorUp 0 = true →
          ∃ t, exec .fwActivate s = .next t ∧ t.dev.get Obj.FW_UPDATE_STATE = 1 ∧ t.dev.reply = ⟨0, 0, []⟩ ∧
            t.dev.store = { s.dev.store with queue := s.dev.store.queue ++ [⟨.slotSelect idle, 0, false⟩] } ∧
            t = { s with dev := { s.dev with od := t.dev.od, store := t.dev.store, reply := t.dev.reply } } ∧
            s.dev.SameObjects t.dev [Obj.FW_UPDATE_STATE.key 0 0]) ∧
        ((s.idleState = 0 ∨ s.idleState = 4) → ∃ t, exec .fwUpdateAbort s = .next t ∧ s.Refused t 4) ∧
        (s.idleState ≠ 0 → s.idleState ≠ 4 →
          ∃ t, exec .fwUpdateAbort s = .next t ∧ t.dev.fwPending = false ∧ t.dev.get Obj.FW_UPDATE_STATE = 0 ∧ tget 0 t.vault.slotState idle = 0 ∧
            s.BlockWritten t Obj.PENDING_MEASUREMENT 0 0 0 (List.replicate 48 0) ∧ t.dev.reply = ⟨0, 0, []⟩ ∧
            t.vault = { s.vault with slotState := t.vault.slotState } ∧ t.dev.hearths = s.dev.hearths ∧ t.dev.hbm = s.dev.hbm ∧
            s.dev.SameObjects t.dev [Obj.FW_UPDATE_STATE.key 0 0])) ∧
      (1 < v → ∃ t, exec (.fwConfirm v) s = .next t ∧ s.Refused t 4) ∧
      (∀ sv, sv = s.vault.slotNat (s.dev.get Obj.FW_ACTIVE_SLOT) 12 4 →
        (v = 0 ∨ v = 1 ∧ sv ≤ s.vault.secVersion → ∃ t, exec (.fwConfirm v) s = .next t ∧ s.Refused t 0) ∧
        (v = 1 → s.vault.secVersion < sv → s.dev.mirrorUp 0 = true →
          ∃ t, exec (.fwConfirm v) s = .next t ∧
            t.dev.store = { s.dev.store with queue := s.dev.store.queue ++ [⟨.secVersion sv, 0, false⟩] } ∧ t.dev.reply = ⟨0, 0, []⟩ ∧
            t = { s with dev := { s.dev with store := t.dev.store, reply := t.dev.reply } })))

/-- Bundles and quotes (R428 to R435, R438): a load whose header, member record, key and layout pass decrypts its segments and issues a handle; one that
fails says why, and what it had begun is ash; a release makes the bundle's segments ash; a quote's body is taken when its request is
accepted and is readable with its signature when ready. Which segments had begun when a load fails is a free value (log entry 5). -/
def Obligations.BundlesLoadAndReleaseAndQuotesAreSigned : Prop :=
  ∀ (s : State),
    (s.dev.PilotServes → ∀ a (ok : Bool) head members segs len hdr ranges,
      head = s.dev.dataBytes a 160 → members = leNat ((head.drop 6).take 2) → segs = leNat ((head.drop 8).take 4) →
      len = 160 + 96 * members + 48 * segs → hdr = s.dev.dataBytes a len → ranges = (segRecords hdr members segs).map (fun r => s.dev.segRange r.1 r.2) →
      ((s.dev.get Obj.BUNDLE_STATE = 1 ∨ s.dev.get Obj.BUNDLE_STATE = 2 ∨ 16 ≤ s.dev.bundleCount) →
        ∃ t, exec (.bundleLoad a ok) s = .next t ∧ s.Refused t 3) ∧
      (s.dev.get Obj.BUNDLE_STATE ≠ 1 → s.dev.get Obj.BUNDLE_STATE ≠ 2 → s.dev.bundleCount < 16 →
        (a % 4096 ≠ 0 ∨ 2 ^ 41 ≤ a → ∃ t, exec (.bundleLoad a ok) s = .next t ∧ s.Refused t 4) ∧
        (a % 4096 = 0 → a < 2 ^ 41 →
          ∃ t, exec (.bundleLoad a ok) s = .next t ∧ t.dev.reply = ⟨0, 0, []⟩ ∧ t.dev.hearths = s.dev.hearths ∧ s.KeepsMemory t ∧
            ∀ formed mine apart,
              formed = (decide (leNat (head.take 4) = 0x4E425A4B) && decide (leNat ((head.drop 4).take 2) = 1) && decide (members ≠ 0) &&
                decide (members ≤ 512) && decide (segs ≠ 0) && decide (segs ≤ 4096)) →
              mine = (List.range members).any (fun m => decide ((hdr.drop (160 + 96 * m)).take 48 = leBytes 48 Config.leafDigest)) →
              apart = (ranges.all Option.isSome && segsApart (ranges.filterMap id) &&
                (ranges.filterMap id).all fun x => s.dev.bundleSegs.all fun y => !segsMeet x y) →
              (s.dev.dataServed a 160 = false → t.dev.get Obj.BUNDLE_STATE = 4 ∧ t.dev.get Obj.BUNDLE_RESULT = 5) ∧
              (s.dev.dataServed a 160 = true → formed = false → t.dev.get Obj.BUNDLE_STATE = 4 ∧ t.dev.get Obj.BUNDLE_RESULT = 3) ∧
              (s.dev.dataServed a 160 = true → formed = true →
                (s.dev.dataServed a len = false → t.dev.get Obj.BUNDLE_STATE = 4 ∧ t.dev.get Obj.BUNDLE_RESULT = 5) ∧
                (s.dev.dataServed a len = true →
                  (mine = false → t.dev.get Obj.BUNDLE_STATE = 4 ∧ t.dev.get Obj.BUNDLE_RESULT = 1) ∧
                  (mine = true → ok = false → t.dev.get Obj.BUNDLE_STATE = 4 ∧ t.dev.get Obj.BUNDLE_RESULT = 2) ∧
                  (mine = true → ok = true → apart = false → t.dev.get Obj.BUNDLE_STATE = 4 ∧ t.dev.get Obj.BUNDLE_RESULT = 3) ∧
                  (mine = true → ok = true → apart = true → t.dev.get Obj.BUNDLE_STATE = 2 ∧ t.dev.get Obj.BUNDLE_RESULT = 0 ∧
                    t.dev.bundles = { s.dev.bundles with
                      loading := some ⟨0, a, digest ((hdr.drop 16).take 16 ++ digest hdr), ranges.filterMap id⟩ })))))) ∧
    (s.dev.bundles.loading = none → exec .bundleLoaded s = .next s ∧ ∀ cause, exec (.bundleLoadFailure cause) s = .next s) ∧
    (∀ b, s.dev.bundles.loading = some b →
      (s.dev.segsServed b = false → exec .bundleLoaded s = .next s) ∧
      (s.dev.segsServed b = true →
        ∃ t, exec .bundleLoaded s = .next t ∧ t.dev.get Obj.BUNDLE_STATE = 3 ∧ t.dev.get Obj.BUNDLE_RESULT = 0 ∧
        t.dev.get Obj.BUNDLE_LAST_HANDLE = s.dev.bundles.nextHandle % 2 ^ Obj.BUNDLE_LAST_HANDLE.bitsOf ∧ t.dev.bundles.loading = none ∧
        t.dev.bundles.nextHandle = s.dev.bundles.nextHandle + 1 ∧ s.Counted t Obj.MEAS_EXTENDS 0 1 ∧
        (∀ n < 16, tget none s.dev.bundles.loaded n = none → (∀ m < n, tget none s.dev.bundles.loaded m ≠ none) →
          tget none t.dev.bundles.loaded n = some { b with handle := s.dev.bundles.nextHandle } ∧
          t.dev.get Obj.BUNDLE_HANDLE 0 n = s.dev.bundles.nextHandle % 2 ^ Obj.BUNDLE_HANDLE.bitsOf) ∧
        (∀ r head plain, b.segs = [r] → head = s.dev.dataBytes b.header 160 →
          plain = Config.unwrapSegment (s.dev.dataBytes b.header (160 + 96 * leNat ((head.drop 6).take 2) + 48 * leNat ((head.drop 8).take 4))) 0
            ((List.range r.2.2).flatMap fun k => (s.dev.peek r.1 (r.2.1 + k)).bytes) → r.2.1 + r.2.2 ≤ 2 ^ 30 →
          (∀ k < r.2.2, t.dev.sector r.1 (r.2.1 + k) =
            if s.dev.secFailed r.1 (r.2.1 + k) = true then s.dev.sector r.1 (r.2.1 + k) else ⟨fit 0 64 (plain.drop (64 * k)), false, []⟩) ∧
          ∀ st sec, sec < 2 ^ 30 → (st ≠ r.1 ∨ sec < r.2.1 ∨ r.2.1 + r.2.2 ≤ sec) → t.dev.sector st sec = s.dev.sector st sec) ∧
        t.dev.hearths = s.dev.hearths ∧ t.dev.slow = s.dev.slow ∧ t.vault = s.vault ∧ t.pending = s.pending) ∧
      (∀ cause : Fin 2,
        ∃ t, exec (.bundleLoadFailure cause) s = .next t ∧ t.dev.get Obj.BUNDLE_STATE = 4 ∧ t.dev.get Obj.BUNDLE_RESULT = 4 + cause.val ∧
          t.dev.bundles.loading = none ∧ t.dev.bundles.loaded = s.dev.bundles.loaded ∧
          (∀ st sec, sec < 2 ^ 30 → (∀ r ∈ b.segs, r.1 ≠ st ∨ sec < r.2.1 ∨ r.2.1 + r.2.2 ≤ sec) → t.dev.sector st sec = s.dev.sector st sec) ∧
          t.dev.hearths = s.dev.hearths ∧ t.dev.slow = s.dev.slow ∧ t.vault = s.vault ∧ t.pending = s.pending)) ∧
    (s.dev.PilotServes → ∀ handle,
      ((∀ n < 16, ∀ b, tget none s.dev.bundles.loaded n = some b → b.handle ≠ handle) →
        ∃ t, exec (.bundleRelease handle) s = .next t ∧ s.Refused t 4) ∧
      (∀ n b, n < 16 → tget none s.dev.bundles.loaded n = some b → b.handle = handle →
        (∀ m < n, ∀ x, tget none s.dev.bundles.loaded m = some x → x.handle ≠ handle) →
        ∃ t, exec (.bundleRelease handle) s = .next t ∧ tget none t.dev.bundles.loaded n = none ∧ t.dev.get Obj.BUNDLE_HANDLE 0 n = 0 ∧
          (∀ r ∈ b.segs, s.dev.get Obj.STACK_STATE r.1 ≠ 4 → (s.dev.stack r.1).draining = false → ∀ k < r.2.2, r.2.1 + k < 2 ^ 30 →
            t.dev.sector r.1 (r.2.1 + k) = Sector.ashSector) ∧
          t.dev.reply = ⟨0, 0, []⟩ ∧ t.dev.hearths = s.dev.hearths ∧ t.dev.slow = s.dev.slow ∧ t.vault = s.vault ∧ t.pending = s.pending)) ∧
    (s.dev.PilotServes → ∀ (n : Fin 4) (nonce : List Byte),
      (nonce.length ≠ 32 → ∃ t, exec (.quoteReq n nonce) s = .next t ∧ s.Refused t 5) ∧
      (nonce.length = 32 → s.dev.get Obj.QUOTE_STATUS 0 n.val = 1 → ∃ t, exec (.quoteReq n nonce) s = .next t ∧ s.Refused t 3) ∧
      (nonce.length = 32 → s.dev.get Obj.QUOTE_STATUS 0 n.val ≠ 1 →
        ∃ t, exec (.quoteReq n nonce) s = .next t ∧ t.dev.get Obj.QUOTE_STATUS 0 n.val = 1 ∧ tget [] t.dev.quotes n.val = s.quoteBody nonce ∧
          t.dev.reply = ⟨0, 0, []⟩ ∧ t = { s with dev := { s.dev with od := t.dev.od, quotes := t.dev.quotes, reply := t.dev.reply } } ∧
          s.dev.SameObjects t.dev [Obj.QUOTE_STATUS.key 0 n.val])) ∧
    (∀ n : Fin 4,
      (s.dev.get Obj.QUOTE_STATUS 0 n.val = 1 → ∀ body, body = tget [] s.dev.quotes n.val →
        ∃ t, exec (.quoteReady n) s = .next t ∧ t.dev.get Obj.QUOTE_STATUS 0 n.val = 2 ∧
          s.BlockWritten t Obj.QUOTE 0 n.val 0 (body ++ fit 0 96 (Config.sign body)) ∧
          t = { s with dev := { s.dev with od := t.dev.od, dom := t.dev.dom, quotes := t.dev.quotes } }) ∧
      (s.dev.get Obj.QUOTE_STATUS 0 n.val ≠ 1 → exec (.quoteReady n) s = .next s))

/-- Power-on and the management core's start (R1 to R3, R350, R351, R394, R395, R402, R411, R412, R424, R436, R442, R450): the boot ROM starts with the straps'
class and its envelope; the image of the active slot runs, or the other, or the device is in RECOVERY; the firmware loads the record or
the defaults, counts the boot, puts the confidential mode in force and starts regions, Stokers and ports. -/
def Obligations.PowerOnAndFirmwareStartTheModule : Prop :=
  ∀ (s : State) (sel0 sel1 : Nat),
    (s.dev.get Obj.BOOT_STATE = 0 →
      ∃ t, exec (.powerOn sel0 sel1) s = .next t ∧ t.dev.get Obj.BOOT_STATE = 1 ∧ t.dev.hbm = [] ∧ t.dev.slow = [] ∧ t.dev.hearths = [] ∧
        t.vault.strapCode = (if (strapRead sel0).1 = true then 1 else 0) + (if (strapRead sel1).1 = true then 2 else 0) ∧
        t.vault.coolingClass = classOf t.vault.strapCode ∧ t.dev.get Obj.POWER_CAP_W = envelopeOf t.vault.coolingClass ∧
        (∀ k < 2, bit t.vault.strapFaults k = true → bit (t.dev.get Obj.SIDEBAND_STATUS) (2 + k) = true ∧ bit (t.dev.get Obj.SIDEBAND_FAULTS) (2 + k) = true) ∧
        t.vault.lastShutdown = (if s.vault.reversed = true then 4 else s.vault.lastShutdown) ∧ t.vault.reversed = false ∧
        t.vault.defects = s.vault.defects ∧ t.vault.persistOd = s.vault.persistOd ∧ t.pending = s.pending) ∧
    (s.dev.get Obj.BOOT_STATE ≠ 0 → exec (.powerOn sel0 sel1) s = .next s) ∧
    (∀ ok0 ok1 recOk run, run = s.vault.runningSlot (s.dev.get Obj.FW_KEY_REVOKED) ok0 ok1 →
      (s.dev.get Obj.BOOT_STATE ≠ 1 → exec (.firmwareVerified ok0 ok1 recOk) s = .next s) ∧
      (s.dev.get Obj.BOOT_STATE = 1 → run = none →
        ∃ t, exec (.firmwareVerified ok0 ok1 recOk) s = .next t ∧ t.dev.get Obj.BOOT_STATE = 4 ∧
          s.OnlyObjects t [Obj.BOOT_STATE.key 0 0, Obj.FW_ACTIVE_SLOT.key 0 0]) ∧
      (∀ slot, s.dev.get Obj.BOOT_STATE = 1 → run = some slot →
        ∃ t, exec (.firmwareVerified ok0 ok1 recOk) s = .next t ∧ t.dev.get Obj.BOOT_STATE = 2 ∧
          t.dev.get Obj.FW_ACTIVE_SLOT = slot % 2 ^ Obj.FW_ACTIVE_SLOT.bitsOf ∧ tget 0 t.vault.slotState slot = 4 ∧
          t.dev.get Obj.BOOT_COUNT = (s.vault.bootCount + 1) % 2 ^ 32 ∧ t.dev.get Obj.DEVICE_ID_ACTIVE = t.dev.get Obj.DEVICE_ID % 2 ^ 32 ∧
          t.dev.get Obj.CONFIDENTIAL_ACTIVE = (if t.dev.get Obj.CONFIDENTIAL_REQUEST = 1 then 1 else 0) ∧
          (t.vault.confidential = true ↔ t.dev.get Obj.CONFIDENTIAL_REQUEST = 1) ∧
          (t.vault.confidential = s.vault.confidential → t.dev.hbm = s.dev.hbm ∧ t.dev.slow = s.dev.slow) ∧
          (t.vault.confidential ≠ s.vault.confidential → t.dev.hbm = [] ∧ t.dev.slow = []) ∧ t.vault.persistDefaults = false ∧
          (s.vault.persistDefaults = true → t.dev.get Obj.PERSIST_SOURCE = 2) ∧
          (s.vault.persistDefaults = false → s.vault.persistValid = true → recOk = false → t.dev.get Obj.PERSIST_SOURCE = 1) ∧
          (s.vault.persistDefaults = false → s.vault.persistValid = true → recOk = true → twf 0 s.vault.persistOd = true →
            ∀ o ∈ [Obj.DEVICE_ID, Obj.BRIDGE_ENABLE, Obj.CONFIDENTIAL_REQUEST], ∀ v, tget 0 s.vault.persistOd (o.key 0 0) = v + 1 → t.dev.get o = v) ∧
          (∀ g < 16, t.dev.get Obj.REGION_STATE g = 1 ∧ t.dev.get Obj.CLOCK_STATE g = 1) ∧ (∀ k < 2, t.dev.get Obj.STOKER_STATE k = 1) ∧
          (∀ p < 16, t.dev.get Obj.PORT_STATE p = if t.dev.get Obj.PORT_CTL p = 1 then 2 else 0) ∧ t.vault.defects = s.vault.defects ∧
          t.pending = s.pending))

/-- A region's bring-up (R16, R17, R185, R187, R374, R396 to R398, R403, R406, R415): when its PLL locks it runs at OP4 or clamped, its hearths are fresh and
under test and its stacks start; a round's end shows each slot's result, maps good slots, after round 3 leaves the undecided absent, and
begins the next round; a stack's training ends with its failed channels named, and channels that train again come back as ash. -/
def Obligations.RegionsTestMapAndTrain : Prop :=
  ∀ (s : State) (g : Fin 16),
    (s.dev.power.tripped = true → exec (.regionPllLocked g) s = .next s) ∧
    (s.dev.power.tripped = false → s.dev.get Obj.REGION_STATE g.val = 1 → s.dev.get Obj.CLOCK_STATE g.val = 1 →
      ∃ t, exec (.regionPllLocked g) s = .next t ∧ t.dev.get Obj.REGION_STATE g.val = 2 ∧ t.dev.get Obj.TEST_ROUND g.val = 1 ∧
        t.dev.get Obj.REGION_OP g.val = (if (s.dev.damperLow || s.dev.power.critical || s.dev.power.clamped.contains g.val) = true then 0 else 4) ∧
        t.dev.get Obj.CLOCK_STATE g.val = (if t.dev.regionTarget g.val = t.dev.get Obj.REGION_OP g.val then 2 else 3) ∧
        (∀ h ∈ hearthsOfRegion g.val, t.dev.hearth h = Hearth.fresh ∧ t.dev.get Obj.HEARTH_STATE h = hTesting ∧ t.dev.get Obj.FW_STATE h = 0 ∧
          t.dev.slotOf h = 15 ∧ t.dev.get Obj.TEST_RESULT h = 1) ∧
        (∀ c ∈ clustersOfRegion g.val, t.dev.get Obj.CACHE_STATE c = 0 ∧
          ∀ p < 9, t.dev.physOf c p = if p ∈ roundSlots 1 then 1 else if s.vault.fuseBad.contains (9 * c + p) = true then 3 else 0) ∧
        (∀ st ∈ [2 * g.val, 2 * g.val + 1],
          (s.dev.get Obj.STACK_POWER_CTL st = 0 → t.dev.get Obj.STACK_STATE st = s.dev.get Obj.STACK_STATE st) ∧
          (s.dev.get Obj.STACK_POWER_CTL st ≠ 0 → s.dev.get Obj.STACK_STATE st ≤ 1 → t.dev.get Obj.STACK_STATE st = 1) ∧
          (s.dev.get Obj.STACK_POWER_CTL st ≠ 0 → s.dev.get Obj.STACK_STATE st = 4 →
            t.dev.get Obj.STACK_STATE st = if (List.range 64).any (fun q => decide (s.dev.pch st q = .failed)) = true then 3 else 2)) ∧
        t.vault = s.vault ∧ t.pending = s.pending) ∧
    (s.dev.power.tripped = false → s.dev.get Obj.CLOCK_STATE g.val = 1 → s.dev.get Obj.REGION_STATE g.val ≠ 1 →
      s.dev.NoneAtBoundary g.val →
      ∃ t, exec (.regionPllLocked g) s = .next t ∧
        s.RunsAt t g.val ((if s.dev.power.clamped.contains g.val = true then 0 else s.dev.regionTarget g.val) % 2 ^ Obj.REGION_OP.bitsOf)) ∧
    (s.dev.get Obj.CLOCK_STATE g.val ≠ 1 → exec (.regionPllLocked g) s = .next s) ∧
    (∀ failed caches r, r = s.dev.get Obj.TEST_ROUND g.val →
      (r = 0 → exec (.testRoundEnd g failed caches) s = .next s) ∧
      (1 ≤ r → r ≤ 3 →
        ∃ t, exec (.testRoundEnd g failed caches) s = .next t ∧ t.dev.get Obj.TEST_ROUND g.val = (if r < 3 then r + 1 else 0) ∧
          (∀ c ∈ clustersOfRegion g.val,
            (∀ p ∈ roundSlots r, t.dev.physOf c p = s.dev.testShown s.vault failed (9 * c + p) ∧
              (p < 8 → s.dev.testShown s.vault failed (9 * c + p) = 2 → t.dev.slotOf (8 * c + p) = p ∧ t.dev.get Obj.TEST_RESULT (8 * c + p) = 2)) ∧
            (r < 3 → ∀ p ∈ roundSlots (r + 1), t.dev.physOf c p = 1) ∧
            (r = 1 → t.dev.get Obj.CACHE_STATE c = if (s.vault.fuseCache.contains c || caches.contains c || s.dev.isListed s.vault 2 c) = true then 2 else 1) ∧
            (r = 3 → ∀ p < 8, t.dev.slotOf (8 * c + p) = 15 → t.dev.get Obj.HEARTH_STATE (8 * c + p) = hAbsent)) ∧
          t.dev.hearths = s.dev.hearths ∧ s.KeepsMemory t)) ∧
    (∀ (st : Fin 32) (failed : List Nat),
      (s.dev.get Obj.STACK_STATE st.val = 1 →
        ∃ t, exec (.stackTrainingDone st failed) s = .next t ∧
          t.dev.get Obj.STACK_STATE st.val = (if (List.range 32).any (fun ch => failed.contains ch) = true then 3 else 2) ∧
          (∀ ch < 32, t.dev.pch st.val (2 * ch) = (if ch ∈ failed then .failed else .active) ∧
            t.dev.pch st.val (2 * ch + 1) = (if ch ∈ failed then .failed else .active)) ∧
          t.dev.hearths = s.dev.hearths ∧ s.KeepsMemory t) ∧
      (s.dev.get Obj.STACK_STATE st.val = 3 → (s.dev.stack st.val).failedRetry = true →
        ∃ t, exec (.stackTrainingDone st failed) s = .next t ∧
          (∀ ch < 32, s.dev.pch st.val (2 * ch) = .failed → ch ∉ failed → t.dev.pch st.val (2 * ch) = .active ∧ t.dev.pch st.val (2 * ch + 1) = .active) ∧
          (∀ sec < 2 ^ 30, t.dev.sector st.val sec =
            if s.dev.pch st.val (2 * chanOfSec sec) = .failed ∧ chanOfSec sec ∉ failed then Sector.ashSector else s.dev.sector st.val sec) ∧
          t.dev.get Obj.STACK_STATE st.val = (if (List.range 32).any (fun ch => decide (s.dev.pch st.val (2 * ch) = .failed) && failed.contains ch) = true then 3 else 2) ∧
          s.OtherStacksStored t st.val ∧ t.dev.hearths = s.dev.hearths ∧ t.vault = s.vault ∧ t.pending = s.pending) ∧
      (s.dev.get Obj.STACK_STATE st.val ≠ 1 → (s.dev.get Obj.STACK_STATE st.val ≠ 3 ∨ (s.dev.stack st.val).failedRetry = false) →
        exec (.stackTrainingDone st failed) s = .next s))

/-- Hearth firmware, Ready and full service (R399 to R401, R407 to R410): one pass writes the areas of the regions that lack one; a multicast loads every
hearth that waits and brings it into the pool, but for one whose chunk failed six times; a pull loads one chunk in rotating order; a
device that has finished training is Ready; a region whose hearths are all settled is in full service. -/
def Obligations.HearthsLoadFirmwareAndServiceBegins : Prop :=
  ∀ (s : State),
    (∃ t, exec .fwAreaWritten s = .next t ∧
      (∀ g < 16, t.dev.get Obj.FW_AREA_STATE g =
        if s.dev.get Obj.FW_AREA_STATE g = 0 ∧ 2 ≤ s.dev.get Obj.REGION_STATE g ∧
            (s.dev.get Obj.STACK_STATE (2 * g) = 2 ∨ s.dev.get Obj.STACK_STATE (2 * g + 1) = 2) then 1 else s.dev.get Obj.FW_AREA_STATE g) ∧
      t.dev.slow = s.dev.slow ∧ t.vault = s.vault ∧ t.pending = s.pending) ∧
    (∀ (cl : Fin 128) (fails : List (Nat × Nat)) ready n slot, n = s.dev.get Obj.HEARTH_FW_CHUNKS → slot = s.dev.get Obj.FW_ACTIVE_SLOT →
      ready = (decide (s.dev.get Obj.FW_AREA_STATE (cl.val / 8) = 1) && decide (s.dev.get Obj.MULTICAST_DONE cl.val ≠ 1) &&
        s.dev.testSeen.contains (9 * cl.val)) →
      (ready = false → exec (.clusterMulticast cl fails) s = .next s) ∧
      (ready = true →
        ∃ t, exec (.clusterMulticast cl fails) s = .next t ∧ t.dev.get Obj.MULTICAST_DONE cl.val = 1 ∧
          (∀ h ∈ hearthsOfCluster cl.val, s.dev.wantsFw h = true →
            ((∀ i < n, ((fails.filter fun e => e.1 = i).map (·.2)).foldl (· + ·) 0 < 6) → s.dev.get Obj.FW_CHUNKS_MISSING h < 2 ^ min n 32 →
              t.dev.get Obj.FW_STATE h = 2 ∧ t.dev.get Obj.HEARTH_STATE h = hIdle ∧
              ∀ i < n, tget [] (t.dev.hearth h).cstore i = s.vault.hearthChunk slot i) ∧
            (∀ i < n, i < 32 → 6 ≤ ((fails.filter fun e => e.1 = i).map (·.2)).foldl (· + ·) 0 → bit (s.dev.get Obj.FW_CHUNKS_MISSING h) i = true →
              t.dev.get Obj.FW_STATE h = 3 ∧ t.dev.get Obj.HEARTH_STATE h = hTesting)) ∧
          (∀ h, h ∉ hearthsOfCluster cl.val ∨ s.dev.wantsFw h = false → t.dev.hearth h = s.dev.hearth h) ∧
          (fails = [] → t.dev.hbm = s.dev.hbm) ∧ t.dev.slow = s.dev.slow ∧ t.vault = s.vault ∧ t.pending = s.pending)) ∧
    (∀ (cl : Fin 128) (fails : Nat) pick,
      pick = (if s.dev.get Obj.FW_AREA_STATE (cl.val / 8) ≠ 1 ∨ s.dev.get Obj.MULTICAST_DONE cl.val = 0 then none
        else rotPick 8 (s.dev.cluster cl.val).pullPtr ((List.range 8).filter fun k => s.dev.wantsFw (8 * cl.val + k))) →
      (pick = none → exec (.chunkPull cl fails) s = .next s) ∧
      (∀ k h, pick = some k → h = 8 * cl.val + k →
        (s.dev.nextChunk h = none →
          ∃ t, exec (.chunkPull cl fails) s = .next t ∧ t.dev.get Obj.FW_STATE h = 2 ∧ t.dev.get Obj.HEARTH_STATE h = hIdle ∧
            (t.dev.cluster cl.val).pullPtr = (k + 1) % 8 ∧ t.dev.hearths = s.dev.hearths ∧ s.KeepsMemory t) ∧
        (∀ i, s.dev.nextChunk h = some i →
          (fails < 6 →
            ∃ t, exec (.chunkPull cl fails) s = .next t ∧ tget [] (t.dev.hearth h).cstore i = s.vault.hearthChunk (s.dev.get Obj.FW_ACTIVE_SLOT) i ∧
              bit (t.dev.get Obj.FW_CHUNKS_MISSING h) i = false ∧ s.Counted t Obj.MISSED_CHUNK_FETCHES cl.val 1 ∧
              t.dev.get Obj.FW_STATE h = (if t.dev.get Obj.FW_CHUNKS_MISSING h = 0 then 2 else 1) ∧
              (t.dev.cluster cl.val).pullPtr = (k + 1) % 8 ∧ (∀ x, x ≠ h → t.dev.hearth x = s.dev.hearth x) ∧
              (fails = 0 → t.dev.hbm = s.dev.hbm) ∧ t.dev.slow = s.dev.slow ∧ t.vault = s.vault ∧ t.pending = s.pending) ∧
          (6 ≤ fails →
            ∃ t, exec (.chunkPull cl fails) s = .next t ∧ t.dev.get Obj.FW_STATE h = 3 ∧ t.dev.get Obj.HEARTH_STATE h = hTesting ∧
              s.Counted t Obj.MISSED_CHUNK_FETCHES cl.val 1 ∧ t.dev.hearths = s.dev.hearths ∧ t.dev.slow = s.dev.slow ∧ t.vault = s.vault ∧
              t.pending = s.pending)))) ∧
    (∀ p : Fin 16,
      (s.dev.get Obj.PORT_STATE p.val = 2 →
        ∃ t, exec (.portPresenceTimeout p) s = .next t ∧ t.dev.port p.val = { s.dev.port p.val with present := false } ∧ s.OnlyPort t p.val ∧
          t = { s with dev := { s.dev with ports := t.dev.ports } }) ∧
      (s.dev.get Obj.PORT_STATE p.val ≠ 2 → exec (.portPresenceTimeout p) s = .next s)) ∧
    (s.dev.get Obj.BOOT_STATE = 2 → s.dev.get Obj.DEVICE_READY = 0 → s.dev.allTrained = true →
      ∃ t, exec .deviceReady s = .next t ∧ t.dev.get Obj.DEVICE_READY = 1 ∧ t.dev.get Obj.READY_TICK = s.dev.tick % 2 ^ 64 ∧
        t.dev.get Obj.BOOT_STATE = 3 ∧ t.dev.hearths = s.dev.hearths ∧ s.KeepsMemory t) ∧
    ((s.dev.get Obj.BOOT_STATE ≠ 2 ∨ s.dev.get Obj.DEVICE_READY ≠ 0 ∨ s.dev.allTrained = false) → exec .deviceReady s = .next s) ∧
    (∀ (g : Fin 16) settled, settled = ((hearthsOfRegion g.val).all fun h => s.dev.hearthSettled h && decide (s.dev.hState h ≠ hFiring)) →
      (s.dev.get Obj.REGION_STATE g.val = 3 → s.dev.get Obj.DEVICE_READY = 1 → settled = true →
        ∃ t, exec (.regionFullService g) s = .next t ∧ t.dev.get Obj.REGION_STATE g.val = 4 ∧
          t.dev.get Obj.REGION_UP_TICK g.val = s.dev.tick % 2 ^ 64 ∧ (∀ h ∈ hearthsOfRegion g.val, t.dev.get Obj.HEARTH_SERVICE h = 0) ∧
          t.dev.hearths = s.dev.hearths ∧ s.KeepsMemory t) ∧
      ((s.dev.get Obj.REGION_STATE g.val ≠ 3 ∨ s.dev.get Obj.DEVICE_READY ≠ 1 ∨ settled = false) → exec (.regionFullService g) s = .next s))

/-- Resets (R18, R404, R405, R411 to R417): RESET_N and the key written to WHOLE_RESET restart the module with its memories but for what becomes ash; a
reset of a hearth, a cluster or a partition clears its hearths but for their scratchpads and waits for them, or for its region's clock; the drain's end starts the
tests or the region's bring-up; a hearth that fails its test is absent and listed; a defect added by the host or of a lane is listed. That
RESET_N finds nothing to reset in an unpowered module is the model's reading (log entry 26). -/
def Obligations.ResetsClearTestAndListDefects : Prop :=
  ∀ (s : State),
    (∀ sel0 sel1,
      (s.dev.get Obj.BOOT_STATE ≠ 0 → s.dev.power.onBank = false →
        ∃ t, exec (.resetN sel0 sel1) s = .next t ∧ s.Restarted t 0 sel0 sel1) ∧
      (s.dev.get Obj.BOOT_STATE = 0 ∨ s.dev.power.onBank = true → exec (.resetN sel0 sel1) s = .next s) ∧
      (s.dev.PilotServes → s.dev.power.onBank = false →
        (∃ t, exec (.wholeReset 0x5A5A sel0 sel1) s = .next t ∧ s.Restarted t 1 sel0 sel1) ∧
        ∀ v, v ≠ 0x5A5A → ∃ t, exec (.wholeReset v sel0 sel1) s = .next t ∧ s.Refused t 4)) ∧
    (∀ n, s.dev.PilotServes →
      (8 ≤ n → ∃ t, exec (.partitionReset n) s = .next t ∧ s.Refused t 4) ∧
      (∀ k : Fin 8, n = k.val →
        (s.dev.regionsOf n = [] → ∃ t, exec (.partitionReset n) s = .next t ∧ s.Refused t 0) ∧
        (s.dev.regionsOf n ≠ [] →
          ∃ t, exec (.partitionReset n) s = .next t ∧ t.dev.reply = ⟨0, 0, []⟩ ∧
            (∀ g ∈ s.dev.regionsOf n, t.dev.get Obj.REGION_STATE g = 5 ∧ ∀ h ∈ hearthsOfRegion g, s.HearthReset t h) ∧
            (∃ r ∈ t.dev.resets, r.part = .partition k ∧ r.drained = false) ∧ t.dev.slow = s.dev.slow ∧ t.vault = s.vault ∧
            t.pending = s.pending))) ∧
    (∀ (cl : Fin 128) v, s.dev.Serves → s.dev.mustWait [cl.val / 8] (.object .host (Obj.CLUSTER_RESET.key cl.val 0 / 256) (Obj.CLUSTER_RESET.key cl.val 0 % 256) v) = true →
      ∃ t, exec (.clusterReset cl v) s = .next t ∧
        s.Queues t (.object .host (Obj.CLUSTER_RESET.key cl.val 0 / 256) (Obj.CLUSTER_RESET.key cl.val 0 % 256) v)) ∧
    (∀ (cl : Fin 128) v, s.dev.RegionServes (cl.val / 8) Obj.CLUSTER_RESET cl.val 0 →
      (1 < v → ∃ t, exec (.clusterReset cl v) s = .next t ∧ s.Refused t 4) ∧
      (v = 0 → ∃ t, exec (.clusterReset cl v) s = .next t ∧ s.Refused t 0) ∧
      (v = 1 → s.dev.resetBusy (.cluster cl) = true →
        ∃ t, exec (.clusterReset cl v) s = .next t ∧ s.Refused t 3) ∧
      (v = 1 → s.dev.resetBusy (.cluster cl) = false →
        ∃ t, exec (.clusterReset cl v) s = .next t ∧ t.dev.reply = ⟨0, 0, []⟩ ∧ (∀ h ∈ hearthsOfCluster cl.val, s.HearthReset t h) ∧
          t.dev.cluster cl.val = Cluster.fresh ∧ t.dev.get Obj.MULTICAST_DONE cl.val = 0 ∧
          (∀ f, f / 512 = cl.val → (t.dev.flue f).put = 0 ∧ (t.dev.flue f).get = 0 ∧ (t.dev.flue f).slots = []) ∧
          (∃ r ∈ t.dev.resets, r.part = .cluster cl ∧ r.drained = false) ∧ s.KeepsMemory t)) ∧
    (∀ (h : Fin 1024) v, s.dev.Serves → s.dev.hearthAbsent h.val = true → ∃ t, exec (.hearthReset h v) s = .next t ∧ s.Refused t 3) ∧
    (∀ (h : Fin 1024) v, s.dev.HearthServes h.val Obj.HEARTH_RESET 0 →
      (1 < v → ∃ t, exec (.hearthReset h v) s = .next t ∧ s.Refused t 4) ∧
      (v = 0 → ∃ t, exec (.hearthReset h v) s = .next t ∧ s.Refused t 0) ∧
      (v = 1 → s.dev.resetBusy (.hearth h) = true → ∃ t, exec (.hearthReset h v) s = .next t ∧ s.Refused t 3) ∧
      (v = 1 → s.dev.resetBusy (.hearth h) = false →
        ∃ t, exec (.hearthReset h v) s = .next t ∧ t.dev.reply = ⟨0, 0, []⟩ ∧ s.HearthReset t h.val ∧
          (∃ r ∈ t.dev.resets, r.part = .hearth h ∧ r.drained = false ∧ r.testing = [h.val]) ∧ t.dev.clusters = s.dev.clusters ∧ s.KeepsMemory t)) ∧
    (∀ part n due, due = (s.dev.resets.any fun (r : ResetRun) => decide (r.part = part) && !r.drained) →
      (due = false → exec (.resetDrainTimeout part n) s = .next s) ∧
      (due = true →
        ∃ t, exec (.resetDrainTimeout part n) s = .next t ∧ (0 < n → s.Counted t Obj.RESET_DRAIN_ANSWERED 0 n) ∧
          (∀ r ∈ s.dev.resets, r.part = part → r.testing ≠ [] → { r with drained := true } ∈ t.dev.resets) ∧
          (∀ k, part = .partition k → ∀ g ∈ s.dev.regionsOf k.val, t.dev.get Obj.REGION_STATE g = 1 ∧ t.dev.get Obj.CLOCK_STATE g = 1 ∧
            ∀ h ∈ hearthsOfRegion g, t.dev.get Obj.HEARTH_STATE h = hResetting) ∧
          ((∀ k, part ≠ .partition k) → ∀ h ∈ s.dev.partHearths part, s.dev.hearthAbsent h = false → t.dev.get Obj.TEST_RESULT h = 1) ∧
          t.dev.hearths = s.dev.hearths ∧ s.KeepsMemory t)) ∧
    (∀ (h : Fin 1024) fail mine p, p = s.dev.slotOf h.val →
      mine = (s.dev.resets.any fun (r : ResetRun) => r.drained && r.testing.contains h.val && decide (levelOf r.part < 2)) →
      (mine = false → exec (.resetTestDone h fail) s = .next s) ∧
      (mine = true → fail = 0 →
        ∃ t, exec (.resetTestDone h fail) s = .next t ∧ t.dev.get Obj.TEST_RESULT h.val = 2 ∧ t.dev.hearths = s.dev.hearths ∧ s.KeepsMemory t) ∧
      (mine = true → fail ≠ 0 →
        ∃ t, exec (.resetTestDone h fail) s = .next t ∧ t.dev.get Obj.HEARTH_STATE h.val = hAbsent ∧ t.dev.slotOf h.val = 15 ∧
          t.dev.get Obj.TEST_RESULT h.val = fail % 2 ^ 16 * 2 ^ 16 + 3 ∧ (p < 9 → t.dev.physOf (h.val / 8) p = 4) ∧
          s.DefectQueued t 1 2 (9 * (h.val / 8) + p) fail ∧ t.dev.hearths = s.dev.hearths ∧ s.KeepsMemory t)) ∧
    (∀ v k i, s.dev.PilotServes → k = bits v 63 60 → i = bits v 55 44 →
      ((k = 1 ∧ i < 1152 ∨ k = 2 ∧ i < 128) →
        ∃ t, exec (.defectAdd v) s = .next t ∧ t.dev.reply = ⟨0, 0, []⟩ ∧ s.DefectQueued t k 4 i (bits v 43 32) ∧ t.dev.hearths = s.dev.hearths ∧
          s.KeepsMemory t) ∧
      (¬(k = 1 ∧ i < 1152 ∨ k = 2 ∧ i < 128) → ∃ t, exec (.defectAdd v) s = .next t ∧ s.Refused t 4)) ∧
    (∀ (p : Fin 16) (rx : Bool) (lane : Fin 8) good, good = (if rx = true then (s.dev.port p.val).rxGood else (s.dev.port p.val).txGood) →
      (bit good lane.val = true ∨ (rx, lane.val) ∉ (s.dev.port p.val).marked → exec (.laneDefectRecord p rx lane) s = .next s) ∧
      (bit good lane.val = false → (rx, lane.val) ∈ (s.dev.port p.val).marked →
        ∃ t, exec (.laneDefectRecord p rx lane) s = .next t ∧
          s.DefectQueued t 4 5 (p.val * 16 + (if rx = true then 8 else 0) + lane.val) 0 ∧ t.dev.hearths = s.dev.hearths ∧ s.KeepsMemory t))

/-- A step takes the command in front of the queue and is that command's effect with the queue's rest; a queue with no command leaves the
block idle, the model's choice (log entry 1). -/
def Obligations.AStepRunsTheCommandInFront : Prop :=
  ∀ (s : State) (c : Instr) (rest : List Instr),
    (s.pending = c :: rest → step s = exec c { s with pending := rest }) ∧ (s.Idle → step s = .next s)

/-- Every command ends in a next state, and none changes what waits behind it: a command whose conditions do not hold answers its status or
changes nothing. -/
def Obligations.EveryCommandAnswersAndKeepsTheQueue : Prop :=
  ∀ (c : Instr) (s : State), ∃ t, exec c s = .next t ∧ t.pending = s.pending

/-- The state after reset is that of a module as shipped and not powered (R185, R394, R402, R417, R459): sound, nothing in its memories or queue, every
stack and region OFF, no defect recorded; the vault's contents are the model's (log entry 22). -/
def Obligations.TheResetStateIsSoundAndEmpty : Prop :=
  State.reset.Sound ∧ State.reset.Idle ∧ State.reset.dev.hbm = [] ∧ State.reset.dev.slow = [] ∧ State.reset.dev.hearths = [] ∧
  State.reset.dev.events.ring = [] ∧ State.reset.dev.tick = 0 ∧ State.reset.dev.get Obj.BOOT_STATE = 0 ∧ State.reset.dev.get Obj.DEVICE_READY = 0 ∧
  (∀ o ∈ objTable, o ≠ Obj.POWER_CAP_W → ∀ i < o.kind.count, ∀ e < o.n, State.reset.dev.get o i e = o.resetVal i e) ∧
  State.reset.dev.get Obj.POWER_CAP_W = envelopeOf State.reset.vault.coolingClass ∧
  (∀ st, ∀ sec < 2 ^ 30, State.reset.dev.sector st sec = Sector.ashSector) ∧ State.reset.vault.defects = [] ∧ State.reset.vault.bootCount = 0

/-- No step makes a sound state unsound (R1, R2, R404, R424, R459), whatever command is in front and from every sound state, reached or not. -/
def Obligations.EveryStepKeepsTheVaultSound : Prop :=
  ∀ s t : State, s.Sound → step s = .next t → t.Sound

/-- No command removes or rewrites a record of the defect list, and none lowers the security version or the boot count (R404, R425, R455): from every
state the list before a step begins the list after it. -/
def Obligations.RecordsAndCountersOnlyGrow : Prop :=
  ∀ s t : State, step s = .next t →
    s.vault.defects <+: t.vault.defects ∧ s.vault.secVersion ≤ t.vault.secVersion ∧ s.vault.bootCount ≤ t.vault.bootCount

/-- Confidential mode (R436) changes in no other way than when the firmware starts after a whole-device reset, and then no byte of HBM or of the slow
tiers remains. -/
def Obligations.ConfidentialModeChangesOnlyAtAStart : Prop :=
  ∀ (c : Instr) (s t : State), exec c s = .next t → t.vault.confidential ≠ s.vault.confidential →
    (∃ a b r, c = .firmwareVerified a b r) ∧ t.dev.hbm = [] ∧ t.dev.slow = []

/-- Before the Pilot firmware runs every row that is one access to an object of its own, OBJECT_WRITE on every path, and the MCTP control messages
complete SERVER_BUSY and have no effect (R395). What a message, an OD_REQ frame and a BAR access bring is in the statements of reads and writes by
number and of the host's accesses. -/
def Obligations.AccessesAreBusyBeforeTheFirmwareRuns : Prop :=
  ∀ (c : Instr) (s : State), accesses c = true → s.dev.get Obj.BOOT_STATE < 2 → ∃ t, exec c s = .next t ∧ s.Refused t 7

/-- Words of an entry's header, of address fields, of GRATE bodies, of stream descriptors, of FLUE_CFG and of scale slots (R68, R85, R87, R92, R139,
R158): reading the word written from fields that fit gives every field back, and the little-endian bytes of a number are that number
(R7). -/
def Obligations.FieldsSurviveTheirWords : Prop :=
  (∀ x : Header, x.Fits → Header.ofWord x.word = x) ∧ (∀ x : AddrField, x.Fits → AddrField.ofWord x.word = x) ∧
  (∀ x : GrateBody, x.Fits → GrateBody.ofWord x.word = x) ∧ (∀ x : Desc, x.Fits → Desc.ofWord x.word = x) ∧
  (∀ x : FlueCfg, x.Fits → FlueCfg.ofWord x.word = x) ∧ (∀ x : ScaleSlot, x.Fits → ScaleSlot.ofWord x.word x.hist = x) ∧
  (∀ n v, v < 256 ^ n → leNat (leBytes n v) = v) ∧ ∀ bs : List Byte, leBytes bs.length (leNat bs) = bs

/-- Recording an event (R366, R367, R369, R372): a disabled one does nothing; an enabled one is a record with the next sequence number at the end of the
ring; a full ring loses its oldest record, which is counted; while the management core restarts records are held, and beyond 64 lost. -/
def Obligations.EventsAreNumberedAndRung : Prop :=
  ∀ (d : Dev) (e : Ev) (k : Kind) (i : Nat) (ctx : Option Nat) (detail hi : Nat) (r : EventRec) (d' : Dev),
    r = d.eventRec e k i ctx detail hi → d' = d.raise e k i ctx detail hi →
    (d.eventOn e k i = false → d' = d) ∧
    (d.eventOn e k i = true → d.pilot.restarting = true →
      d' = (if d.pilot.held.length < 64 then { d with pilot := { d.pilot with held := d.pilot.held ++ [r] } }
        else { d with pilot := { d.pilot with lost := d.pilot.lost + 1 } })) ∧
    (d.eventOn e k i = true → d.pilot.restarting = false → d.NoSubscriber →
      (d.events.ring.length < 4096 →
        d'.events = { d.events with ring := d.events.ring ++ [{ r with seq := d.get Obj.EVENT_NEXT_SEQ }] } ∧
        d'.get Obj.EVENT_NEXT_SEQ = (d.get Obj.EVENT_NEXT_SEQ + 1) % 2 ^ 32 ∧
        d.SameObjects d' [Obj.EVENT_NEXT_SEQ.key 0 0, Obj.EVENT_OLDEST_SEQ.key 0 0]) ∧
      (4096 ≤ d.events.ring.length → d.events.overwriteArmed = false →
        d'.events = { d.events with ring := d.events.ring.tail ++ [{ r with seq := d.get Obj.EVENT_NEXT_SEQ }] } ∧
        d'.get Obj.EVENTS_OVERWRITTEN = (d.get Obj.EVENTS_OVERWRITTEN + 1) % 2 ^ Obj.EVENTS_OVERWRITTEN.bitsOf) ∧
      (4096 ≤ d.events.ring.length → d.events.overwriteArmed = true →
        d'.events.overwriteArmed = false ∧ d'.events.ring.length = d.events.ring.length ∧
        d'.get Obj.EVENTS_OVERWRITTEN = (d.get Obj.EVENTS_OVERWRITTEN + 2) % 2 ^ Obj.EVENTS_OVERWRITTEN.bitsOf ∧
        ∃ a, d'.events.ring.getLast? = some a ∧ a.code = Event.eventOverwrite.code))

/-- R99: a wait condition with EN 1 is met when the counter's visible value is at least BASE + INC × v in signed 32-bit arithmetic, or that threshold is zero
or less; an entry waits for its enabled conditions, and for nothing where both are off. -/
def Obligations.WaitConditionsAreMetAtTheirThreshold : Prop :=
  ∀ (x : Hearth) (hd : Header) (i t : Tab Nat),
    (x.waitsMet hd i t = true ↔ ∀ w ∈ [hd.w0, hd.w1], w.en = true → ∀ th : Int,
      th = toSigned 32 (ofSigned 32 (w.base + w.inc * loopVal i t w.sel)) → th ≤ 0 ∨ th ≤ (x.visible w.ctr : Int)) ∧
    (hd.w0.en = false → hd.w1.en = false → x.waitsMet hd i t = true)

/-- R379: a write to PHASE_DOORBELL sets the phase of bits [63:61] for every region of the mask in bits [15:0] and of no other region, whatever the
reserved bits between hold; phases 5 to 7 complete with the invalid-value error and change nothing. -/
def Obligations.PhaseDoorbellSetsThePhaseOfItsRegions : Prop :=
  ∀ (s : State), s.dev.PilotServes → ∀ v,
    (5 ≤ bits v 63 61 → ∃ t, exec (.phaseDoorbell v) s = .next t ∧ s.Refused t 4) ∧
    (bits v 63 61 < 5 →
      ∃ t, exec (.phaseDoorbell v) s = .next t ∧ t.dev.reply = ⟨0, 0, []⟩ ∧
        (∀ k < 16, t.dev.get Obj.CURRENT_PHASE k = if bit v k = true then bits v 63 61 else s.dev.get Obj.CURRENT_PHASE k) ∧
        (∀ k < 16, bit v k = true → s.dev.get Obj.CLOCK_STATE k = 2 → s.dev.get Obj.REGION_OP k ≠ t.dev.regionTarget k →
          t.dev.get Obj.CLOCK_STATE k = 3 ∧ tget 0 t.dev.power.dest k = t.dev.regionTarget k) ∧
        (∀ k < 16, bit v k = false → t.dev.get Obj.CLOCK_STATE k = s.dev.get Obj.CLOCK_STATE k) ∧
        t = { s with dev := { s.dev with od := t.dev.od, power := t.dev.power, clockHeld := t.dev.clockHeld, reply := t.dev.reply } } ∧
        s.dev.SameObjects t.dev ((List.range 16).flatMap fun k =>
          [Obj.CURRENT_PHASE.key k 0, Obj.CLOCK_STATE.key k 0, Obj.OP_MOVES.key k 0]))

/-- R291: where frames wait at a port on a VL whose credits do not suffice, the expiry of CREDIT_STALL_LIMIT counts in CREDIT_STALLS and raises the
credit-stall event, and does nothing else. -/
def Obligations.CreditStallsAreCountedAndReported : Prop :=
  ∀ (s : State) (p : Fin 16) (vl : Fin 4) (f : Frame), s.dev.headOf p.val vl.val = some f → s.dev.get Obj.CREDIT_STALL_LIMIT ≠ 0 →
    s.dev.creditsOf p.val vl.val < Frame.cost f + s.dev.reserve f →
    ∃ t, exec (.creditStall p vl) s = .next t ∧ t = { s with dev := (s.dev.bump Obj.CREDIT_STALLS p.val).raise Event.creditStall .port p.val } ∧
      s.Counted t Obj.CREDIT_STALLS p.val 1 ∧
      (s.dev.eventOn Event.creditStall .port p.val = true → s.dev.pilot.restarting = false → s.dev.events.ring.length < 4096 → s.dev.NoSubscriber →
        t.dev.events.ring = s.dev.events.ring ++
          [⟨Event.creditStall.code, blockOf .port p.val, none, s.dev.get Obj.EVENT_NEXT_SEQ, 0, s.dev.tick, 0⟩])
end

