-- ==== Sys2Proof/Laws/Memory.lean ====
section
/-! SUPPORT. Every operation on the block's memories keeps their canonical form (Memory.wf). -/

namespace Sys2Proof.Machine

/-! ### Tables -/

theorem twfFrom_filter {α : Type} [DecidableEq α] {d : α} (p : Nat → Bool) {t : Tab α} : ∀ {lo : Nat}, twfFrom d lo t →
    twfFrom d lo (t.filter fun e => !p e.1) := by
  induction t with
  | nil => intro lo _; rfl
  | cons e t ih =>
    intro lo h
    obtain ⟨k, v⟩ := e
    simp only [twfFrom, Bool.and_eq_true, decide_eq_true_eq] at h
    by_cases hp : p k
    · simp only [List.filter, hp, Bool.not_true]
      exact twfFrom_mono (by omega) (ih h.2)
    · simp only [List.filter, hp, Bool.not_false, twfFrom, Bool.and_eq_true, decide_eq_true_eq]
      exact ⟨h.1, ih h.2⟩

theorem twf_tdrop {α : Type} [DecidableEq α] {d : α} (p : Nat → Bool) {t : Tab α} (h : twf d t) : twf d (tdrop p t) := twfFrom_filter p h

theorem twf_writeCells {d : Byte} (bs : List Byte) : ∀ {m : Tab Byte} {a : Nat}, twf d m → twf d (writeCells d m a bs) := by
  induction bs with
  | nil => intro m a h; exact h
  | cons b bs ih => intro m a h; exact ih (twf_tset h a b)

/-- A fold of single writes keeps the form. -/
theorem twf_foldl_tset {α β : Type} [DecidableEq α] {d : α} (f : β → Nat) (g : β → α) (l : List β) : ∀ {t : Tab α}, twf d t →
    twf d (l.foldl (fun m x => tset d m (f x) (g x)) t) := by
  induction l with
  | nil => intro t h; exact h
  | cons x l ih => intro t h; exact ih (twf_tset h _ _)

theorem all_terase {α : Type} (p : α → Bool) (k : Nat) {t : Tab α} (h : t.all fun e => p e.2) : (terase k t).all fun e => p e.2 := by
  induction t with
  | nil => rfl
  | cons e t ih =>
    simp only [List.all_cons, Bool.and_eq_true] at h
    unfold terase
    split
    · exact ih h.2
    · simp [h.1, ih h.2]

theorem all_tins {α : Type} (p : α → Bool) (k : Nat) (v : α) (hv : p v) {t : Tab α} (h : t.all fun e => p e.2) : (tins k v t).all fun e => p e.2 := by
  induction t with
  | nil => simp [tins, hv]
  | cons e t ih =>
    simp only [List.all_cons, Bool.and_eq_true] at h
    unfold tins
    split
    · simp [hv, h.1, h.2]
    · simp [h.1, ih h.2]

theorem all_tset {α : Type} [DecidableEq α] (p : α → Bool) (d : α) (k : Nat) (v : α) (hv : p v) {t : Tab α} (h : t.all fun e => p e.2) :
    (tset d t k v).all fun e => p e.2 := by
  unfold tset
  split
  · exact all_terase p k h
  · exact all_tins p k v hv (all_terase p k h)

theorem all_tget {α : Type} (p : α → Bool) (d : α) (hd : p d) (k : Nat) {t : Tab α} (h : t.all fun e => p e.2) : p (tget d t k) := by
  induction t with
  | nil => exact hd
  | cons e t ih =>
    simp only [List.all_cons, Bool.and_eq_true] at h
    unfold tget
    split
    · exact h.1
    · exact ih h.2

/-! ### Scratchpads -/

theorem Hearth.setLine_wf {x : Hearth} (h : x.memWf) (l : Nat) (v : Line) : (x.setLine l v).memWf := by
  simp only [Hearth.memWf, Bool.and_eq_true] at h ⊢
  exact ⟨twf_writeCells _ h.1, twf_tset h.2 _ _⟩

theorem Hearth.setPart_wf {x : Hearth} (h : x.memWf) (a : Nat) (bs : List Byte) (ash : Bool) : (x.setPart a bs ash).memWf := by
  simp only [Hearth.memWf, Bool.and_eq_true] at h ⊢
  refine ⟨twf_foldl_tset (fun b : Byte × Nat => (a + b.2) % scrBytes) (·.1) _ h.1, ?_⟩
  unfold Hearth.setPart
  cases ash
  · exact h.2
  · exact twf_foldl_tset (fun l : Nat => l) (fun _ => true) _ h.2

theorem Hearth.writeRun_wf {x : Hearth} (h : x.memWf) (off : Nat) (bs : List Byte) (mark : Nat → Bool) : (x.writeRun off bs mark).1.memWf := by
  unfold Hearth.writeRun
  split
  · exact h
  · simp only [Hearth.memWf, Bool.and_eq_true] at h ⊢
    exact ⟨twf_foldl_tset (fun b : Byte × Nat => (off + b.2) % scrBytes) (·.1) _ h.1, twf_foldl_tset (fun e : Nat × Bool => e.1) (·.2) _ h.2⟩

/-! ### The device's memories -/

theorem Dev.setSector_wf {d : Dev} (h : d.memWf) (st sec : Nat) (v : Sector) : (d.setSector st sec v).memWf := by
  simp only [Dev.memWf, Bool.and_eq_true] at h ⊢
  exact ⟨⟨⟨⟨twf_tset h.1.1.1.1 _ _, h.1.1.1.2⟩, h.1.1.2⟩, h.1.2⟩, h.2⟩

theorem Dev.ashWhere_wf {d : Dev} (h : d.memWf) (st : Nat) (p : Nat → Bool) : (d.ashWhere st p).memWf := by
  simp only [Dev.memWf, Bool.and_eq_true] at h ⊢
  exact ⟨⟨⟨⟨twf_tdrop (fun k => decide (k / 2 ^ 30 = st) && p (k % 2 ^ 30)) h.1.1.1.1, h.1.1.1.2⟩, h.1.1.2⟩, h.1.2⟩, h.2⟩

theorem Dev.setSlowLine_wf {d : Dev} (h : d.memWf) (t line : Nat) (v : SlowLine) : (d.setSlowLine t line v).memWf := by
  simp only [Dev.memWf, Bool.and_eq_true] at h ⊢
  exact ⟨⟨⟨⟨h.1.1.1.1, twf_tset h.1.1.1.2 _ _⟩, h.1.1.2⟩, h.1.2⟩, h.2⟩

theorem Dev.put_wf {d : Dev} (h : d.memWf) (o : ObjDef) (v i e : Nat) : (d.put o v i e).memWf := by
  simp only [Dev.memWf, Bool.and_eq_true] at h ⊢
  exact ⟨⟨⟨⟨h.1.1.1.1, h.1.1.1.2⟩, twf_tset h.1.1.2 _ _⟩, h.1.2⟩, h.2⟩

theorem Dev.domWrite_wf {d : Dev} (h : d.memWf) (o : ObjDef) (k : Nat) (bs : List Byte) (i e : Nat) : (d.domWrite o k bs i e).memWf := by
  simp only [Dev.memWf, Bool.and_eq_true] at h ⊢
  exact ⟨⟨⟨⟨h.1.1.1.1, h.1.1.1.2⟩, h.1.1.2⟩, twf_foldl_tset (fun b : Byte × Nat => o.domKey i e (k + b.2)) (fun b => b.1 ^^^ o.resetByte (k + b.2)) _ h.1.2⟩,
    h.2⟩

theorem Dev.hearth_wf {d : Dev} (h : d.memWf) (n : Nat) : (d.hearth n).memWf := by
  simp only [Dev.memWf, Bool.and_eq_true] at h
  exact all_tget Hearth.memWf Hearth.fresh (by decide) n h.2

theorem Dev.setHearth_wf {d : Dev} (h : d.memWf) (n : Nat) {x : Hearth} (hx : x.memWf) : (d.setHearth n x).memWf := by
  simp only [Dev.memWf, Bool.and_eq_true] at h ⊢
  exact ⟨⟨⟨⟨h.1.1.1.1, h.1.1.1.2⟩, h.1.1.2⟩, h.1.2⟩, all_tset Hearth.memWf Hearth.fresh n x hx h.2⟩

/-- A change of a hearth that keeps its scratchpad's form keeps the device's. -/
theorem Dev.modHearth_wf {d : Dev} (h : d.memWf) (n : Nat) {f : Hearth → Hearth} (hf : ∀ x : Hearth, x.memWf → (f x).memWf) : (d.modHearth n f).memWf :=
  Dev.setHearth_wf h n (hf _ (Dev.hearth_wf h n))

theorem memWf_reset : State.reset.dev.memWf := by decide

end Sys2Proof.Machine
end

