-- ==== Sys2Proof/Laws/Ops.lean ====
section
/-! SUPPORT. What each shared operation over the device does, said once: counters, clears, gates, wake-ups. -/

namespace Sys2Proof.Machine

/-! ### Objects -/

theorem Dev.SameObjects.same (d : Dev) (ks : List Nat) : d.SameObjects d ks := fun _ _ => rfl

theorem Dev.SameObjects.trans {a b c : Dev} {ks : List Nat} (h : a.SameObjects b ks) (g : b.SameObjects c ks) : a.SameObjects c ks :=
  fun k hk => (g k hk).trans (h k hk)

theorem Dev.SameObjects.mono {a b : Dev} {ks ls : List Nat} (h : a.SameObjects b ks) (hs : ks ⊆ ls) : a.SameObjects b ls :=
  fun k hk => h k fun hm => hk (hs hm)

theorem Dev.SameObjects.get {d d' : Dev} {ks : List Nat} (h : d.SameObjects d' ks) {o : ObjDef} {i e : Nat} (hk : o.key i e ∉ ks) :
    d'.get o i e = d.get o i e := by simp [Dev.get, h _ hk]

/-- `d'` is `d` but for values of objects whose keys are in `ks`. -/
def Dev.OnlyOd (d d' : Dev) (ks : List Nat) : Prop := (∃ od, d' = { d with od := od }) ∧ d.SameObjects d' ks

theorem Dev.OnlyOd.same (d : Dev) (ks : List Nat) : d.OnlyOd d ks := ⟨⟨_, rfl⟩, .same _ _⟩

theorem Dev.OnlyOd.trans {a b c : Dev} {ks : List Nat} (h : a.OnlyOd b ks) (g : b.OnlyOd c ks) : a.OnlyOd c ks := by
  obtain ⟨⟨_, rfl⟩, h⟩ := h
  obtain ⟨⟨_, rfl⟩, g⟩ := g
  exact ⟨⟨_, rfl⟩, h.trans g⟩

theorem Dev.OnlyOd.mono {a b : Dev} {ks ls : List Nat} (h : a.OnlyOd b ks) (hs : ks ⊆ ls) : a.OnlyOd b ls := ⟨h.1, h.2.mono hs⟩

theorem Dev.OnlyOd.get {d d' : Dev} {ks : List Nat} (h : d.OnlyOd d' ks) {o : ObjDef} {i e : Nat} (hk : o.key i e ∉ ks) :
    d'.get o i e = d.get o i e := h.2.get hk

theorem Dev.put_onlyOd {d : Dev} {o : ObjDef} {v i e : Nat} {ks : List Nat} (h : o.key i e ∈ ks) : d.OnlyOd (d.put o v i e) ks := by
  refine ⟨⟨_, rfl⟩, fun k hk => tget_tset_ne _ ?_ ..⟩
  rintro rfl
  exact hk h

theorem Dev.bump_onlyOd {d : Dev} {o : ObjDef} {i e n : Nat} {ks : List Nat} (h : o.key i e ∈ ks) : d.OnlyOd (d.bump o i n e) ks := by
  unfold Dev.bump; split
  · exact .same ..
  · exact Dev.put_onlyOd h

/-- What reads 0 after a write that names other elements reads 0 as before. -/
theorem Dev.get_put (d : Dev) (o o' : ObjDef) (v i e i' e' : Nat) (hr : o'.resetVal i' e' = o.resetVal i e) :
    (d.put o v i e).get o' i' e' = if o'.key i' e' = o.key i e then v % 2 ^ o.bitsOf else d.get o' i' e' := by
  by_cases h : o'.key i' e' = o.key i e
  · by_cases hv : v % 2 ^ o.bitsOf = o.resetVal i e <;> simp [Dev.get, Dev.put, h, hv, hr]
  · simp [h, Dev.get_put_ne _ _ h]

/-- A counter that moves reads one more, cut to its size. -/
@[simp] theorem Dev.get_bump_self (d : Dev) (o : ObjDef) (i e n : Nat) (hn : n ≠ 0) :
    (d.bump o i n e).get o i e = (d.get o i e + n) % 2 ^ o.bitsOf := by simp [Dev.bump, hn]

theorem Dev.get_bump_ne {d : Dev} {o o' : ObjDef} {i e i' e' n : Nat} (h : o'.key i' e' ≠ o.key i e) :
    (d.bump o i n e).get o' i' e' = d.get o' i' e' := by
  simp only [Dev.bump]; split
  · rfl
  · exact Dev.get_put_ne _ _ h

/-! ### Clears -/

/-- A stored 0 stays one when a value whose reset value is 0 is zeroed. -/
theorem Dev.zero_stays {d : Dev} {o : ObjDef} {i e k : Nat} (hr : o.resetVal i e = 0) (hk : tget 0 d.od k = 0) :
    tget 0 (d.put o 0 i e).od k = 0 := by
  by_cases h : k = o.key i e
  · subst h; simp [Dev.put, hr]
  · simp [Dev.put, tget_tset_ne _ h, hk]

/-- Zeroing the elements `l` of one object. -/
theorem Dev.zeroElems (o : ObjDef) (i : Nat) (hr : ∀ e, o.resetVal i e = 0) (l : List Nat) : ∀ d : Dev,
    d.OnlyOd (l.foldl (fun d e => d.put o 0 i e) d) (l.map (o.key i)) ∧
    (∀ e ∈ l, tget 0 (l.foldl (fun d e => d.put o 0 i e) d).od (o.key i e) = 0) ∧
    (∀ k, tget 0 d.od k = 0 → tget 0 (l.foldl (fun d e => d.put o 0 i e) d).od k = 0) := by
  induction l with
  | nil => exact fun d => ⟨.same .., by simp, fun _ h => h⟩
  | cons e l ih =>
    intro d
    obtain ⟨h2, h3, h4⟩ := ih (d.put o 0 i e)
    refine ⟨.trans (Dev.put_onlyOd (by simp)) (h2.mono (by simp)), ?_, fun k hk => h4 k (Dev.zero_stays (hr e) hk)⟩
    intro e' he'
    rcases List.mem_cons.mp he' with rfl | hm
    · exact h4 _ (by simp [Dev.put, hr])
    · exact h3 e' hm

theorem Dev.zero_cons (d : Dev) (o : ObjDef) (os : List ObjDef) (i : Nat) :
    d.zero (o :: os) i = ((List.range o.n).foldl (fun d e => d.put o 0 i e) d).zero os i := rfl

/-- Everything a clearing object can do: every element of every object named reads 0 and nothing else has changed. -/
theorem Dev.zero_spec (os : List ObjDef) (i : Nat) (hr : ∀ o ∈ os, ∀ e, o.resetVal i e = 0) : ∀ d : Dev,
    d.OnlyOd (d.zero os i) (os.flatMap fun o => o.keys i) ∧
    (∀ o ∈ os, ∀ e < o.n, tget 0 (d.zero os i).od (o.key i e) = 0) ∧
    (∀ k, tget 0 d.od k = 0 → tget 0 (d.zero os i).od k = 0) := by
  induction os with
  | nil => exact fun d => ⟨.same .., by simp, fun _ h => h⟩
  | cons o os ih =>
    intro d
    rw [Dev.zero_cons]
    obtain ⟨a2, a3, a4⟩ := Dev.zeroElems o i (hr o (by simp)) (List.range o.n) d
    generalize (List.range o.n).foldl (fun d e => d.put o 0 i e) d = d' at a2 a3 a4
    obtain ⟨h2, h3, h4⟩ := ih (fun o' ho' => hr o' (by simp [ho'])) d'
    refine ⟨(a2.mono ?_).trans (h2.mono ?_), ?_, fun k hk => h4 k (a4 k hk)⟩
    · simp [ObjDef.keys]
    · simp
    · intro o' ho' e he
      rcases List.mem_cons.mp ho' with rfl | hm
      · exact h4 _ (a3 e (by simpa using he))
      · exact h3 o' hm e he

/-- The values after a clearing object. -/
theorem Dev.get_zero (d : Dev) {os : List ObjDef} {i : Nat} (hr : ∀ o ∈ os, ∀ e, o.resetVal i e = 0) {o : ObjDef} (ho : o ∈ os) {e : Nat}
    (he : e < o.n) : (d.zero os i).get o i e = 0 := by
  simp [Dev.get, (Dev.zero_spec os i hr d).2.1 o ho e he, hr o ho]

/-! ### Gates -/

theorem Dev.Serves.not_gated {d : Dev} (h : d.Serves) : ¬ (d.get Obj.BOOT_STATE < 2 ∨ d.pathFull 2) := by
  obtain ⟨h, g⟩ := h; simp [g]; omega

@[simp] theorem Dev.gated_of_serves {d : Dev} (h : d.Serves) (f : Dev → Dev) : d.gated f = f d := if_neg h.not_gated

@[simp] theorem Dev.gatedPilot_of_serves {d : Dev} (h : d.PilotServes) (f : Dev → Dev) : d.gatedPilot f = f d := by
  obtain ⟨h, g⟩ := h; simp [Dev.gatedPilot, Dev.gated_of_serves h, g]

theorem Dev.gated_of_not {d : Dev} (h : ¬ d.Serves) (f : Dev → Dev) : d.gated f = d.answer 7 := by
  refine if_pos (Classical.byContradiction fun hn => h ?_)
  simp only [not_or, Bool.not_eq_true] at hn
  exact ⟨by omega, hn.2⟩

/-- Everything a wake-up of a region can do. -/
theorem Dev.wakeRegion_spec (d : Dev) (g : Nat) : d.OnlyOd (d.wakeRegion g) [Obj.CLOCK_STATE.key g 0] := by
  simp only [Dev.wakeRegion]
  split
  · exact Dev.put_onlyOd (by simp)
  · exact .same ..

/-- Everything the choice of a requester can do: it moves the resource's pointer (R335). -/
theorem Dev.grantTo_spec (d : Dev) (res n me : Nat) (rivals : List Nat) :
    ∃ w, (d.grantTo res n me rivals).1 = { d with arb := w } ∧ ∀ r, r ≠ res → tget 0 w r = tget 0 d.arb r := by
  unfold Dev.grantTo
  split
  · exact ⟨_, rfl, fun r hr => tget_tset_ne _ hr ..⟩
  · exact ⟨_, rfl, fun _ _ => rfl⟩

/-- Waking regions changes their CLOCK_STATE at most. -/
theorem Dev.wakeRegions_spec (gs : List Nat) : ∀ d : Dev, d.OnlyOd (gs.foldl Dev.wakeRegion d) (gs.map fun g => Obj.CLOCK_STATE.key g 0) := by
  induction gs with
  | nil => exact fun d => .same d _
  | cons g gs ih => exact fun d => ((d.wakeRegion_spec g).mono (by simp)).trans ((ih _).mono (by simp))

/-- Everything queueing a request can do: it joins its path's queue and the clocks it needs may start (R365). -/
theorem Dev.queuePath_spec (d : Dev) (gs : List Nat) (r : PathReq) :
    ∃ x ps, d.queuePath gs r = { x with paths := ps } ∧ d.OnlyOd x (gs.map fun g => Obj.CLOCK_STATE.key g 0) ∧
      tget [] ps (pathNo r.path) = tget [] d.paths (pathNo r.path) ++ [r] ∧ ∀ n, n ≠ pathNo r.path → tget [] ps n = tget [] d.paths n := by
  have h := Dev.wakeRegions_spec gs d
  obtain ⟨⟨od, e⟩, -⟩ := id h
  have hp : (gs.foldl Dev.wakeRegion d).paths = d.paths := by rw [e]
  refine ⟨_, _, rfl, h, ?_, fun n hn => ?_⟩
  · rw [tget_tset_self, hp]
  · rw [tget_tset_ne _ hn, hp]

/-- Everything holding a request of a stack can do: it stands among those with tags, or at the boundary and is counted (R179). -/
theorem Dev.holdReq_spec (d : Dev) (st : Nat) (w : HbmWait) :
    (d.tagFree st w.sec = true ∧ d.holdReq st w = d.setStack st { d.stack st with waiting := (d.stack st).waiting ++ [w] }) ∨
    (d.tagFree st w.sec = false ∧
      d.holdReq st w = (d.setStack st { d.stack st with boundary := (d.stack st).boundary ++ [w] }).bump Obj.TAG_FULL_CYCLES st) := by
  unfold Dev.holdReq
  split <;> rename_i h
  · exact .inl ⟨h, rfl⟩
  · exact .inr ⟨by simpa using h, rfl⟩

/-- Whether a write has to wait does not depend on the value written. -/
theorem Dev.mustWait_value (d : Dev) (gs : List Nat) (path : Path) (index sub v w : Nat) :
    d.mustWait gs (.object path index sub v) = d.mustWait gs (.object path index sub w) := rfl

/-- A write into a region that has not to wait is done at once. -/
theorem Dev.inRegion_of_serves {d : Dev} {g : Nat} {o : ObjDef} {i e : Nat} (h : d.RegionServes g o i e) (v : Nat) (f : Dev → Dev) :
    d.inRegion g o i e v f = f d := by
  have : d.mustWait [g] (.object .host (o.key i e / 256) (o.key i e % 256) v) = false := h.2
  simp [Dev.inRegion, this]

/-- An access to a hearth that is not absent is served. -/
theorem Dev.gatedHearth_of_serves {d : Dev} {h : Nat} {o : ObjDef} {e : Nat} (hs : d.HearthServes h o e) (v : Nat) (f : Dev → Dev) :
    d.gatedHearth h o e v f = f d := by
  simp [Dev.gatedHearth, Dev.gated_of_serves hs.1.1, hs.2, Dev.inRegion_of_serves hs.1]

/-- An access to a Stoker that is neither OFF nor FAILED is served. -/
theorem Dev.gatedStoker_of_serves {d : Dev} {t : Nat} (hs : d.Serves) (h0 : d.get Obj.STOKER_STATE t ≠ 0) (h4 : d.get Obj.STOKER_STATE t ≠ 4)
    (f : Dev → Dev) : d.gatedStoker t f = f d := by
  simp [Dev.gatedStoker, Dev.gated_of_serves hs, h0, h4]

end Sys2Proof.Machine
end

