-- ==== Sys2Proof/WellFormed.lean ====
section
/-! DEFINITION. The bounds that the spec puts on a command's operands beyond their types. -/

namespace Sys2Proof

/-- A payload of whole 64-byte lines with one ash bit each, LINES (stored minus 1) of them (R275). -/
def Frame.wholeLines (f : Frame) : Bool :=
  decide (f.payload.length = 64 * (f.linesM1.val + 1)) && decide (f.ash.length = f.linesM1.val + 1)

/-- The header fields of R275 fit their widths. -/
def Frame.headerOk (f : Frame) : Bool :=
  decide (f.dstId < 2 ^ 20) && decide (f.srcId < 2 ^ 20) && decide (f.addr < 2 ^ 44) && decide (f.xferTag < 2 ^ 16) &&
  decide (f.ext < 2 ^ 64) && decide (f.linkSeq < 2 ^ 64)

/-- What R276 and R277 say of a frame of each type: the virtual lane it travels on is checked where it arrives; here the
payload has the length its type gives it. -/
def Frame.ok (f : Frame) : Bool :=
  f.headerOk &&
  (match f.ftype.val with
   | 1 | 3 | 5 | 7 => f.wholeLines || f.payload.isEmpty
   | 2 => decide (f.payload.length = 64)
   | _ => decide (f.payload.length ≤ 64 * 256))

/-- Distinct codeword symbols, each an 8-bit error of one of the 72 symbols (R189). -/
def symbolErrorsOk (errs : List (Nat × Nat)) : Bool :=
  errs.all (fun e => decide (e.1 < 72) && decide (0 < e.2) && decide (e.2 < 256)) && decide ((errs.map (·.1)).Nodup)

/-- A sector number of a 64 GiB stack (R28). -/
def sectorOk (sec : Nat) : Bool := decide (sec < 2 ^ 30)

/-- A value of at most 64 bits, the widest scalar (R341). -/
def scalarOk (v : Nat) : Bool := decide (v < 2 ^ 64)

/-- A message of at most the 4,133 bytes that R364 gives a command with its data, or a frame whose fields fit. -/
def Carrier.ok : Carrier → Bool
  | .mctp msg => decide (msg.length ≤ 4133)
  | .frame _ f => f.ok

/-- Whether the operands of a command lie in the ranges the spec gives them. -/
def Instr.wf : Instr → Bool
  | .powerOn a b | .resetN a b | .wholeReset _ a b => decide (a ≤ 3600) && decide (b ≤ 3600)
  | .testRoundEnd _ f c => f.all (fun e => decide (e.1 < 1152)) && c.all (fun n => decide (n < 128))
  | .stackTrainingDone _ f => f.all fun c => decide (c < 32)
  | .clusterMulticast _ f => f.all fun e => decide (e.1 < 64)
  | .remoteWrite _ off data _ => decide (off + data.length ≤ 2097152)
  | .hbmRead _ sec _ errs _ _ => sectorOk sec && symbolErrorsOk errs
  | .hbmWrite _ sec data mask _ _ _ _ =>
    sectorOk sec && decide (data.length = 64) && (mask.isEmpty || decide (mask.length = 64))
  | .apertureWrite _ _ _ data _ _ _ => decide (data.length = 64)
  | .foldAdd _ sec _ data _ _ _ => sectorOk sec && decide (data.length = 64)
  | .scrubRead _ errs => symbolErrorsOk errs
  | .lateWriteAbsorbed _ sec => sectorOk sec
  | .slowTierRead _ _ _ _ words _ => decide (words.length = 8)
  | .streamLine _ _ words _ => decide (words.length = 8) || words.isEmpty
  | .slowTierWrite _ _ _ _ data _ _ => decide (data.length = 64)
  | .write _ f _ | .writePartial _ f _ | .add _ f _ | .readResp _ f | .notice _ f | .flueWrite _ f _
  | .ack _ f | .odResp _ f | .unknownFrame _ f | .frameForward _ f => f.ok
  | .readReq _ f errs _ => f.ok && errs.all fun e => decide (e.1 < 8 * (f.linesM1.val + 1))
  | .feederRead _ _ rivals _ => rivals.all fun v => decide (v.1 < 32) && decide (v.2.1 < 7) && decide (v.2.2 < 32)
  | .partitionReset n => decide (n < 256)
  | .hostWindowStore _ data _ => decide (0 < data.length) && decide (data.length ≤ 4096)
  | .hostWindowLoad _ len _ => decide (0 < len) && decide (len ≤ 4096)
  | .barAccess _ off len data =>
    decide (0 < len) && decide (off + len ≤ 2 ^ 31) && (data.all fun d => decide (d.length = len))
  | .routeInGroupWrite off data | .routeCrossGroupWrite off data => decide (off + data.length ≤ 65536)
  | .schedulerPass b t => b.all (fun h => decide (h < 1024)) && t.all (fun h => decide (h < 1024))
  | .objectWrite _ index sub v => decide (index < 2 ^ 20) && decide (sub < 256) && scalarOk v
  | .odRead c | .odWrite c | .describe c | .eventRead c => c.ok
  | .programChunkDone _ _ w st _ _ _ => decide (w.length ≤ 1024) && decide (st.length ≤ 4) && st.all fun a => decide (a.length ≤ 1024)
  | .secOffer _ _ _ serial _ _ _ => decide (serial.length = 16)
  | .quoteReq _ nonce => decide (nonce.length = 32)
  | .fibreDark _ pos => decide (1 ≤ pos) && decide (pos ≤ 16)
  | .defectAdd v | .runJob _ v | .armBmax _ v | .closeBmax _ v | .flushCkpt _ v | .update _ v | .norm _ v
  | .resetState _ v | .groupEnable _ v | .groupStatusWrite _ v | .ckptWinWrite _ _ v | .flueCfgWrite _ v
  | .phaseDoorbell v => scalarOk v
  | _ => true

end Sys2Proof
end

