-- ==== Sys2Proof/Tests/Slice0.lean ====
section
/-! SUPPORT. Tests of the model: for every statement a concrete state that meets its hypotheses, the checks of well-formedness, and single
steps whose results are worked out from the spec. -/

namespace Sys2Proof.Tests

open Sys2Proof Sys2Proof.Machine

set_option Elab.async false

/-- A device whose objects hold these values (object, instance, value). -/
def devOf (l : List (ObjDef × Nat × Nat)) : Dev := l.foldl (fun (d : Dev) (x : ObjDef × Nat × Nat) => d.put x.1 x.2.2 x.2.1) Dev.fresh

/-- The state after reset with this device. -/
def on (d : Dev) : State := { State.reset with dev := d }

/-- The Pilot firmware runs, and these objects hold these values. -/
def upWith (l : List (ObjDef × Nat × Nat)) : Dev := devOf ((Obj.BOOT_STATE, 0, 2) :: l)

/-- A hearth's part of a step of slot `c`. -/
def partOf (c : Nat) : StepRun := ⟨c, false, 0, 100, false, 0, 0, false, true, false, false⟩

/-- A window entry with these 256 bits. -/
def entryAt (id raw : Nat) : WEntry :=
  { id := id, idx := 0, raw := raw, i := [], t := [], ordinal := 0, st := .waiting, slot := none, mask := [], inc := [], place := none,
    replay := false, replayExp := none, tagWord := none, ranges := ([], []), prov := [] }

/-- A device on which hearth `h`, as given, fires. -/
def firing (h : Nat) (x : Hearth) : Dev := (upWith [(Obj.HEARTH_STATE, h, 3), (Obj.RUNNING_CTX, h, 0), (Obj.CLOCK_STATE, h / 64, 2)]).setHearth h x

/-- Bytes of a table whose entries are these. -/
def tableOf (es : List Nat) : Tab Byte := writeCells 0 [] 0 (es.flatMap (leBytes 32))

/-- The two-entry table on hearth `h`, its fill stage at the walk given. -/
def filling (h : Nat) (es : List Nat) (x : Hearth) : Dev :=
  (devOf [(Obj.TABLE_ENTRIES, h, es.length), (Obj.HEARTH_STATE, h, 3), (Obj.CLOCK_STATE, h / 64, 2)]).setHearth h { x with scr := tableOf es, run := some (partOf 0) }

theorem test_witness_clears : let d := upWith [(Obj.STOKER_STATE, 1, 2), (Obj.TLB_INVAL_PENDING, 15, 1)]
    let w := upWith [(Obj.REGION_STATE, 15, 4), (Obj.HEARTH_STATE, 1023, 2)]
    d.Serves ∧ (∀ o ∈ [Obj.COUNTERS_CLEAR, Obj.SEQ_COUNTERS_CLEAR, Obj.STREAM_COUNTERS_CLEAR, Obj.IDLE_COUNTERS_CLEAR], d.HearthServes 1023 o 0) ∧
    w.Serves ∧ w.hearthAbsent 1023 = false ∧ w.regionWaits (1023 / 64) = true ∧ w.get Obj.CLOCK_STATE (1023 / 64) = 0 ∧ d.get Obj.STOKER_STATE 1 ≠ 0 ∧ d.get Obj.STOKER_STATE 1 ≠ 4 ∧
    d.pilot.restarting = false ∧ d.get Obj.TLB_INVAL_PENDING 15 = 1 := by
  unfold Dev.HearthServes Dev.RegionServes Dev.Serves; decide +kernel

theorem test_witness_doorbells : let d := upWith [(Obj.CTX_ENABLE, 15, 1), (Obj.PENDING_STEPS, 15, 254), (Obj.CTX_ENABLE, 14, 1),
      (Obj.PENDING_STEPS, 14, 255), (Obj.CTX_STATE, 3, 4), (Obj.CTX_ENABLE, 3, 1)]
    let d := d.setCtx 5 ⟨some ⟨0, [7], [], none⟩, 0, false, none⟩
    d.Serves ∧ d.get Obj.CTX_ENABLE 15 ≠ 0 ∧ d.get Obj.PENDING_STEPS 15 + (0 + 1) ≤ 255 ∧ d.get Obj.CTX_ENABLE 14 ≠ 0 ∧
    255 < d.get Obj.PENDING_STEPS 14 + (0 + 1) ∧ d.get Obj.CTX_ENABLE 0 = 0 ∧ (d.ctx 5).run = some ⟨0, [7], [], none⟩ ∧
    (∃ k ∈ [7], k ∉ ([] : List Nat)) ∧ d.get Obj.CTX_STATE 3 = 4 ∧ d.get Obj.CTX_ENABLE 3 ≠ 0 ∧ (d.ctx 3).run = none := by
  unfold Dev.Serves; decide +kernel

/-- Slot 2 waits for a step on hearth 8 alone, which is idle. -/
def waitingStep : Dev :=
  (devOf [(Obj.CTX_STATE, 2, 2), (Obj.CTX_ENABLE, 2, 1), (Obj.PENDING_STEPS, 2, 255), (Obj.HEARTH_STATE, 8, 2)]).domWrite Obj.PLACEMENT 1 [1] 2 3

theorem test_witness_pass : Dev.fresh.NothingWaits ∧ waitingStep.NothingWaits ∧ (∀ c < 16, Dev.fresh.get Obj.CTX_STATE c ≠ 2) ∧
    waitingStep.ranked.head? = some 2 ∧ bestOf (waitingStep.eligible 2) = some (3, [8], 0) ∧
    (∀ h ∈ [8], waitingStep.hState h = hIdle ∧ h ∉ waitingStep.heldHearths) ∧ waitingStep.get Obj.PENDING_STEPS 2 < 256 := by
  unfold Dev.NothingWaits; decide +kernel

/-- Hearth 1023 is to take the start command of slot 15's step. -/
def starting (entries : Nat) (last : Option Nat) : Dev :=
  (((devOf [(Obj.HEARTH_STATE, 1023, 2), (Obj.CLOCK_STATE, 15, 2), (Obj.TABLE_ENTRIES, 1023, entries)]).setCtx 15
    ⟨some ⟨0, [1023], [], none⟩, 0, false, none⟩).setHearth 1023 { Hearth.fresh with lastCtx := last })

theorem test_witness_start : (starting 1 (some 15)).startingCtx 1023 = some 15 ∧ (starting 1 (some 15)).hState 1023 = hIdle ∧
    ((starting 1 (some 15)).hearth 1023).run = none ∧ 2 ≤ (starting 1 (some 15)).get Obj.CLOCK_STATE (1023 / 64) ∧
    (starting 1 (some 15)).get Obj.TABLE_ENTRIES 1023 ≠ 0 ∧ ((starting 0 none).hearth 1023).lastCtx ≠ some 15 ∧
    (starting 0 none).startingCtx 1023 = some 15 ∧
    (starting 0 (some 15)).startingCtx 1023 = some 15 ∧ (starting 0 (some 15)).hState 1023 = hIdle ∧
    ((starting 0 (some 15)).hearth 1023).run = none ∧ (starting 0 (some 15)).get Obj.TABLE_ENTRIES 1023 = 0 ∧
    ((starting 0 (some 15)).hearth 1023).lastCtx = some 15 ∧ 2 ≤ (starting 0 (some 15)).get Obj.CLOCK_STATE (1023 / 64) := by decide +kernel

/-- Hearth 0 owes an exchange of its scale slots, on a device that translates nothing. -/
def owing (e : Option Exchange) : Dev := Dev.fresh.setHearth 0 { Hearth.fresh with run := some { partOf 3 with needExchange := true }, exch := e }

/-- An exchange whose lines have all been begun, with the lines read. -/
def begun (got : List (Nat × Option Line)) : Exchange := ⟨5, 2 * scaleLines, [], [], got, false⟩

theorem test_witness_exchange : let d := (owing (some (begun []))).put Obj.TABLE_ENTRIES 1
    let n := (owing none).put Obj.TABLE_ENTRIES 1
    (d.hearth 0).run = some { partOf 3 with needExchange := true } ∧ (partOf 3).aborting = false ∧ d.get Obj.TABLE_ENTRIES ≠ 0 ∧
    (d.hearth 0).exch = some (begun []) ∧ (begun []).next = 2 * scaleLines ∧ (begun []).writes = [] ∧ (begun []).reads = [] ∧
    (n.hearth 0).run = some { partOf 3 with needExchange := true } ∧ (n.hearth 0).exch = none ∧ (n.hearth 0).lastCtx = none := by decide +kernel

theorem test_witness_exchange_here : let n := (owing none).put Obj.TABLE_ENTRIES 1
    let x := { n with crc := [] }.scaleOn 3 0 ⟨65536, scaleLines, [], [], [], false⟩
    x.2.next = 2 * scaleLines ∧ x.2.reads = [] ∧ x.2.writes = [] ∧ x.1.get Obj.TABLE_ENTRIES ≠ 0 ∧ (x.1.hearth 0).lastCtx = none := by decide +kernel

theorem test_witness_complete : let d := (Dev.fresh.setCtx 15 ⟨some ⟨0, [8, 9], [9, 8], none⟩, 0, false, none⟩).setCtx 0 ⟨some ⟨0, [8], [8], some 3⟩, 0, true, none⟩
    let d := { d with attrib := [(unitRegion 15 * 16 + 15, 7)] }
    (d.ctx 15).run = some ⟨0, [8, 9], [9, 8], none⟩ ∧ (∀ h ∈ [8, 9], h ∈ [9, 8]) ∧ (d.ctx 0).run = some ⟨0, [8], [8], some 3⟩ ∧
    tget 0 d.attrib (unitRegion 15 * 16 + 15) ≠ 0 ∧ (∀ k < 16, k ≠ 15 → tget 0 d.attrib (unitRegion 15 * 16 + k) = 0) := by decide +kernel

/-- A NOP entry, a LOOP over the two entries behind it, three passes, and a BRANCH to entry 5 on counter 0 equal to 0. -/
def nopRaw : Nat := 0
/-- LOOP, level 1, TRIP 3, LEN 2. -/
def loopRaw (trip : Nat) : Nat := 8 * 2 ^ 252 + 1 * 2 ^ 62 + trip * 2 ^ 46 + 2 * 2 ^ 25
/-- BRANCH on counter 0 = 0 to TARGET. -/
def branchRaw (target : Nat) : Nat := 9 * 2 ^ 252 + target * 2 ^ 25

/-- The last entry of a body with one pass left. -/
def inBody : Walk := ⟨1, [⟨0, 0, 1, 1⟩], [], [], [(0, 1)], 2⟩

theorem test_witness_fill : let d := filling 1023 [nopRaw, nopRaw] { Hearth.fresh with walk := inBody }
    let b := filling 1023 [6 * 2 ^ 252] { Hearth.fresh with window := [entryAt 0 0], nextId := 1 }
    d.mayFill 1023 = true ∧ d.readable 1023 (d.hearth 1023).walk = true ∧
    EKind.ofCode (bits (d.tableEntry 1023 (d.hearth 1023).walk.pos) 255 252) = some .nop ∧ EKind.nop ≠ .loop ∧ EKind.nop ≠ .branch ∧
    (d.hearth 1023).walk.loops = [⟨0, 0, 1, 1⟩] ∧ (d.hearth 1023).walk.pos = 1 ∧
    b.mayFill 1023 = true ∧ b.readable 1023 (b.hearth 1023).walk = false ∧ (b.hearth 1023).run = some (partOf 0) ∧
    (b.hearth 1023).window ≠ [] := by decide +kernel

theorem test_witness_loop_branch : let d := fun (n : Nat) => filling 1023 [loopRaw n, 0, 0] Hearth.fresh
    let b := filling 1023 [branchRaw 2, 0, 0] Hearth.fresh
    (d 65535).controlAt 1023 .loop = some (loopRaw 65535) ∧ ((d 65535).hearth 1023).passes (.ofWord (loopRaw 65535)) ≠ 0 ∧
    (d 0).controlAt 1023 .loop = some (loopRaw 0) ∧ ((d 0).hearth 1023).passes (.ofWord (loopRaw 0)) = 0 ∧
    ((d 0).hearth 1023).walk.loops = [] ∧
    b.controlAt 1023 .branch = some (branchRaw 2) ∧ (b.hearth 1023).walk.loops = [] := by decide +kernel

/-- A NOP that signals 8 to counter 63, and a COUNTER that takes 2 from counter 5 and waits for counter 7 to reach 1. -/
def sigRaw : Nat := 2 ^ 201 + 63 * 2 ^ 195 + 7 * 2 ^ 192
/-- COUNTER, CTR 5, ADD −2. -/
def counterRaw : Nat := 5 * 2 ^ 252 + 5 * 2 ^ 58 + 65534 * 2 ^ 42
/-- The same with a wait for counter 7 to reach 1. -/
def waitOn7 (raw : Nat) : Nat := raw + 2 ^ 251 + 7 * 2 ^ 245 + 1 * 2 ^ 227
/-- A provisional entry whose increment counter 7 holds. -/
def source7 : WEntry := { entryAt 9 0 with st := .complete, slot := some 0, inc := [(7, 1)] }

/-- Hearth 1023 with this window. -/
def withWindow (es : List WEntry) : Dev := firing 1023 { Hearth.fresh with run := some (partOf 0), window := es }

theorem test_witness_nop_counter : (∃ r, ((withWindow [entryAt 1 sigRaw]).hearth 1023).run = some r ∧ r.stopped = false ∧ r.aborting = false) ∧
    (withWindow [entryAt 1 sigRaw]).Fires 1023 .nop (entryAt 1 sigRaw) ∧ ((withWindow [entryAt 1 sigRaw]).hearth 1023).sources (entryAt 1 sigRaw) = [] ∧
    (withWindow [entryAt 1 counterRaw]).Fires 1023 .counter (entryAt 1 counterRaw) ∧
    (withWindow [source7, entryAt 1 (waitOn7 0)]).Fires 1023 .nop (entryAt 1 (waitOn7 0)) ∧
    ((withWindow [source7, entryAt 1 (waitOn7 0)]).hearth 1023).sources (entryAt 1 (waitOn7 0)) ≠ [] ∧
    (withWindow [source7, entryAt 1 (waitOn7 counterRaw)]).Fires 1023 .counter (entryAt 1 (waitOn7 counterRaw)) ∧
    ((withWindow [source7, entryAt 1 (waitOn7 counterRaw)]).hearth 1023).sources (entryAt 1 (waitOn7 counterRaw)) ≠ [] := by
  unfold Dev.Fires
  exact ⟨⟨partOf 0, by decide +kernel⟩, by decide +kernel⟩

theorem test_witness_stepEnd : let e := entryAt 1 (15 * 2 ^ 252)
    let c : WEntry := { entryAt 4 0 with st := .complete, inc := [(63, -3)] }
    ((withWindow [e]).hearth 1023).run = some (partOf 0) ∧ (withWindow [e]).Fires 1023 .stepEnd e ∧
    (∃ r, ((withWindow [c]).hearth 1023).run = some r ∧ r.stopped = false ∧ r.aborting = false) ∧
    ((withWindow [c]).hearth 1023).entryOf 4 = some c ∧ twf 0 c.inc = true := by
  unfold Dev.Fires
  exact ⟨by decide +kernel, by decide +kernel, ⟨partOf 0, by decide +kernel⟩, by decide +kernel⟩

theorem test_witness_bellows : let d := filling 0 [0, 0] Hearth.fresh
    let b := filling 0 [branchRaw 0 + 2 ^ 251 + 1 * 2 ^ 227, 0] Hearth.fresh
    d.mayBlow 0 = true ∧ (d.hearth 0).bellowsAt.ordinal < (d.hearth 0).walk.ordinal + 512 ∧ d.readable 0 (d.hearth 0).bellowsAt = true ∧
    EKind.ofCode (Header.ofWord (d.tableEntry 0 (d.hearth 0).bellowsAt.pos)).kind = some .nop ∧
    b.mayBlow 0 = true ∧ b.readable 0 (b.hearth 0).bellowsAt = true ∧
    EKind.ofCode (Header.ofWord (b.tableEntry 0 (b.hearth 0).bellowsAt.pos)).kind = some .branch ∧
    (b.hearth 0).waitsCommitted (.ofWord (b.tableEntry 0 (b.hearth 0).bellowsAt.pos)) (b.hearth 0).bellowsAt.i (b.hearth 0).bellowsAt.t = false := by
  decide +kernel

theorem test_witness_bellows_steer : let l := filling 0 [loopRaw 3, 0, 0] Hearth.fresh
    let b := filling 0 [branchRaw 0, 0] Hearth.fresh
    let s := filling 0 [3 * 2 ^ 252] Hearth.fresh
    l.mayBlow 0 = true ∧ l.readable 0 (l.hearth 0).bellowsAt = true ∧
    EKind.ofCode (Header.ofWord (l.tableEntry 0 (l.hearth 0).bellowsAt.pos)).kind = some .loop ∧
    (l.hearth 0).waitsCommitted (.ofWord (l.tableEntry 0 (l.hearth 0).bellowsAt.pos)) (l.hearth 0).bellowsAt.i (l.hearth 0).bellowsAt.t = true ∧
    b.mayBlow 0 = true ∧ b.readable 0 (b.hearth 0).bellowsAt = true ∧
    EKind.ofCode (Header.ofWord (b.tableEntry 0 (b.hearth 0).bellowsAt.pos)).kind = some .branch ∧
    (b.hearth 0).waitsCommitted (.ofWord (b.tableEntry 0 (b.hearth 0).bellowsAt.pos)) (b.hearth 0).bellowsAt.i (b.hearth 0).bellowsAt.t = true ∧
    s.mayBlow 0 = true ∧ s.readable 0 (s.hearth 0).bellowsAt = true ∧
    EKind.ofCode (Header.ofWord (s.tableEntry 0 (s.hearth 0).bellowsAt.pos)).kind = some .stream ∧
    s.fetches 0 (s.tableEntry 0 (s.hearth 0).bellowsAt.pos) = false := by decide +kernel

theorem test_witness_stall : let d := (withWindow [entryAt 1 (waitOn7 0)]).setCtx 0 ⟨some ⟨0, [1023], [], none⟩, 0, false, none⟩
    (d.hearth 1023).run = some (partOf 0) ∧ (partOf 0).stallLimit ≠ 0 ∧ (partOf 0).aborting = false ∧ (∃ k ∈ [1023], k ∉ ([] : List Nat)) ∧ (d.hearth 1023).window ≠ [] ∧ d.get Obj.HALTED_STREAMS 1023 = 0 ∧
    (d.ctx 0).run = some ⟨0, [1023], [], none⟩ ∧ (d.put Obj.HALTED_STREAMS 1 1023).get Obj.HALTED_STREAMS 1023 ≠ 0 := by decide +kernel

/-- Flue 7 of hearth 0 is full and drains to counter 5 of the same hearth, whose oldest entry waits for counter 5. -/
def draughty : Dev :=
  (((devOf [(Obj.FLUE_CFG, 7, FlueCfg.word ⟨true, false, 4, 0, 1, 1, 0, false, 0, true, 5⟩), (Obj.DRAUGHT_LIMIT, 0, 10)]).setHearth 0
    { Hearth.fresh with run := some (partOf 4), window := [entryAt 1 (2 ^ 251 + 5 * 2 ^ 245 + 1 * 2 ^ 227)] }).setFlue 7
    { Flue.fresh with put := 1, slots := [(0, { FSlot.fresh with st := .filled })] }).setCtx 4 ⟨some ⟨0, [0], [], none⟩, 0, false, none⟩

theorem test_witness_draught : draughty.get Obj.DRAUGHT_LIMIT ≠ 0 ∧ (draughty.flueCfg 7).enable = true ∧ (draughty.flueCfg 7).proxy = false ∧
    draughty.flueFull 7 = true ∧ draughty.draughtFrom (draughty.setFlues.length + 1) [7] = some [7] ∧
    (draughty.ctx (draughty.flueCfg 7).ctx).run = some ⟨0, [0], [], none⟩ ∧ (∃ k ∈ [0], k ∉ ([] : List Nat)) := by decide +kernel

/-- GRATE entry, M = N = K = 32, FP32 out; `a`, `b`, `dst`: format codes, no skips. -/
def grateRaw (dst : Nat) : Nat := 2 ^ 252 + 2 ^ 74 + 2 ^ 71 + dst * 2 ^ 68 + 0x80

/-- The job of entry 1. -/
def job1 (exp : Int) (folded drained mx : Nat) (checks : List (Nat × Nat × Nat)) : GrateJob := ⟨1, exp, 0, [], checks, folded, drained, false, mx, false, none⟩

/-- Hearth 1023 with entry 1 firing on the grates. -/
def onGrates (dst budget : Nat) (j : GrateJob) (bufs : List AccBuf) (q : List (Nat × Bool)) : Dev :=
  firing 1023 { Hearth.fresh with run := some { partOf 0 with budget := budget }, window := [{ entryAt 1 (grateRaw dst) with st := .firing }],
                                  jobs := [j], bufs := bufs, feeders := if q.isEmpty then [] else [(31, q)] }

theorem test_witness_grate : ((withWindow [entryAt 1 (grateRaw 0)]).hearth 1023).folding = none ∧
    (withWindow [entryAt 1 (grateRaw 0)]).Fires 1023 .grate (entryAt 1 (grateRaw 0)) ∧
    (let d := onGrates 0 0 (job1 0 0 0 0 []) [⟨9, 0, 0, []⟩] []
     (d.hearth 1023).folding = some ({ entryAt 1 (grateRaw 0) with st := .firing }, job1 0 0 0 0 []) ∧ (d.hearth 1023).bufs.length = 1 ∧
     (d.hearth 1023).feeders = []) := by unfold Dev.Fires; decide +kernel

theorem test_witness_feeder : let q := List.replicate 16 (0, false)
    let e : WEntry := { entryAt 1 (grateRaw 0) with st := .firing }
    let d := onGrates 0 0 (job1 0 0 0 0 []) [] q
    let l := ((GrateBody.ofWord e.raw).feedLines e 31 16 0).headD 0
    (d.hearth 1023).folding = some (e, job1 0 0 0 0 []) ∧
    (GrateBody.ofWord e.raw).feedNext (job1 0 0 0 0 []) (tget [] (d.hearth 1023).feeders 31).length =
      (16, 0) :: (List.range 15).map (fun i => (17 + i, 0)) ∧ (tget [] (d.hearth 1023).feeders 31).length ≤ 16 ∧
    tget [] (d.hearth 1023).feedHalf 31 = [] ∧
    ((GrateBody.ofWord e.raw).feedLines e 31 16 0).filter (fun l => !((tget [] (d.hearth 1023).feedHalf 31).map (·.1)).contains l) =
      l :: ((GrateBody.ofWord e.raw).feedLines e 31 16 0).tail ∧
    (d.hearth 1023).grant 31 (l % 32) [(l % 32, 1, 0)] = (1, 31) ∧ (d.hearth 1023).grant 31 (l % 32) [(l % 32, 2, 30)] = (2, 30) := by
  decide +kernel

theorem test_witness_drain_check : let e : WEntry := { entryAt 1 (grateRaw 0) with st := .firing }
    let e2 : WEntry := { entryAt 1 (grateRaw 2) with st := .firing }
    let d := onGrates 0 0 (job1 0 1 0 0 []) [⟨1, 0, 0, []⟩] []
    let z := onGrates 2 0 (job1 0 1 0 0 []) [⟨1, 0, 0, [(0x7F7FFFFF, false)]⟩] []
    let c := onGrates 0 0 (job1 0 1 0 0 [(0, 0, 0)]) [] []
    (d.hearth 1023).bufs = [⟨1, 0, 0, []⟩] ∧ (d.hearth 1023).entryOf 1 = some e ∧
    (d.hearth 1023).jobs.find? (fun j => j.id = 1) = some (job1 0 1 0 0 []) ∧
    (z.hearth 1023).bufs = [⟨1, 0, 0, [(0x7F7FFFFF, false)]⟩] ∧ (z.hearth 1023).entryOf 1 = some e2 ∧
    (z.hearth 1023).jobs.find? (fun j => j.id = 1) = some (job1 0 1 0 0 []) ∧ (GrateBody.ofWord (grateRaw 2)).fd.scaled = true ∧
    (job1 0 1 0 0 []).drained + 1 = (GrateBody.ofWord (grateRaw 2)).pairs ∧
    (GrateBody.ofWord (grateRaw 2)).fd.exceeds 0x7F7FFFFF 0 = true ∧ (GrateBody.ofWord (grateRaw 2)).fd.exceeds 0 0 = false ∧
    (c.hearth 1023).jobs.find? (fun j => !j.checks.isEmpty) = some (job1 0 1 0 0 [(0, 0, 0)]) ∧ (c.hearth 1023).entryOf 1 = some e ∧
    (job1 0 1 0 0 [(0, 0, 0)]).checks = [(0, 0, 0)] := by decide +kernel

theorem test_witness_grate_complete : let ready (x : Hearth) (j : GrateJob) : Bool := match x.entryOf j.id with
      | some e => decide ((GrateBody.ofWord e.raw).pairs ≤ j.drained) && j.checks.isEmpty
      | none => false
    let fail : GrateJob := { job1 0 1 1 0x7F7FFFFF [] with failed := some (-10) }
    let d := fun dst budget (j : GrateJob) => (onGrates dst budget j [] []).hearth 1023
    ((d 0 0 (job1 0 1 1 0 [])).jobs.find? (ready (d 0 0 (job1 0 1 1 0 []))) = some (job1 0 1 1 0 []) ∧
      (d 0 0 (job1 0 1 1 0 [])).run = some (partOf 0) ∧ (partOf 0).aborting = false ∧ (partOf 0).stopped = false ∧
      (job1 0 1 1 0 []).failed = none ∧ (job1 0 1 1 0 []).wrongSkip = false ∧
      (d 0 0 (job1 0 1 1 0 [])).entryOf 1 = some { entryAt 1 (grateRaw 0) with st := .firing }) ∧
    ((d 2 1 fail).jobs.find? (ready (d 2 1 fail)) = some fail ∧ (GrateBody.ofWord (grateRaw 2)).fd.scaled = true ∧
      (d 2 1 fail).run = some { partOf 0 with budget := 1 } ∧ fail.failed = some (-10)) ∧
    ((d 2 0 fail).jobs.find? (ready (d 2 0 fail)) = some fail ∧ (d 2 0 fail).run = some { partOf 0 with budget := 0 }) := by decide +kernel

/-- VECTOR entry with `n` vectors, FP32 throughout, operands and result at byte 0. -/
def vectorRaw (op n : Nat) : Nat := 2 * 2 ^ 252 + (n - 1) * 2 ^ 84 + op * 2 ^ 26

theorem test_witness_vector : ((withWindow [entryAt 1 (vectorRaw 1 8192)]).hearth 1023).run = some (partOf 0) ∧
    (withWindow [entryAt 1 (vectorRaw 1 8192)]).Fires 1023 .vector (entryAt 1 (vectorRaw 1 8192)) ∧
    (VectorBody.ofWord (vectorRaw 1 8192)).aFmt = 0 ∧ (VectorBody.ofWord (vectorRaw 1 8192)).bFmt = 0 ∧
    (VectorBody.ofWord (vectorRaw 1 8192)).dFmt = 0 ∧ (VectorBody.ofWord (vectorRaw 1 8192)).red = 0 ∧
    (VectorBody.ofWord (vectorRaw 1 8192)).d.byte [] [] + 256 * (VectorBody.ofWord (vectorRaw 1 8192)).len ≤ scrBytes := by
  unfold Dev.Fires; decide +kernel

/-- A transfer of one line in a place, of slot 0, with this descriptor. -/
def transferOf (ds : Desc) (far : Nat) : Transfer :=
  { id := 1, ctx := 0, desc := ds.word, descIdx := 0, line0 := 0, far := far, next := 0, waiting := [], tag := none, ahead := [], held := false,
    halted := none, nativeRest := false, faultPages := [], first := none, forced := false, flue := none, done := false, order := 0, started := false }

/-- A descriptor of one line. -/
def oneLine (dir : Nat) (halt : Bool) : Desc :=
  { farBase := 0, rowLines := 1, rows := 1, farPitch := 0, localPitch := 0, dir := dir, mode := 0, epoch := 0, cacheable := false,
    faultHalt := halt, addFmt := 0, chain := 0 }

/-- Hearth 1023 with this transfer in place 31; page 0 of slot 0 is hearth `dst`'s scratchpad, with every right; hearth 5 is IDLE. -/
def streaming (t : Transfer) (dst : Nat) : Dev :=
  let d := firing 1023 { Hearth.fresh with run := some (partOf 0), window := [{ entryAt 1 (3 * 2 ^ 252) with st := .firing }], places := [(31, some t)] }
  let d := (d.put Obj.HEARTH_STATE 2 5).put Obj.CLOCK_STATE 2 0
  d.setCluster 127 { Cluster.fresh with tlb := [⟨0, 0, false, (0x80000000000 + 2097152 * dst) + 0x1F⟩] }

theorem test_witness_stream : (withWindow [entryAt 1 (3 * 2 ^ 252)]).Fires 1023 .stream (entryAt 1 (3 * 2 ^ 252)) ∧
    ((withWindow [entryAt 1 (3 * 2 ^ 252)]).hearth 1023).freePlace = some 0 ∧
    ((withWindow [entryAt 1 (3 * 2 ^ 252)]).hearth 1023).run = some (partOf 0) ∧
    ((withWindow [entryAt 1 (3 * 2 ^ 252)]).descriptor 1023 (StreamBody.ofWord (3 * 2 ^ 252)).desc).mode ≠ 2 := by
  unfold Dev.Fires; decide +kernel

theorem test_witness_line : let x : Transfer := { transferOf (oneLine 0 false) 0 with started := true }
    let y : Transfer := { transferOf (oneLine 1 false) 0 with started := true }
    let n : Transfer := { transferOf (oneLine 0 false) (2 ^ 57) with started := true }
    let k : Transfer := { transferOf (oneLine 0 true) (2 ^ 57) with started := true }
    let late : Dev := (streaming (transferOf (oneLine 0 false) 0) 5).modHearth 1023 fun h =>
      { h with places := [(30, some { transferOf (oneLine 0 false) 0 with order := 1 }), (31, some (transferOf (oneLine 0 false) 0))] }
    (((streaming (transferOf (oneLine 0 false) 0) 5).hearth 1023).place 31 = some (transferOf (oneLine 0 false) 0) ∧
      ((streaming (transferOf (oneLine 0 false) 0) 5).hearth 1023).startWaits (transferOf (oneLine 0 false) 0) = false) ∧
    (x.moved = false ∧ x.next ∉ x.ahead ∧
      (streaming x 5).farLine 1023 x 0 = (streaming x 5, .ok (streaming x 5).selfId (0x80000000000 + 2097152 * 5)) ∧
      (streaming x 5).usesCache 1023 x.d = false ∧ x.d.dir = 0 ∧
      ((streaming x 5).localRead (0x80000000000 + 2097152 * 5) x.d.chain (some 0) [] 1023).2 = .line ⟨List.replicate 64 0, false⟩) ∧
    ((streaming y 1023).farLine 1023 y 0 = (streaming y 1023, .ok (streaming y 1023).selfId (0x80000000000 + 2097152 * 1023)) ∧ y.d.dir ≠ 0 ∧
      ((streaming y 1023).putLine 1023 y (0x80000000000 + 2097152 * 1023) (((streaming y 1023).hearth 1023).line (y.lineOf 0))).2 = .ok) ∧
    ((streaming n 5).farLine 1023 n 0 = (streaming n 5, .unmapped) ∧ n.d.faultHalt = false) ∧
    ((streaming k 5).farLine 1023 k 0 = (streaming k 5, .unmapped) ∧ k.d.faultHalt = true ∧ k.nativeRest = false ∧
      (streaming k 5).abortingAt 1023 = false) ∧
    ((late.hearth 1023).place 30 = some { transferOf (oneLine 0 false) 0 with order := 1 } ∧
      (late.hearth 1023).startWaits { transferOf (oneLine 0 false) 0 with order := 1 } = true) := by decide +kernel

theorem test_witness_resume : let x : Transfer := { transferOf (oneLine 0 true) 0 with halted := some 0 }
    let u : Transfer := { transferOf (oneLine 0 true) (2 ^ 57) with halted := some 0 }
    let d := streaming x 5
    let d1 := (d.putBit Obj.HALTED_STREAMS 31 false 1023).setPlace 1023 31 (some { x with halted := none })
    let u1 := ((streaming u 5).putBit Obj.HALTED_STREAMS 31 false 1023).setPlace 1023 31 (some { u with halted := none })
    d.HearthServes 1023 Obj.STREAM_RESUME 0 ∧ (d.hearth 1023).place 31 = some x ∧ x.halted.isSome = true ∧
    (d1.farLine 1023 { x with halted := none } x.next).2 = .ok d.selfId (0x80000000000 + 2097152 * 5) ∧
    (streaming u 5).HearthServes 1023 Obj.STREAM_RESUME 0 ∧ ((streaming u 5).hearth 1023).place 31 = some u ∧ u.moved = false ∧
    u.next ∉ u.ahead ∧ (u1.farLine 1023 { u with halted := none } u.next).2 = .unmapped ∧ u.d.faultHalt = true ∧ u.nativeRest = false ∧
    (u1.farLine 1023 { u with halted := none } u.next).1.abortingAt 1023 = false ∧
    ((streaming (transferOf (oneLine 0 true) 0) 5).hearth 1023).place 31 = some (transferOf (oneLine 0 true) 0) := by
  unfold Dev.HearthServes Dev.RegionServes Dev.Serves; decide +kernel

theorem test_witness_entry_complete : let v : WEntry := { entryAt 1 (vectorRaw 0 1 + sigRaw) with st := .firing }
    let x : Transfer := { transferOf (oneLine 0 false) 0 with next := 1 }
    ((withWindow [v]).hearth 1023).run = some (partOf 0) ∧ (partOf 0).stopped = false ∧ (partOf 0).aborting = false ∧
    ((withWindow [v]).hearth 1023).entryOf 1 = some v ∧ v.kind = .vector ∧
    ((streaming x 5).hearth 1023).entryOf 1 = some { entryAt 1 (3 * 2 ^ 252) with st := .firing } ∧
    ((streaming x 5).hearth 1023).place 31 = some x ∧ x.complete = true ∧
    (∀ q < 31, ((streaming x 5).hearth 1023).place q = none) := by decide +kernel

/-- Hearth 0 fills a STREAM entry of descriptor 0, which the bellows fetch; page 0 of slot 0 is hearth 5's scratchpad. -/
def fetching : Dev :=
  let d := filling 0 [3 * 2 ^ 252 + 2 ^ 53] Hearth.fresh
  let d := (d.modHearth 0 fun x => (x.writeRun 4096 (leBytes 32 (oneLine 0 false).word) fun _ => false).1).put Obj.DESC_TABLE_BASE 4096 0
  (d.put Obj.HEARTH_STATE 2 5).setCluster 0 { Cluster.fresh with tlb := [⟨0, 0, false, (0x80000000000 + 2097152 * 5) + 0x1F⟩] }

theorem test_witness_fetch : let raw := 3 * 2 ^ 252 + 2 ^ 53
    let d := fetching
    d.tableEntry 0 (d.hearth 0).bellowsAt.pos = raw ∧ d.mayBlow 0 = true ∧ (d.hearth 0).bellowsAt.ordinal < (d.hearth 0).walk.ordinal + 512 ∧
    d.readable 0 (d.hearth 0).bellowsAt = true ∧ EKind.ofCode (bits raw 255 252) = some .stream ∧ d.fetches 0 raw = true ∧
    (d.hearth 0).waitsCommitted (.ofWord raw) (d.hearth 0).bellowsAt.i (d.hearth 0).bellowsAt.t = true ∧
    (let x := d.aheadTransfer 0 (.ofWord raw) (d.hearth 0).bellowsAt
     x.d.total = 1 ∧ (d.hearth 0).cacheOnly = false ∧
       ({ d with crc := [] }.farLine 0 x 0) = ({ d with crc := [] }, .ok d.selfId (0x80000000000 + 2097152 * 5)) ∧ d.usesCache 0 x.d = false ∧
       ({ d with crc := [] }.localRead (0x80000000000 + 2097152 * 5) x.d.chain (some x.ctx) [] 0).2 = .line ⟨List.replicate 64 0, false⟩) := by
  decide +kernel

/-- Hearth 1023 IDLE, with one region over the whole scratchpad that admits remote writes and counts notices on counter 63. -/
def openHearth : Dev := devOf [(Obj.HEARTH_STATE, 1023, 2), (Obj.CLOCK_STATE, 15, 2), (Obj.REGION, 1023, 32767 * 2 ^ 34 + 2 ^ 31 + 2 ^ 24 + 2 ^ 23 + 63 * 2 ^ 17)]

theorem test_witness_remote_write : openHearth.hearthOpen 1023 = true ∧ openHearth.clockOn (1023 / 64) = true ∧ 2097088 + 64 ≤ scrBytes ∧
    openHearth.remoteOk 1023 (2097088 / 64) ((2097088 + 64 - 1) / 64) = true ∧
    (devOf [(Obj.HEARTH_STATE, 1023, 2), (Obj.CLOCK_STATE, 15, 2)]).hearthOpen 1023 = true ∧
    (devOf [(Obj.HEARTH_STATE, 1023, 2), (Obj.CLOCK_STATE, 15, 2)]).clockOn (1023 / 64) = true ∧
    (devOf [(Obj.HEARTH_STATE, 1023, 2), (Obj.CLOCK_STATE, 15, 2)]).remoteOk 1023 0 0 = false ∧ Dev.fresh.hearthOpen 1023 = false ∧
    (∃ w, openHearth.regionAt 1023 32767 = some w ∧ w.testBit 23 = true ∧ bits w 22 17 = 63) :=
  ⟨by decide +kernel, by decide +kernel, by decide +kernel, by decide +kernel, by decide +kernel, by decide +kernel, by decide +kernel,
    by decide +kernel, ⟨32767 * 2 ^ 34 + 2 ^ 31 + 2 ^ 24 + 2 ^ 23 + 63 * 2 ^ 17, by decide +kernel⟩⟩

/-- The same with the clock of region 15, in service, stopped. -/
def sleepingHearth : Dev := devOf [(Obj.HEARTH_STATE, 1023, 2), (Obj.REGION_STATE, 15, 4)]

theorem test_witness_remote_waits : sleepingHearth.hearthOpen 1023 = true ∧ sleepingHearth.clockOn (1023 / 64) = false ∧
    sleepingHearth.inService (1023 / 64) = true ∧ sleepingHearth.power.tripped = false ∧ sleepingHearth.get Obj.CLOCK_STATE (1023 / 64) = 0 := by
  decide +kernel

/-- Flue 7 of hearth 0, one slot of one line, for slot 0's steps. -/
def cfg7 : FlueCfg := ⟨true, false, 0, 0, 1, 1, 0, false, 0, false, 0⟩

/-- FLUE entry for flue 7. -/
def flueRaw (fop : Nat) : Nat := 4 * 2 ^ 252 + 7 * 2 ^ 48 + fop * 2 ^ 46

/-- Hearth 0 with a FLUE entry, flue 7 in the state given. -/
def flueDev (fop : Nat) (x : Flue) : Dev :=
  ((firing 0 { Hearth.fresh with run := some (partOf 0), window := [entryAt 1 (flueRaw fop)] }).put Obj.FLUE_CFG cfg7.word 7).setFlue 7 x

theorem test_witness_flue : let e := flueDev 1 Flue.fresh
    let b := flueDev 1 { Flue.fresh with slots := [(0, { FSlot.fresh with st := .filled })] }
    let r := flueDev 0 { Flue.fresh with slots := [(0, { FSlot.fresh with st := .filled })] }
    let u := flueDev 0 Flue.fresh
    ((FlueBody.ofWord (flueRaw 1)).number [] [] = 7 ∧ e.flueCfg 7 = cfg7 ∧ (e.hearth 0).run = some (partOf 0) ∧
      e.Fires 0 .flue (entryAt 1 (flueRaw 1)) ∧ (e.hearth 0).freePlace = some 0 ∧ cfg7.misused 0 = false ∧ cfg7.proxy = false ∧
      (FlueBody.ofWord (flueRaw 1)).fop = 1 ∧ e.hearthOpen (e.flueHome 7) = true ∧ ((e.flue 7).slot ((e.flue 7).put % 1)).st = .empty ∧
      ((e.flue 7).slot ((e.flue 7).put % 1)).pending = false ∧
      lapBit (e.flue 7).put 1 ≠ ((e.flue 7).slot ((e.flue 7).put % 1)).doneLap ∧ 7 / 4096 = 0 / 64 ∧ e.WinsFlue 7 0 [1023] ∧
      rotPick requesters (tget 0 ({ e with arb := [(arbFlue 7, 1)] } : Dev).arb (arbFlue 7)) [0, 1023] = some 1023) ∧
    (b.Fires 0 .flue (entryAt 1 (flueRaw 1)) ∧ b.hearthOpen (b.flueHome 7) = true ∧ ((b.flue 7).slot ((b.flue 7).put % 1)).st ≠ .empty) ∧
    (r.Fires 0 .flue (entryAt 1 (flueRaw 0)) ∧ (FlueBody.ofWord (flueRaw 0)).fop = 0 ∧ 0 = r.flueHome 7 ∧
      ((r.flue 7).slot ((r.flue 7).get % 1)).st = .filled) ∧
    (u.Fires 0 .flue (entryAt 1 (flueRaw 0)) ∧ ((u.flue 7).slot ((u.flue 7).get % 1)).st ≠ .filled) := by
  unfold Dev.Fires Dev.WinsFlue; decide +kernel

theorem test_witness_copies : let c := fun w => (⟨255, w, false, 3, 31, 32767, [⟨List.replicate 64 1, true⟩], cfg7.word, 0⟩ : FCopy)
    let d := fun w => Dev.fresh.setFlue 65535 { Flue.fresh with copies := [c w], slots := [(255, { FSlot.fresh with st := .draining })] }
    ((d true).flue 65535).due = false ∧ ((d true).flue 65535).copies.find? (fun c => c.slot = 255 && c.write = true) = some (c true) ∧
    (c true).stale = false ∧ (c true).data.length ≤ 32768 ∧ (d true).hearthDrained ((FlueCfg.ofWord (c true).cfg).home 65535) = false ∧
    ((d true).modHearth 3 fun x => { x with places := [(31, some { transferOf (oneLine 0 false) 0 with flue := some ⟨65535, true⟩ })] }).hearth 3 =
      { Hearth.fresh with places := [(31, some { transferOf (oneLine 0 false) 0 with flue := some ⟨65535, true⟩ })] } ∧
    ((d false).flue 65535).copies.find? (fun c => c.slot = 255 && c.write = false) = some (c false) ∧ (c false).place < 32 ∧
    (((d false).flue 65535).slot 255).st = .draining := by decide +kernel

theorem test_witness_flue_cfg : let d := upWith [(Obj.FLUE_CFG, 65535, { cfg7 with ctx := 15 }.word), (Obj.HEARTH_STATE, 1016, 2)]
    let b := d.setCtx 15 ⟨some ⟨0, [8], [], none⟩, 0, false, none⟩
    d.RegionServes (65535 / 4096) Obj.FLUE_CFG 65535 0 ∧ d.RegionServes (65535 / 4096) Obj.FLUE_DOORBELL 65535 0 ∧
    (d.ctx (d.flueCfg 65535).ctx).abortDue = none ∧ d.flueBusy 65535 = false ∧ b.RegionServes (65535 / 4096) Obj.FLUE_CFG 65535 0 ∧
    (b.ctx (b.flueCfg 65535).ctx).abortDue = none ∧ b.flueBusy 65535 = true ∧ d.WinsFlue 65535 1045 [] ∧
    ¬ d.WinsFlue 65535 1045 [1023] ∧ (d.flueCfg 65535).enable = true ∧
    (d.flueCfg 65535).proxy = false ∧ d.hearthOpen (d.flueHome 65535) = true ∧ (d.flue 65535).due = false := by
  unfold Dev.RegionServes Dev.Serves Dev.WinsFlue; decide +kernel

/-- Stack 31 ready, with every pseudo-channel in this state. -/
def stackUp (p : Pch) : Dev :=
  (upWith [(Obj.STACK_STATE, 31, 2), (Obj.CLOCK_STATE, 15, 2)]).setStack 31 { Stack.fresh with pch := if p = .off then [] else (List.range 64).map fun i => (i, p) }

/-- A stack of a region in service whose clock is stopped. -/
def stackAsleep : Dev := ((stackUp .active).put Obj.CLOCK_STATE 0 15).put Obj.REGION_STATE 4 15

theorem test_witness_stack_turns : (stackUp .active).WinsStack 31 ⟨1044, []⟩ ∧ (stackUp .active).LosesStack 31 ⟨1044, [0]⟩ ∧
    stackAsleep.WinsStack 31 ⟨1044, []⟩ ∧ stackAsleep.gate 31 5 = .stopped ∧ (stackUp .retrain).WinsStack 31 ⟨0, [1045]⟩ ∧
    (stackUp .retrain).gate 31 5 = .waits ∧ (stackUp .retrain).tagFree 31 5 = true := by
  unfold Dev.WinsStack Dev.LosesStack
  refine ⟨by decide +kernel, ⟨0, by decide +kernel⟩, by decide +kernel, by decide +kernel, by decide +kernel, by decide +kernel, by decide +kernel⟩

/-- Stack 31 with chain 15, on BF16: one operation, in entry 16, MUL_IMM by 1.0, or an entry that is none. -/
def chainDev (legal : Bool) : Dev :=
  ((stackUp .active).domWrite Obj.HOB_TABLE_0 (16 * 15) (leBytes 16 (1 * 2 ^ 124 + 2 ^ 123 + 16 * 2 ^ 115 + 1 * 2 ^ 111)) 31).domWrite
    Obj.HOB_TABLE_0 (16 * 16) (leBytes 16 (if legal then 2 * 2 ^ 124 + 1 * 2 ^ 118 + 0x3F800000 * 2 ^ 86 else 0)) 31

theorem test_witness_chain : chainOf ((chainDev true).chainEntries 31 15) = some ⟨true, 64, [⟨1, 0x3F800000, 0⟩]⟩ ∧
    chainOf ((chainDev false).chainEntries 31 15) = none ∧ (chainDev true).gate 31 5 = .serve ∧ (chainDev false).gate 31 5 = .serve := by
  decide +kernel

theorem test_witness_hbm : (stackUp .active).gate 31 (2 ^ 30 - 1) = .serve ∧ (∀ w < 8, tget none ((stackUp .active).stack 31).bmax w = none) ∧
    (stackUp .failed).gate 31 (2 ^ 30 - 1) = .failed ∧ Dev.fresh.gate 31 (2 ^ 30 - 1) = .absent ∧
    ((stackUp .active).setSector 31 5 ⟨List.replicate 64 7, false, []⟩).verdict 31 5 = .clean [] ∧
    ((stackUp .active).setSector 31 5 ⟨List.replicate 64 7, false, [(3, 9)]⟩).verdict 31 5 = .corrected [] ∧
    (∃ l, ((stackUp .active).setSector 31 5 ⟨List.replicate 64 7, false, (List.range 20).map fun i => (i, 1)⟩).verdict 31 5 = .bad l) :=
  ⟨by decide +kernel, by decide +kernel, by decide +kernel, by decide +kernel, by decide +kernel, by decide +kernel,
    ⟨(List.range 20).map fun i => (i, 1), by decide +kernel⟩⟩

/-- Stack 31 READY with every pseudo-channel ACTIVE, and changed by `f`. -/
def stackWith (f : Stack → Stack) : Dev := (stackUp .active).modStack 31 f

theorem test_witness_scrub_power : let f := (((stackUp .failed).modStack 31 fun x => { x with scrubNext := 7 }).put Obj.SCRUB_INTERVAL 1 31)
    let a := (stackWith fun x => { x with scrubNext := 2 ^ 30 - 2 }).put Obj.SCRUB_INTERVAL 1 31
    let b := (stackWith fun x => { x with scrubNext := 2 ^ 30 - 1 }).put Obj.SCRUB_INTERVAL 1 31
    (a.get Obj.SCRUB_INTERVAL 31 ≠ 0 ∧ a.pch 31 (pchOfSec (a.stack 31).scrubNext) = .active ∧ (a.stack 31).scrubNext + 1 < 2 ^ 30) ∧
    (f.get Obj.SCRUB_INTERVAL 31 ≠ 0 ∧ f.pch 31 (pchOfSec (f.stack 31).scrubNext) = .failed ∧ (f.stack 31).scrubNext + 1 < 2 ^ 30) ∧
    (b.get Obj.SCRUB_INTERVAL 31 ≠ 0 ∧ (b.stack 31).scrubNext = 2 ^ 30 - 1) ∧
    a.pch 31 63 = .active ∧ (stackUp .powerDown).pch 31 63 = .powerDown ∧
    a.Serves ∧ (upWith []).get Obj.STACK_STATE 31 = 0 ∧ (upWith [(Obj.STACK_STATE, 31, 1)]).get Obj.STACK_STATE 31 = 1 ∧
    2 ≤ a.get Obj.STACK_STATE 31 ∧ 2 ≤ (stackUp .hold).get Obj.STACK_STATE 31 ∧ (∀ p < 64, (stackUp .hold).pch 31 p = .hold) := by
  unfold Dev.Serves; decide +kernel

/-- A write that holds a tag of the pseudo-channel of a sector. -/
def writeWait (sec : Nat) : HbmWait := ⟨sec, none, true, none, List.replicate 64 1, [], false, none, .demand, [], 0⟩

theorem test_witness_hold : let d := stackWith fun x => { x with draining := true, waiting := [writeWait 5], ashList := List.replicate 4095 7 }
    let e := stackWith fun x => { x with abandoned := [(2 ^ 30 - 1, 3)], ashList := [9], overflow := [pchOfSec 77] }
    d.drains 31 (pchOfSec 5) = true ∧ (d.writeTags 31 (pchOfSec 5)).length = 1 ∧ d.drains 31 63 = true ∧ d.writeTags 31 63 = [] ∧
    (d.stack 31).powerOff = false ∧ (d.stack 31).ashList.length + (d.writeTags 31 (pchOfSec 5)).length ≤ 4096 ∧
    (e.stack 31).abandoned.find? (fun a => a.1 = 2 ^ 30 - 1) = some (2 ^ 30 - 1, 3) ∧ (e.put Obj.STACK_STATE 4 31).get Obj.STACK_STATE 31 = 4 ∧
    9 ∈ (e.stack 31).ashList ∧ 10 ∉ (e.stack 31).ashList ∧ pchOfSec 10 ∉ (e.stack 31).overflow := by decide +kernel

theorem test_witness_retrain : let d := stackWith fun x => x
    let r := stackWith fun x => { x with retraining := some 31 }
    let l := stackWith fun x => { x with retraining := some 31, attempts := [(31, 2)] }
    let c : Dev := (stackUp .retrain).modStack 31 fun x => { x with retraining := some 31, waiting := [writeWait 5] }
    d.Serves ∧ d.get Obj.STACK_STATE 31 ≠ 0 ∧ d.chanInService 31 31 = true ∧ (c.stack 31).retraining = some 31 ∧ (c.stack 31).retrainQueue = [] ∧
    c.pch 31 62 = .retrain ∧ c.pch 31 63 = .retrain ∧ (∀ w ∈ (c.stack 31).waiting ++ (c.stack 31).boundary, w.crc = 0) ∧
    (l.stack 31).draining = false ∧ (d.stack 31).draining = false ∧
    31 ∉ (d.stack 31).retrainQueue ∧ (d.stack 31).retraining = none ∧ (r.stack 31).retraining = some 31 ∧ r.chanInService 31 0 = true ∧
    (upWith []).get Obj.STACK_STATE 31 = 0 ∧ (r.stack 31).retrainQueue = [] ∧ tget 0 (r.stack 31).attempts 31 + 1 < 3 ∧
    3 ≤ tget 0 (l.stack 31).attempts 31 + 1 ∧ (l.stack 31).retrainQueue = [] := by
  unfold Dev.Serves; decide +kernel

/-- Window 15 of stack 31: enabled, BF16, 64 blocks, data at 0, scales at 64 KiB. -/
def withWindow15 (f : Stack → Stack) : Dev := (stackWith f).put Obj.CKPT_WIN (2 ^ 63 + 2 ^ 62 + 1 * 2 ^ 19) 31 15

theorem test_witness_aperture : let d := withWindow15 id
    let p : PartBlock := ⟨(List.range 7).map fun i => (i, some ⟨List.replicate 64 0, false⟩)⟩
    let n := withWindow15 fun x => { x with partials := [(partKey 15 63, some p)] }
    d.NoWindow 31 ∧ d.NoneWaits 31 ∧ n.NoWindow 31 ∧ n.NoneWaits 31 ∧ d.WinsStack 31 ⟨0, []⟩ ∧
    d.gate 31 (d.srcSec 31 (.aper 15 511)) = .serve ∧ d.gate 31 (d.srcSec 31 (.aper 15 512)) = .serve ∧
    d.aperOk 31 15 511 = true ∧ d.aperOk 31 15 512 = false ∧
    tget none (d.stack 31).partials (partKey 15 (511 / (d.ckpt 31 15).lines)) = none ∧ d.partialLines 31 + (d.ckpt 31 15).lines ≤ 2048 ∧
    tget none (n.stack 31).partials (partKey 15 (511 / (n.ckpt 31 15).lines)) = some p ∧
    (tset none p.lines (511 % (n.ckpt 31 15).lines) (some ⟨fit 0 64 [], true⟩)).length = (n.ckpt 31 15).lines ∧
    n.get Obj.CKPT_STALE 31 ≠ 0 ∧ tget none p.lines 7 = none ∧ 7 < (n.ckpt 31 15).lines ∧
    n.secFailed 31 (((n.ckpt 31 15).scale + 63) / 64) = false ∧ d.Serves := by
  unfold Dev.NoWindow Dev.NoneWaits Dev.WinsStack Dev.Serves; decide +kernel

theorem test_witness_aperture_full :
    let f := withWindow15 fun x => { x with partials := (List.range 256).map fun b => (partKey 0 b, some ⟨[(0, some ⟨[], false⟩)]⟩) }
    f.aperOk 31 15 511 = true ∧ tget none (f.stack 31).partials (partKey 15 (511 / (f.ckpt 31 15).lines)) = none ∧
    2048 < f.partialLines 31 + (f.ckpt 31 15).lines ∧ f.tagFree 31 (f.srcSec 31 (.aper 15 511)) = true ∧
    f.gate 31 (f.srcSec 31 (.aper 15 511)) = .serve := by decide +kernel

theorem test_witness_hob : let d := (stackWith id).domWrite Obj.HOB_TABLE_1 (16 * 255) (leBytes 16 (3 * 2 ^ 124 + 1 * 2 ^ 120)) 31
    let big := ((stackWith id).put Obj.BMAX_WIN (4095 * 2 ^ 49 + 4095 * 2 ^ 37) 31 14)
    let full := stackWith fun x => { x with doorbells := List.replicate 16 (bellWord 4 0) }
    let one := stackWith fun x => { x with doorbells := [bellWord 1 (255 * 2 ^ 51) + 2 ^ 64 * (3 * 2 ^ 124 + 1 * 2 ^ 120)] }
    d.Serves ∧ d.TakesBells 31 ∧ (d.hobJob 31 (bits (bellWord 1 (255 * 2 ^ 51)) 58 51)).isSome = true ∧
    d.hobJob 31 (bits (bellWord 1 0) 58 51) = none ∧ d.bmaxFits 31 (bits (bellWord 2 (7 * 2 ^ 56)) 58 56) true = true ∧
    big.TakesBells 31 ∧ big.Serves ∧ big.bmaxFits 31 (bits (bellWord 2 (7 * 2 ^ 56)) 58 56) true = false ∧ (d.stack 31).doorbells = [] ∧
    d.NoWindow 31 ∧ d.NoneWaits 31 ∧ full.Serves ∧ ¬ full.TakesBells 31 ∧
    (one.stack 31).doorbells = [bellWord 1 (255 * 2 ^ 51) + 2 ^ 64 * (3 * 2 ^ 124 + 1 * 2 ^ 120)] ∧
    (hobJobOf ((bellWord 1 (255 * 2 ^ 51) + 2 ^ 64 * (3 * 2 ^ 124 + 1 * 2 ^ 120)) / 2 ^ 64)).isSome = true ∧ (d.stack 31).partials = [] ∧
    d.WinsStack 31 ⟨1044, []⟩ ∧ d.gate 31 (2 ^ 30 - 1) = .serve ∧ Dev.fresh.WinsStack 31 ⟨1044, []⟩ ∧ Dev.fresh.gate 31 (2 ^ 30 - 1) = .absent := by
  unfold Dev.Serves Dev.TakesBells Dev.NoWindow Dev.NoneWaits Dev.WinsStack; decide +kernel

/-- Stoker 1 in this state, changed by `f`. -/
def stokerDev (st : Nat) (f : Stoker → Stoker) : Dev := (upWith [(Obj.STOKER_STATE, 1, st)]).modStoker 1 f

/-- The word that names group 4095 alone, with operation `op`. -/
def bell4095 (op : Nat) : Nat := bellWord op (4095 * 2 ^ 48)

theorem test_witness_stoker_bells : bellOf 1 (bell4095 1) ∧ ¬ bellOf 1 (bellWord 1 (2047 * 2 ^ 48)) ∧ (stokerDev 2 id).Serves ∧
    (stokerDev 2 id).get Obj.STOKER_STATE 1 = 2 ∧ ((stokerDev 2 id).stoker 1).queue = [] ∧ ((stokerDev 2 id).stoker 1).taken = none ∧
    (stokerDev 1 fun x => { x with queue := List.replicate 15 0 }).get Obj.STOKER_STATE 1 = 1 ∧
    ((stokerDev 1 fun x => { x with queue := List.replicate 15 0 }).stoker 1).queue.length < 16 ∧
    16 ≤ ((stokerDev 1 fun x => { x with queue := List.replicate 16 0 }).stoker 1).queue.length ∧
    (stokerDev 4 id).get Obj.STOKER_STATE 1 = 4 ∧ (stokerDev 0 id).get Obj.STOKER_STATE 1 = 0 ∧
    (let d := stokerDev 2 fun x => { x with taken := some (bell4095 1, [4095]) }
     (d.stoker 1).taken = some (bell4095 1, [4095]) ∧ (d.stoker 1).code = none ∧ (∀ g ∈ [4095], d.passesOver (bits (bell4095 1) 63 60) g = true) ∧
     (d.stoker 1).queue = []) ∧
    (let d := stokerDev 2 fun x => { x with taken := some (bell4095 1, []), queue := [bell4095 2] }
     (d.stoker 1).queue = [bell4095 2] ∧ d.get Obj.STOKER_STATE 1 = 2) := by unfold bellOf Dev.Serves; decide +kernel

/-- Group 4095 under a rule, of 64 elements, on a READY Stoker 1 with the group at the front of a doorbell of operation `op`, its HBM ranges
in stacks 0 and 1, which serve. -/
def groupDev (rule op : Nat) : Dev :=
  let p : Tab Pch := (List.range 64).map fun i => (i, Pch.active)
  let d := upWith [(Obj.STOKER_STATE, 1, 2), (Obj.CLOCK_STATE, 0, 2), (Obj.STACK_STATE, 0, 2), (Obj.STACK_STATE, 1, 2), (Obj.GROUP_CTL, 4095, 2 ^ 63 + rule * 2 ^ 60),
    (Obj.N_ELEMENTS, 4095, 64), (Obj.HIGH_PA, 4095, 256), (Obj.HDR_PA, 4095, 384)]
  ((d.setStack 0 { Stack.fresh with pch := p }).setStack 1 { Stack.fresh with pch := p }).modStoker 1 fun x =>
    { x with taken := some (bell4095 op, [4095]) }

/-- Vector code of group 4095, of two chunks: core 0 runs chunk 0, core 1 chunk 1 or none, and these are left. -/
def codeDev (left : List Nat) (both : Bool) : Dev := ((groupDev 3 1).put Obj.N_ELEMENTS 1100 4095).modStoker 1 fun x =>
  { x with code := some ⟨4095, 1, left, (0, some (0, [])) :: if both then [(1, some (1, []))] else [], 0, [], [[]]⟩ }

theorem test_witness_groups_served : ∀ d ∈ [groupDev 1 1, groupDev 3 1, groupDev 0 2, codeDev [] true, codeDev [1] false, codeDev [] false], d.GroupServed 4095 := by
  unfold Dev.GroupServed Dev.RangeServed Dev.NoWindow; decide +kernel

theorem test_witness_groups_clean : (groupDev 0 2).RangeClean ((groupDev 0 2).gcfg 4095).grad
    (((groupDev 0 2).gcfg 4095).gb * ((groupDev 0 2).gcfg 4095).n) := by
  have h : ∀ l < (((groupDev 0 2).gcfg 4095).grad + (((groupDev 0 2).gcfg 4095).gb * ((groupDev 0 2).gcfg 4095).n) + 63) / 64,
      (groupDev 0 2).verdict ((groupDev 0 2).decodePA (64 * l)).1 ((groupDev 0 2).decodePA (64 * l)).2 = .ash false := by decide +kernel
  intro l hl _; rw [h l hl]; trivial

theorem test_witness_groups : ((groupDev 1 1).nextGroup 1 1 = some (bell4095 1, 4095, []) ∧ 4095 / 2048 = 1 ∧
      ((groupDev 1 1).gcfg 4095).rule ≤ 1 ∧ 0 < ((groupDev 1 1).gcfg 4095).n) ∧
    ((groupDev 3 1).nextGroup 1 1 = some (bell4095 1, 4095, []) ∧ ((groupDev 3 1).gcfg 4095).rule = 3) ∧
    (groupDev 0 2).nextGroup 1 2 = some (bell4095 2, 4095, []) ∧ (groupDev 0 3).nextGroup 1 3 = some (bell4095 3, 4095, []) := by decide +kernel

theorem test_witness_chunks : ∀ x ∈ [(codeDev [] true, [], true), (codeDev [1] false, [1], false), (codeDev [] false, [], false)],
    let r : CodeRun := ⟨4095, 1, x.2.1, (0, some (0, [])) :: if x.2.2 then [(1, some (1, []))] else [], 0, [], [[]]⟩
    (x.1.stoker 1).code = some r ∧ r.coreOf 0 = some (0, []) ∧ (∀ m ∈ 0 :: r.left, 1024 * m < (x.1.gcfg r.group).n) ∧ 0 ∉ r.left ∧
    (r.left ≠ [] ∨ tset none r.cores (0 % 8) none ≠ [] ↔ x.2.2 = true ∨ x.2.1 = [1]) ∧ r.headers.length = (x.1.gcfg r.group).shards := by
  decide +kernel

theorem test_witness_group_ctl : let l := (groupDev 0 1).put Obj.STACK_POWER_CTL 1 0
    let l := l.put Obj.STACK_POWER_CTL 1 1
    let q := l.putBit Obj.GROUP_STATUS 3 true 4095
    let r := l.putBit Obj.GROUP_STATUS 4 true 4095
    q.groupIdle 4095 = false ∧ l.groupIdle 4095 = true ∧ bit 0 63 = false ∧ l.groupLegal (l.gcfgOf 4095 (2 ^ 63)) = true ∧
    l.groupClash (l.gcfgOf 4095 (2 ^ 63)) = none ∧ bit (2 ^ 63 + 4 * 2 ^ 60) 63 = true ∧ l.groupLegal (l.gcfgOf 4095 (2 ^ 63 + 4 * 2 ^ 60)) = false ∧
    ((l.put Obj.HIGH_PA 0 4095).groupClash ((l.put Obj.HIGH_PA 0 4095).gcfgOf 4095 (2 ^ 63))).isSome = true ∧
    (l.put Obj.HIGH_PA 0 4095).groupLegal ((l.put Obj.HIGH_PA 0 4095).gcfgOf 4095 (2 ^ 63)) = true ∧
    r.groupBit 4095 4 = true ∧ l.groupBit 4095 4 = false ∧ l.get Obj.STOKER_STATE 1 ≠ 0 ∧ l.get Obj.STOKER_STATE 1 ≠ 4 ∧
    l.HearthServes 1023 Obj.HEARTH_SR_SEED 0 ∧ l.Serves := by
  unfold Dev.HearthServes Dev.RegionServes Dev.Serves; decide +kernel

theorem test_witness_slow : 2 ^ 32 - 1 < 2 ^ 32 ∧ (stokerDev 2 id).WinsSlow 1 1023 [] ∧ ((stokerDev 2 id).stoker 1).waiting = [] ∧
    rotPick 3 (tget 0 (stokerDev 2 id).arb (arbStoker 1)) (slowPort 1023 :: [0]) = some 0 ∧ 0 ≠ slowPort 1023 ∧
    (stokerDev 2 id).get Obj.STOKER_STATE 1 = 2 ∧
    (∃ w < 8, bit ((stokerDev 2 id).slowLine 1 (2 ^ 32 - 1)).poison w = false ∧ (List.replicate 8 SramOutcome.uncorrectable).getD w .clean = .uncorrectable) ∧
    (stokerDev 0 id).get Obj.STOKER_STATE 1 = 0 ∧ (stokerDev 1 id).get Obj.STOKER_STATE 1 = 1 ∧ (stokerDev 3 id).get Obj.STOKER_STATE 1 = 3 ∧
    ((stokerDev 2 id).stoker 1).queue = [] ∧ ((stokerDev 2 id).stoker 1).taken = none ∧ (stokerDev 2 id).get Obj.SLEEP_IDLE 1 ≠ 0 ∧
    ((stokerDev 3 fun x => { x with waiting := [⟨7, true, [], true, 0, []⟩] }).stoker 1).waiting = [⟨7, true, [], true, 0, []⟩] ∧
    ((stokerDev 1 id).stoker 1).failedAt 0 < 3 ∧ (∃ l < 2, bit 2 l = true ∧ ((stokerDev 1 id).stoker 1).failedAt (l + 1) < 3) := by
  unfold Dev.WinsSlow
  exact ⟨by decide +kernel, by decide +kernel, by decide +kernel, by decide +kernel, by decide +kernel, by decide +kernel, ⟨7, by decide +kernel⟩,
    by decide +kernel, by decide +kernel, by decide +kernel, by decide +kernel, by decide +kernel, by decide +kernel, by decide +kernel,
    by decide +kernel, ⟨1, by decide +kernel⟩⟩


/-! ### The fabric and the host (O28 to O33) -/

/-- A key slot that holds a receiving key, as a test that evaluates. -/
theorem key_held_iff (o : Option Session) : (∃ k, o = some k ∧ k.rx.isSome = true) ↔ (o.any fun k => k.rx.isSome) = true := by
  cases o <;> simp

/-- Device 5 with port 15 UP under a session, member 7 routed through it; stack 30 serves; hearth 1023 is open to remote writes, hearth 5 is not. -/
def netDev (f : Port → Port) (l : List (ObjDef × Nat × Nat)) : Dev :=
  let d := upWith ([(Obj.DEVICE_ID_ACTIVE, 0, 2 ^ 31 + 5), (Obj.PORT_STATE, 15, 4), (Obj.STACK_STATE, 30, 2), (Obj.HEARTH_STATE, 1023, 2),
    (Obj.HEARTH_STATE, 5, 2), (Obj.CLOCK_STATE, 15, 2), (Obj.CLOCK_STATE, 0, 2),
    (Obj.REGION, 1023, 32767 * 2 ^ 34 + 2 ^ 31 + 2 ^ 24 + 2 ^ 23 + 63 * 2 ^ 17)] ++ l)
  let d := d.domWrite Obj.ROUTE_IN_GROUP 7 [15]
  let d := d.setStack 30 { Stack.fresh with pch := (List.range 64).map fun i => (i, Pch.active) }
  d.setPort 15 (f { Port.fresh with keySlots := [(0, some ⟨1, some 2, 0⟩)], txGood := 255, rxGood := 255 })

/-- The same with an answer awaited under tag 9. -/
def awaiting (a : Await) : Dev := (netDev id []).modNet fun n => { n with awaits := [(9, some a)] }

/-- A frame from device 7 to device 5. -/
def frame7 (ty vl addr lines : Nat) : Frame := { Frame.plain ty vl 5 7 addr lines 9 with payload := List.replicate (64 * (lines + 1)) 3 }

/-- Addresses: the last lines of hearth 1023's and hearth 5's scratchpads, of hearth 6's, and the last of HBM. -/
def scr1023 : Nat := 0x80000000000 + 2097152 * 1023 + 2097088
def scr5 : Nat := 0x80000000000 + 2097152 * 5
def scr6 : Nat := 0x80000000000 + 2097152 * 6
def hbmLast : Nat := 0x1FFFFFFFFC0

/-- The device with the clock of region 15 stopped, in service. -/
def netAsleep : Dev := netDev id [(Obj.CLOCK_STATE, 15, 0), (Obj.REGION_STATE, 15, 4)]

theorem test_witness_request_frames : let d := netDev id []
    d.NoSubscriber ∧ d.AnswersVia 7 0 15 ∧ d.AnswersVia 7 1 15 ∧
    (d.FrameFor 15 1 (frame7 1 0 scr1023 0) ∧ d.area scr1023 = .scr 1023 2097088 ∧ d.hearthOpen 1023 = true ∧ d.clockOn (1023 / 64) = true ∧
      d.remoteOk 1023 32767 32767 = true) ∧
    (d.FrameFor 15 1 (frame7 1 0 scr5 0) ∧ d.area scr5 = .scr 5 0 ∧ d.hearthOpen 5 = true ∧ d.clockOn (5 / 64) = true ∧ d.remoteOk 5 0 0 = false) ∧
    (d.FrameFor 15 1 (frame7 1 0 scr6 255) ∧ d.area scr6 = .scr 6 0 ∧ d.hearthOpen 6 = false) := by
  unfold Dev.FrameFor Dev.Delivers Dev.Takes Dev.NoSubscriber Dev.AnswersVia
  simp only [key_held_iff]
  decide +kernel

theorem test_witness_sleeping_frames : let z := netAsleep
    z.NoSubscriber ∧ z.AnswersVia 7 0 15 ∧ z.AnswersVia 7 1 15 ∧
    (z.FrameFor 15 1 (frame7 1 0 scr1023 0) ∧ z.area scr1023 = .scr 1023 2097088 ∧ z.hearthOpen 1023 = true ∧ z.clockOn (1023 / 64) = false) ∧
    (z.FrameFor 15 1 (frame7 1 0 hbmLast 0) ∧ z.area hbmLast = .hbm 30 (2 ^ 30 - 1) ∧ z.gate 30 (2 ^ 30 - 1) = .stopped) := by
  unfold Dev.FrameFor Dev.Delivers Dev.Takes Dev.NoSubscriber Dev.AnswersVia
  simp only [key_held_iff]
  decide +kernel

theorem test_witness_memory_frames : let d := netDev id []
    d.FrameFor 15 1 (frame7 1 0 hbmLast 0) ∧ d.area hbmLast = .hbm 30 (2 ^ 30 - 1) ∧ d.gate 30 (2 ^ 30 - 1) = .serve ∧ d.NoWindow 30 := by
  unfold Dev.FrameFor Dev.Delivers Dev.Takes Dev.NoWindow
  simp only [key_held_iff]
  decide +kernel

theorem test_witness_more_requests : let d := netDev id []
    (Dev.area d 0 = .hbm 0 0 ∧ d.gate 0 0 = .absent ∧ d.FrameFor 15 1 (frame7 1 0 0 0)) ∧
    (d.FrameFor 15 2 (frame7 2 0 scr1023 0) ∧ d.FrameFor 15 2 (frame7 2 0 scr1023 1) ∧ (frame7 2 0 scr1023 1).linesM1 ≠ 0) := by
  unfold Dev.FrameFor Dev.Delivers Dev.Takes
  simp only [key_held_iff]
  decide +kernel

theorem test_witness_adds_reads : let d := netDev id []
    (d.FrameFor 15 3 (frame7 3 1 hbmLast 0) ∧ (frame7 3 1 hbmLast 0).linesM1 = 0 ∧ d.FrameFor 15 3 (frame7 3 1 (0x20000000000 + 31 * 2 ^ 36) 0) ∧
      d.area (0x20000000000 + 31 * 2 ^ 36) = .aper 31 0 0 ∧ d.FrameFor 15 3 (frame7 3 1 scr1023 0)) ∧
    (d.FrameFor 15 4 (frame7 4 0 scr1023 0) ∧ d.heldRead 1023 2097088 64 = false ∧ d.FrameFor 15 4 (frame7 4 0 hbmLast 0) ∧
      d.FrameFor 15 4 (frame7 4 0 scr6 0)) := by
  unfold Dev.FrameFor Dev.Delivers Dev.Takes
  simp only [key_held_iff]
  decide +kernel

/-- A frame of VL 0 from device 7 that waits at port 15. -/
def held7 : RxFrame := ⟨frame7 1 0 scr1023 0, [], [], 0, 0, []⟩

theorem test_witness_frames_wait : let d := netDev (fun x => { x with rx := [held7], seqRx := 1 }) []
    ∀ x ∈ [(1, 0), (2, 0), (4, 0)], let f := { frame7 x.1 0 scr1023 0 with linkSeq := 1 }
      d.Takes 15 (frameOf x.1 f) ∧ Frame.laneOk (frameOf x.1 f) = true ∧ d.ownId = some f.dstId ∧
      ((d.port 15).rx.any fun r => r.frame.vl = f.vl) = true := by
  unfold Dev.Takes
  simp only [key_held_iff]
  decide +kernel

/-- Transfer of one line in place 31 of hearth 1023 that waits for its line under tag 9, in a direction. -/
def waitingLine (dir : Nat) : Dev :=
  let x : Transfer := { transferOf (oneLine dir false) 0 with waiting := [(0, scr6)], tag := some 9 }
  (awaiting (.xfer 1023 31)).modHearth 1023 fun h => { h with places := [(31, some x)] }

theorem test_witness_answers :
    ((netDev id []).FrameFor 15 5 (frame7 5 0 scr6 0) ∧ tget none (netDev id []).net.awaits 9 = none ∧
      (netDev id []).FrameFor 15 0xB (frame7 0xB 1 scr6 0)) ∧
    (let e := waitingLine 0
     e.FrameFor 15 5 (frame7 5 0 scr6 0) ∧ tget none e.net.awaits 9 = some (.xfer 1023 31) ∧
     (e.hearth 1023).place 31 = some { transferOf (oneLine 0 false) 0 with waiting := [(0, scr6)], tag := some 9 } ∧
     [(0, scr6)].find? (fun (w : Nat × Nat) => w.2 = scr6) = some (0, scr6) ∧ e.FrameFor 15 0xB (frame7 0xB 0 scr6 0)) ∧
    (let e := awaiting (.hostLoad 7 scr6 63 1 [])
     e.FrameFor 15 5 (frame7 5 0 scr6 0) ∧ inOdWindow scr6 = false ∧ tget none e.net.awaits 9 = some (.hostLoad 7 scr6 63 1 [])) ∧
    (let e := awaiting (.hostStore 7)
     e.FrameFor 15 0xB (frame7 0xB 0 scr6 0) ∧ e.host.held = [] ∧ tget none e.net.awaits 9 = some (.hostStore 7)) := by
  unfold Dev.FrameFor Dev.Delivers Dev.Takes
  simp only [key_held_iff]
  decide +kernel

/-- A notice for counter 63, and an arrival notice, at hearth 1023. -/
def noticeFrame (byCounter : Bool) : Frame := { frame7 6 0 scr1023 0 with ext := if byCounter then 2 ^ 63 + 63 * 2 ^ 57 else 0 }

/-- Two lines of a proxied slot write, stamp 0, to flue 7. -/
def flueFrame7 (last : Bool) (lines : Nat) : Frame := { frame7 7 0 0 0 with ext := 7 * 2 ^ 48 + (lines - 1) * 2 ^ 37, last := last }

/-- Flue 7 enabled with one slot of two lines; hearth 0 is open or not, its region's clock running or not. -/
def flueNet (isOpen : Bool) (clk : Nat) (x : Flue) : Dev :=
  ((netDev id [(Obj.FLUE_CFG, 7, ({ cfg7 with lines := 2 } : FlueCfg).word), (Obj.HEARTH_STATE, 0, if isOpen then 2 else 0),
    (Obj.REGION_STATE, 0, 3), (Obj.CLOCK_STATE, 0, clk)])).setFlue 7 x

/-- A slot write begun by device 7's first frame. -/
def begun7 : FArrival := ⟨7, 0, 0, some 0, false, 2, none, ({ cfg7 with lines := 2 } : FlueCfg).word⟩

/-- An OD_RESP: of the probe under tag 9, or an event notice. -/
def odRespFrame (isEvent : Bool) : Frame :=
  { frame7 9 2 0 0 with payload := leBytes 32 (9 * 2 ^ 192 + if isEvent then 6 * 2 ^ 248 else 0) ++ leBytes 32 0 }

theorem test_witness_notices : let d := netDev id []
    let e := awaiting (.probe 7)
    ((∀ b, d.FrameFor 15 6 (noticeFrame b)) ∧ d.area (noticeFrame true).addr = .scr 1023 2097088 ∧ d.hearthOpen 1023 = true ∧
      d.clockOn (1023 / 64) = true ∧ bit (noticeFrame true).ext 63 = true ∧ bit (noticeFrame false).ext 63 = false ∧
      d.regionAt 1023 (2097088 / 64) = some (32767 * 2 ^ 34 + 2 ^ 31 + 2 ^ 24 + 2 ^ 23 + 63 * 2 ^ 17) ∧
      bit (32767 * 2 ^ 34 + 2 ^ 31 + 2 ^ 24 + 2 ^ 23 + 63 * 2 ^ 17) 23 = true) ∧
    (netAsleep.FrameFor 15 6 (noticeFrame true) ∧ netAsleep.area (noticeFrame true).addr = .scr 1023 2097088 ∧
      netAsleep.hearthOpen 1023 = true ∧ netAsleep.clockOn (1023 / 64) = false) ∧
    (e.FrameFor 15 9 (odRespFrame false) ∧ bits (leNat ((odRespFrame false).payload.take 32)) 255 248 ≠ 6 ∧
      tget none e.net.awaits (bits (leNat ((odRespFrame false).payload.take 32)) 207 192) = some (.probe 7) ∧ (odRespFrame false).srcId % 512 = 7) ∧
    (d.FrameFor 15 9 (odRespFrame true) ∧ bits (leNat ((odRespFrame true).payload.take 32)) 255 248 = 6 ∧ d.pilot.restarting = false ∧
      d.eventOn Event.remote .global 0 = true ∧ d.events.ring.length < 4096) := by
  unfold Dev.FrameFor Dev.Delivers Dev.Takes
  simp only [key_held_iff]
  decide +kernel

theorem test_witness_slot_writes : let u := flueNet true 2 Flue.fresh
    let a := flueNet true 2 { Flue.fresh with arrivals := [begun7] }
    let n := flueNet false 2 Flue.fresh
    let z := flueNet true 0 Flue.fresh
    (n.FrameFor 15 7 (flueFrame7 true 2) ∧ n.hearthOpen (n.flueFrameHome (frameOf 7 (flueFrame7 true 2))) = false ∧
      n.WinsFlue 7 (whoPort 15) [] ∧ n.AnswersVia 7 0 15 ∧ (flueFrame7 true 2).last = true ∧ flueExt (flueFrame7 true 2) = (7, 2, 0)) ∧
    (a.FrameFor 15 7 (flueFrame7 false 2) ∧ a.flueBegun (frameOf 7 (flueFrame7 false 2)) = some begun7 ∧
      a.hearthOpen ((FlueCfg.ofWord begun7.cfg).home 7) = true ∧ a.clockOn ((FlueCfg.ofWord begun7.cfg).home 7 / 64) = true ∧
      begun7.buf = some 0 ∧ (flueFrame7 false 2).payload.length / 64 < begun7.left) ∧
    (z.FrameFor 15 7 (flueFrame7 false 2) ∧ z.hearthOpen (z.flueFrameHome (frameOf 7 (flueFrame7 false 2))) = true ∧
      z.clockOn (z.flueFrameHome (frameOf 7 (flueFrame7 false 2)) / 64) = false ∧ ¬ u.WinsFlue 7 (whoPort 15) [0]) ∧
    (u.FrameFor 15 7 (flueFrame7 false 2) ∧ u.hearthOpen (u.flueHome 7) = true ∧ u.clockOn (u.flueHome 7 / 64) = true ∧
      u.WinsFlue 7 (whoPort 15) [] ∧ (u.flueCfg 7).enable = true ∧ (u.flueCfg 7).proxy = false ∧ (u.flueCfg 7).lines = 2 ∧
      u.flueBegun (frameOf 7 (flueFrame7 false 2)) = none ∧
      ((u.flue 7).slot (fullStamp (u.flue 7).put 0 % (u.flueCfg 7).slots)).st = .empty ∧
      ((u.flue 7).slot (fullStamp (u.flue 7).put 0 % (u.flueCfg 7).slots)).pending = false ∧
      lapBit (fullStamp (u.flue 7).put 0) (u.flueCfg 7).slots ≠ ((u.flue 7).slot (fullStamp (u.flue 7).put 0 % (u.flueCfg 7).slots)).doneLap) := by
  unfold Dev.FrameFor Dev.Delivers Dev.Takes Dev.AnswersVia Dev.WinsFlue
  simp only [key_held_iff]
  decide +kernel

/-- A frame for device 7 from device 9, with this many HOPS. -/
def passing (hops : Nat) : Frame := { Frame.plain 6 0 7 9 0 0 0 with hops := Fin.ofNat 16 hops }

/-- A read request for device 7 from device 7's group, which is answered. -/
def passingRead (hops : Nat) : Frame := { Frame.plain 4 0 7 7 0 0 0 with hops := Fin.ofNat 16 hops }

theorem test_witness_forwarding : let d := netDev id []
    d.Takes 15 (frame7 12 0 0 0) ∧ Frame.laneOk (frame7 12 0 0 0) = false ∧
    (d.portUp 15 = true ∧ tget none (d.port 15).keySlots 0 = some ⟨1, some 2, 0⟩ ∧
      (d.port 15).held 0 + Frame.cost (frameOf 0xB (frame7 0xB 0 0 0)) ≤ vlCredits 0 ∧ (d.port 15).dueSeq 0 < 1 ∧
      0 < (netDev (fun x => { x with seqRx := 1 }) [] |>.port 15).dueSeq 0) ∧
    3 ≤ d.get Obj.PORT_STATE 15 ∧ (d.port 15).replayFrom = none ∧ (d.port 15).authTicks.length < 15 ∧
    (let e := netDev (fun x => { x with authTicks := List.replicate 15 0 }) []
     15 ≤ (e.port 15).authTicks.length ∧ ∀ x ∈ (e.port 15).authTicks, e.tick < x + 50000) ∧
    (∀ h ∈ [0, 15], d.Takes 15 (passing h) ∧ Frame.laneOk (passing h) = true ∧ (passing h).nbr = false) ∧ d.ownId = some 5 ∧ d.NoSubscriber ∧
    (passing 14).hops ≠ 15 ∧ d.AnswersVia 7 0 15 ∧ (passing 15).hops = 15 ∧ Frame.unanswered (passing 15) = true ∧
    (d.Takes 15 (passingRead 15) ∧ Frame.laneOk (passingRead 15) = true ∧ (passingRead 15).nbr = false ∧ Frame.unanswered (passingRead 15) = false ∧
      (passingRead 15).srcId ≠ 5 ∧ d.AnswersVia 7 (Frame.absentAnswer (passingRead 15)).vl.val 15) := by
  unfold Dev.Takes Dev.NoSubscriber Dev.AnswersVia
  simp only [key_held_iff]
  decide +kernel

theorem test_witness_sending : let d := (netDev id [(Obj.CREDIT_STALL_LIMIT, 0, 1)]).enqueueAt 15 (passing 0)
    let n := (netDev (fun x => { x with credits := [(0, 0)] }) [(Obj.CREDIT_STALL_LIMIT, 0, 1)]).enqueueAt 15 (passing 0)
    let r := netDev (fun x => { x with retry := [{ passing 0 with linkSeq := 4 }, { passing 0 with linkSeq := 5 }] }) []
    let sec := fun ty => (netDev id [(Obj.PORT_STATE, 15, 3)]).enqueueAt 15 { Frame.plain ty 3 0 5 0 0 0 with nbr := true }
    let x : Transfer := { transferOf (oneLine 0 false) 0 with waiting := [(0, scr6)], tag := some 9 }
    d.get Obj.PORT_STATE 15 = 4 ∧ (d.port 15).changing = false ∧ (tget none (d.port 15).keySlots (d.port 15).keyTx).isSome = true ∧
    d.nextFrame 15 = some (passing 0) ∧ d.net.newRoutes = [] ∧
    ((sec 10).get Obj.PORT_STATE 15 = 3 ∧ (sec 10).headOf 15 3 = some { Frame.plain 10 3 0 5 0 0 0 with nbr := true } ∧
      (sec 10).canSend 15 { Frame.plain 10 3 0 5 0 0 0 with nbr := true } = true ∧
      (sec 8).headOf 15 3 = some { Frame.plain 8 3 0 5 0 0 0 with nbr := true }) ∧
    (r.port 15).confirm 5 = [{ passing 0 with linkSeq := 5 }] ∧
    n.headOf 15 0 = some (passing 0) ∧ n.get Obj.CREDIT_STALL_LIMIT ≠ 0 ∧ n.creditsOf 15 0 < Frame.cost (passing 0) + n.reserve (passing 0) ∧
    d.headOf 15 0 = some (passing 0) ∧ Frame.cost (passing 0) + d.reserve (passing 0) ≤ d.creditsOf 15 0 ∧
    tget none (waitingLine 0).net.awaits 9 = some (.xfer 1023 31) ∧ ((waitingLine 0).hearth 1023).place 31 = some x ∧
    x.waiting = [(0, scr6)] ∧ x.tag = some 9 ∧ x.d.dir = 0 ∧
    tget none (awaiting (.hostLoad 7 scr6 63 1 [])).net.awaits 9 = some (.hostLoad 7 scr6 63 1 []) ∧ tget none d.net.awaits 9 = none := by
  decide +kernel

/-- Port 15 in a state, its exchange at this point; the neighbour is device 7 of the same group. -/
def secDev (st : Nat) (offer : Option Offer) (eph : Option Nat) (rekey : Bool) : Dev :=
  netDev (fun x => { x with offer := offer, ephemeral := eph, rekeying := rekey }) [(Obj.PORT_STATE, 15, st), (Obj.PORT_ROLE, 15, 0)]

theorem test_witness_sessions : let o : Offer := ⟨1, 7, List.replicate 16 1⟩
    let far : Offer := ⟨1, 512, List.replicate 16 1⟩
    (secDev 3 (some o) (some 8) false).get Obj.PORT_STATE 15 = 3 ∧ ((secDev 3 (some o) (some 8) false).port 15).offer = some o ∧
    ((secDev 3 (some o) (some 8) false).port 15).ephemeral = some 8 ∧ (secDev 3 (some o) none false).breaksRole 15 o.devId = false ∧
    (secDev 3 (some far) none false).breaksRole 15 far.devId = true ∧
    (secDev 4 (some o) (some 8) true).portUp 15 = true ∧ ((secDev 4 (some o) (some 8) true).port 15).rekeying = true ∧
    ((secDev 4 none none false).port 15).rekeying = false ∧ (secDev 4 none none false).portUp 15 = true ∧
    (let d := netDev (fun x => { x with keySlots := [(0, some ⟨1, some 2, 0⟩), (1, some ⟨3, some 4, 0⟩)] }) []
     (tget none (d.port 15).keySlots 1).isSome = true ∧ 1 ≠ (d.port 15).keyTx) := by decide +kernel

theorem test_witness_ports : let d := fun st f => netDev f [(Obj.PORT_STATE, 15, st), (Obj.PORT_CTL, 15, 1), (Obj.LANE_IDLE, 15, 1)]
    (d 2 id).get Obj.PORT_CTL 15 ≠ 0 ∧ (d 2 id).get Obj.PORT_STATE 15 = 2 ∧ (d 1 id).get Obj.PORT_STATE 15 = 1 ∧
    (laneAt false 16 = (true, 0) ∧ laneAt true 1 = (true, 0)) ∧ (d 1 id).portUp 15 = false ∧ (d 4 id).portUp 15 = true ∧
    (d 2 id).get Obj.PORT_STATE 15 < 3 ∧ (d 6 id).get Obj.PORT_STATE 15 = 6 ∧
    (let x := (d 4 fun x => { x with txGood := 128 }).port 15
     (x.setLane false 7 false).txWidth = 0) ∧
    (let x := (d 4 id).port 15
     (x.setLane true 7 false).txWidth ≠ 0 ∧ (x.setLane true 7 false).rxWidth ≠ 0 ∧ (x.setLane true 7 false).rxWidth < x.rxWidth) ∧
    ((d 4 fun x => { x with changing := true, retry := [passing 0] }).port 15).changing = true ∧
    (d 4 id).get Obj.LANE_IDLE 15 ≠ 0 ∧ ((d 4 id).port 15).retry = [] ∧ (∀ q ∈ (d 4 id).net.queue, q.1 ≠ 15) ∧
    (d 5 id).get Obj.PORT_STATE 15 = 5 ∧ (d 0 id).Serves ∧ (d 0 id).get Obj.PORT_STATE 15 = 0 := by
  unfold Dev.Serves; decide +kernel

/-- The bridge with its link up; window 63 leads to its own HBM at the top GiB. -/
def hostDev : Dev := (netDev id [(Obj.HOST_LINK_STATE, 0, 2)]).put Obj.HOST_WINDOW (5 * 2 ^ 44 + 2047 * 2 ^ 30 + 1) 0 63

/-- The last line of window 63. -/
def lastOff : Nat := 63 * 2 ^ 30 + (2 ^ 30 - 64)

theorem test_witness_routes_host : let d := hostDev
    let q : Dev := { d with host := { d.host with waits := [⟨hbmLast, none, 8, 0, some [], []⟩] } }
    (d.PilotServes ∧ 511 + 1 ≤ 512 ∧ (∀ b ∈ [(0xFF : Byte)], b = 0xFF ∨ b.toNat < 16 ∧ d.get Obj.PORT_ROLE b.toNat ≠ 1) ∧
      (0x10 : Byte) ≠ 0xFF ∧ 16 ≤ (0x10 : Byte).toNat ∧ 512 < 512 + 1 ∧ 4095 + 1 ≤ 4096 ∧ 4096 < 4096 + 1) ∧
    ((awaiting (.probe 7)).net.awaits.find? (fun e => e.2 = some (.probe 7)) = some (9, some (.probe 7))) ∧
    d.hostUp = true ∧ d.window 0 = none ∧ d.window lastOff = some (d.selfId, hbmLast) ∧ d.windowRefused hbmLast = false ∧
    d.area (hbmLast / 64 * 64) = .hbm 30 (2 ^ 30 - 1) ∧ d.host.waits = [] ∧ d.gate 30 (2 ^ 30 - 1) = .serve ∧ d.NoWindow 30 ∧
    q.host.waits ≠ [] ∧ q.window lastOff = some (d.selfId, hbmLast) ∧
    tget none (awaiting (.hostLoad 7 scr6 63 1 [])).net.awaits 9 = some (.hostLoad 7 scr6 63 1 []) ∧
    (netDev id [(Obj.HOST_LINK_STATE, 0, 1)]).get Obj.HOST_LINK_STATE = 1 ∧ d.get Obj.HOST_LINK_STATE = 2 ∧
    (netDev id []).get Obj.HOST_LINK_STATE = 0 := by
  unfold Dev.PilotServes Dev.Serves Dev.NoWindow; decide +kernel

theorem test_witness_bar : let d := hostDev
    let b := d.put Obj.BOOT_STATE 4
    let z := (d.put Obj.CLOCK_STATE 0 15).put Obj.REGION_STATE 4 15
    let hl := Obj.REPLAY_BUDGET.key 1023 0
    (d.NoSubscriber ∧ b.NoSubscriber ∧ b.hostUp = true ∧ b.serves .host = false) ∧
    (d.serves .host = true ∧ d.pilotAway .host 0x1000 = false ∧ d.mustWait (d.needs 0x1000 4 false) (.bar (8 * (0x1000 * 256 + 4)) 8 none 0 []) = false ∧
      ((on d).readTarget (d.target 0x1000 4) 0 0).2.1 = 0) ∧
    (d.mustWait (d.needs 0xFFFFF 1 false) (.bar (8 * (0xFFFFF * 256 + 1)) 8 none 0 []) = false ∧
      ((on d).readTarget (d.target 0xFFFFF 1) 0 0).2.1 ≠ 0) ∧
    (z.serves .host = true ∧ z.mustWait (z.needs (hl / 256) (hl % 256) false) (.bar (8 * hl) 8 none 0 []) = true ∧
      z.mustWait (z.needs (hl / 256) (hl % 256) true) (.bar (8 * hl) 8 (some (List.replicate 8 0)) 0 []) = true ∧
      (on z).refused .host (hl / 256) (hl % 256) = 0) ∧
    ((d.target 0x1000 4).mmRefused 0 8 = 0 ∧ (on d).refused .host 0x1000 4 = 0 ∧
      d.mustWait (d.needs 0x1000 4 true) (.bar (8 * (0x1000 * 256 + 4)) 8 (some (leBytes 8 1000)) 0 []) = false ∧
      ((on d).setScalar whoBridge 0x1000 4 1000).2 = 0) ∧
    ((d.target 0x1001 1).mmRefused 0 8 = 0 ∧ (on d).refused .host 0x1001 1 ≠ 0) ∧
    (let m : Dev := { d with host := { d.host with pba := [63], table := [(1020, 1)] } }
     63 ∈ m.host.pba ∧ m.host.masked 63 = true) := by
  unfold Dev.NoSubscriber; decide +kernel

/-! ### The object dictionary, the store and the module (O34 to O48) -/

/-- A message of operation `op` on an object by its key, with an offset, LENGTH and data. -/
def msgOf (op key off len : Nat) (data : List Byte) : List Byte :=
  0x7F :: (upWith []).penBytes ++ odHeader op 0 (key / 256) (key % 256) 1 off len ++ data

/-- A command that a message brings. -/
def cmdOf (op key off len : Nat) (data : List Byte) : Carrier := .mctp (msgOf op key off len data)

/-- An OD_REQ frame of device 7 with the same; it fills its lines with zeros. -/
def reqOf (op key off len : Nat) (data : List Byte) : Carrier :=
  let body := odHeader op 0 (key / 256) (key % 256) 1 off len ++ data
  let n := (body.length + 63) / 64
  .frame 15 { Frame.plain 8 2 5 7 0 (n - 1) 0 with payload := body ++ List.replicate (64 * n - body.length) 0, last := true }

theorem brings_message {s : State} {op : Nat} {msg : List Byte}
    (h : (decide (bits (Carrier.header (.mctp msg)) 255 248 = op) && s.dev.takesMessage msg) = true) :
    s.Brings op (.mctp msg) .i3c (Carrier.header (.mctp msg)) (Carrier.data (.mctp msg)) := by
  simp only [Bool.and_eq_true, decide_eq_true_eq] at h
  exact ⟨rfl, rfl, fun _ => h.1, rfl, h.2⟩

theorem brings_frame {s : State} {op : Nat} {p : Fin 16} {f : Frame} (q : Nat)
    (h : (decide (bits (Carrier.header (.frame p f)) 255 248 = op) && s.dev.portUp p.val &&
      (tget none (s.dev.port p.val).keySlots (frameOf 8 f).keyIdx.val).any (fun k => k.rx.isSome) &&
      decide ((frameOf 8 f).linkSeq = (s.dev.port p.val).dueSeq (frameOf 8 f).keyIdx.val) &&
      decide ((s.dev.port p.val).held (frameOf 8 f).vl.val + Frame.cost (frameOf 8 f) ≤ vlCredits (frameOf 8 f).vl.val) &&
      Frame.laneOk (frameOf 8 f) && decide (s.dev.ownId = some f.dstId)) = true) (hq : s.dev.AnswersVia f.srcId 2 q) :
    s.Brings op (.frame p f) (.fabric p f.srcId) (Carrier.header (.frame p f)) (Carrier.data (.frame p f)) := by
  simp only [Bool.and_eq_true, decide_eq_true_eq] at h
  obtain ⟨⟨⟨⟨⟨⟨h1, h2⟩, h3⟩, h4⟩, h5⟩, h6⟩, h7⟩ := h
  exact ⟨rfl, rfl, fun _ => h1, rfl, ⟨h2, (key_held_iff _).2 h3, h4, h5⟩, h6, h7, q, hq⟩

theorem test_witness_object_writes : let d := netDev id []
    let z := netAsleep
    Dev.fresh.serves .host = false ∧ d.serves .host = true ∧ d.pilotAway .host 0xFFFFF = false ∧ d.target 0xFFFFF 1 = .absent ∧
    d.target 0x1000 0 = .highest 8 ∧ ({ d with pilot := { d.pilot with restarting := true } }).pilotAway .host 0x1000 = true ∧
    (∀ x ∈ [(Obj.FW_STAGE, 0, 0), (Obj.DEVICE_ID, 0, 0), (Obj.REPLAY_BUDGET, 1023, 0), (Obj.DP_GO, 0, 0), (Obj.SIDEBAND_FAULTS, 0, 0),
        (Obj.BOOT_STATE, 0, 0)], d.Reaches .host (x.1.key x.2.1 x.2.2 / 256) (x.1.key x.2.1 x.2.2 % 256) x.1 x.2.1 x.2.2) ∧
    Obj.FW_STAGE.typ.isBlock = true ∧ d.writeRefused Obj.BOOT_STATE 0 0 ≠ 0 ∧
    (∀ x ∈ [(Obj.DEVICE_ID, 0, 0), (Obj.REPLAY_BUDGET, 1023, 0), (Obj.DP_GO, 0, 0), (Obj.SIDEBAND_FAULTS, 0, 0)],
      x.1.typ.isBlock = false ∧ d.writeRefused x.1 x.2.1 x.2.2 = 0 ∧
      d.WritesNow .host (x.1.key x.2.1 x.2.2 / 256) (x.1.key x.2.1 x.2.2 % 256)) ∧
    Obj.DP_GO.forbids 3 = true ∧ (∀ o ∈ [Obj.DEVICE_ID, Obj.REPLAY_BUDGET, Obj.SIDEBAND_FAULTS], o.forbids 1 = false ∧ o ∉ ruledObjs) ∧
    Obj.SIDEBAND_FAULTS.right = .rw1c ∧ Obj.DEVICE_ID.attrP = true ∧
    (let k := Obj.REPLAY_BUDGET.key 1023 0
     z.Reaches .host (k / 256) (k % 256) Obj.REPLAY_BUDGET 1023 0 ∧ z.writeRefused Obj.REPLAY_BUDGET 1023 0 = 0 ∧
     z.mustWait (z.needs (k / 256) (k % 256) true) (.object .host (k / 256) (k % 256) 1) = true) := by
  unfold Dev.Reaches Dev.WritesNow; decide +kernel

theorem test_witness_commands_brought : let s := on (netDev id [])
    let k := Obj.DEVICE_ID.key 0 0
    (∃ hdr bs, s.Brings 2 (cmdOf 2 k 0 4 (leBytes 4 6)) .i3c hdr bs ∧ bits hdr 239 220 = k / 256 ∧ bits hdr 219 212 = k % 256) ∧
    (∃ hdr bs, s.Brings 2 (reqOf 2 k 0 4 (leBytes 4 6)) (.fabric 15 7) hdr bs ∧ bits hdr 239 220 = k / 256 ∧ bits hdr 219 212 = k % 256) := by
  exact ⟨⟨_, _, brings_message (by decide +kernel), by decide +kernel⟩, ⟨_, _, brings_frame 15 (by decide +kernel) (by unfold Dev.AnswersVia; decide +kernel), by decide +kernel⟩⟩

theorem test_witness_command_refusals : let s := on (netDev id [])
    let k := Obj.DEVICE_ID.key 0 0
    (∃ hdr bs, (on Dev.fresh).Brings 2 (cmdOf 2 k 0 4 (leBytes 4 6)) .i3c hdr bs) ∧ Dev.fresh.serves .i3c = false ∧
    (∃ hdr bs, s.Brings 2 (cmdOf 2 k 0 3 (leBytes 4 6)) .i3c hdr bs ∧ malformed hdr (Carrier.fits (cmdOf 2 k 0 3 (leBytes 4 6))) = true) ∧
    s.dev.serves .i3c = true ∧ ({ s.dev with pilot := { s.dev.pilot with restarting := true } }).pilotAway .i3c (k / 256) = true ∧
    (∀ x ∈ [(0xFFFFF * 256 + 1, 4), (0x1000 * 256, 4), (k, 4), (k, 5), (Obj.BOOT_STATE.key 0 0, Obj.BOOT_STATE.typ.bytes), (Obj.FW_STAGE.key 0 0, 0),
        (Obj.FW_STAGE.key 0 0, 1), (Obj.VENDOR_NAME.key 0 0, 257), (Obj.HOB_TABLE_1.key 30 0, 16)],
      s.Accepts (cmdOf 2 x.1 0 x.2 (List.replicate x.2 0)) .i3c (x.1 / 256) ∧ s.dev.CmdNow .i3c (Carrier.header (cmdOf 2 x.1 0 x.2 (List.replicate x.2 0))) (List.replicate x.2 0) true) ∧
    s.dev.writeRefused Obj.DEVICE_ID 0 0 = 0 ∧ s.dev.writeRefused Obj.BOOT_STATE 0 0 ≠ 0 ∧ s.dev.writeRefused Obj.FW_STAGE 0 0 = 0 ∧
    s.dev.writeRefused Obj.VENDOR_NAME 0 0 ≠ 0 ∧ Obj.VENDOR_NAME.typ = .string ∧ Obj.FW_STAGE.size < 131072 + 1 ∧ 131071 + 1 ≤ Obj.FW_STAGE.size ∧
    s.dev.target (Obj.HOB_TABLE_1.key 30 0 / 256) (Obj.HOB_TABLE_1.key 30 0 % 256) = .elem Obj.HOB_TABLE_1 30 0 ∧
    s.dev.writeRefused Obj.HOB_TABLE_1 30 0 = 0 ∧ Obj.DP_GO.forbids (leNat [3]) = true := by
  refine ⟨⟨_, _, brings_message (by decide +kernel)⟩, by decide +kernel, ⟨_, _, brings_message (by decide +kernel), by decide +kernel⟩, ?_⟩
  unfold State.Accepts Dev.CmdNow; decide +kernel

theorem test_witness_command_waits : let z := netAsleep
    let k := Obj.REPLAY_BUDGET.key 1023 0
    let c := cmdOf 2 k 0 Obj.REPLAY_BUDGET.typ.bytes (leBytes Obj.REPLAY_BUDGET.typ.bytes 1)
    (∃ hdr bs, (on z).Brings 2 c .i3c hdr bs ∧ ¬ z.CmdNow .i3c hdr bs true) ∧ (on z).Accepts c .i3c (k / 256) ∧
    z.writeRefused Obj.REPLAY_BUDGET 1023 0 = 0 := by
  refine ⟨⟨_, _, brings_message (by decide +kernel), by unfold Dev.CmdNow; decide +kernel⟩, ?_⟩
  unfold State.Accepts; decide +kernel

/-- LENGTH of a READ is what it wants, a DESCRIBE brings nothing. -/
def lenOf (op : Nat) : Nat := if op = 1 then 4096 else 0

theorem test_witness_commands_read : let s := on (netDev id [])
    (∀ x ∈ [(1, 0xFFFFF * 256 + 1), (1, 0x1000 * 256), (1, Obj.PHASE_DOORBELL.key 0 0), (1, Obj.FW_STAGE.key 0 0), (1, Obj.DEVICE_ID.key 0 0),
        (3, 0x1000 * 256), (3, 0xFFFFF * 256 + 1), (3, Obj.POWER_CAP_W.key 0 0), (3, Obj.FW_STAGE.key 0 0)],
      (∃ hdr bs, s.Brings x.1 (cmdOf x.1 x.2 131071 (lenOf x.1) []) .i3c hdr bs ∧ bits hdr 191 160 = 131071 ∧ bits hdr 159 144 = lenOf x.1) ∧
      s.Accepts (cmdOf x.1 x.2 131071 (lenOf x.1) []) .i3c (x.2 / 256) ∧
      s.dev.CmdNow .i3c (Carrier.header (cmdOf x.1 x.2 131071 (lenOf x.1) [])) [] false ∧
      s.dev.mustWait [] (.cmd .i3c (Carrier.header (cmdOf x.1 x.2 131071 (lenOf x.1) [])) []) = false) ∧
    (∃ hdr bs, (on Dev.fresh).Brings 1 (cmdOf 1 256 0 4 []) .i3c hdr bs) ∧ Dev.fresh.serves .i3c = false ∧
    (∃ hdr bs, s.Brings 3 (cmdOf 3 256 0 4097 []) .i3c hdr bs ∧ malformed hdr (Carrier.fits (cmdOf 3 256 0 4097 [])) = true) ∧
    (∃ hdr bs, s.Brings 1 (reqOf 1 256 0 4 []) (.fabric 15 7) hdr bs) ∧ s.Accepts (reqOf 1 256 0 4 []) (.fabric 15 7) 1 := by
  refine ⟨?_, ⟨_, _, brings_message (by decide +kernel)⟩, by decide +kernel, ⟨_, _, brings_message (by decide +kernel), by decide +kernel⟩,
    ⟨_, _, brings_frame 15 (by decide +kernel) (by unfold Dev.AnswersVia; decide +kernel)⟩, by unfold State.Accepts; decide +kernel⟩
  intro x hx
  have h : (decide (bits (Carrier.header (cmdOf x.1 x.2 131071 (lenOf x.1) [])) 255 248 = x.1) &&
      (netDev id []).takesMessage (msgOf x.1 x.2 131071 (lenOf x.1) [])) = true ∧
      bits (Carrier.header (cmdOf x.1 x.2 131071 (lenOf x.1) [])) 191 160 = 131071 ∧
      bits (Carrier.header (cmdOf x.1 x.2 131071 (lenOf x.1) [])) 159 144 = lenOf x.1 := by revert x; decide +kernel
  refine ⟨⟨_, _, brings_message h.1, h.2⟩, ?_⟩
  unfold State.Accepts Dev.CmdNow; revert x; decide +kernel

theorem test_witness_reads : let s := on (netDev id [])
    let z := on netAsleep
    let k := Obj.REPLAY_BUDGET.key 1023 0
    s.dev.target 0xFFFFF 1 = .absent ∧ s.dev.target 0x1000 0 = .highest 8 ∧ highestSub 0x1000 = some 8 ∧ Obj.PHASE_DOORBELL.right = .wo ∧
    (∀ x ∈ [(Obj.FW_STAGE, 0, 0), (Obj.DEVICE_ID, 0, 0), (Obj.PHASE_DOORBELL, 0, 0), (Obj.POWER_CAP_W, 0, 0)],
      s.dev.target (x.1.key x.2.1 x.2.2 / 256) (x.1.key x.2.1 x.2.2 % 256) = .elem x.1 x.2.1 x.2.2) ∧
    Obj.FW_STAGE.right ≠ .wo ∧ Obj.FW_STAGE.typ.isBlock = true ∧ Obj.DEVICE_ID.right ≠ .wo ∧ s.vault.valueOf Obj.DEVICE_ID 0 = none ∧
    z.Accepts (cmdOf 1 k 0 4 []) .i3c (k / 256) ∧ (∃ hdr bs, z.Brings 1 (cmdOf 1 k 0 4 []) .i3c hdr bs) ∧
    ¬ z.dev.CmdNow .i3c (Carrier.header (cmdOf 1 k 0 4 [])) [] false ∧
    s.dev.pilot.restarting = false ∧ s.dev.mustWait [] (.cmd .i3c (leNat (odHeader 1 0 0x5000 2 0 0 0)) []) = false ∧ s.dev.PilotServes ∧
    s.dev.ownId ≠ none ∧ s.dev.AnswersVia 7 2 15 := by
  have h : ∃ hdr bs, (on netAsleep).Brings 1 (cmdOf 1 (Obj.REPLAY_BUDGET.key 1023 0) 0 4 []) .i3c hdr bs := ⟨_, _, brings_message (by decide +kernel)⟩
  simp only [h, true_and]
  unfold State.Accepts Dev.CmdNow Dev.PilotServes Dev.Serves Dev.AnswersVia; decide +kernel

theorem test_witness_domain_port : let d := netDev id [(Obj.DP_LENGTH, 0, 256), (Obj.DP_TARGET, 0, Obj.FW_STAGE.key 0 0)]
    let r := netDev id [(Obj.DP_LENGTH, 0, 1), (Obj.DP_OFFSET, 0, 131071), (Obj.DP_TARGET, 0, Obj.FW_STAGE.key 0 0)]
    let b := netDev id [(Obj.DP_LENGTH, 0, 2), (Obj.DP_OFFSET, 0, 131071), (Obj.DP_TARGET, 0, Obj.FW_STAGE.key 0 0)]
    let n := netDev id [(Obj.DP_LENGTH, 0, 1), (Obj.DP_TARGET, 0, Obj.PENDING_MEASUREMENT.key 0 0)]
    let a := netDev id [(Obj.DP_LENGTH, 0, 1), (Obj.DP_TARGET, 0, 0xFFFFF01)]
    let v := netDev id [(Obj.DP_LENGTH, 0, 1), (Obj.DP_TARGET, 0, Obj.POWER_CAP_W.key 0 0)]
    d.PilotServes ∧ (netDev id [(Obj.DP_LENGTH, 0, 257)]).get Obj.DP_LENGTH = 257 ∧ (netDev id []).get Obj.DP_LENGTH = 0 ∧
    (a.get Obj.DP_LENGTH = 1 ∧ a.target (bits (a.get Obj.DP_TARGET) 27 8) (bits (a.get Obj.DP_TARGET) 7 0) = .absent) ∧
    (v.target (bits (v.get Obj.DP_TARGET) 27 8) (bits (v.get Obj.DP_TARGET) 7 0) = .elem Obj.POWER_CAP_W 0 0 ∧ Obj.POWER_CAP_W.typ.isBlock = false) ∧
    (d.target (bits (d.get Obj.DP_TARGET) 27 8) (bits (d.get Obj.DP_TARGET) 7 0) = .elem Obj.FW_STAGE 0 0 ∧ d.writeRefused Obj.FW_STAGE 0 0 = 0 ∧
      d.get Obj.DP_LENGTH = 256 ∧ r.get Obj.DP_OFFSET + r.get Obj.DP_LENGTH = Obj.FW_STAGE.size ∧
      Obj.FW_STAGE.size < b.get Obj.DP_OFFSET + b.get Obj.DP_LENGTH ∧ Obj.FW_STAGE.typ = .domain) ∧
    (n.target (bits (n.get Obj.DP_TARGET) 27 8) (bits (n.get Obj.DP_TARGET) 7 0) = .elem Obj.PENDING_MEASUREMENT 0 0 ∧
      n.writeRefused Obj.PENDING_MEASUREMENT 0 0 ≠ 0 ∧ Obj.PENDING_MEASUREMENT.typ.isBlock = true) := by
  unfold Dev.PilotServes Dev.Serves; decide +kernel

/-- One record in the ring, with number 0. -/
def oneEvent : Dev :=
  { upWith [(Obj.EVENT_NEXT_SEQ, 0, 1), (Obj.IBI_ENABLE, 0, 1)] with
    events := { Dev.fresh.events with ring := [⟨1, 0, none, 0, 0, 0, 0⟩] }, i3c := { Dev.fresh.i3c with ibi := true } }

theorem test_witness_events_saves : let d := oneEvent
    let m := fun v => upWith [(Obj.STORE_MIRROR_STATE, 0, v)]
    (∀ x ∈ [0, 1], (∃ hdr bs, (on d).Brings 4 (cmdOf 4 0 x 31 []) .i3c hdr bs ∧ bits hdr 191 160 = x) ∧ (on d).Accepts (cmdOf 4 0 x 31 []) .i3c 0 ∧
      d.mustWait [] (.cmd .i3c (Carrier.header (cmdOf 4 0 x 31 [])) []) = false) ∧
    (∃ hdr bs, (on d).Brings 4 (cmdOf 4 0 0 4097 []) .i3c hdr bs ∧ malformed hdr (Carrier.fits (cmdOf 4 0 0 4097 [])) = true) ∧
    d.serves .i3c = true ∧ d.notYet 1 = true ∧ d.notYet 0 = false ∧ (d.recordsFrom 0).drop (31 / 32) ≠ [] ∧
    d.Serves ∧ d.pilot.restarting = false ∧ d.eventOn Event.remote .global 0 = true ∧ d.events.ring.length < 4096 ∧ d.NoSubscriber ∧ d.PilotServes ∧
    d.events.ring.find? (fun r => r.seq = 0) = some ⟨1, 0, none, 0, 0, 0, 0⟩ ∧
    (let e := { oneEvent with events := { Dev.fresh.events with ring := [] } }
     e.notYet 0 = false ∧ e.events.ring.find? (fun r => r.seq = 0) = none ∧ e.PilotServes) ∧
    ((m 3).mirrorUp 0 = true ∧ (m 2).mirrorUp 0 = false ∧ (m 2).mirrorUp 1 = true ∧ (m 2).PilotServes) := by
  refine ⟨?_, ⟨_, _, brings_message (by decide +kernel), by decide +kernel⟩, by unfold Dev.Serves Dev.NoSubscriber Dev.PilotServes Dev.Serves; decide +kernel⟩
  intro x hx
  have h : (decide (bits (Carrier.header (cmdOf 4 0 x 31 [])) 255 248 = 4) && oneEvent.takesMessage (msgOf 4 0 x 31 [])) = true ∧
      bits (Carrier.header (cmdOf 4 0 x 31 [])) 191 160 = x := by revert x; decide +kernel
  refine ⟨⟨_, _, brings_message h.1, h.2⟩, ?_⟩
  unfold State.Accepts; revert x; decide +kernel

/-- The store with one operation queued or running, and a capacity. -/
def storeDev (cap : Nat) (q : List StoreOp) (run : Option StoreOp) : Dev :=
  { upWith [(Obj.HOLDUP_CAPACITY_MJ, 0, cap), (Obj.STORE_MIRROR_STATE, 0, 3)] with store := { Dev.fresh.store with queue := q, running := run } }

theorem test_witness_store_start : let o : StoreOp := ⟨.bootCount 1, 0, false⟩
    let e : StoreOp := ⟨.slotErase 1 31, 1, true⟩
    let d := storeDev 14 [o] none
    let x := storeDev 8999 [e] none
    d.storeReady = true ∧ d.nextStore = some o ∧ d.get Obj.HOLDUP_CAPACITY_MJ ≠ 0 ∧ o.job.charge ≤ 10 * d.get Obj.HOLDUP_CAPACITY_MJ ∧
    10 * 13 < o.job.charge ∧ o.job.charge ≤ 10 * 14 ∧ x.storeReady = true ∧ x.nextDeferred = some e ∧ x.nextStore = none ∧ d.nextDeferred = none ∧
    10 * x.get Obj.HOLDUP_CAPACITY_MJ < e.job.charge ∧ (storeDev 0 [o] none).get Obj.HOLDUP_CAPACITY_MJ = 0 ∧
    (storeDev 0 [] (some o)).storeReady = false ∧ d.store.running = none := by decide +kernel

theorem test_witness_store_done : let r := fun (j : StoreJob) m => storeDev 0 [] (some ⟨j, m, false⟩)
    let bank := fun back => { r (.bootCount 1) 0 with power := { Dev.fresh.power with onBank := true, inputBack := back } }
    (∀ j ∈ [StoreJob.defect 1, .bootCount 1, .secVersion 1, .slotSelect 1, .slotProgram 1 2097151 [1]],
      (r j 0).store.running = some ⟨j, 0, false⟩ ∧ (r j 0).power.onBank = false ∧ j.item ≠ none) ∧
    (r (.slotErase 1 31) 1).store.running = some ⟨.slotErase 1 31, 1, false⟩ ∧
    (r (.persistErase 0 0) 0).store.running = some ⟨.persistErase 0 0, 0, false⟩ ∧ 0 = (r (.persistErase 0 0) 0).store.saveSeq ∧
    (r (.persist 0 0) 1).store.running = some ⟨.persist 0 0, 1, false⟩ ∧ (decide (1 = 0) && (r (.persist 0 0) 1).mirrorUp 1) = false ∧
    (r (.persist 0 5) 1).store.running = some ⟨.persist 0 5, 1, false⟩ ∧ 5 ≠ (r (.persist 0 5) 1).store.saveSeq ∧
    (r (.repair 4 1) 1).store.running = some ⟨.repair 4 1, 1, false⟩ ∧
    (∀ b, (bank b).store.running = some ⟨.bootCount 1, 0, false⟩ ∧ (bank b).power.onBank = true ∧ (bank b).power.inputBack = b) := by decide +kernel

/-- The management core restarting, with this many restarts remembered and one record held. -/
def restartDev (n lost : Nat) : Dev :=
  { upWith [] with pilot := { Dev.fresh.pilot with restarting := true, restarts := List.replicate n 0, held := [⟨1, 0, none, 0, 0, 0, 0⟩], lost := lost } }

theorem test_witness_core : let d := restartDev 3 1
    (upWith []).Serves ∧ (upWith []).pilot.restarting = false ∧ ¬ d.PilotServes ∧
    (upWith []).get Obj.BOOT_STATE = 2 ∧ Dev.fresh.get Obj.BOOT_STATE < 2 ∧ d.get Obj.PILOT_STATE ≠ 2 ∧
    0 = (on d).vault.verify (d.get Obj.FW_KEY_REVOKED) (d.get Obj.FW_ACTIVE_SLOT) true true true ∧
    (on d).vault.verify (d.get Obj.FW_KEY_REVOKED) (d.get Obj.FW_ACTIVE_SLOT) false false false ≠ 0 ∧ d.pilot.restarting = true ∧ d.NoSubscriber ∧
    d.events.ring.length + d.pilot.held.length + 2 ≤ 4096 ∧ 0 < d.pilot.lost ∧ (upWith []).PilotServes ∧ (upWith []).i3c.addr = none ∧
    (let e : Dev := { upWith [] with i3c := { Dev.fresh.i3c with addr := some 127 } }
     e.i3c.addr ≠ none) := by unfold Dev.PilotServes Dev.Serves Dev.NoSubscriber; decide +kernel

/-- Region 15 in service at an operating point, its clock in a state, with a power ceiling. -/
def regionDev (clk op ceil : Nat) (f : Power → Power) : Dev :=
  { upWith [(Obj.REGION_STATE, 15, 4), (Obj.CLOCK_STATE, 15, clk), (Obj.REGION_OP, 15, op), (Obj.POWER_CEILING, 15, ceil), (Obj.REGION_IDLE, 0, 1)] with
    power := f Dev.fresh.power }

theorem test_witness_clocks : let d := regionDev 2 4 4 id
    (decide (d.get Obj.REGION_IDLE ≠ 0) && decide (d.get Obj.CLOCK_STATE 15 = 2) && d.inService 15 && d.regionIdle 15) = true ∧
    (decide ((regionDev 1 4 4 id).get Obj.CLOCK_STATE 15 ≤ 1) && (regionDev 1 4 4 id).inService 15 && !(regionDev 1 4 4 id).power.tripped) = true ∧
    (let m := regionDev 3 4 3 fun p => { p with dest := [(15, 3)] }
     m.get Obj.CLOCK_STATE 15 = 3 ∧ tget 0 m.power.dest 15 % 2 ^ Obj.REGION_OP.bitsOf = m.regionTarget 15 ∧ m.NoneAtBoundary 15) ∧
    (let m := regionDev 3 4 3 fun p => { p with dest := [(15, 2)] }
     m.regionTarget 15 ≠ tget 0 m.power.dest 15 % 2 ^ Obj.REGION_OP.bitsOf) ∧ d.get Obj.CLOCK_STATE 15 ≠ 3 ∧ d.get Obj.CLOCK_STATE 15 > 1 ∧
    (regionDev 1 4 4 fun p => { p with clamped := [15] }).power.clamped.contains 15 = true ∧ (regionDev 1 4 4 id).power.clamped.contains 15 = false := by
  unfold Dev.NoneAtBoundary; decide +kernel

/-- Region 15 about to run, with this at its boundary. -/
def boundaryDev (l : List EdgeReq) (w : List HbmWait) : Dev :=
  let d := netDev id [(Obj.CLOCK_STATE, 15, 1), (Obj.REGION_STATE, 15, 4), (Obj.POWER_CEILING, 15, 4)]
  { d.modStack 30 (fun x => { x with boundary := w }) with edge := [(15, l)] }

theorem test_witness_boundary :
    (let d := boundaryDev [.notice 1023 5] []
     tget [] d.edge 15 = [.notice 1023 5] ∧ 1023 / 64 = 15 ∧ d.hearthOpen 1023 = true ∧ d.get Obj.CLOCK_STATE 15 ≤ 1 ∧ d.inService 15 = true ∧
       d.power.tripped = false) ∧
    (let d := boundaryDev [.write 1023 2097088 (List.replicate 64 1) false] []
     tget [] d.edge 15 = [.write 1023 2097088 (List.replicate 64 1) false] ∧ d.hearthOpen 1023 = true ∧ 2097088 + 64 ≤ scrBytes ∧
       d.remoteOk 1023 (2097088 / 64) ((2097088 + 64 - 1) / 64) = true) ∧
    (let w : HbmWait := { writeWait (2 ^ 30 - 1) with win := none }
     let d := boundaryDev [] [w]
     30 / 2 = 15 ∧ tget [] d.edge 15 = [] ∧ (d.stack 30).boundary = [w] ∧ w.write = true ∧ w.win = none ∧ w.fold = none ∧ w.mask = [] ∧ w.crc < 5 ∧
       d.chanGate 30 w.sec = .serve ∧ d.get Obj.STACK_STATE 30 ≠ 0 ∧ d.get Obj.STACK_STATE 30 ≠ 1 ∧ (d.stack 30).draining = false ∧ d.NoWindow 30 ∧
       (d.stack (30 + 1 - 2 * (30 % 2))).boundary = []) := by
  unfold Dev.NoWindow; decide +kernel

theorem test_witness_damper : let d := regionDev 2 4 4 id
    let low := regionDev 2 4 4 fun p => { p with pin := false }
    let both := regionDev 2 4 4 fun p => { p with pin := false, net := false }
    let risen := regionDev 2 0 4 fun p => { p with rise := some 0 }
    d.damperLow = false ∧ d.power.rise ≠ some d.tick ∧ risen.damperLow = false ∧ risen.power.rise = some risen.tick ∧ low.damperLow = true ∧
    (d.get Obj.CLOCK_STATE 15 = 2 ∧ d.get Obj.REGION_OP 15 ≠ 0) ∧ (regionDev 1 4 4 id).get Obj.CLOCK_STATE 15 ≤ 1 ∧ (regionDev 3 4 4 id).get Obj.CLOCK_STATE 15 = 3 ∧
    (low.power.pin = false ∧ low.power.net = !false) ∧ (both.power.pin = false ∧ both.power.net = false) ∧
    (risen.power.rise ≠ none ∧ risen.get Obj.CLOCK_STATE 15 = 2 ∧ risen.get Obj.REGION_OP 15 ≠ risen.regionTarget 15 ∧
      risen.get Obj.RELEASE_STAGGER_EN ≠ 0 ∧ (risen.put Obj.RELEASE_STAGGER_EN 0).get Obj.RELEASE_STAGGER_EN = 0 ∧
      ((risen.setHearth 1023 { Hearth.fresh with run := some (partOf 0) }).hearth 1023).run = some (partOf 0)) ∧ d.power.rise = none := by
  decide +kernel

/-- Every region at a ceiling, the firing duty, and how many periods have been under the margin. -/
def capDev (ceil duty under : Nat) : Dev :=
  { upWith ((Obj.FIRING_DUTY, 0, duty) :: (Obj.POWER_CAP_W, 0, 1600) :: (Obj.REGION_OP, 15, 1) :: (List.range 16).map fun g => (Obj.POWER_CEILING, g, ceil)) with
    power := { Dev.fresh.power with under := under } }

theorem test_witness_periods : let d := capDev 4 16 4
    (∃ x ∈ allSensors, (thresholds x).2.2 < (d.putTemp (Sensor.port 15) 951).temp x) ∧
    (∃ x ∈ allSensors, (thresholds x).2.1 < (d.putTemp (Sensor.port 15) 851).temp x) ∧
    (regionSensors 15).any (d.putTemp (Sensor.region 15) 1001).hot = true ∧ (regionSensors 15).any (d.putTemp (Sensor.region 15) 1000).hot = false ∧
    (regionSensors 15).all (d.putTemp (Sensor.region 15) 1000).cool = false ∧
    (∀ x ∈ allSensors, d.temp x + 50 ≤ (thresholds x).2.1) ∧ ({ d with power := { d.power with critical := true } }).power.critical = true ∧
    d.power.tripped = false ∧ d.get Obj.CONFIDENTIAL_ACTIVE ≠ 1 ∧ d.get Obj.RELEASE_STAGGER_EN ≠ 0 ∧
    d.power.critical = false ∧ (∀ x ∈ allSensors, d.temp x ≤ (thresholds x).2.1) ∧ d.powerLimit = 1600000 := by
  refine ⟨⟨Sensor.port 15, by decide +kernel⟩, ⟨Sensor.port 15, by decide +kernel⟩, ?_⟩; decide +kernel

theorem test_witness_steering : let d := capDev 4 16 4
    let top := fun (d : Dev) => (List.range 16).foldl (fun (a : Nat) g => max a (d.get Obj.POWER_CEILING g)) 0
    top (capDev 0 16 0) = 0 ∧ top d = 4 ∧ (∃ g < 16, 0 < d.get Obj.REGION_OP g) ∧
    (∀ g < 16, (d.put Obj.REGION_OP 0 15).get Obj.REGION_OP g = 0) ∧ 4 ≤ d.power.under ∧ d.damped = false ∧
    (capDev 4 15 4).get Obj.FIRING_DUTY < 16 ∧ 16 ≤ d.get Obj.FIRING_DUTY ∧ d.lowest = some 0 ∧ (capDev 4 16 3).power.under < 4 := by
  refine ⟨by decide +kernel, by decide +kernel, ⟨15, by decide +kernel⟩, ?_⟩; decide +kernel

theorem test_witness_pins : let d := upWith []
    let o : StoreOp := ⟨.bootCount 1, 0, false⟩
    let bank : Dev := { d with power := { d.power with onBank := true } }
    d.get Obj.BOOT_STATE ≠ 0 ∧ d.power.onBank = false ∧ d.store.running = none ∧ (storeDev 0 [] (some o)).store.running = some o ∧
    bank.power.onBank = true ∧ Dev.fresh.get Obj.BOOT_STATE = 0 ∧ (upWith [(Obj.INPUT_STATE, 0, 1)]).get Obj.INPUT_STATE = 1 ∧
    d.get Obj.INPUT_STATE ≠ 1 ∧ bit (d.get Obj.SIDEBAND_STATUS) 8 = false ∧ bit ((upWith [(Obj.SIDEBAND_STATUS, 0, 256)]).get Obj.SIDEBAND_STATUS) 8 = true ∧
    d.get Obj.HOLDUP_CAPACITY_MJ = 0 ∧ (upWith [(Obj.HOLDUP_CAPACITY_MJ, 0, 1)]).get Obj.HOLDUP_CAPACITY_MJ ≠ 0 := by decide +kernel

/-- The idle slot in a state, its bytes these. -/
def fwState (st : Nat) (bytes : Tab Byte) (l : List (ObjDef × Nat × Nat)) (pend : Bool) : State :=
  { on { upWith ((Obj.STORE_MIRROR_STATE, 0, 3) :: l) with fwPending := pend } with
    vault := { Vault.shipped with slotState := [(1, st)], slotBytes := bytes } }

theorem test_witness_firmware : let other := shippedManifest.map fun e => (e.1 + 2 ^ 21, e.2)
    let s := fwState 0 [] [] false
    (fwState 0 [] [(Obj.FW_UPDATE_STATE, 0, 2)] false).dev.fwBusy = true ∧ s.dev.fwBusy = false ∧ s.dev.PilotServes ∧ s.dev.idleSlot = 1 ∧
    (fwState 0 [] [] true).dev.fwPending = true ∧ s.dev.fwPending = false ∧ s.dev.mirrorUp 0 = true ∧ s.idleState = 0 ∧
    (fwState 1 [] [] true).idleState = 1 ∧ (2 ^ 21 - 131072) % 131072 = 0 ∧ 2 ^ 21 - 131072 < 2 ^ 21 ∧
    (fwState 1 other [] true).vault.verify 0 1 true true true = 0 ∧ (fwState 1 other [] true).vault.verify 0 1 true true false = 5 ∧
    (fwState 2 [] [] true).idleState = 2 ∧ (fwState 4 [] [] true).idleState = 4 ∧ (fwState 3 [] [] true).idleState ≠ 0 ∧
    s.vault.slotNat (s.dev.get Obj.FW_ACTIVE_SLOT) 12 4 ≤ s.vault.secVersion ∧
    (let t := fwState 0 [(12, 1)] [] false
     t.vault.secVersion < t.vault.slotNat (t.dev.get Obj.FW_ACTIVE_SLOT) 12 4) := by unfold Dev.PilotServes Dev.Serves; decide +kernel

/-- Stack 0 serves and all of data space is SINGLE; the bytes of a bundle header for this device stand at address 0. -/
def bundleDev : Dev :=
  let id48 := leBytes 48 Config.leafDigest
  let secs : List (List Byte) := [leBytes 64 (0x4E425A4B + 2 ^ 32 + 2 ^ 48 + 2 ^ 64), List.replicate 64 0, List.replicate 32 0 ++ id48.take 32,
    id48.drop 32 ++ List.replicate 48 0, leBytes 8 4096 ++ leBytes 8 64 ++ List.replicate 48 0]
  let d := devOf ([(Obj.BOOT_STATE, 0, 2), (Obj.STACK_STATE, 0, 2), (Obj.STACK_STATE, 15, 2), (Obj.STACK_STATE, 31, 2)] ++
    (List.range 16).map fun i => (Obj.HBM_SEG_MODE, 0, i))
  let d := (List.range 16).foldl (fun (d : Dev) i => d.put Obj.HBM_SEG_MODE (2 ^ 64 - 1) 0 i) d
  let d := d.setStack 0 { Stack.fresh with pch := (List.range 64).map fun i => (i, Pch.active) }
  { d with hbm := secs.zipIdx.map fun e => (hbmKey 0 e.2, ⟨e.1, false, []⟩) }

theorem test_witness_bundle_load : let d := bundleDev
    let head := d.dataBytes 0 160
    let hdr := d.dataBytes 0 304
    let ranges := (segRecords hdr 1 1).map fun r => d.segRange r.1 r.2
    d.PilotServes ∧ leNat (head.take 4) = 0x4E425A4B ∧ leNat ((head.drop 4).take 2) = 1 ∧ leNat ((head.drop 6).take 2) = 1 ∧
    leNat ((head.drop 8).take 4) = 1 ∧ d.dataServed 0 304 = true ∧ d.get Obj.BUNDLE_STATE ≠ 1 ∧ d.get Obj.BUNDLE_STATE ≠ 2 ∧ d.bundleCount < 16 ∧
    ranges = [some (0, 64, 1)] ∧ segsApart (ranges.filterMap id) = true ∧ 2 ^ 41 - 4096 < 2 ^ 41 ∧ (2 ^ 41 - 4096) % 4096 = 0 := by
  unfold Dev.PilotServes Dev.Serves; decide +kernel

theorem test_witness_bundle_mine :
    (List.range 1).any (fun m => decide (((bundleDev.dataBytes 0 304).drop (160 + 96 * m)).take 48 = leBytes 48 Config.leafDigest)) = true := by
  have h : ((bundleDev.dataBytes 0 304).drop (160 + 96 * 0)).take 48 = leBytes 48 Config.leafDigest := by rfl
  simp [h]

/-- One bundle of two sectors of stack 31, loading or loaded in place 15; the others of the table are taken. -/
def oneBundle : Bundle := ⟨7, 0, [], [(31, 2 ^ 30 - 2, 2)]⟩
def heldBundle : Dev := { upWith [(Obj.STACK_STATE, 31, 2), (Obj.QUOTE_STATUS, 3, 0)] with
  bundles := { Dev.fresh.bundles with loading := some oneBundle, loaded := [(15, some oneBundle)] } }

theorem test_witness_bundle_held : let d := heldBundle
    let u := d.setStack 31 { Stack.fresh with pch := (List.range 64).map fun i => (i, Pch.active) }
    Dev.fresh.bundles.loading = none ∧ d.bundles.loading = some oneBundle ∧ d.segsServed oneBundle = false ∧
    (u.put Obj.CLOCK_STATE 2 15).segsServed oneBundle = true ∧ oneBundle.segs = [(31, 2 ^ 30 - 2, 2)] ∧ 2 ^ 30 - 2 + 2 ≤ 2 ^ 30 ∧
    tget none d.bundles.loaded 0 = none ∧ d.PilotServes ∧ (∀ n < 16, ∀ b ∈ tget none d.bundles.loaded n, b.handle ≠ 8) ∧
    tget none d.bundles.loaded 15 = some oneBundle ∧ (∀ m < 15, tget none d.bundles.loaded m = none) ∧ d.get Obj.STACK_STATE 31 ≠ 4 ∧
    (d.stack 31).draining = false ∧ (upWith [(Obj.BUNDLE_STATE, 0, 2)]).get Obj.BUNDLE_STATE = 2 ∧
    (List.replicate 32 (0 : Byte)).length = 32 ∧ d.get Obj.QUOTE_STATUS 0 3 ≠ 1 ∧
    ((d.put Obj.QUOTE_STATUS 1 0 3).get Obj.QUOTE_STATUS 0 3 = 1) := by unfold Dev.PilotServes Dev.Serves; decide +kernel

/-- A module at its boot ROM with this vault. -/
def romWith (f : Vault → Vault) : State := { on (devOf [(Obj.BOOT_STATE, 0, 1), (Obj.STORE_MIRROR_STATE, 0, 3)]) with vault := f Vault.shipped }

theorem test_witness_power_on : Dev.fresh.get Obj.BOOT_STATE = 0 ∧ (upWith []).get Obj.BOOT_STATE ≠ 0 ∧
    (romWith id).dev.get Obj.BOOT_STATE = 1 ∧ (upWith []).get Obj.BOOT_STATE ≠ 1 ∧
    some 0 = (romWith id).vault.runningSlot ((romWith id).dev.get Obj.FW_KEY_REVOKED) true true ∧
    none = (romWith id).vault.runningSlot ((romWith id).dev.get Obj.FW_KEY_REVOKED) false true ∧
    (let s := romWith fun v => { v with persistValid := true, persistOd := [(Obj.DEVICE_ID.key 0 0, 6)] }
     s.vault.persistDefaults = false ∧ s.vault.persistValid = true ∧ twf 0 s.vault.persistOd = true ∧
     tget 0 s.vault.persistOd (Obj.DEVICE_ID.key 0 0) = 5 + 1) ∧
    (romWith fun v => { v with persistDefaults := true }).vault.persistDefaults = true := by decide +kernel

theorem test_witness_regions : let d := fun st clk round => devOf [(Obj.REGION_STATE, 15, st), (Obj.CLOCK_STATE, 15, clk), (Obj.TEST_ROUND, 15, round),
      (Obj.STACK_POWER_CTL, 31, 1), (Obj.STACK_STATE, 31, 1)]
    (d 1 1 0).power.tripped = false ∧ (d 1 1 0).get Obj.REGION_STATE 15 = 1 ∧ (d 1 1 0).get Obj.CLOCK_STATE 15 = 1 ∧
    (d 1 1 0).get Obj.STACK_POWER_CTL 31 ≠ 0 ∧ (d 1 1 0).get Obj.STACK_STATE 31 ≤ 1 ∧ (d 4 1 0).get Obj.REGION_STATE 15 ≠ 1 ∧
    (d 4 2 0).get Obj.CLOCK_STATE 15 ≠ 1 ∧ (d 2 2 0).get Obj.TEST_ROUND 15 = 0 ∧ (d 2 2 1).get Obj.TEST_ROUND 15 = 1 ∧
    (d 2 2 3).get Obj.TEST_ROUND 15 = 3 ∧ (d 4 1 0).NoneAtBoundary 15 ∧ (d 2 2 3).get Obj.STACK_STATE 31 = 1 ∧
    (let t := (devOf [(Obj.STACK_STATE, 31, 3)]).setStack 31 { Stack.fresh with failedRetry := true, pch := [(62, .failed), (63, .failed)] }
     t.get Obj.STACK_STATE 31 = 3 ∧ (t.stack 31).failedRetry = true ∧ t.pch 31 (2 * 31) = .failed ∧ (Dev.fresh.stack 31).failedRetry = false) ∧
    (let p : Dev := { Dev.fresh with power := { Power.fresh with tripped := true } }
     p.power.tripped = true) := by unfold Dev.NoneAtBoundary; decide +kernel

/-- Hearth 1016 (slot 0 of cluster 127) in bring-up, with these chunks missing. -/
def loading (missing done : Nat) : Dev :=
  { upWith [(Obj.HEARTH_STATE, 1016, 1), (Obj.FW_CHUNKS_MISSING, 1016, missing), (Obj.FW_AREA_STATE, 15, 1), (Obj.MULTICAST_DONE, 127, done),
      (Obj.REGION_STATE, 15, 3)] with testSeen := [9 * 127] }

theorem test_witness_loading : let d := (loading (2 ^ 24 - 1) 0).put Obj.SLOT_MAP 0 127
    (decide (d.get Obj.FW_AREA_STATE 15 = 1) && decide (d.get Obj.MULTICAST_DONE 127 ≠ 1) && d.testSeen.contains (9 * 127)) = true ∧
    d.wantsFw 1016 = true ∧ d.get Obj.FW_CHUNKS_MISSING 1016 < 2 ^ 24 ∧
    (let e := (loading (2 ^ 23) 1).put Obj.SLOT_MAP 0 127
     (e.get Obj.FW_AREA_STATE 15 = 1 ∧ e.get Obj.MULTICAST_DONE 127 ≠ 0) ∧
      rotPick 8 (e.cluster 127).pullPtr ((List.range 8).filter fun k => e.wantsFw (8 * 127 + k)) = some 0 ∧ e.nextChunk 1016 = some 23) ∧
    ((loading 0 1).put Obj.SLOT_MAP 0 127).nextChunk 1016 = none := by decide +kernel

theorem test_witness_ready : let d := upWith []
    (upWith [(Obj.PORT_STATE, 15, 2)]).get Obj.PORT_STATE 15 = 2 ∧ d.get Obj.PORT_STATE 15 ≠ 2 ∧ d.get Obj.BOOT_STATE = 2 ∧
    d.get Obj.DEVICE_READY = 0 ∧ (upWith [(Obj.DEVICE_READY, 0, 1)]).get Obj.DEVICE_READY ≠ 0 ∧
    (let e := { upWith [] with trained := List.range 48 }
     e.allTrained = true ∧ e.get Obj.BOOT_STATE = 2) ∧
    (let r := upWith [(Obj.REGION_STATE, 15, 3), (Obj.DEVICE_READY, 0, 1)]
     r.get Obj.REGION_STATE 15 = 3 ∧ r.get Obj.DEVICE_READY = 1 ∧
       ((hearthsOfRegion 15).all fun h => r.hearthSettled h && decide (r.hState h ≠ hFiring)) = true) ∧
    (upWith [(Obj.REGION_STATE, 15, 4)]).get Obj.REGION_STATE 15 ≠ 3 ∧ (upWith [(Obj.STACK_STATE, 0, 2)]).get Obj.STACK_STATE (2 * 0) = 2 := by
  decide +kernel

/-- Region 15 in service with hearth 1023 idle, and these resets in progress. -/
def resetDev (l : List ResetRun) : Dev :=
  { (upWith [(Obj.HEARTH_STATE, 1023, 2), (Obj.REGION_STATE, 15, 3), (Obj.CLOCK_STATE, 15, 2)]).put Obj.REGION_PARTITION 0 3 3 with resets := l }

theorem test_witness_resets : let d := resetDev []
    let part : ResetRun := ⟨.partition 0, false, []⟩
    let run : ResetRun := ⟨.hearth 1023, false, [1023]⟩
    d.get Obj.BOOT_STATE ≠ 0 ∧ d.power.onBank = false ∧ d.PilotServes ∧ Dev.fresh.get Obj.BOOT_STATE = 0 ∧ d.regionsOf 7 = [] ∧ d.regionsOf 0 ≠ [] ∧
    d.Serves ∧ d.RegionServes 15 Obj.CLUSTER_RESET 127 0 ∧ d.HearthServes 1023 Obj.HEARTH_RESET 0 ∧
    (let z := d.put Obj.CLOCK_STATE 0 15
     z.mustWait [127 / 8] (.object .host (Obj.CLUSTER_RESET.key 127 0 / 256) (Obj.CLUSTER_RESET.key 127 0 % 256) 1) = true) ∧
    (resetDev []).resetBusy (.cluster 127) = false ∧ ((resetDev []).put Obj.REGION_STATE 2 15).resetBusy (.cluster 127) = true ∧
    (resetDev [part]).resetBusy (.cluster 127) = true ∧ (d.put Obj.HEARTH_STATE 0 1023).hearthAbsent 1023 = true ∧
    d.hearthAbsent 1023 = false ∧ (resetDev [part]).resetBusy (.hearth 1023) = true ∧ d.resetBusy (.hearth 1023) = false ∧
    ((resetDev [run]).resets.any fun (r : ResetRun) => decide (r.part = .hearth 1023) && !r.drained) = true ∧
    ((resetDev [{ run with drained := true }]).resets.any fun (r : ResetRun) => r.drained && r.testing.contains 1023 && decide (levelOf r.part < 2)) = true ∧
    (d.resets.any fun (r : ResetRun) => r.drained && r.testing.contains 1023 && decide (levelOf r.part < 2)) = false := by
  unfold Dev.HearthServes Dev.RegionServes Dev.PilotServes Dev.Serves; decide +kernel

theorem test_witness_defects : (bits (1 * 2 ^ 60 + 1151 * 2 ^ 44) 63 60 = 1 ∧ bits (1 * 2 ^ 60 + 1151 * 2 ^ 44) 55 44 < 1152) ∧
    (bits (2 * 2 ^ 60 + 127 * 2 ^ 44) 63 60 = 2 ∧ bits (2 * 2 ^ 60 + 127 * 2 ^ 44) 55 44 < 128) ∧
    ¬ (bits (2 * 2 ^ 60 + 128 * 2 ^ 44) 55 44 < 128) ∧ bit ((netDev id []).port 15).rxGood 7 = true ∧ bit (Dev.fresh.port 15).rxGood 7 = false ∧
    (true, 7) ∉ (Dev.fresh.port 15).marked ∧ (true, 7) ∈ ({ Dev.fresh.port 15 with marked := [(true, 7)] } : Port).marked := by
  decide +kernel

/-! ### The step, invariants and whole-machine rules (O49 to O60) -/

theorem test_witness_step : { State.reset with pending := [Instr.deviceReady, .enec] }.pending = Instr.deviceReady :: [.enec] ∧ State.reset.Idle ∧
    State.reset.Sound ∧ step State.reset = .next State.reset := by
  refine ⟨rfl, rfl, ⟨by decide, by decide, by decide, by decide, fun k => ?_, by decide⟩, rfl⟩
  show tget 0 [(0, 4)] k ≤ 4
  unfold tget; split <;> simp [tget]

theorem test_witness_confidential : let s := romWith fun v => { v with persistValid := true, persistOd := [(Obj.CONFIDENTIAL_REQUEST.key 0 0, 2)] }
    (match exec (.firmwareVerified true true true) s with
      | .next t => t.vault.confidential && !s.vault.confidential
      | _ => false) = true := by decide +kernel

theorem test_witness_busy : accesses .dpGoRead = true ∧ State.reset.dev.get Obj.BOOT_STATE < 2 := by decide


/-- Words whose fields are at the ends of their ranges. -/
def fullAddr : AddrField := ⟨32767, 7, 3, 1023⟩
def fullGrate : GrateBody :=
  { a := fullAddr, b := fullAddr, epi := 15, d := fullAddr, m := 4096, n := 32, k := 4096, aFmt := 7, bFmt := 7, dFmt := 7, colMajor := true,
    sigEarly := true, aStride := 255, bStride := 255, dStride := 255, aTag := 255, bTag := 255, dTag := 255, slotExp := 255, skipLog2 := 255 }

theorem test_witness_words : (⟨15, ⟨true, 63, 7, 63, -256⟩, ⟨true, 63, 7, 63, 255⟩, true, 63, 7⟩ : Header).Fits ∧ fullAddr.Fits ∧
    (⟨2 ^ 64 - 1, 32768, 65536, 2 ^ 32 - 1, 32767, 3, 3, 255, true, true, 3, 255⟩ : Desc).Fits ∧
    (⟨true, true, 15, 7, 256, 2048, 32767, true, 63, true, 63⟩ : FlueCfg).Fits ∧
    (⟨2 ^ 32 - 1, -128, 127, 3, true, true, true, true, List.replicate 16 1⟩ : ScaleSlot).Fits ∧ fullGrate.Fits ∧ 255 < 256 ^ 1 := by
  unfold Header.Fits Wait.Fits Desc.Fits FlueCfg.Fits ScaleSlot.Fits GrateBody.Fits AddrField.Fits
  refine ⟨by decide, by decide, by decide +kernel, by decide, by decide, ⟨by decide, by decide, by decide, by decide, ⟨127, by decide⟩, ⟨0, by decide⟩,
    ⟨127, by decide⟩, by decide⟩, by decide⟩

/-- The event ring with this many records. -/
def ringDev (n : Nat) (armed : Bool) : Dev :=
  { upWith [] with events := { Dev.fresh.events with ring := List.replicate n ⟨1, 0, none, 0, 0, 0, 0⟩, overwriteArmed := armed } }

theorem test_witness_rings : let full := ringDev 4096 true
    full.eventOn Event.ready .global 0 = true ∧ full.pilot.restarting = false ∧ full.NoSubscriber ∧ 4096 ≤ full.events.ring.length ∧
    full.events.overwriteArmed = true ∧ (ringDev 4096 false).events.overwriteArmed = false ∧ (ringDev 4095 false).events.ring.length < 4096 ∧
    (restartDev 0 0).pilot.restarting = true ∧ (restartDev 0 0).eventOn Event.ready .global 0 = true ∧
    (upWith [(Obj.BRINGUP_EVENT_ENABLE, 0, 0)]).eventOn Event.ready .global 0 = false := by
  unfold Dev.NoSubscriber; decide +kernel

theorem test_witness_waits : let hd : Header := ⟨0, ⟨true, 63, 0, 0, 1⟩, ⟨false, 0, 0, 0, 0⟩, false, 0, 0⟩
    Hearth.fresh.waitsMet hd [] [] = false ∧ ({ Hearth.fresh with counters := [(63, 1)] } : Hearth).waitsMet hd [] [] = true ∧ hd.w1.en = false ∧
    (upWith []).PilotServes ∧ 5 ≤ bits (5 * 2 ^ 61) 63 61 ∧ bits (4 * 2 ^ 61 + 2 ^ 15) 63 61 < 5 ∧ bit (4 * 2 ^ 61 + 2 ^ 15) 15 = true ∧
    (let n := (netDev (fun x => { x with credits := [(3, 0)] }) [(Obj.CREDIT_STALL_LIMIT, 0, 1)]).enqueueAt 15 { passing 0 with vl := 3 }
     n.headOf 15 3 = some { passing 0 with vl := 3 } ∧ n.creditsOf 15 3 < Frame.cost { passing 0 with vl := 3 } + n.reserve { passing 0 with vl := 3 } ∧
     n.eventOn Event.creditStall .port 15 = true ∧ n.NoSubscriber) := by
  unfold Dev.PilotServes Dev.Serves Dev.NoSubscriber; decide +kernel

/-! ### Well-formedness: one ill-formed command for each check -/

theorem test_ill_formed_module : Instr.wf (.powerOn 3601 0) = false ∧ Instr.wf (.resetN 0 3601) = false ∧ Instr.wf (.wholeReset 0 3601 0) = false ∧
    Instr.wf (.testRoundEnd 0 [(1152, 1)] []) = false ∧ Instr.wf (.testRoundEnd 0 [] [128]) = false ∧ Instr.wf (.stackTrainingDone 0 [32]) = false ∧
    Instr.wf (.clusterMulticast 0 [(64, 1)]) = false ∧ Instr.wf (.partitionReset 256) = false ∧ Instr.wf (.fibreDark 0 0) = false ∧
    Instr.wf (.fibreDark 0 17) = false ∧ Instr.wf (.secOffer 0 1 1 [] true true 1) = false ∧ Instr.wf (.quoteReq 0 []) = false ∧
    Instr.wf (.defectAdd (2 ^ 64)) = false ∧ Instr.wf (.schedulerPass [1024] []) = false ∧ Instr.wf (.schedulerPass [] [1024]) = false ∧
    Instr.wf (.powerOn 3600 0) = true ∧ Instr.wf (.fibreDark 0 16) = true := by decide

/-- A request of the bridge that meets no other. -/
def alone : Turn := ⟨1044, []⟩

theorem test_ill_formed_memory : Instr.wf (.remoteWrite 0 2097151 [0, 0] false) = false ∧
    Instr.wf (.hbmRead 0 (2 ^ 30) ⟨.demand, none, 0⟩ [] 0 alone) = false ∧ Instr.wf (.hbmRead 0 0 ⟨.demand, none, 0⟩ [(72, 1)] 0 alone) = false ∧
    Instr.wf (.hbmRead 0 0 ⟨.demand, none, 0⟩ [(3, 1), (3, 2)] 0 alone) = false ∧ Instr.wf (.hbmWrite 0 0 [] [] false none 0 alone) = false ∧
    Instr.wf (.hbmWrite 0 0 (List.replicate 64 0) [true] false none 0 alone) = false ∧ Instr.wf (.apertureWrite 0 0 0 [] false 0 alone) = false ∧
    Instr.wf (.foldAdd 0 (2 ^ 30) false (List.replicate 64 0) false 0 alone) = false ∧ Instr.wf (.scrubRead 0 [(0, 256)]) = false ∧
    Instr.wf (.lateWriteAbsorbed 0 (2 ^ 30)) = false ∧ Instr.wf (.slowTierRead 0 0 0 0 [] []) = false ∧ Instr.wf (.slowTierWrite 0 0 0 0 [] false []) = false ∧
    Instr.wf (.feederRead 0 0 [(0, 7, 0)] []) = false ∧
    Instr.wf (.feederRead 0 0 [(31, 6, 31)] []) = true ∧ Instr.wf (.programChunkDone 0 0 (List.replicate 1025 0) [] [] false []) = false ∧
    Instr.wf (.programChunkDone 0 0 [] [[], [], [], [], []] [] false []) = false ∧ Instr.wf (.remoteWrite 0 2097151 [0] false) = true := by decide +kernel

theorem test_ill_formed_fabric : Instr.wf (.write 0 (frame7 1 0 0 0) []) = false ∧ Instr.wf (.writePartial 0 (frame7 2 0 0 1) []) = false ∧
    Instr.wf (.ack 0 { frame7 0xB 0 0 0 with dstId := 2 ^ 20 }) = false ∧ Instr.wf (.notice 0 { frame7 6 0 0 0 with addr := 2 ^ 44 }) = false ∧
    Instr.wf (.readReq 0 { frame7 4 0 0 0 with payload := [] } [(8, .clean)] []) = false ∧ Instr.wf (.hostWindowStore 0 [] []) = false ∧
    Instr.wf (.hostWindowLoad 0 0 []) = false ∧ Instr.wf (.barAccess false (2 ^ 31 - 7) 8 none) = false ∧ Instr.wf (.barAccess true 0 8 (some [0])) = false ∧
    Instr.wf (.routeInGroupWrite 65536 [0]) = false ∧ Instr.wf (.objectWrite .host (2 ^ 20) 0 0) = false ∧ Instr.wf (.odRead (.mctp (List.replicate 4134 0))) = false ∧
    Instr.wf (.describe (.frame 0 { frame7 8 2 0 0 with dstId := 2 ^ 20 })) = false ∧ Instr.wf (.odWrite (.mctp (List.replicate 4133 0))) = true ∧
    Instr.wf (.write 0 { frame7 1 0 0 0 with ash := [false] } []) = true := by decide +kernel

/-! ### Numbers the spec works out -/

/-- 01, locating logical hearth 613: its state is object 0x2_9940:05; 10: stack 18's table is 0x1_2907:01; 09: PORT_STATE of port 0 is 0x1_3000:01. -/
theorem test_object_numbers : Obj.HEARTH_STATE.key 613 0 = 0x29940 * 256 + 5 ∧ Obj.HOB_TABLE_0.key 18 0 = 0x12907 * 256 + 1 ∧
    Obj.PORT_STATE.key 0 0 = 0x13000 * 256 + 1 ∧ Obj.CKPT_WIN.key 18 0 = 0x12904 * 256 + 1 ∧ Obj.FLUE_DOORBELL.key 0x406 0 = 0x40406 * 256 + 4 := by
  decide

/-- 05, one checkpoint on stack 18: CKPT_WIN_0 is 0xC400_0010_0800_1FF8. -/
theorem test_checkpoint_window : ckptCfg 0xC400001008001FF8 = ⟨true, true, false, 0x200000000, 0x201000000, 65536⟩ := by decide

/-- 04, a four-slot flue: FLUE_CFG 0x8C01_8FFF_E011_E180. -/
theorem test_flue_cfg : FlueCfg.ofWord 0x8C018FFFE011E180 = ⟨true, false, 3, 0, 4, 256, 0x7F00, true, 7, true, 3⟩ := by decide

/-- 08, a fold-add to a peer's buffer: bits [43:0] of the address are region 9's stacks 18 and 19, one 256-byte group each. -/
theorem test_pair_mode : (Dev.fresh.decodePA 0x12340000000).1 = 18 ∧ (Dev.fresh.decodePA 0x12340000100).1 = 19 ∧
    (Dev.fresh.decodePA 0x12340000200).1 = 18 := by decide

/-- 02, a replay and its aftermath: 3.1 gives exponent 7, 3.6 exceeds 448 with it and gives 6; MARGIN 1 would have given 6. -/
theorem test_scale_exponents : Fmt.e4m3.scaleExp 0x40466666 0 = 7 ∧ Fmt.e4m3.exceeds 0x40666666 7 = true ∧ Fmt.e4m3.scaleExp 0x40666666 0 = 6 ∧
    Fmt.e4m3.exceeds 0x40666666 6 = false ∧ Fmt.e4m3.scaleExp 0x40466666 1 = 6 := by decide +kernel

/-- 03, a folded product: entry 4's address fields. -/
theorem test_address_fields : AddrField.ofWord 0x500 = ⟨0, 0, 1, 256⟩ ∧ AddrField.ofWord 0x20001480 = ⟨0x4000, 1, 1, 128⟩ ∧
    AddrField.ofWord 0x30001410 = ⟨0x6000, 1, 1, 16⟩ ∧ (AddrField.mk 0x4000 1 1 128).line [(1, 3)] [] = 0x5000 := by decide

/-- 03, a folded product: the four words stored for entry 4. -/
theorem test_grate_words : let w := 0x1810100C1A080610 * 2 ^ 192 + 0x0000140200014800 * 2 ^ 128 + 0xC00050403837E928 * 2 ^ 64 + 0x0402040002040080
    Header.ofWord w = ⟨1, ⟨true, 0, 4, 1, 1⟩, ⟨true, 1, 5, 1, 1⟩, true, 2, 0⟩ ∧
    GrateBody.ofWord w = ⟨⟨0, 0, 1, 256⟩, ⟨0x4000, 1, 1, 128⟩, 0, ⟨0x6000, 1, 1, 16⟩, 256, 128, 2048, 2, 2, 2, true, false, 4, 2, 4, 0, 2, 4, 0, 0x80⟩ := by decide

/-! ### Single steps -/

/-- What a step makes of a device, read through `f`. -/
def after {α : Type} (d : Dev) (c : Instr) (f : Dev → α) (other : α) : α :=
  match step { on d with pending := [c] } with
  | .next t => f t.dev
  | _ => other

/-- 04, underrun and absorbed write at slot 1: after the read of pass 5 found its slot empty, write 5 comes with DONE_LAP's own lap bit and is
absorbed with a fill notice; write 9 is then pending. -/
def lateFlue (put get : Nat) : Dev :=
  (upWith [(Obj.FLUE_CFG, 0x406, 0x8C018FFFE011E180), (Obj.HEARTH_STATE, 16, 2), (Obj.HEARTH_STATE, 8, 2), (Obj.REGION_STATE, 0, 4), (Obj.CLOCK_STATE, 0, 2)]).setFlue 0x406
    { Flue.fresh with put := put, get := get, slots := [(1, ⟨.empty, false, true, false⟩)] }

theorem test_late_write_absorbed : after (lateFlue 5 6) (.flueFill 0x406 0 ⟨8, []⟩) (fun d => ((d.flue 0x406).put, ((d.flue 0x406).slot 1).st, (d.hearth 16).counter 7))
    (0, .filled, 0) = (6, .empty, 1) := by decide +kernel

/-- 10, replacing a hob chain head through the domain port: bytes 48 to 63 of HOB_TABLE_0 of stack 18. -/
theorem test_domain_port_write : after (((upWith [(Obj.DP_TARGET, 0, 0x1290701), (Obj.DP_OFFSET, 0, 0x30), (Obj.DP_LENGTH, 0, 0x10), (Obj.STACK_STATE, 18, 2)]).put
      Obj.DP_DATA 0x10813F8000000000 0 1)) .dpGoWrite (fun d => (leNat (d.domRead Obj.HOB_TABLE_0 48 16 18), d.get Obj.DP_STATUS)) (0, 9) =
    (0x10813F8000000000 * 2 ^ 64, 0) := by decide +kernel

/-- 14, a save cut short: 12,400 mJ meet the 9 J of an erase, and less would defer it (R457). -/
theorem test_erase_charge : after (storeDev 0 [⟨.persistErase 0 1, 0, false⟩] none) (.storeOperationStart 12400)
      (fun d => (d.get Obj.STORE_STATE, d.get Obj.PERSIST_STATE, d.store.running.isSome)) (9, 9, false) = (2, 2, true) ∧
    after (storeDev 0 [⟨.persistErase 0 1, 0, false⟩] none) (.storeOperationStart 8999)
      (fun d => (d.get Obj.STORE_STATE, d.get Obj.PERSIST_STATE, d.store.running.isSome)) (9, 9, true) = (3, 3, false) := by decide +kernel

/-- 11, a class I module: over 2,600 W every ceiling goes from 15 to 14. -/
theorem test_control_period_over : after (capDev 15 16 0 |>.put Obj.POWER_CAP_W 2600) (.controlPeriod 3547300 0 [] [])
    (fun d => (List.range 16).map fun g => d.get Obj.POWER_CEILING g) [] = List.replicate 16 14 := by decide +kernel

/-- R339: BAR 0 delivers HEARTH_STATE of hearth 613 at 0x14CA_0028. -/
theorem test_bar_read : after (hostDev.put Obj.HEARTH_STATE 2 613) (.barAccess false 0x14CA0028 8 none) (fun d => (d.reply.status, leNat d.reply.bytes)) (9, 0) =
    (0, 2) := by decide +kernel

/-- R185, R188: what no one wrote is ash: a read of a sector of a READY stack delivers zeros with the mark. -/
theorem test_unwritten_is_ash : (stackUp .active).peek 31 12345 = ⟨List.replicate 64 0, true⟩ := by decide +kernel

end Sys2Proof.Tests
end

section
/-! What a command does to the queue and to the vault. Every command that is not the start of the firmware changes the vault by
a chain of the few edits below, and none touches the queue: the totality of `exec`, the soundness of the vault and the growth of its
records are read off that one fact. -/

namespace Sys2Proof.Machine

/-! ### The edits of the vault -/

/-- One change of what survives a whole-device reset, other than the confidential mode: the straps are sampled, a power-on ends or
begins, a start from defaults is asked or taken, a firmware slot changes state, a store operation makes its record valid, or the
books of the mirrors and logs are kept. -/
inductive Vault.Edit : Vault → Vault → Prop
  | sampled (v : Vault) (sel0 sel1 : Nat) : Vault.Edit v (v.sample sel0 sel1)
  | ended (v : Vault) (last : Nat) (rev kept : Bool) (h : v.lastShutdown ≤ 5 → last ≤ 5) :
    Vault.Edit v { v with lastShutdown := last, reversed := rev, kept := kept }
  | defaults (v : Vault) (b : Bool) : Vault.Edit v { v with persistDefaults := b }
  | slot (v : Vault) (k x : Nat) (h : x ≤ 4) : Vault.Edit v { v with slotState := tset 0 v.slotState k x }
  | stored (v : Vault) (d : Dev) (j : StoreJob) : Vault.Edit v (v.commit d j)
  | booked (v : Vault) (mirrors : List (Nat × Nat)) (half : List (Nat × Nat × Nat)) (logs : Tab Nat) :
    Vault.Edit v { v with persistMirrors := mirrors, halfDone := half, logs := logs }

/-- A chain of edits. -/
abbrev Vault.Edits : Vault → Vault → Prop := Relation.ReflTransGen Vault.Edit

/-- The vault's share of a sound state. -/
def Vault.Sound (v : Vault) : Prop :=
  v.strapCode ≤ 3 ∧ v.coolingClass = classOf v.strapCode ∧ v.defects.length ≤ 4096 ∧ v.lastShutdown ≤ 5 ∧
  (∀ k, tget 0 v.slotState k ≤ 4) ∧ twf 0 v.slotBytes = true

theorem State.sound_iff (s : State) : s.Sound ↔ s.vault.Sound := Iff.rfl

/-- Writing a state that R424 lists keeps every slot's state one of them. -/
theorem slotStates_tset {t : Tab Nat} (h : ∀ k, tget 0 t k ≤ 4) (k : Nat) {x : Nat} (hx : x ≤ 4) (j : Nat) : tget 0 (tset 0 t k x) j ≤ 4 := by
  rw [tget_tset]
  split
  · exact hx
  · exact h j

theorem strapCode_sample_le (v : Vault) (sel0 sel1 : Nat) : (v.sample sel0 sel1).strapCode ≤ 3 := by
  simp only [Vault.sample]
  split <;> split <;> omega

/-- A store operation keeps the vault sound: the defect list stops at 4,096 records (R404) and the slots' bytes stay canonical. -/
theorem Vault.commit_sound {v : Vault} (h : v.Sound) (d : Dev) (j : StoreJob) : (v.commit d j).Sound := by
  obtain ⟨hcode, hclass, hdef, hlast, hslot, hbytes⟩ := h
  cases j with
  | defect r =>
    simp only [Vault.commit]
    split
    · exact ⟨hcode, hclass, hdef, hlast, hslot, hbytes⟩
    · exact ⟨hcode, hclass, by simp; omega, hlast, hslot, hbytes⟩
  | slotProgram slot off bs =>
    exact ⟨hcode, hclass, hdef, hlast, hslot, twf_foldl_tset (fun b : Byte × Nat => slot * 2 ^ 21 + off + b.2) (·.1) _ hbytes⟩
  | slotErase slot b => exact ⟨hcode, hclass, hdef, hlast, hslot, twf_tdrop (fun k => decide (k / 2 ^ 16 = slot * 32 + b)) hbytes⟩
  | _ => exact ⟨hcode, hclass, hdef, hlast, hslot, hbytes⟩

theorem Vault.Edit.sound {v w : Vault} (e : v.Edit w) (h : v.Sound) : w.Sound := by
  obtain ⟨hcode, hclass, hdef, hlast, hslot, hbytes⟩ := id h
  cases e with
  | sampled sel0 sel1 => exact ⟨strapCode_sample_le v sel0 sel1, rfl, hdef, hlast, hslot, hbytes⟩
  | ended last rev kept hl => exact ⟨hcode, hclass, hdef, hl hlast, hslot, hbytes⟩
  | slot k x hx => exact ⟨hcode, hclass, hdef, hlast, slotStates_tset hslot k hx, hbytes⟩
  | stored d j => exact Vault.commit_sound h d j
  | defaults b => exact h
  | booked mirrors half logs => exact h

theorem Vault.Edits.sound {v w : Vault} (e : v.Edits w) (h : v.Sound) : w.Sound := by
  induction e with
  | refl => exact h
  | tail _ e ih => exact e.sound ih

/-! ### Restarts and store operations -/

/-- A restart of the boot ROM samples the straps and notes how the power-on before it ended. -/
theorem bootFrom_edits (v : Vault) (d : Dev) (keep : Bool) (last sel0 sel1 : Nat) (h : v.lastShutdown ≤ 5 → last ≤ 5) :
    v.Edits (bootFrom v d keep last sel0 sel1).1 := by
  refine .tail (.single (.sampled v sel0 sel1)) (.ended _ (if v.reversed then 4 else last) false keep fun hl => ?_)
  split
  · decide
  · exact h hl

/-- The books of one item that a mirror has. -/
theorem Vault.markItem_edits (v : Vault) (m : Nat) (it : Option (Nat × Nat)) : v.Edits (v.markItem m it) := by
  unfold Vault.markItem
  split
  · exact .refl
  · split
    · exact .single (.booked v v.persistMirrors _ v.logs)
    · split
      · exact .refl
      · exact .single (.booked v v.persistMirrors _ v.logs)

theorem Vault.appended_edits (v : Vault) (m : Nat) (j : StoreJob) : v.Edits (v.appended m j) := by
  unfold Vault.appended
  split
  · exact .single (.booked v v.persistMirrors v.halfDone _)
  · exact .refl

/-- The vault after an operation that makes a record valid. -/
theorem Vault.record_edits (v : Vault) (d : Dev) (m : Nat) (j : StoreJob) : v.Edits (((v.commit d j).markItem m j.item).appended m j) :=
  .trans (.head (.stored v d j) (Vault.markItem_edits ..)) (Vault.appended_edits ..)

/-- Everything the end of a store operation can do to the vault. -/
theorem storeEnded_edits (v : Vault) (d : Dev) (o : StoreOp) : v.Edits (storeEnded v d o).1 := by
  obtain ⟨j, m, deferred⟩ := o
  cases j with
  | persistErase a q =>
    have e : v.Edits { v with persistMirrors := v.persistMirrors.filter fun x => x ≠ (a, m) } :=
      .single (.booked v _ v.halfDone v.logs)
    simp only [storeEnded]
    split <;> exact e
  | persist a q =>
    simp only [storeEnded]
    split
    · exact .refl
    · exact .tail (.single (.stored v _ (.persist a q))) (.booked _ _ _ _)
  | repair k a =>
    simp only [storeEnded]
    split
    · exact .single (.booked v _ v.halfDone v.logs)
    · exact .single (.booked v v.persistMirrors _ v.logs)
  | logErase n => exact .single (.booked v v.persistMirrors _ _)
  | logFirst n => exact .single (.booked v v.persistMirrors _ _)
  | _ =>
    simp only [storeEnded]
    exact Vault.record_edits ..

/-! ### Operations on the whole state -/

/-- `t` follows from `s` with the same commands waiting and a chain of edits of the vault. -/
def State.Settles (s t : State) : Prop := t.pending = s.pending ∧ s.vault.Edits t.vault

namespace State

theorem Settles.refl (s : State) : s.Settles s := ⟨rfl, .refl⟩

theorem Settles.trans {a b c : State} (h : a.Settles b) (g : b.Settles c) : a.Settles c := ⟨g.1.trans h.1, h.2.trans g.2⟩

/-- A change of the device alone. -/
theorem settles_dev (s : State) (d : Dev) : s.Settles { s with dev := d } := ⟨rfl, .refl⟩

theorem Settles.dev {s t : State} (h : s.Settles t) (d : Dev) : s.Settles { t with dev := d } := h.trans (t.settles_dev d)

theorem settles_edit {s : State} {v : Vault} (e : s.vault.Edits v) (d : Dev) : s.Settles { s with vault := v, dev := d } := ⟨rfl, e⟩

theorem settles_answer (s : State) (st : Nat) : s.Settles (s.answer st) := s.settles_dev _

theorem Settles.answer {s t : State} (h : s.Settles t) (st : Nat) : s.Settles (t.answer st) := h.dev _

/-- What waits for the management core settles as what it does there. -/
theorem settles_served {s : State} {f : State → State} (h : s.Settles (f s)) : s.Settles (s.served f) := by
  unfold State.served
  split
  · exact s.settles_answer 7
  · exact h

theorem settles_setIdle (s : State) (d : Dev) {x : Nat} (hx : x ≤ 4) : s.Settles ({ s with dev := d }.setIdle x) :=
  ⟨rfl, .single (.slot _ _ x hx)⟩

/-! Firmware update (R424, R425) -/

theorem settles_fwBegin (s : State) : s.Settles s.fwBegin := by
  unfold State.fwBegin
  split
  · exact s.settles_answer 3
  · split
    · exact s.settles_answer 4
    · exact (s.settles_setIdle _ (by decide)).answer 0

theorem settles_fwProgram (s : State) (off : Nat) : s.Settles (s.fwProgram off) := by
  unfold State.fwProgram
  extract_lets
  split
  · exact s.settles_answer 3
  · split
    · exact s.settles_answer 4
    · exact (s.settles_dev _).answer 0

theorem settles_fwVerify (s : State) (keyOk sigOk hashOk : Bool) : s.Settles (s.fwVerify keyOk sigOk hashOk) := by
  unfold State.fwVerify
  split
  · exact s.settles_answer 3
  · split
    · exact s.settles_answer 4
    · extract_lets
      split
      · exact (s.settles_setIdle _ (by decide)).answer 0
      · exact (s.settles_setIdle _ (by decide)).answer 0

theorem settles_fwActivate (s : State) : s.Settles s.fwActivate := by
  unfold State.fwActivate
  split
  · exact s.settles_answer 3
  · split
    · exact s.settles_answer 4
    · exact (s.settles_dev _).answer 0

theorem settles_fwAbort (s : State) : s.Settles s.fwAbort := by
  unfold State.fwAbort
  split
  · exact s.settles_answer 3
  · split
    · exact s.settles_answer 4
    · exact (s.settles_setIdle _ (by decide)).answer 0

theorem settles_fwConfirm (s : State) (v : Nat) : s.Settles (s.fwConfirm v) := by
  unfold State.fwConfirm
  split
  · exact s.settles_answer 4
  · extract_lets
    split
    · exact (s.settles_dev _).answer 0
    · exact s.settles_answer 0

theorem settles_fwControl (s : State) (v : Nat) : s.Settles (s.fwControl v) := by
  unfold State.fwControl
  extract_lets
  split
  · exact s.settles_fwBegin
  · exact s.settles_fwProgram _
  · exact (s.settles_dev _).trans (settles_fwVerify ..)
  · exact s.settles_fwActivate
  · exact s.settles_fwAbort
  · exact s.settles_answer 4

/-! Whole-device resets (R411, R452) -/

theorem settles_wholeReset (s : State) {last : Nat} (hl : last ≤ 5) (sel0 sel1 : Nat) : s.Settles (s.wholeReset last sel0 sel1) := by
  refine settles_edit (bootFrom_edits _ _ _ _ _ _ fun _ => ?_) _
  split
  · decide
  · exact hl

theorem settles_writeWholeReset (s : State) (v sel0 sel1 : Nat) : s.Settles (s.writeWholeReset v sel0 sel1) := by
  unfold State.writeWholeReset
  split
  · exact s.settles_dev _
  · split
    · exact s.settles_dev _
    · exact s.settles_wholeReset (by decide) ..

theorem settles_cmdPowerOn (s : State) (sel0 sel1 : Nat) : s.Settles (s.cmdPowerOn sel0 sel1) := by
  unfold State.cmdPowerOn
  split
  · exact .refl s
  · exact settles_edit (bootFrom_edits _ _ _ _ _ _ id) _

theorem settles_cmdInputLoss (s : State) : s.Settles s.cmdInputLoss := by
  unfold State.cmdInputLoss
  split
  · exact .refl s
  · obtain ⟨d, hd⟩ : ∃ d, d = (s.dev.setDamper s.dev.power.pin false).powerLoss := ⟨_, rfl⟩
    rw [← hd]
    dsimp only
    split
    · exact settles_edit (.single (.ended _ 2 _ _ fun _ => by decide)) _
    · exact s.settles_dev _

theorem settles_cmdStoreDone (s : State) (ok : Bool) : s.Settles (s.cmdStoreDone ok) := by
  unfold State.cmdStoreDone
  split
  · exact .refl s
  next o _ =>
    extract_lets r
    have hr : s.vault.Edits r.1 := by
      cases ok
      · exact .refl
      · exact storeEnded_edits ..
    split
    · exact settles_edit hr _
    · split
      · exact settles_edit (hr.trans (bootFrom_edits _ _ _ _ _ _ fun _ => by decide)) _
      · exact settles_edit (hr.tail (.ended _ 3 _ _ fun _ => by decide)) _

/-! Writes and reads by number (R345, R356 to R361) -/

theorem settles_writeQuote (s : State) (n : Nat) (nonce : List Byte) : s.Settles (s.writeQuote n nonce).1 := by
  unfold State.writeQuote
  split
  · exact .refl s
  · split
    · exact .refl s
    · exact s.settles_dev _

theorem Settles.touched {s : State} {o : ObjDef} {r : State × Nat} (h : s.Settles r.1) : s.Settles (touched o r).1 := by
  unfold Machine.touched
  split
  · exact h.dev _
  · exact h

theorem settles_writeBlock (s : State) (o : ObjDef) (i e off : Nat) (bs : List Byte) : s.Settles (s.writeBlock o i e off bs).1 := by
  unfold State.writeBlock
  split
  · exact .refl s
  · split
    · split
      · exact .refl s
      · refine .touched ?_
        split
        · exact s.settles_dev _
        · split
          · exact s.settles_dev _
          · split
            · exact s.settles_writeQuote ..
            · exact s.settles_dev _
    · exact .refl s

theorem settles_dpMove (s : State) (write : Bool) : s.Settles (s.dpMove write).1 := by
  unfold State.dpMove
  extract_lets
  split
  · exact .refl s
  · split
    · exact .refl s
    · exact .refl s
    · split
      · exact .refl s
      · split
        · exact s.settles_writeBlock ..
        · split
          · exact .refl s
          · split
            · exact .refl s
            · exact s.settles_dev _

theorem settles_dpGo (s : State) (write : Bool) : s.Settles (s.dpGo write) := (s.settles_dpMove write).dev _

theorem settles_persistSave (s : State) : s.Settles s.persistSave := s.settles_dev _

theorem settles_restoreDefaults (s : State) : s.Settles s.restoreDefaults := settles_edit (.single (.defaults _ true)) _

theorem settles_descTarget (s : State) (v : Nat) : s.Settles (s.descTarget v) := s.settles_dev _

theorem settles_pilotWrite {s : State} {o : ObjDef} {v : Nat} {r : State × Nat} (h : s.pilotWrite o v = some r) : s.Settles r.1 := by
  unfold State.pilotWrite at h
  split_ifs at h <;> cases h
  · exact s.settles_persistSave
  · exact .refl s
  · exact s.settles_restoreDefaults
  · exact .refl s
  · exact s.settles_descTarget v
  · exact s.settles_dev _
  · exact s.settles_fwControl v
  · exact s.settles_fwConfirm v
  · exact s.settles_dev _
  · exact s.settles_dev _
  · exact (s.settles_dev _).trans (settles_writeWholeReset ..)

theorem settles_applyWrite (s : State) (who : Nat) (o : ObjDef) (i e v : Nat) : s.Settles (s.applyWrite who o i e v).1 := by
  unfold State.applyWrite
  split
  · exact .refl s
  · split
    · exact s.settles_dpGo _
    · split
      next h => exact settles_pilotWrite h
      · split
        · exact s.settles_dev _
        · exact s.settles_dev _

theorem settles_writeScalar (s : State) (who : Nat) (o : ObjDef) (i e v : Nat) : s.Settles (s.writeScalar who o i e v).1 :=
  .touched (s.settles_applyWrite ..)

theorem settles_setScalar (s : State) (who index sub v : Nat) : s.Settles (s.setScalar who index sub v).1 := by
  unfold State.setScalar
  split
  · exact s.settles_writeScalar ..
  · exact .refl s

theorem settles_given (s : State) (path : Path) (index sub v : Nat) : s.Settles (s.given path index sub v) := by
  unfold State.given
  extract_lets
  split
  · exact s.settles_dev _
  · exact (s.settles_setScalar ..).answer _

theorem settles_cmdObjectWrite (s : State) (path : Path) (index sub v : Nat) : s.Settles (s.cmdObjectWrite path index sub v) := by
  unfold State.cmdObjectWrite
  split
  · exact s.settles_given ..
  · exact s.settles_answer _

theorem settles_readTarget (s : State) (t : Target) (off len : Nat) : s.Settles (s.readTarget t off len).1 := by
  unfold State.readTarget
  split
  · exact .refl s
  · exact .refl s
  · split
    · exact .refl s
    · split
      · exact .refl s
      · exact s.settles_dev _

/-! Commands with a header (R356) -/

theorem settles_serveCmd (s : State) (path : Path) (hdr : Nat) (bs : List Byte) : s.Settles (s.serveCmd path hdr bs).1 := by
  unfold State.serveCmd
  extract_lets
  split
  · exact s.settles_readTarget ..
  · split
    · split
      · exact s.settles_writeBlock ..
      · exact s.settles_writeScalar ..
    · exact .refl s
  · exact .refl s
  · exact s.settles_dev _

theorem settles_finishCmd (s : State) (path : Path) (hdr : Nat) (bs : List Byte) : s.Settles (s.finishCmd path hdr bs) :=
  (s.settles_serveCmd path hdr bs).dev _

theorem settles_command (s : State) (path : Path) (hdr : Nat) (bs : List Byte) (fits : Bool) :
    s.Settles (s.command path hdr bs fits) := by
  unfold State.command
  split
  · extract_lets
    split
    · exact s.settles_dev _
    · exact s.settles_finishCmd ..
  · exact s.settles_dev _

theorem settles_carried (s : State) (op : Nat) (c : Carrier) : s.Settles (s.carried op c) := by
  unfold State.carried
  extract_lets
  split
  · exact .refl s
  · split
    · split
      · exact s.settles_command ..
      · exact .refl s
    · split
      split
      · exact (s.settles_dev _).trans (settles_command ..)
      · exact s.settles_dev _

theorem settles_onOne {s : State} {f : State → State} (v : Nat) (h : s.Settles (f s)) : s.Settles (s.onOne v f) := by
  unfold State.onOne
  split
  · exact s.settles_answer 4
  · split
    · exact h.answer 0
    · exact s.settles_answer 0

/-! The memory-mapped path (R361) -/

theorem settles_mmRead (s : State) (index sub lo hi : Nat) : s.Settles (s.mmRead index sub lo hi).1 := by
  unfold State.mmRead
  extract_lets t r
  have h : s.Settles r.1 := s.settles_readTarget ..
  split
  · exact h
  · exact h.dev _

theorem settles_mmWrite (s : State) (index sub : Nat) (bs : List Byte) : s.Settles (s.mmWrite index sub bs) := by
  unfold State.mmWrite
  extract_lets r
  have h : s.Settles r.1 := s.settles_setScalar ..
  split
  · exact h
  · exact h.dev _

theorem settles_mmSlot (s : State) (off : Nat) (data : Option (List Byte)) (x : Nat × Nat × Nat) (got : List Byte) :
    s.Settles (s.mmSlot off data x got).1 := by
  cases data with
  | some bs => exact s.settles_mmWrite ..
  | none => exact s.settles_mmRead ..

theorem settles_mmAccess (s : State) (off len : Nat) (data : Option (List Byte)) (next : Nat) (got : List Byte) (accepted : Bool) :
    s.Settles (s.mmAccess off len data next got accepted).1 := by
  unfold State.mmAccess
  extract_lets w
  refine List.foldlRecOn (motive := fun r : State × List Byte × Option Nat => s.Settles r.1) _ _ (.refl s) fun r h y _ => ?_
  extract_lets x
  split
  · exact h
  · split
    · exact h.trans (settles_mmSlot ..)
    · split
      · split
        · exact h
        · exact h.trans (settles_mmSlot ..)
      · exact h.dev _

theorem settles_mmHost (s : State) (off len : Nat) (data : Option (List Byte)) : s.Settles (s.mmHost off len data) := by
  have h := s.settles_mmAccess off len data 0 [] false
  unfold State.mmHost
  split
  next e => rw [e] at h; exact h.dev _
  next e => rw [e] at h; exact h.dev _

theorem settles_cmdBar (s : State) (table : Bool) (off len : Nat) (data : Option (List Byte)) : s.Settles (s.cmdBar table off len data) := by
  unfold State.cmdBar
  split
  · exact .refl s
  · split
    · exact s.settles_dev _
    · exact s.settles_mmHost ..

theorem settles_cmdWindowStore (s : State) (off : Nat) (bs : List Byte) (crc : List (Nat × Nat)) :
    s.Settles (s.cmdWindowStore off bs crc) := by
  unfold State.cmdWindowStore
  extract_lets d
  split
  · exact .refl s
  · split
    · exact s.settles_dev _
    · split
      · exact s.settles_dev _
      · split
        · exact s.settles_dev _
        · split
          · exact s.settles_mmHost ..
          · exact s.settles_dev _

theorem settles_cmdWindowLoad (s : State) (off len : Nat) (crc : List (Nat × Nat)) : s.Settles (s.cmdWindowLoad off len crc) := by
  unfold State.cmdWindowLoad
  extract_lets d
  split
  · exact .refl s
  · split
    · exact s.settles_dev _
    · split
      · exact s.settles_dev _
      · split
        · exact s.settles_dev _
        · split
          · exact s.settles_mmHost ..
          · exact s.settles_dev _

/-! The end of a tick (R365) -/

theorem settles_finishPath (s : State) (r : PathReq) : s.Settles (s.finishPath r).1 := by
  cases r with
  | cmd path hdr bs => exact s.settles_finishCmd ..
  | object path index sub v => exact (s.settles_setScalar ..).answer _
  | bar off len data next got =>
    have h := s.settles_mmAccess off len data next got true
    simp only [State.finishPath]
    split
    next e => rw [e] at h; exact h.dev _
    next e => rw [e] at h; exact h.dev _

theorem settles_serveOne (s : State) (t : Turned) : s.Settles (s.serveOne t) := by
  unfold State.serveOne
  extract_lets d q d'
  have h := (s.settles_dev d').trans (settles_finishPath _ t.req)
  split
  next e =>
  rw [e] at h
  split
  · exact h
  · exact h.dev _

theorem settles_servePaths (n : Nat) : ∀ s : State, s.Settles (s.servePaths n) := by
  induction n with
  | zero => exact .refl
  | succ n ih =>
    intro s
    unfold State.servePaths
    split
    · exact .refl s
    · exact (s.settles_serveOne _).trans (ih _)

theorem settles_cmdPass (s : State) (busy throttled : List Nat) : s.Settles (s.cmdPass busy throttled) :=
  (settles_servePaths 192 s).dev _

end State

/-! ### Every command -/

/-- Everything a command other than the start of the firmware can do to the queue and the vault. -/
theorem exec_settles (c : Instr) (s : State) (hc : ∀ ok0 ok1 recordOk, c ≠ .firmwareVerified ok0 ok1 recordOk) :
    ∃ t, exec c s = .next t ∧ s.Settles t := by
  cases c
  case firmwareVerified ok0 ok1 recordOk => exact absurd rfl (hc ok0 ok1 recordOk)
  case powerOn sel0 sel1 => exact ⟨_, rfl, s.settles_cmdPowerOn sel0 sel1⟩
  case resetN sel0 sel1 =>
    refine ⟨_, rfl, ?_⟩
    split
    · exact .refl s
    · exact s.settles_wholeReset (by decide) sel0 sel1
  case wholeReset v sel0 sel1 => exact ⟨_, rfl, s.settles_writeWholeReset v sel0 sel1⟩
  case fwBegin => exact ⟨_, rfl, State.settles_served s.settles_fwBegin⟩
  case fwProgram off => exact ⟨_, rfl, State.settles_served (s.settles_fwProgram off)⟩
  case fwVerify keyOk sigOk hashOk => exact ⟨_, rfl, State.settles_served (s.settles_fwVerify keyOk sigOk hashOk)⟩
  case fwActivate => exact ⟨_, rfl, State.settles_served s.settles_fwActivate⟩
  case fwUpdateAbort => exact ⟨_, rfl, State.settles_served s.settles_fwAbort⟩
  case fwConfirm v => exact ⟨_, rfl, State.settles_served (s.settles_fwConfirm v)⟩
  case quoteReq n nonce => exact ⟨_, rfl, State.settles_served ((s.settles_writeQuote n.val nonce).answer _)⟩
  case objectWrite path index sub v => exact ⟨_, rfl, s.settles_cmdObjectWrite path index sub v⟩
  case odRead c => exact ⟨_, rfl, s.settles_carried 1 c⟩
  case odWrite c => exact ⟨_, rfl, s.settles_carried 2 c⟩
  case describe c => exact ⟨_, rfl, s.settles_carried 3 c⟩
  case eventRead c => exact ⟨_, rfl, s.settles_carried 4 c⟩
  case eventOldestSeqRead path => exact ⟨_, rfl, s.settles_command ..⟩
  case dpGoRead => exact ⟨_, rfl, State.settles_served ((s.settles_dpGo false).answer 0)⟩
  case dpGoWrite => exact ⟨_, rfl, State.settles_served ((s.settles_dpGo true).answer 0)⟩
  case descTargetWrite v => exact ⟨_, rfl, State.settles_served ((s.settles_descTarget v).answer 0)⟩
  case persistSave v => exact ⟨_, rfl, State.settles_served (State.settles_onOne v s.settles_persistSave)⟩
  case persistRestoreDefaults v => exact ⟨_, rfl, State.settles_served (State.settles_onOne v s.settles_restoreDefaults)⟩
  case barAccess table off len data => exact ⟨_, rfl, s.settles_cmdBar table off len data⟩
  case hostWindowStore off data crc => exact ⟨_, rfl, s.settles_cmdWindowStore off data crc⟩
  case hostWindowLoad off len crc => exact ⟨_, rfl, s.settles_cmdWindowLoad off len crc⟩
  case inputLoss => exact ⟨_, rfl, s.settles_cmdInputLoss⟩
  case inputReversed => exact ⟨_, rfl, State.settles_edit (.single (.ended s.vault _ true _ id)) s.dev⟩
  case storeOperationDone ok => exact ⟨_, rfl, s.settles_cmdStoreDone ok⟩
  case schedulerPass busy throttled => exact ⟨_, rfl, s.settles_cmdPass busy throttled⟩
  -- Every other command changes the device alone.
  all_goals exact ⟨_, rfl, s.settles_dev _⟩

/-- What the start of the firmware leaves in the vault: its slot runs, defaults are no longer asked, and the confidential mode is the
one requested (R395, R436). -/
theorem runFirmware_vault (v : Vault) (d : Dev) (slot : Nat) (recordOk : Bool) :
    ∃ conf kept, (runFirmware v d slot recordOk).1 =
      { v with slotState := tset 0 v.slotState slot 4, persistDefaults := false, confidential := conf, kept := kept } := by
  unfold runFirmware
  extract_lets v1 ver d1 d2 d3 v2 d4 d5 n d6
  have h : ∀ d, ∃ conf kept, (confidentialLoad v2 d).1 = { v2 with confidential := conf, kept := kept } := by
    intro d
    unfold confidentialLoad
    extract_lets
    split
    · exact ⟨_, _, rfl⟩
    · exact ⟨_, _, rfl⟩
  exact h d6

/-- The start of the firmware leaves the queue as it was and a sound vault sound. -/
theorem State.cmdFirmware_keeps (s : State) (ok0 ok1 recordOk : Bool) :
    (s.cmdFirmware ok0 ok1 recordOk).pending = s.pending ∧ (s.Sound → (s.cmdFirmware ok0 ok1 recordOk).Sound) := by
  unfold State.cmdFirmware
  split
  · exact ⟨rfl, id⟩
  · split
    · exact ⟨rfl, id⟩
    next slot _ =>
      refine ⟨rfl, fun h => ?_⟩
      obtain ⟨hcode, hclass, hdef, hlast, hslot, hbytes⟩ := h
      obtain ⟨conf, kept, e⟩ := runFirmware_vault s.vault s.dev slot recordOk
      rw [State.sound_iff]
      dsimp only
      rw [e]
      exact ⟨hcode, hclass, hdef, hlast, slotStates_tset hslot slot (Nat.le_refl 4), hbytes⟩

/-- Every command answers a next state with the same commands waiting, sound where it began in a sound one. -/
theorem exec_next (c : Instr) (s : State) : ∃ t, exec c s = .next t ∧ t.pending = s.pending ∧ (s.Sound → t.Sound) := by
  by_cases hc : ∀ ok0 ok1 recordOk, c ≠ .firmwareVerified ok0 ok1 recordOk
  · obtain ⟨t, ht, hp, he⟩ := exec_settles c s hc
    exact ⟨t, ht, hp, he.sound⟩
  · push Not at hc
    obtain ⟨ok0, ok1, recordOk, rfl⟩ := hc
    exact ⟨_, rfl, s.cmdFirmware_keeps ok0 ok1 recordOk⟩

/-- Settles O50: the queue is a field that no operation on the state writes. -/
theorem everyCommandAnswersAndKeepsTheQueue : Obligations.EveryCommandAnswersAndKeepsTheQueue := by
  intro c s
  obtain ⟨t, ht, hp, -⟩ := exec_next c s
  exact ⟨t, ht, hp⟩

/-- Settles O52, through the edits of the vault: each of them keeps it sound. -/
theorem everyStepKeepsTheVaultSound : Obligations.EveryStepKeepsTheVaultSound := by
  intro s t hs ht
  unfold step at ht
  split at ht
  · cases ht
    exact hs
  next c rest _ =>
    obtain ⟨u, hu, -, hsound⟩ := exec_next c { s with pending := rest }
    cases hu.symm.trans ht
    exact hsound hs

/-- Settles O49. -/
theorem aStepRunsTheCommandInFront : Obligations.AStepRunsTheCommandInFront := by
  refine fun s c rest => ⟨fun h => ?_, fun h => ?_⟩
  · simp only [step, h]
  · simp only [step, show s.pending = [] from h]

end Sys2Proof.Machine
end

section
/-! What the boot ROM and the start of the firmware leave in the objects, operation by operation: which keys each can write, and what
it writes there. -/

namespace Sys2Proof.Machine

/-! ### Bits -/

theorem setBit_eq (v n : Nat) (b : Bool) : setBit v n b = 2 ^ n * Nat.bit b (v / 2 ^ n / 2) + v % 2 ^ n := by
  have hb : bits v n n = v / 2 ^ n % 2 := by simp [bits, Nat.shiftRight_eq_div_pow]
  have hv := Nat.div_add_mod v (2 ^ n)
  have hle : 2 ^ n * (v / 2 ^ n % 2) ≤ 2 ^ n * (v / 2 ^ n) := Nat.mul_le_mul_left _ (Nat.mod_le _ _)
  have hsplit : 2 ^ n * (v / 2 ^ n) = 2 ^ n * (2 * (v / 2 ^ n / 2)) + 2 ^ n * (v / 2 ^ n % 2) := by
    rw [← Nat.mul_add, Nat.div_add_mod]
  simp only [setBit, setBits, hb, Nat.shiftLeft_eq, Nat.add_sub_cancel_left, Nat.bit_val, Nat.mul_add, Nat.mul_comm _ (2 ^ n)]
  cases b <;> simp <;> omega

/-- A bit after one bit of the word has been written. -/
theorem bit_setBit (v n m : Nat) (b : Bool) : bit (setBit v n b) m = if m = n then b else bit v m := by
  have hv := Nat.testBit_two_pow_mul_add (v / 2 ^ n) (Nat.mod_lt v (Nat.two_pow_pos n)) m
  rw [Nat.div_add_mod] at hv
  rw [bit, bit, setBit_eq, Nat.testBit_two_pow_mul_add _ (Nat.mod_lt _ (Nat.two_pow_pos n)), hv]
  rcases Nat.lt_trichotomy m n with h | rfl | h
  · simp [h, Nat.ne_of_lt h]
  · simp
  · obtain ⟨k, rfl⟩ : ∃ k, m = n + k + 1 := ⟨m - n - 1, by omega⟩
    have hk : n + k + 1 - n = k + 1 := by omega
    simp [hk, show ¬ n + k + 1 < n by omega, show ¬ n + k + 1 = n by omega, Nat.testBit_succ]

/-- A bit of an object after one of its bits has been written. -/
theorem Dev.bit_get_putBit (d : Dev) (o : ObjDef) (n m i : Nat) (b : Bool) (hm : m < o.bitsOf) :
    bit ((d.putBit o n b i).get o i) m = if m = n then b else bit (d.get o i) m := by
  rw [Dev.putBit, Dev.get_put_self, bit, Nat.testBit_mod_two_pow, decide_eq_true hm, Bool.true_and]
  exact bit_setBit ..

theorem Dev.get_putBit_ne {d : Dev} {o o' : ObjDef} {n i i' e' : Nat} {b : Bool} (h : o'.key i' e' ≠ o.key i 0) :
    (d.putBit o n b i).get o' i' e' = d.get o' i' e' := Dev.get_put_ne _ _ h

/-! ### Folds over units -/

/-- What one item of a list establishes and no other undoes holds after the fold. -/
theorem foldl_establishes {α β : Type} {P : β → Prop} {f : β → α → β} {a : α} (hset : ∀ b, P (f b a))
    (hkeep : ∀ b x, x ≠ a → P b → P (f b x)) {l : List α} (ha : a ∈ l) (b : β) : P (l.foldl f b) := by
  have keep : ∀ (l : List α) b, P b → P (l.foldl f b) := by
    intro l
    induction l with
    | nil => exact fun b h => h
    | cons x l ih =>
      intro b h
      by_cases hx : x = a
      · exact ih _ (hx ▸ hset b)
      · exact ih _ (hkeep b x hx h)
  induction l generalizing b with
  | nil => cases ha
  | cons x l ih =>
    rcases List.mem_cons.mp ha with rfl | hm
    · exact keep l _ (hset b)
    · exact ih hm _

/-- What no item of a list changes is the same after the fold. -/
theorem foldl_same {α β γ : Type} {g : β → γ} {f : β → α → β} {l : List α} (h : ∀ b, ∀ x ∈ l, g (f b x) = g b) (b : β) :
    g (l.foldl f b) = g b := by
  induction l generalizing b with
  | nil => rfl
  | cons x l ih => exact (ih (fun b y hy => h b y (List.mem_cons_of_mem _ hy)) _).trans (h b x (List.mem_cons_self ..))

/-! ### Measurements and the store -/

theorem Dev.get_extend {d : Dev} {n : Nat} {bs : List Byte} {o : ObjDef} {i e : Nat} (h : o.key i e ≠ Obj.MEAS_EXTENDS.key 0 0) :
    (d.extend n bs).get o i e = d.get o i e := Dev.get_bump_ne h

theorem Dev.bump_same_od (d : Dev) (o : ObjDef) (i n e : Nat) : ∃ od, d.bump o i n e = { d with od := od } := by
  unfold Dev.bump
  split <;> exact ⟨_, rfl⟩

/-- Extending a measurement register changes objects and bytes of objects alone. -/
theorem Dev.extend_shape (d : Dev) (n : Nat) (bs : List Byte) : ∃ od dom, d.extend n bs = { d with od := od, dom := dom } := by
  obtain ⟨od, h⟩ := Dev.bump_same_od (d.domWrite Obj.MEAS_REGISTERS (48 * n)
    (digest (d.domRead Obj.MEAS_REGISTERS (48 * n) 48 ++ bs))) Obj.MEAS_EXTENDS 0 1 0
  exact ⟨od, _, h⟩

theorem Dev.extend_memory (d : Dev) (n : Nat) (bs : List Byte) : (d.extend n bs).hbm = d.hbm ∧ (d.extend n bs).slow = d.slow := by
  obtain ⟨od, dom, e⟩ := d.extend_shape n bs
  rw [e]
  exact ⟨rfl, rfl⟩

/-- Queueing the record of a boot count changes the store's queue at most. -/
theorem Dev.queueBootCount_shape (d : Dev) (n : Nat) : ∃ st, d.queueStore (.bootCount n) = { d with store := st } := by
  unfold Dev.queueStore
  split
  · exact ⟨_, rfl⟩
  · split <;> exact ⟨_, rfl⟩

/-- Comparing the mirrors changes the store's queue and PERSIST_STATE at most. -/
theorem Dev.compareMirrors_shape (d : Dev) (v : Vault) :
    ∃ od st, d.compareMirrors v = { d with od := od, store := st } ∧ d.SameObjects { d with od := od } [Obj.PERSIST_STATE.key 0 0] := by
  have hfold : ∀ (l : List (Nat × Nat × Nat)) (d : Dev), ∃ st,
      l.foldl (fun (d : Dev) (h : Nat × Nat × Nat) => d.pushStore ⟨.repair h.1 h.2.1, h.2.2, false⟩) d = { d with store := st } := by
    intro l
    induction l with
    | nil => exact fun d => ⟨_, rfl⟩
    | cons h l ih => exact fun d => ⟨_, (ih _).choose_spec⟩
  unfold Dev.compareMirrors
  extract_lets areas owed d1
  obtain ⟨st, hst⟩ : ∃ st, d1 = { d with store := st } := hfold owed d
  rw [hst]
  split
  · exact ⟨_, st, rfl, (Dev.put_onlyOd (by simp)).2⟩
  · exact ⟨_, st, rfl, fun _ _ => rfl⟩

theorem Dev.get_compareMirrors {d : Dev} {v : Vault} {o : ObjDef} {i e : Nat} (h : o.key i e ≠ Obj.PERSIST_STATE.key 0 0) :
    (d.compareMirrors v).get o i e = d.get o i e := by
  obtain ⟨od, st, he, hs⟩ := d.compareMirrors_shape v
  rw [he]
  exact hs.get (by simpa using h)

/-! ### The persistent record (R350, R351) -/

/-- What the record holds at a key that a table in canonical form is read at. -/
theorem tget_filter {α : Type} {d : α} {p : Nat → Bool} {k : Nat} (h : p k = true) (t : Tab α) :
    tget d (t.filter fun x => p x.1) k = tget d t k := by
  induction t with
  | nil => rfl
  | cons x t ih =>
    obtain ⟨j, v⟩ := x
    by_cases hj : p j = true
    · simp [List.filter, hj, tget, ih]
    · have hne : k ≠ j := by rintro rfl; exact hj h
      simp [List.filter, hj, tget, hne, ih]

/-- Keys below the first of a table in canonical form read as unlisted. -/
theorem tget_of_lt {α : Type} [DecidableEq α] {d : α} {t : Tab α} : ∀ {lo k : Nat}, twfFrom d lo t = true → k < lo → tget d t k = d := by
  induction t with
  | nil => intros; rfl
  | cons x t ih =>
    intro lo k h hk
    simp only [twfFrom, Bool.and_eq_true, decide_eq_true_eq] at h
    obtain ⟨⟨hlo, -⟩, ht⟩ := h
    rw [tget, if_neg (by omega)]
    exact ih ht (by omega)

/-- Copying the entries of a table in canonical form over another gives its values where it lists them. -/
theorem tget_foldl_tset {α : Type} [DecidableEq α] {d : α} {t : Tab α} :
    ∀ {lo : Nat} {m : Tab α} {k : Nat}, twfFrom d lo t = true →
      tget d (t.foldl (fun m x => tset d m x.1 x.2) m) k = if tget d t k = d then tget d m k else tget d t k := by
  induction t with
  | nil => intros; simp [tget]
  | cons x t ih =>
    intro lo m k h
    obtain ⟨j, v⟩ := x
    simp only [twfFrom, Bool.and_eq_true, decide_eq_true_eq] at h
    obtain ⟨⟨-, hv⟩, ht⟩ := h
    rw [List.foldl_cons, ih ht, tget]
    by_cases hk : k = j
    · subst hk
      simp [tget_of_lt ht (Nat.lt_succ_self k), hv]
    · simp [hk, tget_tset_ne d hk]

/-- Copying entries leaves a key that none of them has as it was. -/
theorem tget_foldl_tset_ne {α : Type} [DecidableEq α] {d : α} {k : Nat} {t : Tab α} (h : ∀ x ∈ t, x.1 ≠ k) (m : Tab α) :
    tget d (t.foldl (fun m x => tset d m x.1 x.2) m) k = tget d m k :=
  foldl_same (g := fun m => tget d m k) (fun m x hx => tget_tset_ne d (Ne.symm (h x hx)) m x.2) m

theorem isPKey_powerCap : isPKey (Obj.POWER_CAP_W.key 0 0) = true := by decide +kernel

/-- Loading the record writes keys of P objects alone (R349). -/
theorem Dev.get_loadRecord {d : Dev} {v : Vault} {o : ObjDef} {i e : Nat} (h : isPKey (o.key i e) = false) :
    (d.loadRecord v).get o i e = d.get o i e := by
  have hcap : o.key i e ≠ Obj.POWER_CAP_W.key 0 0 := by
    intro hk
    rw [hk, isPKey_powerCap] at h
    cases h
  have hrec : ∀ x ∈ v.persistOd.filter fun x => isPKey x.1, x.1 ≠ o.key i e := by
    intro x hx hk
    rw [List.mem_filter, hk, h] at hx
    cases hx.2
  unfold Dev.loadRecord
  extract_lets env ods doms d1
  rw [Dev.get_put_ne _ _ hcap]
  simp only [Dev.get, d1, ods, tget_foldl_tset_ne hrec]

/-- The value that the record holds for a P object other than the cap is the one loaded. -/
theorem Dev.get_loadRecord_of_saved {d : Dev} {v : Vault} {o : ObjDef} {i e w : Nat} (hwf : twf 0 v.persistOd = true)
    (hp : isPKey (o.key i e) = true) (hcap : o.key i e ≠ Obj.POWER_CAP_W.key 0 0) (hw : tget 0 v.persistOd (o.key i e) = w + 1) :
    (d.loadRecord v).get o i e = w := by
  have hf : twf 0 (v.persistOd.filter fun x => isPKey x.1) = true := by
    simpa [twf] using twfFrom_filter (fun k => !isPKey k) hwf
  unfold Dev.loadRecord
  extract_lets env ods doms d1
  rw [Dev.get_put_ne _ _ hcap]
  simp [Dev.get, d1, ods, tget_foldl_tset hf, tget_filter hp, hw]

/-- Everything loading P objects can change of an object that is no P object: PERSIST_SOURCE, and what an event changes. -/
theorem Dev.get_loadPersist {d : Dev} {v : Vault} {recordOk : Bool} {o : ObjDef} {i e : Nat} (hp : isPKey (o.key i e) = false)
    (hs : o.key i e ≠ Obj.PERSIST_SOURCE.key 0 0) (hk : o.key i e ∉ eventKeys) : (d.loadPersist v recordOk).get o i e = d.get o i e := by
  unfold Dev.loadPersist
  split
  · exact Dev.get_put_ne _ _ hs
  · split
    · rfl
    · split
      · exact Dev.get_loadRecord hp
      · rw [Dev.get_raise _ _ _ _ _ _ _ hk, Dev.get_put_ne _ _ hs]

/-- Loading P objects leaves the memories as they were. -/
theorem Dev.loadPersist_memory (d : Dev) (v : Vault) (recordOk : Bool) :
    (d.loadPersist v recordOk).hbm = d.hbm ∧ (d.loadPersist v recordOk).slow = d.slow := by
  unfold Dev.loadPersist
  split
  · exact ⟨rfl, rfl⟩
  · split
    · exact ⟨rfl, rfl⟩
    · split
      · exact ⟨rfl, rfl⟩
      · exact ⟨by simp, by simp⟩

/-- Where P objects came from (R351). -/
theorem Dev.get_source_loadPersist (d : Dev) (v : Vault) (recordOk : Bool) :
    (v.persistDefaults = true → (d.loadPersist v recordOk).get Obj.PERSIST_SOURCE = 2) ∧
    (v.persistDefaults = false → v.persistValid = true → recordOk = false → (d.loadPersist v recordOk).get Obj.PERSIST_SOURCE = 1) := by
  refine ⟨fun h => ?_, fun h hv hr => ?_⟩
  · simp only [Dev.loadPersist, h, if_true]
    exact Dev.get_put_self ..
  · simp only [Dev.loadPersist, h, hv, hr]
    simp only [Bool.false_eq_true, if_false, Bool.not_true]
    rw [Dev.get_raise _ _ _ _ _ _ _ (by decide)]
    exact Dev.get_put_self ..

/-! ### The confidential mode (R436) -/

theorem confidentialLoad_vault (v : Vault) (d : Dev) :
    ∃ kept, (confidentialLoad v d).1 = { v with confidential := decide (d.get Obj.CONFIDENTIAL_REQUEST = 1), kept := kept } := by
  unfold confidentialLoad
  extract_lets want d1
  split
  next h => exact ⟨v.kept, by rw [show decide (d.get Obj.CONFIDENTIAL_REQUEST = 1) = v.confidential from h]⟩
  · exact ⟨false, rfl⟩

/-- The objects after the confidential mode has been put in force. -/
theorem confidentialLoad_od (v : Vault) (d : Dev) :
    (confidentialLoad v d).2.od = (d.put Obj.CONFIDENTIAL_ACTIVE (if d.get Obj.CONFIDENTIAL_REQUEST = 1 then 1 else 0)).od := by
  unfold confidentialLoad
  extract_lets want d1
  have hd : d1 = d.put Obj.CONFIDENTIAL_ACTIVE (if d.get Obj.CONFIDENTIAL_REQUEST = 1 then 1 else 0) := by simp [d1, want]
  split <;> rw [hd]

theorem Dev.get_of_od {d d' : Dev} (h : d'.od = d.od) (o : ObjDef) (i e : Nat) : d'.get o i e = d.get o i e := by simp only [Dev.get, h]

theorem get_confidentialLoad_active (v : Vault) (d : Dev) :
    (confidentialLoad v d).2.get Obj.CONFIDENTIAL_ACTIVE = if d.get Obj.CONFIDENTIAL_REQUEST = 1 then 1 else 0 := by
  rw [Dev.get_of_od (confidentialLoad_od v d), Dev.get_put_self]
  split <;> rfl

theorem get_confidentialLoad {v : Vault} {d : Dev} {o : ObjDef} {i e : Nat} (h : o.key i e ≠ Obj.CONFIDENTIAL_ACTIVE.key 0 0) :
    (confidentialLoad v d).2.get o i e = d.get o i e := by
  rw [Dev.get_of_od (confidentialLoad_od v d), Dev.get_put_ne _ _ h]

/-- A change of the mode leaves no byte of HBM and of the slow tiers, and no change leaves them as they were. -/
theorem confidentialLoad_memory (v : Vault) (d : Dev) :
    ((confidentialLoad v d).1.confidential = v.confidential → (confidentialLoad v d).2.hbm = d.hbm ∧ (confidentialLoad v d).2.slow = d.slow) ∧
    ((confidentialLoad v d).1.confidential ≠ v.confidential → (confidentialLoad v d).2.hbm = [] ∧ (confidentialLoad v d).2.slow = []) := by
  unfold confidentialLoad
  extract_lets want d1
  split
  · exact ⟨fun _ => ⟨rfl, rfl⟩, fun h => absurd rfl h⟩
  next h => exact ⟨fun he => absurd he h, fun _ => ⟨rfl, rfl⟩⟩

/-! ### Units start (R394) -/

/-- A fold over units writes the keys of each. -/
theorem Dev.foldl_onlyOd {α : Type} {f : Dev → α → Dev} {ks : α → List Nat} (h : ∀ (d : Dev) (x : α), d.OnlyOd (f d x) (ks x)) (l : List α) :
    ∀ d : Dev, d.OnlyOd (l.foldl f d) (l.flatMap ks) := by
  induction l with
  | nil => exact fun d => .same d _
  | cons x l ih => exact fun d => ((h d x).mono (by simp)).trans ((ih _).mono (by simp))

/-- Keys that the start of region `g`, of Stoker `k` and of the chunks of hearth `h` writes. -/
def regionStartKeys (g : Nat) : List Nat := [Obj.REGION_STATE.key g 0, Obj.CLOCK_STATE.key g 0]
def stokerStartKeys (k : Nat) : List Nat := [Obj.STOKER_STATE.key k 0]
def hearthStartKeys (h : Nat) : List Nat := [Obj.FW_CHUNKS_MISSING.key h 0]

/-- Keys that show the lanes of port `p`. -/
def laneShownKeys (p : Nat) : List Nat := [Obj.TX_LANES.key p 0, Obj.RX_LANES.key p 0, Obj.LANES_DOWN.key p 0] ++ Obj.LANE_STATE.keys p

/-- Keys that the units' start writes. -/
def startKeys : List Nat :=
  (List.range 16).flatMap regionStartKeys ++ (List.range 2).flatMap stokerStartKeys ++ (List.range 1024).flatMap hearthStartKeys ++
  (List.range 16).flatMap laneKeys

theorem Dev.showLanes_onlyOd (d : Dev) (p : Nat) : d.OnlyOd (d.showLanes p) (laneShownKeys p) := by
  unfold Dev.showLanes
  extract_lets x st on d1 d2 d3
  have h1 : d.OnlyOd d1 (laneShownKeys p) := Dev.put_onlyOd (by simp [laneShownKeys])
  have h2 : d.OnlyOd d2 (laneShownKeys p) := h1.trans (Dev.put_onlyOd (by simp [laneShownKeys]))
  have h3 : d.OnlyOd d3 (laneShownKeys p) := h2.trans (Dev.put_onlyOd (by simp [laneShownKeys]))
  clear_value d1 d2 d3
  refine h3.trans ?_
  refine List.foldlRecOn (motive := fun d' => d3.OnlyOd d' _) _ _ (.same ..) fun d' h n hn => h.trans (Dev.put_onlyOd ?_)
  exact List.mem_append_right _ (List.mem_map.mpr ⟨n, by simpa [Obj.LANE_STATE] using hn, rfl⟩)

/-- An element of a port at a subindex of its own stands apart from the lanes that are shown. -/
theorem portKey_not_shown {o : ObjDef} (hb : o.base = 0x13000) (hk : o.kind = .port) (hlo : o.lo < 4) (p q : Nat) :
    o.key q 0 ∉ laneShownKeys p := by
  simp only [laneShownKeys, ObjDef.keys, ObjDef.key, hb, hk, Obj.TX_LANES, Obj.RX_LANES, Obj.LANES_DOWN, Obj.LANE_STATE, Kind.stride,
    List.mem_append, List.mem_cons, List.mem_map, List.mem_range, List.not_mem_nil, or_false]
  rintro ((h | h | h) | ⟨n, hn, h⟩) <;> omega

/-- The start of a port: it trains, or is DISABLED, as its PORT_CTL says. -/
def Dev.startPort (d : Dev) (p : Nat) : Dev := (d.put Obj.PORT_STATE (if d.get Obj.PORT_CTL p = 1 then 2 else 0) p).showLanes p

theorem Dev.startPort_onlyOd (d : Dev) (p : Nat) : d.OnlyOd (d.startPort p) (laneKeys p) :=
  .trans (Dev.put_onlyOd (by simp [laneKeys])) ((Dev.showLanes_onlyOd ..).mono (by simp [laneKeys, laneShownKeys]))

theorem Dev.get_control_startPort (d : Dev) (p q : Nat) : (d.startPort p).get Obj.PORT_CTL q = d.get Obj.PORT_CTL q := by
  rw [Dev.startPort, (Dev.showLanes_onlyOd ..).get (portKey_not_shown rfl rfl (by decide) p q)]
  exact Dev.get_put_ne _ _ (by simp [ObjDef.key, Obj.PORT_CTL, Obj.PORT_STATE, Kind.stride]; omega)

theorem Dev.get_state_startPort (d : Dev) (p : Nat) : (d.startPort p).get Obj.PORT_STATE p = if d.get Obj.PORT_CTL p = 1 then 2 else 0 := by
  rw [Dev.startPort, (Dev.showLanes_onlyOd ..).get (portKey_not_shown rfl rfl (by decide) p p), Dev.get_put_self]
  split <;> rfl

theorem Dev.get_state_startPort_ne (d : Dev) {p q : Nat} (h : p ≠ q) : (d.startPort p).get Obj.PORT_STATE q = d.get Obj.PORT_STATE q := by
  rw [Dev.startPort, (Dev.showLanes_onlyOd ..).get (portKey_not_shown rfl rfl (by decide) p q)]
  exact Dev.get_put_ne _ _ (by simp [ObjDef.key, Obj.PORT_STATE, Kind.stride]; omega)

/-- After all ports have started each of them trains or is DISABLED, as its PORT_CTL says. -/
theorem Dev.get_state_startPorts (d : Dev) {p : Nat} (hp : p < 16) :
    ((List.range 16).foldl Dev.startPort d).get Obj.PORT_STATE p =
      if ((List.range 16).foldl Dev.startPort d).get Obj.PORT_CTL p = 1 then 2 else 0 := by
  refine foldl_establishes (P := fun d : Dev => d.get Obj.PORT_STATE p = if d.get Obj.PORT_CTL p = 1 then 2 else 0) (fun d => ?_)
    (fun d x hx h => ?_) (List.mem_range.mpr hp) d
  · rw [Dev.get_state_startPort, Dev.get_control_startPort]
  · rw [Dev.get_state_startPort_ne d hx, Dev.get_control_startPort, h]

/-- After all regions have started each of them locks its PLL. -/
theorem Dev.get_startRegions (d : Dev) {g : Nat} (hg : g < 16) :
    ((List.range 16).foldl (fun d g => (d.put Obj.REGION_STATE 1 g).put Obj.CLOCK_STATE 1 g) d).get Obj.REGION_STATE g = 1 ∧
    ((List.range 16).foldl (fun d g => (d.put Obj.REGION_STATE 1 g).put Obj.CLOCK_STATE 1 g) d).get Obj.CLOCK_STATE g = 1 := by
  have hne : ∀ x y, Obj.REGION_STATE.key x 0 ≠ Obj.CLOCK_STATE.key y 0 := by
    intro x y
    simp only [ObjDef.key, Obj.REGION_STATE, Obj.CLOCK_STATE, Kind.stride]
    omega
  refine foldl_establishes (P := fun d : Dev => d.get Obj.REGION_STATE g = 1 ∧ d.get Obj.CLOCK_STATE g = 1) (fun d => ?_)
    (fun d x hx h => ?_) (List.mem_range.mpr hg) d
  · exact ⟨(Dev.get_put_ne _ _ (hne g g)).trans (Dev.get_put_self ..), Dev.get_put_self ..⟩
  · obtain ⟨hr, hc⟩ := h
    constructor
    · rw [Dev.get_put_ne _ _ (hne g x), Dev.get_put_ne, hr]
      simp only [ObjDef.key, Kind.stride, Obj.REGION_STATE]
      omega
    · rw [Dev.get_put_ne, Dev.get_put_ne _ _ (hne x g).symm, hc]
      simp only [ObjDef.key, Kind.stride, Obj.CLOCK_STATE]
      omega

theorem Dev.get_startStokers (d : Dev) {k : Nat} (hk : k < 2) :
    ((List.range 2).foldl (fun d t => d.put Obj.STOKER_STATE 1 t) d).get Obj.STOKER_STATE k = 1 := by
  refine foldl_establishes (P := fun d : Dev => d.get Obj.STOKER_STATE k = 1) (fun d => Dev.get_put_self ..) (fun d x hx h => ?_)
    (List.mem_range.mpr hk) d
  rw [Dev.get_put_ne, h]
  simp only [ObjDef.key, Kind.stride, Obj.STOKER_STATE]
  omega

theorem not_mem_portKeys {k : Nat} (hk : k < 0x13000 * 256 ∨ 0x14000 * 256 ≤ k) : k ∉ (List.range 16).flatMap laneKeys := by
  simp only [laneKeys, ObjDef.keys, ObjDef.key, Obj.PORT_STATE, Obj.TX_LANES, Obj.RX_LANES, Obj.LANES_DOWN, Obj.LANE_STATE, Kind.stride,
    List.mem_flatMap, List.mem_append, List.mem_cons, List.mem_map, List.mem_range, List.not_mem_nil, or_false]
  rintro ⟨p, hp, (h | h | h | h) | ⟨n, hn, h⟩⟩ <;> omega

theorem not_mem_hearthKeys {k : Nat} (hk : k < 0x20000 * 256 ∨ 0x30000 * 256 ≤ k) : k ∉ (List.range 1024).flatMap hearthStartKeys := by
  simp only [hearthStartKeys, ObjDef.key, Obj.FW_CHUNKS_MISSING, Kind.stride, List.mem_flatMap, List.mem_cons, List.mem_range,
    List.not_mem_nil, or_false]
  rintro ⟨h, hh, e⟩
  omega

theorem not_mem_stokerKeys {k : Nat} (hk : k < 0x31000 * 256) : k ∉ (List.range 2).flatMap stokerStartKeys := by
  simp only [stokerStartKeys, ObjDef.key, Obj.STOKER_STATE, Kind.stride, List.mem_flatMap, List.mem_cons, List.mem_range,
    List.not_mem_nil, or_false]
  rintro ⟨t, ht, e⟩
  omega

theorem not_mem_regionKeys {k : Nat} (hk : k < 0x11000 * 256 ∨ 0x12000 * 256 ≤ k) : k ∉ (List.range 16).flatMap regionStartKeys := by
  simp only [regionStartKeys, ObjDef.key, Obj.REGION_STATE, Obj.CLOCK_STATE, Kind.stride, List.mem_flatMap, List.mem_cons, List.mem_range,
    List.not_mem_nil, or_false]
  rintro ⟨g, hg, e | e⟩ <;> omega

/-- No key of a device-global object is among those that the units' start writes. -/
theorem not_mem_startKeys {k : Nat} (hk : k < 0x10000 * 256) : k ∉ startKeys := by
  simp only [startKeys, List.mem_append, not_or]
  exact ⟨⟨⟨not_mem_regionKeys (by omega), not_mem_stokerKeys (by omega)⟩, not_mem_hearthKeys (by omega)⟩, not_mem_portKeys (by omega)⟩

/-- What the units' start shows: regions and Stokers start, and each port trains or is DISABLED as its PORT_CTL says. -/
theorem Dev.startUnits_spec (d : Dev) :
    d.OnlyOd d.startUnits startKeys ∧ (∀ g < 16, d.startUnits.get Obj.REGION_STATE g = 1 ∧ d.startUnits.get Obj.CLOCK_STATE g = 1) ∧
    (∀ k < 2, d.startUnits.get Obj.STOKER_STATE k = 1) ∧
    (∀ p < 16, d.startUnits.get Obj.PORT_STATE p = if d.startUnits.get Obj.PORT_CTL p = 1 then 2 else 0) := by
  unfold Dev.startUnits
  extract_lets d1 d2 d3
  have k1 : d.OnlyOd d1 ((List.range 16).flatMap regionStartKeys) :=
    Dev.foldl_onlyOd (fun d g => .trans (Dev.put_onlyOd (by simp [regionStartKeys])) (Dev.put_onlyOd (by simp [regionStartKeys]))) _ d
  have k2 : d1.OnlyOd d2 ((List.range 2).flatMap stokerStartKeys) := Dev.foldl_onlyOd (fun d t => Dev.put_onlyOd (by simp [stokerStartKeys])) _ d1
  have k3 : d2.OnlyOd d3 ((List.range 1024).flatMap hearthStartKeys) :=
    Dev.foldl_onlyOd (fun d h => Dev.put_onlyOd (by simp [hearthStartKeys])) _ d2
  have k4 := Dev.foldl_onlyOd Dev.startPort_onlyOd (List.range 16) d3
  refine ⟨?_, fun g hg => ?_, fun k hk => ?_, fun p hp => d3.get_state_startPorts hp⟩
  · refine (k1.mono fun k hk => ?_).trans ((k2.mono fun k hk => ?_).trans ((k3.mono fun k hk => ?_).trans (k4.mono fun k hk => ?_))) <;>
      simp only [startKeys, List.mem_append, hk, true_or, or_true]
  · have after : ∀ {o : ObjDef}, o.base < 0x11100 → o.kind = .region → o.lo < 256 →
        ((List.range 16).foldl Dev.startPort d3).get o g = d1.get o g := by
      intro o hb hkind hlo
      have hkey : o.key g 0 < 0x13000 * 256 := by
        simp only [ObjDef.key, hkind, Kind.stride]
        omega
      rw [k4.get (not_mem_portKeys (.inl hkey)), k3.get (not_mem_hearthKeys (by omega)), k2.get (not_mem_stokerKeys (by omega))]
    obtain ⟨hr, hc⟩ := d.get_startRegions hg
    exact ⟨(after (by decide) rfl (by decide)).trans hr, (after (by decide) rfl (by decide)).trans hc⟩
  · have hkey : 0x31000 * 256 ≤ Obj.STOKER_STATE.key k 0 := by
      simp only [ObjDef.key, Obj.STOKER_STATE, Kind.stride]
      omega
    exact (k4.get (not_mem_portKeys (by omega))).trans ((k3.get (not_mem_hearthKeys (by omega))).trans (d1.get_startStokers hk))

theorem Dev.get_startUnits {d : Dev} {o : ObjDef} {i e : Nat} (h : o.key i e < 0x10000 * 256) : d.startUnits.get o i e = d.get o i e :=
  d.startUnits_spec.1.get (not_mem_startKeys h)

/-! ### The boot ROM (R394, R411, R442) -/

/-- A strap fault of pin `i` is shown, latched and reported (R442). -/
def Dev.showStrapFault (v : Vault) (d : Dev) (i : Nat) : Dev :=
  if bit v.strapFaults i then
    ((d.putBit Obj.SIDEBAND_STATUS (2 + i) true).putBit Obj.SIDEBAND_FAULTS (2 + i) true).raise Event.strapFault .global 0
  else d

/-- Bits of SIDEBAND_STATUS and SIDEBAND_FAULTS after the fault of one pin is shown. -/
theorem Dev.bit_showStrapFault (v : Vault) (d : Dev) (i : Nat) {m : Nat} (hm : m < 32) :
    bit ((d.showStrapFault v i).get Obj.SIDEBAND_STATUS) m =
      (if bit v.strapFaults i = true ∧ m = 2 + i then true else bit (d.get Obj.SIDEBAND_STATUS) m) ∧
    bit ((d.showStrapFault v i).get Obj.SIDEBAND_FAULTS) m =
      (if bit v.strapFaults i = true ∧ m = 2 + i then true else bit (d.get Obj.SIDEBAND_FAULTS) m) := by
  have hstatus : m < Obj.SIDEBAND_STATUS.bitsOf := hm
  have hfaults : m < Obj.SIDEBAND_FAULTS.bitsOf := hm
  unfold Dev.showStrapFault
  split
  next h =>
    simp only [h, true_and]
    constructor
    · rw [Dev.get_raise _ _ _ _ _ _ _ (by decide), Dev.get_putBit_ne (by decide), Dev.bit_get_putBit _ _ _ _ _ _ hstatus]
    · rw [Dev.get_raise _ _ _ _ _ _ _ (by decide), Dev.bit_get_putBit _ _ _ _ _ _ hfaults, Dev.get_putBit_ne (by decide)]
  next h => simp [h]

/-- Each pin whose strap reads at fault is shown and latched once both have been looked at. -/
theorem Dev.bit_showStrapFaults (v : Vault) (d : Dev) {k : Nat} (hk : k < 2) (h : bit v.strapFaults k = true) :
    bit (((List.range 2).foldl (Dev.showStrapFault v) d).get Obj.SIDEBAND_STATUS) (2 + k) = true ∧
    bit (((List.range 2).foldl (Dev.showStrapFault v) d).get Obj.SIDEBAND_FAULTS) (2 + k) = true := by
  refine foldl_establishes (P := fun d : Dev => bit (d.get Obj.SIDEBAND_STATUS) (2 + k) = true ∧ bit (d.get Obj.SIDEBAND_FAULTS) (2 + k) = true)
    (fun d => ?_) (fun d x hx hd => ?_) (List.mem_range.mpr hk) d
  · obtain ⟨hs, hf⟩ := Dev.bit_showStrapFault v d k (m := 2 + k) (by omega)
    simp [hs, hf, h]
  · obtain ⟨hs, hf⟩ := Dev.bit_showStrapFault v d x (m := 2 + k) (by omega)
    rw [hs, hf]
    have hne : ¬ (bit v.strapFaults x = true ∧ 2 + k = 2 + x) := by omega
    simpa only [if_neg hne] using hd

theorem envelopeOf_lt (c : Nat) : envelopeOf c < 2 ^ 16 := by
  unfold envelopeOf
  split
  · decide
  · split <;> decide

/-- A device in the boot ROM with a cap in watts, these memories and fresh hearths, that shows a strap fault for each bit of `faults`. -/
def Dev.Booting (d : Dev) (cap : Nat) (hbm : Tab Sector) (slow : Tab SlowLine) (faults : Nat) : Prop :=
  d.get Obj.BOOT_STATE = 1 ∧ d.get Obj.POWER_CAP_W = cap ∧
  (∀ k < 2, bit faults k = true → bit (d.get Obj.SIDEBAND_STATUS) (2 + k) = true ∧ bit (d.get Obj.SIDEBAND_FAULTS) (2 + k) = true) ∧
  d.hbm = hbm ∧ d.slow = slow ∧ d.hearths = []

section
variable {d : Dev} {cap faults : Nat} {hbm : Tab Sector} {slow : Tab SlowLine}

theorem Dev.Booting.extend (h : d.Booting cap hbm slow faults) (n : Nat) (bs : List Byte) : (d.extend n bs).Booting cap hbm slow faults := by
  obtain ⟨hb, hc, hf, hm⟩ := h
  refine ⟨(Dev.get_extend (by decide)).trans hb, (Dev.get_extend (by decide)).trans hc, fun k hk hfault => ?_, ?_⟩
  · rw [Dev.get_extend (by decide), Dev.get_extend (by decide)]
    exact hf k hk hfault
  · obtain ⟨od, dom, e⟩ := d.extend_shape n bs
    rw [e]
    exact hm

theorem Dev.Booting.raise (h : d.Booting cap hbm slow faults) (ev : Ev) : (d.raise ev .global 0).Booting cap hbm slow faults := by
  obtain ⟨hb, hc, hf, hm⟩ := h
  refine ⟨(Dev.get_raise _ _ _ _ _ _ _ (by decide)).trans hb, (Dev.get_raise _ _ _ _ _ _ _ (by decide)).trans hc, fun k hk hfault => ?_, ?_⟩
  · rw [Dev.get_raise _ _ _ _ _ _ _ (by decide), Dev.get_raise _ _ _ _ _ _ _ (by decide)]
    exact hf k hk hfault
  · simpa using hm

theorem Dev.Booting.raise_if (h : d.Booting cap hbm slow faults) (c : Prop) [Decidable c] (ev : Ev) :
    (if c then d.raise ev .global 0 else d).Booting cap hbm slow faults := by
  split
  · exact h.raise ev
  · exact h

/-- Showing the fault of one more pin keeps the rest of what the boot ROM shows. -/
theorem Dev.Booting.showStrapFault (h : d.Booting cap hbm slow 0) (v : Vault) (i : Nat) : (d.showStrapFault v i).Booting cap hbm slow 0 := by
  unfold Dev.showStrapFault
  split
  · refine Dev.Booting.raise ?_ _
    obtain ⟨hb, hc, -, hm⟩ := h
    refine ⟨?_, ?_, by simp [bit], hm⟩
    · rw [Dev.get_putBit_ne (by decide), Dev.get_putBit_ne (by decide), hb]
    · rw [Dev.get_putBit_ne (by decide), Dev.get_putBit_ne (by decide), hc]
  · exact h

/-- Showing every strap fault that was sampled. -/
theorem Dev.Booting.showStrapFaults (h : d.Booting cap hbm slow 0) (v : Vault) :
    ((List.range 2).foldl (Dev.showStrapFault v) d).Booting cap hbm slow v.strapFaults := by
  obtain ⟨hb, hc, -, hm⟩ : ((List.range 2).foldl (Dev.showStrapFault v) d).Booting cap hbm slow 0 :=
    List.foldlRecOn (motive := fun d' : Dev => d'.Booting cap hbm slow 0) _ _ h fun d' h i _ => h.showStrapFault v i
  exact ⟨hb, hc, fun k hk hfault => Dev.bit_showStrapFaults v d hk hfault, hm⟩

end

/-- What the boot ROM shows and keeps when it starts: BOOT_STATE, the class's envelope as the cap, the strap faults, and memory only where
its power was held. -/
theorem bootFrom_dev (v : Vault) (d : Dev) (keep : Bool) (last sel0 sel1 : Nat) :
    (bootFrom v d keep last sel0 sel1).2.Booting (envelopeOf (bootFrom v d keep last sel0 sel1).1.coolingClass)
      (if keep then d.keptHbm else []) (if keep then d.slow else []) (bootFrom v d keep last sel0 sel1).1.strapFaults := by
  unfold bootFrom
  extract_lets v1 rev v2 p n1 n2 n3 n4 n5 n6 n7 n8 n9 n10
  have h7 : n7.Booting (envelopeOf v2.coolingClass) (if keep then d.keptHbm else []) (if keep then d.slow else []) 0 := by
    have h4 : n4.get Obj.BOOT_STATE = 1 := Dev.get_put_self ..
    have h5 : n5.get Obj.BOOT_STATE = 1 ∧ n5.hbm = n3.hbm ∧ n5.slow = n3.slow ∧ n5.hearths = [] := by
      by_cases h : n4.power.inputMv < 46000
      · rw [show n5 = n4.put Obj.INPUT_STATE 1 from if_pos h, Dev.get_put_ne _ _ (by decide)]
        exact ⟨h4, rfl, rfl, rfl⟩
      · rw [show n5 = n4 from if_neg h]
        exact ⟨h4, rfl, rfl, rfl⟩
    obtain ⟨hb, hm⟩ := h5
    refine ⟨?_, (Dev.get_put_self ..).trans (Nat.mod_eq_of_lt (envelopeOf_lt _)), by simp [bit], hm⟩
    rw [Dev.get_put_ne _ _ (by decide), Dev.get_put_ne _ _ (by decide), hb]
  clear_value n7
  exact (((h7.extend 0 _).showStrapFaults v2).raise_if _ _).raise_if _ _

/-! ### The start of the firmware (R394, R395) -/

/-- The device once the image of a slot has begun to run and P objects are loaded. -/
def firmwareLoaded (v : Vault) (d : Dev) (slot : Nat) (recordOk : Bool) : Dev :=
  let v := { v with slotState := tset 0 v.slotState slot 4 }
  let ver := v.slotNat slot 8 4
  let d := (((d.put Obj.BOOT_STATE 2).put Obj.FW_ACTIVE_SLOT slot).put Obj.FW_VERSION ver).put Obj.HEARTH_FW_VERSION ver
  ((d.put Obj.HEARTH_FW_CHUNKS (v.slotNat slot 18 2)).extend 1 (v.measurement slot)).loadPersist v recordOk

/-- Keys of device-global objects that the firmware's start writes once P objects are loaded. -/
def lateKeys : List Nat :=
  [Obj.DEVICE_ID_ACTIVE.key 0 0, Obj.HOST_LINK_STATE.key 0 0, Obj.BOOT_COUNT.key 0 0, Obj.CONFIDENTIAL_ACTIVE.key 0 0,
   Obj.MEAS_EXTENDS.key 0 0, Obj.PERSIST_STATE.key 0 0]

/-- A device-global object that neither the record nor an event writes reads after loading as the image's start left it. -/
theorem get_firmwareLoaded (v : Vault) (d : Dev) (slot : Nat) (recordOk : Bool) :
    (firmwareLoaded v d slot recordOk).get Obj.BOOT_STATE = 2 ∧
    (firmwareLoaded v d slot recordOk).get Obj.FW_ACTIVE_SLOT = slot % 2 ^ Obj.FW_ACTIVE_SLOT.bitsOf := by
  unfold firmwareLoaded
  extract_lets v1 ver d1
  have hboot : d1.get Obj.BOOT_STATE = 2 := by
    rw [Dev.get_put_ne _ _ (by decide), Dev.get_put_ne _ _ (by decide), Dev.get_put_ne _ _ (by decide)]
    exact Dev.get_put_self ..
  have hslot : d1.get Obj.FW_ACTIVE_SLOT = slot % 2 ^ Obj.FW_ACTIVE_SLOT.bitsOf := by
    rw [Dev.get_put_ne _ _ (by decide), Dev.get_put_ne _ _ (by decide)]
    exact Dev.get_put_self ..
  clear_value d1
  constructor
  · rw [Dev.get_loadPersist (by decide +kernel) (by decide) (by decide), Dev.get_extend (by decide), Dev.get_put_ne _ _ (by decide), hboot]
  · rw [Dev.get_loadPersist (by decide +kernel) (by decide) (by decide), Dev.get_extend (by decide), Dev.get_put_ne _ _ (by decide), hslot]

theorem firmwareLoaded_memory (v : Vault) (d : Dev) (slot : Nat) (recordOk : Bool) :
    (firmwareLoaded v d slot recordOk).hbm = d.hbm ∧ (firmwareLoaded v d slot recordOk).slow = d.slow := by
  unfold firmwareLoaded
  extract_lets v1 ver d1
  have h1 : d1.hbm = d.hbm ∧ d1.slow = d.slow := by simp [d1]
  clear_value d1 v1
  obtain ⟨lhbm, lslow⟩ := Dev.loadPersist_memory ((d1.put Obj.HEARTH_FW_CHUNKS (v1.slotNat slot 18 2)).extend 1 (v1.measurement slot)) v1 recordOk
  obtain ⟨ehbm, eslow⟩ := Dev.extend_memory (d1.put Obj.HEARTH_FW_CHUNKS (v1.slotNat slot 18 2)) 1 (v1.measurement slot)
  exact ⟨lhbm.trans (ehbm.trans h1.1), lslow.trans (eslow.trans h1.2)⟩

theorem get_source_firmwareLoaded (v : Vault) (d : Dev) (slot : Nat) (recordOk : Bool) :
    (v.persistDefaults = true → (firmwareLoaded v d slot recordOk).get Obj.PERSIST_SOURCE = 2) ∧
    (v.persistDefaults = false → v.persistValid = true → recordOk = false →
      (firmwareLoaded v d slot recordOk).get Obj.PERSIST_SOURCE = 1) :=
  Dev.get_source_loadPersist _ { v with slotState := tset 0 v.slotState slot 4 } recordOk

/-- A saved value of a P object other than the cap is the one in force. -/
theorem get_firmwareLoaded_of_saved {v : Vault} {d : Dev} {slot : Nat} {o : ObjDef} {w : Nat} (hd : v.persistDefaults = false)
    (hv : v.persistValid = true) (hwf : twf 0 v.persistOd = true) (hp : isPKey (o.key 0 0) = true)
    (hcap : o.key 0 0 ≠ Obj.POWER_CAP_W.key 0 0) (hw : tget 0 v.persistOd (o.key 0 0) = w + 1) :
    (firmwareLoaded v d slot true).get o = w := by
  unfold firmwareLoaded
  extract_lets v1 ver d1
  have e : ∀ d' : Dev, d'.loadPersist v1 true = d'.loadRecord v1 := by
    intro d'
    simp [Dev.loadPersist, v1, hd, hv]
  rw [e]
  exact Dev.get_loadRecord_of_saved hwf hp hcap hw

/-- What the firmware does to the device once P objects are loaded, up to the confidential mode: device ID, bridge, boot count (R395). -/
def countBoot (l : Dev) (n : Nat) : Dev :=
  let d := l.put Obj.DEVICE_ID_ACTIVE (l.get Obj.DEVICE_ID)
  let d := if d.get Obj.BRIDGE_ENABLE = 1 then d.put Obj.HOST_LINK_STATE 1 else d
  (d.put Obj.BOOT_COUNT n).queueStore (.bootCount n)

theorem countBoot_spec (l : Dev) (n : Nat) :
    (∀ {o : ObjDef} {i e : Nat}, o.key i e ∉ lateKeys → (countBoot l n).get o i e = l.get o i e) ∧
    (countBoot l n).get Obj.DEVICE_ID_ACTIVE = l.get Obj.DEVICE_ID % 2 ^ 32 ∧ (countBoot l n).get Obj.BOOT_COUNT = n % 2 ^ 32 ∧
    (countBoot l n).hbm = l.hbm ∧ (countBoot l n).slow = l.slow := by
  unfold countBoot
  extract_lets d1 d2
  have h1 : d1.get Obj.DEVICE_ID_ACTIVE = l.get Obj.DEVICE_ID % 2 ^ 32 := Dev.get_put_self ..
  have k1 : l.OnlyOd d1 lateKeys := Dev.put_onlyOd (by simp [lateKeys])
  have k2 : l.OnlyOd d2 lateKeys ∧ d2.get Obj.DEVICE_ID_ACTIVE = d1.get Obj.DEVICE_ID_ACTIVE := by
    by_cases h : d1.get Obj.BRIDGE_ENABLE = 1
    · rw [show d2 = d1.put Obj.HOST_LINK_STATE 1 from if_pos h]
      exact ⟨k1.trans (Dev.put_onlyOd (by simp [lateKeys])), Dev.get_put_ne _ _ (by decide)⟩
    · rw [show d2 = d1 from if_neg h]
      exact ⟨k1, rfl⟩
  clear_value d1 d2
  obtain ⟨k2, h2⟩ := k2
  have k3 : l.OnlyOd (d2.put Obj.BOOT_COUNT n) lateKeys := k2.trans (Dev.put_onlyOd (by simp [lateKeys]))
  obtain ⟨st, e⟩ := (d2.put Obj.BOOT_COUNT n).queueBootCount_shape n
  obtain ⟨⟨od, e3⟩, -⟩ := id k3
  rw [e]
  refine ⟨fun hk => k3.get hk, ?_, Dev.get_put_self .., by rw [e3], by rw [e3]⟩
  exact ((Dev.get_put_ne d2 n (by decide)).trans h2).trans h1

/-- What the firmware does behind the confidential mode: two measurements, the mirrors compared, the units started (R394, R432, R456). -/
theorem startBehind_spec (v : Vault) (d : Dev) (bs cs : List Byte) :
    let t := (((d.extend 2 bs).extend 3 cs).compareMirrors v).startUnits
    (∀ {o : ObjDef} {i e : Nat}, o.key i e < 0x10000 * 256 → o.key i e ≠ Obj.MEAS_EXTENDS.key 0 0 → o.key i e ≠ Obj.PERSIST_STATE.key 0 0 →
      t.get o i e = d.get o i e) ∧ t.hbm = d.hbm ∧ t.slow = d.slow := by
  intro t
  have memory : ∀ d : Dev, (d.compareMirrors v).hbm = d.hbm ∧ (d.compareMirrors v).slow = d.slow := by
    intro d
    obtain ⟨od, st, e, -⟩ := d.compareMirrors_shape v
    rw [e]
    exact ⟨rfl, rfl⟩
  have started : ∀ d : Dev, d.startUnits.hbm = d.hbm ∧ d.startUnits.slow = d.slow := by
    intro d
    obtain ⟨⟨od, e⟩, -⟩ := d.startUnits_spec.1
    rw [e]
    exact ⟨rfl, rfl⟩
  refine ⟨fun hlt hm hp => ?_, ?_, ?_⟩
  · rw [Dev.get_startUnits hlt, Dev.get_compareMirrors hp, Dev.get_extend hm, Dev.get_extend hm]
  · rw [(started _).1, (memory _).1, (Dev.extend_memory ..).1, (Dev.extend_memory ..).1]
  · rw [(started _).2, (memory _).2, (Dev.extend_memory ..).2, (Dev.extend_memory ..).2]

/-- The start of the firmware, phase by phase. -/
theorem runFirmware_eq (v : Vault) (d : Dev) (slot : Nat) (recordOk : Bool) :
    ∃ (c : Vault × Dev) (bs cs : List Byte), c = confidentialLoad { v with slotState := tset 0 v.slotState slot 4, persistDefaults := false }
        (countBoot (firmwareLoaded v d slot recordOk) ((v.bootCount + 1) % 2 ^ 32)) ∧
      runFirmware v d slot recordOk = (c.1, (((c.2.extend 2 bs).extend 3 cs).compareMirrors c.1).startUnits) := by
  unfold runFirmware
  extract_lets v1 ver d1 d2 d3 v2 d4 d5 n d6
  have hload : d6 = countBoot (firmwareLoaded v d slot recordOk) ((v.bootCount + 1) % 2 ^ 32) := rfl
  clear_value d6
  subst hload
  obtain ⟨c, hc⟩ : ∃ c, c = confidentialLoad v2 (countBoot (firmwareLoaded v d slot recordOk) ((v.bootCount + 1) % 2 ^ 32)) := ⟨_, rfl⟩
  rw [← hc]
  obtain ⟨v3, d7⟩ := c
  exact ⟨(v3, d7), _, _, rfl, rfl⟩

/-- What the vault holds once the firmware of a slot runs, with the confidential mode that is asked for. -/
theorem runFirmware_conf (v : Vault) (d : Dev) (slot : Nat) (recordOk : Bool) :
    ∃ kept, (runFirmware v d slot recordOk).1 =
      { v with slotState := tset 0 v.slotState slot 4, persistDefaults := false, kept := kept,
               confidential := decide ((firmwareLoaded v d slot recordOk).get Obj.CONFIDENTIAL_REQUEST = 1) } := by
  obtain ⟨c, bs, cs, hc, e⟩ := runFirmware_eq v d slot recordOk
  obtain ⟨kept, hv⟩ := confidentialLoad_vault { v with slotState := tset 0 v.slotState slot 4, persistDefaults := false }
    (countBoot (firmwareLoaded v d slot recordOk) ((v.bootCount + 1) % 2 ^ 32))
  rw [(countBoot_spec _ _).1 (by decide)] at hv
  rw [e, hc, hv]
  exact ⟨kept, rfl⟩

/-- What the firmware's start leaves in the memories: all of it while the confidential mode stays, nothing where it changes (R436). -/
theorem runFirmware_memory (v : Vault) (d : Dev) (slot : Nat) (recordOk : Bool) :
    ((runFirmware v d slot recordOk).1.confidential = v.confidential →
      (runFirmware v d slot recordOk).2.hbm = d.hbm ∧ (runFirmware v d slot recordOk).2.slow = d.slow) ∧
    ((runFirmware v d slot recordOk).1.confidential ≠ v.confidential →
      (runFirmware v d slot recordOk).2.hbm = [] ∧ (runFirmware v d slot recordOk).2.slow = []) := by
  obtain ⟨c, bs, cs, hc, e⟩ := runFirmware_eq v d slot recordOk
  obtain ⟨-, -, -, bhbm, bslow⟩ := countBoot_spec (firmwareLoaded v d slot recordOk) ((v.bootCount + 1) % 2 ^ 32)
  obtain ⟨lhbm, lslow⟩ := firmwareLoaded_memory v d slot recordOk
  obtain ⟨same, changed⟩ := confidentialLoad_memory { v with slotState := tset 0 v.slotState slot 4, persistDefaults := false }
    (countBoot (firmwareLoaded v d slot recordOk) ((v.bootCount + 1) % 2 ^ 32))
  obtain ⟨-, thbm, tslow⟩ := startBehind_spec c.1 c.2 bs cs
  rw [← hc] at same changed
  rw [e]
  refine ⟨fun h => ?_, fun h => ?_⟩
  · obtain ⟨chbm, cslow⟩ := same h
    exact ⟨thbm.trans (chbm.trans (bhbm.trans lhbm)), tslow.trans (cslow.trans (bslow.trans lslow))⟩
  · obtain ⟨chbm, cslow⟩ := changed h
    exact ⟨thbm.trans chbm, tslow.trans cslow⟩

/-- Objects once the firmware runs: what was loaded, with the device ID and the confidential mode in force, the boot counted and the units
started (R394, R395). -/
theorem runFirmware_objects {v : Vault} {d l t : Dev} {slot : Nat} {recordOk : Bool} (hl : l = firmwareLoaded v d slot recordOk)
    (ht : t = (runFirmware v d slot recordOk).2) :
    (∀ {o : ObjDef} {i e : Nat}, o.key i e < 0x10000 * 256 → o.key i e ∉ lateKeys → t.get o i e = l.get o i e) ∧
    t.get Obj.DEVICE_ID_ACTIVE = l.get Obj.DEVICE_ID % 2 ^ 32 ∧ t.get Obj.BOOT_COUNT = (v.bootCount + 1) % 2 ^ 32 ∧
    t.get Obj.CONFIDENTIAL_ACTIVE = (if l.get Obj.CONFIDENTIAL_REQUEST = 1 then 1 else 0) ∧
    (∀ g < 16, t.get Obj.REGION_STATE g = 1 ∧ t.get Obj.CLOCK_STATE g = 1) ∧ (∀ k < 2, t.get Obj.STOKER_STATE k = 1) ∧
    (∀ p < 16, t.get Obj.PORT_STATE p = if t.get Obj.PORT_CTL p = 1 then 2 else 0) := by
  obtain ⟨c, bs, cs, hc, e⟩ := runFirmware_eq v d slot recordOk
  rw [← hl] at hc
  obtain ⟨bkeeps, bid, bcount, -, -⟩ := countBoot_spec l ((v.bootCount + 1) % 2 ^ 32)
  obtain ⟨tkeeps, -, -⟩ := startBehind_spec c.1 c.2 bs cs
  rw [e] at ht
  subst ht
  obtain ⟨-, hregions, hstokers, hports⟩ := Dev.startUnits_spec (((c.2.extend 2 bs).extend 3 cs).compareMirrors c.1)
  have ckeeps : ∀ {o : ObjDef} {i e : Nat}, o.key i e ≠ Obj.CONFIDENTIAL_ACTIVE.key 0 0 →
      c.2.get o i e = (countBoot l ((v.bootCount + 1) % 2 ^ 32)).get o i e := by
    intro o i e h
    rw [hc]
    exact get_confidentialLoad h
  refine ⟨fun hlt hk => ?_, ?_, ?_, ?_, hregions, hstokers, hports⟩
  · have hne := hk
    simp only [lateKeys, List.mem_cons, List.not_mem_nil, or_false, not_or] at hne
    obtain ⟨-, -, -, hconf, hext, hstate⟩ := hne
    rw [tkeeps hlt hext hstate, ckeeps hconf, bkeeps hk]
  · rw [tkeeps (by decide) (by decide) (by decide), ckeeps (by decide), bid]
  · rw [tkeeps (by decide) (by decide) (by decide), ckeeps (by decide), bcount, Nat.mod_mod]
  · rw [tkeeps (by decide) (by decide) (by decide), hc, get_confidentialLoad_active, bkeeps (by decide)]

/-- The objects of the record that the start itself acts on are P objects, and the start writes none of them. -/
theorem savedObjs_keys : ∀ o ∈ [Obj.DEVICE_ID, Obj.BRIDGE_ENABLE, Obj.CONFIDENTIAL_REQUEST],
    o.key 0 0 < 0x10000 * 256 ∧ o.key 0 0 ∉ lateKeys ∧ isPKey (o.key 0 0) = true ∧ o.key 0 0 ≠ Obj.POWER_CAP_W.key 0 0 := by
  decide +kernel

/-! ### The commands -/

/-- POWER_ON starts the boot ROM with the straps' class and its envelope. -/
theorem powerOn_starts (s : State) (sel0 sel1 : Nat) (h : s.dev.get Obj.BOOT_STATE = 0) :
    s.cmdPowerOn sel0 sel1 =
      { s with vault := (bootFrom s.vault s.dev false s.vault.lastShutdown sel0 sel1).1,
               dev := (bootFrom s.vault s.dev false s.vault.lastShutdown sel0 sel1).2 } := by
  simp only [State.cmdPowerOn, h, ne_eq, not_true_eq_false, if_false]

/-- The firmware of a slot runs when its image verifies. -/
theorem cmdFirmware_runs {s : State} {ok0 ok1 recordOk : Bool} {slot : Nat} (h : s.dev.get Obj.BOOT_STATE = 1)
    (hrun : s.vault.runningSlot (s.dev.get Obj.FW_KEY_REVOKED) ok0 ok1 = some slot) :
    s.cmdFirmware ok0 ok1 recordOk =
      { s with vault := (runFirmware s.vault s.dev slot recordOk).1, dev := (runFirmware s.vault s.dev slot recordOk).2 } := by
  simp only [State.cmdFirmware, h, hrun, ne_eq, not_true_eq_false, if_false]

/-- With no image that verifies the device is in RECOVERY. -/
theorem cmdFirmware_recovers {s : State} {ok0 ok1 recordOk : Bool} (h : s.dev.get Obj.BOOT_STATE = 1)
    (hrun : s.vault.runningSlot (s.dev.get Obj.FW_KEY_REVOKED) ok0 ok1 = none) :
    s.cmdFirmware ok0 ok1 recordOk = { s with dev := (s.dev.put Obj.BOOT_STATE 4).put Obj.FW_ACTIVE_SLOT s.vault.activeSlot } := by
  simp only [State.cmdFirmware, h, hrun, ne_eq, not_true_eq_false, if_false]

/-- Settles O45. -/
theorem powerOnAndFirmwareStartTheModule : Obligations.PowerOnAndFirmwareStartTheModule := by
  intro s sel0 sel1
  refine ⟨fun h => ?_, fun h => ?_, fun ok0 ok1 recOk run hrun => ⟨fun h => ?_, fun h hnone => ?_, fun slot h hsome => ?_⟩⟩
  · refine ⟨_, rfl, ?_⟩
    rw [powerOn_starts s sel0 sel1 h]
    obtain ⟨hboot, hcap, hfaults, hhbm, hslow, hhearths⟩ := bootFrom_dev s.vault s.dev false s.vault.lastShutdown sel0 sel1
    exact ⟨hboot, hhbm, hslow, hhearths, rfl, rfl, hcap, hfaults, rfl, rfl, rfl, rfl, rfl⟩
  · exact congrArg Host.Outcome.next (if_pos h)
  · exact congrArg Host.Outcome.next (if_pos h)
  · refine ⟨_, rfl, ?_⟩
    rw [cmdFirmware_recovers h (hrun.symm.trans hnone)]
    have only : s.dev.OnlyOd ((s.dev.put Obj.BOOT_STATE 4).put Obj.FW_ACTIVE_SLOT s.vault.activeSlot)
        [Obj.BOOT_STATE.key 0 0, Obj.FW_ACTIVE_SLOT.key 0 0] := .trans (Dev.put_onlyOd (by simp)) (Dev.put_onlyOd (by simp))
    exact ⟨(Dev.get_put_ne _ _ (by decide)).trans (Dev.get_put_self ..), rfl, only.2⟩
  · refine ⟨_, rfl, ?_⟩
    rw [cmdFirmware_runs h (hrun.symm.trans hsome)]
    obtain ⟨kept, hvault⟩ := runFirmware_conf s.vault s.dev slot recOk
    obtain ⟨msame, mchanged⟩ := runFirmware_memory s.vault s.dev slot recOk
    obtain ⟨keeps, hid, hcount, hconf, hregions, hstokers, hports⟩ := runFirmware_objects (v := s.vault) (d := s.dev) (slot := slot) (recordOk := recOk) rfl rfl
    obtain ⟨hboot, hslot⟩ := get_firmwareLoaded s.vault s.dev slot recOk
    obtain ⟨hdefaults, hlost⟩ := get_source_firmwareLoaded s.vault s.dev slot recOk
    have hsource := keeps (o := Obj.PERSIST_SOURCE) (i := 0) (e := 0) (by decide) (by decide)
    have hrequest := keeps (o := Obj.CONFIDENTIAL_REQUEST) (i := 0) (e := 0) (by decide) (by decide)
    dsimp only
    refine ⟨(keeps (by decide) (by decide)).trans hboot, (keeps (by decide) (by decide)).trans hslot, ?_, hcount, ?_, ?_, ?_, msame, mchanged, ?_,
      fun hd => hsource.trans (hdefaults hd), fun hd hv hr => hsource.trans (hlost hd hv hr), fun hd hv hr hwf o ho w hw => ?_,
      hregions, hstokers, hports, ?_, rfl⟩
    · rw [hvault]
      exact tget_tset_self (0 : Nat) s.vault.slotState slot 4
    · rw [hid, keeps (o := Obj.DEVICE_ID) (by decide) (by decide)]
    · rw [hconf, hrequest]
    · rw [hvault, hrequest]
      exact decide_eq_true_iff
    · rw [hvault]
    · subst hr
      obtain ⟨hlt, hlate, hp, hcap⟩ := savedObjs_keys o ho
      exact (keeps hlt hlate).trans (get_firmwareLoaded_of_saved hd hv hwf hp hcap hw)
    · rw [hvault]

end Sys2Proof.Machine
end

section
/-! The answer to a write by number may go another way than the request's route said. R287 picks the port of a cross-group frame from the
two bytes of ROUTE_CROSS_GROUP that belong to the destination's group; a device ID has 20 bits, so its group is below 2,048 and the
table's 4,096 bytes hold them. The model keeps a frame's source as any number and does not cut it, so that the mask for a source of
many more bits is read from the bytes of another DOMAIN. A write of those bytes changes the route before the response is sent. -/

namespace Sys2Proof.Machine

/-- A source whose port mask the model reads from bytes 0 and 1 of EVENT_VECTOR_MAP. -/
def wideSource : Nat := 512 * ((Obj.EVENT_VECTOR_MAP.key 0 0 - Obj.ROUTE_CROSS_GROUP.key 0 0) * 2 ^ 17)

/-- A device in service, of ID 1, with a session at port 0; byte 0 of EVENT_VECTOR_MAP is 1, which as a mask names port 0. -/
def wideDev : Dev :=
  ((({ Dev.fresh with dom := [(Obj.EVENT_VECTOR_MAP.domKey 0 0 0, 1)] }.put Obj.BOOT_STATE 2).put Obj.DEVICE_ID_ACTIVE (2 ^ 31 + 1)).put
    Obj.PORT_STATE 4).setPort 0 { Port.fresh with keySlots := [(0, some ⟨0, some 0, 0⟩)] }

def wideState : State := { State.reset with dev := wideDev }

/-- An OD_REQ from that source that writes 2 to byte 0 of EVENT_VECTOR_MAP, which as a mask names port 1. -/
def wideFrame : Frame :=
  { Frame.plain 8 2 1 wideSource 0 0 0 with payload := fit 0 64 (odHeader 2 0 0x5000 5 0 0 1 ++ [2]), ash := [false] }

def wideCarrier : Carrier := .frame 0 wideFrame

/-- Before the write the source's route goes by port 0. -/
theorem wideState_answersVia : wideState.dev.AnswersVia wideSource 2 0 :=
  ⟨by decide +kernel, by decide +kernel⟩

theorem wideState_takes : wideState.dev.Takes 0 (frameOf 8 wideFrame) :=
  ⟨by decide +kernel, ⟨_, rfl, rfl⟩, by decide +kernel, by decide +kernel⟩

theorem wideState_brings :
    wideState.Brings 2 wideCarrier (.fabric 0 wideSource) (Carrier.header wideCarrier) (Carrier.data wideCarrier) :=
  ⟨rfl, rfl, by decide +kernel, rfl, wideState_takes, by decide +kernel, by decide +kernel, 0, wideState_answersVia⟩

theorem wideState_accepts : wideState.Accepts wideCarrier (.fabric 0 wideSource) 0x5000 :=
  ⟨by decide +kernel, by decide +kernel, by decide +kernel⟩

theorem wideState_target : wideState.dev.target 0x5000 5 = .elem Obj.EVENT_VECTOR_MAP 0 0 := by decide +kernel

theorem wideCarrier_data : Carrier.data wideCarrier = [2] := by decide +kernel

theorem wideState_cmdNow :
    wideState.dev.CmdNow (.fabric 0 wideSource) (Carrier.header wideCarrier) (Carrier.data wideCarrier) true := by
  unfold Dev.CmdNow
  decide +kernel

/-- After the write the response is queued at port 1. -/
theorem wideState_queues : (wideState.carried 2 wideCarrier).dev.net.queue.map (·.1) = [1] := by decide +kernel

/-- Refutes O34: a write of EVENT_VECTOR_MAP by a frame whose source has more than 20 bits moves the source's route from port 0 to port 1,
and the response is queued at port 1. -/
theorem not_writesByNumberAreCheckedAndStored : ¬ Obligations.WritesByNumberAreCheckedAndStored := by
  unfold Obligations.WritesByNumberAreCheckedAndStored
  intro h
  obtain ⟨-, hcmd⟩ := h wideState (.fabric 0 wideSource) 0x5000 5
  obtain ⟨-, -, -, haccepted⟩ :=
    hcmd wideCarrier _ _ 0 wideState_brings (by decide +kernel) (by decide +kernel) (by decide +kernel)
  obtain ⟨-, -, -, hblock⟩ := haccepted wideState_accepts
  obtain ⟨-, -, hserved⟩ := hblock _ 0 0 wideState_target (by decide)
  obtain ⟨-, hdomain⟩ := hserved (by simp [wideCarrier_data]) wideState_cmdNow
  obtain ⟨-, -, hwritten⟩ := hdomain (by decide)
  obtain ⟨hplain, -⟩ := hwritten (by decide +kernel) (by rw [wideCarrier_data]; decide) (by decide)
  obtain ⟨t, ht, -, hresp, -⟩ := hplain (by decide)
  obtain rfl : wideState.carried 2 wideCarrier = t := by injection ht
  obtain ⟨-, -, hfabric⟩ := hresp
  obtain ⟨a, hqueue, -⟩ := hfabric _ _ 0 rfl wideState_answersVia
  have hport := wideState_queues
  have hempty : wideState.dev.net.queue = [] := rfl
  simp [hqueue, hempty] at hport

end Sys2Proof.Machine
end

section
/-! A request that waits at a stack's boundary may count a notice of its own. When a region's clock runs again, what waits for its
hearths is carried out and then what waits at its two stacks (R25, R374). A write that fills an armed block-maximum window rings the
notice that the window's doorbell asks for (R212, R215), and that notice reaches a hearth of the same region, whose clock runs now. -/

namespace Sys2Proof.Machine

/-- A window of 32 by 32 one-byte elements, 15 of its 16 sectors written, that asks for a notice to hearth 0. -/
def nearlyFullWindow : Bmax := ⟨[], 0xFFFFFFFF, 15, 2 ^ 50⟩

/-- A write of sector 0, as ash, the last that the window waits for. -/
def fillingWrite : HbmWait := ⟨0, none, true, none, [], [], true, none, .demand, [], 0⟩

/-- Stack 0 with that write at its boundary. -/
def ringingStack : Stack :=
  { Stack.fresh with pch := [(0, .active)], boundary := [fillingWrite], bmax := [(0, some nearlyFullWindow)] }

/-- Region 0 in a move of its clock, one notice to its hearth 0 waiting, stack 0 READY. -/
def ringingDev : Dev :=
  (((({ Dev.fresh with edge := [(0, [.notice 0 0])] }.put Obj.CLOCK_STATE 3).put Obj.HEARTH_STATE hIdle).put Obj.STACK_STATE 2).put
    Obj.BMAX_WIN (2 * 2 ^ 61 + 2 ^ 13)).setStack 0 ringingStack

def ringingState : State := { State.reset with dev := ringingDev }

/-- The end of the move counts two notices at hearth 0: the one that waited and the window's. -/
theorem ringingDev_notices : (ringingDev.cmdMoveDone 0).get Obj.ARRIVAL_NOTICES 0 = 2 := by decide +kernel

/-- Refutes O39: one notice waits for hearth 0, whose count was 0, and the end of the clock's move leaves it at 2, since a write that
waited at the region's stack fills an armed window with a notice to the same hearth. -/
theorem not_clocksStopStartAndMove : ¬ Obligations.ClocksStopStartAndMove := by
  unfold Obligations.ClocksStopStartAndMove
  intro h
  obtain ⟨-, hruns, -⟩ := h ringingState 0
  obtain ⟨-, hnotice, -⟩ := hruns (.opMoveDone 0) 0 (.inr ⟨rfl, by decide +kernel, by decide +kernel⟩)
  obtain ⟨t, ht, hcounted, -⟩ := hnotice 0 0 rfl rfl (by decide +kernel)
  obtain rfl : { ringingState with dev := ringingDev.cmdMoveDone 0 } = t := by injection ht
  have hone : (ringingDev.cmdMoveDone 0).get Obj.ARRIVAL_NOTICES 0 = 1 := hcounted
  exact absurd (ringingDev_notices.symm.trans hone) (by decide)

end Sys2Proof.Machine
end

section
/-! The clock of a region under test may stand away from the target it would have. A region's target takes the point of its current
phase from PHASE_OP, by the number in CURRENT_PHASE (R378, R379). The model's state holds any number there, also one that no ENUM8 has,
so that PHASE_OP is read from another object's element: here HEARTH_STATE of hearth 0, which the bring-up writes after the region has
compared its point with its target. -/

namespace Sys2Proof.Machine

/-- The element of PHASE_OP of region 0 that has the key of HEARTH_STATE of hearth 0. -/
def strayPhase : Nat := Obj.HEARTH_STATE.key 0 0 - Obj.PHASE_OP.key 0 0

/-- Region 0 starting, its OP_LIMIT OP4 and its stacks OFF, with that number in CURRENT_PHASE. -/
def strayDev : Dev :=
  ((((({ Dev.fresh with od := [(Obj.CURRENT_PHASE.key 0 0, strayPhase + 1)] }.put Obj.REGION_STATE 1).put Obj.CLOCK_STATE 1).put
    Obj.OP_LIMIT 4).put Obj.STACK_POWER_CTL 0 0).put Obj.STACK_POWER_CTL 0 1)

def strayState : State := { State.reset with dev := strayDev }

/-- The device once the region's PLL has locked. -/
def strayLocked : Dev := strayDev.cmdPllLocked State.reset.vault 0

/-- The region runs at OP4 with no move begun, and its target reads 1, HEARTH_STATE TESTING. -/
theorem strayLocked_clock :
    strayLocked.get Obj.REGION_OP 0 = 4 ∧ strayLocked.get Obj.CLOCK_STATE 0 = 2 ∧ strayLocked.regionTarget 0 = 1 := by
  decide +kernel

/-- Refutes O46: with a CURRENT_PHASE that leads PHASE_OP to HEARTH_STATE of a hearth under test, the region's target is OP1 once its
bring-up has begun, while it runs at OP4 and its clock is not in a move. -/
theorem not_regionsTestMapAndTrain : ¬ Obligations.RegionsTestMapAndTrain := by
  unfold Obligations.RegionsTestMapAndTrain
  intro h
  obtain ⟨-, hlocked, -⟩ := h strayState 0
  obtain ⟨t, ht, -, -, -, hclock, -⟩ := hlocked rfl (by decide +kernel) (by decide +kernel)
  obtain rfl : { strayState with dev := strayLocked } = t := by injection ht
  have hclock : strayLocked.get Obj.CLOCK_STATE 0 = if strayLocked.regionTarget 0 = strayLocked.get Obj.REGION_OP 0 then 2 else 3 := hclock
  obtain ⟨hop, hstate, htarget⟩ := strayLocked_clock
  rw [hop, hstate, htarget] at hclock
  exact absurd hclock (by decide)

end Sys2Proof.Machine
end

section
/-! Whole-device resets and the defect list (R404, R411, R412): what the boot ROM starts from, and what recording a defect queues. -/

namespace Sys2Proof.Machine

/-! ### Whole-device resets (R411, R412) -/

/-- Reading a table after entries have been dropped. -/
theorem tget_tdrop {α : Type} (d : α) (p : Nat → Bool) (t : Tab α) (k : Nat) : tget d (tdrop p t) k = if p k = true then d else tget d t k := by
  induction t with
  | nil => simp [tdrop, tget]
  | cons e t ih =>
    obtain ⟨j, v⟩ := e
    simp only [tdrop] at ih ⊢
    by_cases hj : p j = true
    · rw [List.filter_cons_of_neg (by simp [hj]), ih]
      by_cases hk : k = j
      · simp [hk, hj]
      · simp [tget, hk]
    · rw [List.filter_cons_of_pos (by simp [hj])]
      by_cases hk : k = j
      · simp [tget, hk, hj]
      · simp [tget, hk, ih]

/-- A sector is kept across a reset but where the reset writes ash (R412). -/
theorem tget_keptHbm (d : Dev) (st : Nat) {sec : Nat} (hsec : sec < 2 ^ 30) :
    tget Sector.ashSector d.keptHbm (hbmKey st sec) = if d.ashAtReset st sec = true then Sector.ashSector else d.sector st sec := by
  have hst : hbmKey st sec / 2 ^ 30 = st := by unfold hbmKey; omega
  have hse : hbmKey st sec % 2 ^ 30 = sec := by unfold hbmKey; omega
  rw [Dev.keptHbm, tget_tdrop, hst, hse, Dev.sector]

/-- A device with no port and no stack in use. -/
def Dev.NoUnits (d : Dev) : Prop := d.ports = [] ∧ d.stks = []

theorem Dev.NoUnits.raise {d : Dev} (h : d.NoUnits) (ev : Ev) : (d.raise ev .global 0).NoUnits := by simpa [Dev.NoUnits] using h

theorem Dev.NoUnits.raise_if {d : Dev} (h : d.NoUnits) (c : Prop) [Decidable c] (ev : Ev) : (if c then d.raise ev .global 0 else d).NoUnits := by
  split
  · exact h.raise ev
  · exact h

/-- The boot ROM starts with no port and no stack in use. -/
theorem bootFrom_noUnits (v : Vault) (d : Dev) (keep : Bool) (last sel0 sel1 : Nat) : (bootFrom v d keep last sel0 sel1).2.NoUnits := by
  unfold bootFrom
  extract_lets v1 rev v2 p n1 n2 n3 n4 n5 n6 n7 n8 n9 n10
  have h7 : n7.NoUnits := by
    have h5 : n5.NoUnits := by
      show (if n4.power.inputMv < 46000 then n4.put Obj.INPUT_STATE 1 else n4).NoUnits
      split <;> exact ⟨rfl, rfl⟩
    exact h5
  clear_value n7
  have h8 : n8.NoUnits := by
    obtain ⟨od, dom, e⟩ := n7.extend_shape 0 (leBytes 48 (Config.romDigest (v2.fuseBad ++ v2.fuseCache.map (· + 1152))))
    show (n7.extend 0 _).NoUnits
    rw [e]
    exact h7
  have h9 : n9.NoUnits :=
    List.foldlRecOn (motive := fun d' : Dev => d'.NoUnits) _ _ h8 fun d' h i _ => by
      split
      · exact Dev.NoUnits.raise (d := (d'.putBit Obj.SIDEBAND_STATUS (2 + i) true).putBit Obj.SIDEBAND_FAULTS (2 + i) true) h _
      · exact h
  exact (h9.raise_if _ _).raise_if _ _

/-- A whole-device reset of a module whose input is held restarts it. -/
theorem State.wholeReset_restarted (s : State) (last sel0 sel1 : Nat) (hbank : s.dev.power.onBank = false) :
    s.Restarted (s.wholeReset last sel0 sel1) last sel0 sel1 := by
  obtain ⟨hboot, hcap, -, hhbm, hslow, hhearths⟩ :=
    bootFrom_dev s.vault s.dev (!s.dev.power.tripped && !s.dev.power.onBank) (if s.dev.power.tripped then 5 else last) sel0 sel1
  obtain ⟨hports, hstks⟩ :=
    bootFrom_noUnits s.vault s.dev (!s.dev.power.tripped && !s.dev.power.onBank) (if s.dev.power.tripped then 5 else last) sel0 sel1
  refine ⟨hboot, hhearths, hports, hstks, rfl, rfl, rfl, rfl, rfl, rfl, hcap, rfl, rfl, rfl, fun ht => ⟨?_, ?_⟩, fun ht => ⟨?_, ?_⟩⟩
  · exact hhbm.trans (by simp [ht])
  · exact hslow.trans (by simp [ht])
  · exact hslow.trans (by simp [ht, hbank])
  · intro st sec hsec
    have hkept : (s.wholeReset last sel0 sel1).dev.hbm = s.dev.keptHbm := hhbm.trans (by simp [ht, hbank])
    rw [Dev.sector, hkept, tget_keptHbm _ _ hsec]

/-! ### The defect list (R404) -/

/-- Queueing a defect record: it joins mirror 0 where that is in service. -/
theorem Dev.queueDefect_spec (d : Dev) (r : Nat) :
    (∃ od store, d.queueStore (.defect r) = { d with od := od, store := store }) ∧
    d.SameObjects (d.queueStore (.defect r)) [Obj.DEFECT_STATUS.key 0 0] ∧
    (d.mirrorUp 0 = true → (d.queueStore (.defect r)).store = { d.store with queue := d.store.queue ++ [⟨.defect r, 0, false⟩] }) := by
  unfold Dev.queueStore
  split
  next h => exact ⟨⟨_, _, rfl⟩, fun _ _ => rfl, fun _ => rfl⟩
  next h =>
    refine ⟨?_, ?_, fun hm => absurd hm h⟩
    · split <;> exact ⟨_, _, rfl⟩
    · split
      · exact fun _ _ => rfl
      · exact (Dev.put_onlyOd (by simp)).2

/-- `d'` is `d` but for the store, and for what recording an event and showing the list's status change. -/
def Dev.DefectNoted (d d' : Dev) : Prop :=
  (∃ od ev host i3c pilot net store, d' = { d with od := od, events := ev, host := host, i3c := i3c, pilot := pilot, net := net, store := store }) ∧
  d.SameObjects d' (Obj.DEFECT_STATUS.key 0 0 :: eventKeys)

/-- An event raised behind a change of the store and of the list's status. -/
theorem Dev.DefectNoted.raise {d d1 : Dev} (hshape : ∃ od store, d1 = { d with od := od, store := store })
    (hobjs : d.SameObjects d1 [Obj.DEFECT_STATUS.key 0 0]) (ev : Ev) : d.DefectNoted (d1.raise ev .global 0) := by
  obtain ⟨⟨_, _, _, _, _, _, e⟩, hk⟩ := d1.raise_recorded ev .global 0 none 0 0
  obtain ⟨od, store, rfl⟩ := hshape
  refine ⟨⟨_, _, _, _, _, _, _, e⟩, fun k hkey => ?_⟩
  simp only [List.mem_cons, not_or] at hkey
  exact (hk k hkey.2).trans (hobjs k (by simpa using hkey.1))

/-- Everything that appending a record to the defect list can change. -/
theorem Dev.appendDefect_noted (d : Dev) (v : Vault) (kind source index detail : Nat) :
    d.DefectNoted (d.appendDefect v kind source index detail) := by
  unfold Dev.appendDefect
  split
  · exact ⟨⟨_, _, _, _, _, _, _, rfl⟩, fun _ _ => rfl⟩
  · split
    · exact .raise ⟨_, _, rfl⟩ (Dev.put_onlyOd (by simp)).2 _
    · exact .raise (d.queueDefect_spec _).1 (d.queueDefect_spec _).2.1 _

theorem Dev.DefectNoted.get {d d' : Dev} (h : d.DefectNoted d') {o : ObjDef} {i e : Nat} (hs : o.key i e ≠ Obj.DEFECT_STATUS.key 0 0)
    (hk : o.key i e ∉ eventKeys) : d'.get o i e = d.get o i e := h.2.get (by simpa using ⟨hs, hk⟩)

theorem Dev.DefectNoted.keeps {d d' : Dev} (h : d.DefectNoted d') : d'.hearths = d.hearths ∧ d'.hbm = d.hbm ∧ d'.slow = d.slow := by
  obtain ⟨⟨_, _, _, _, _, _, _, rfl⟩, -⟩ := h
  exact ⟨rfl, rfl, rfl⟩

/-- Whether a unit is listed and how many records are queued is read from the store alone. -/
theorem Dev.isListed_of_store {d d' : Dev} (h : d'.store = d.store) (v : Vault) (kind index : Nat) :
    d'.isListed v kind index = d.isListed v kind index := by simp only [Dev.isListed, Dev.queuedDefects, h]

/-- Appending a record queues it, or shows the list FULL (R403, R404); `d` may differ from the state's device where the list does not look. -/
theorem State.defectQueued_append {s t : State} {d : Dev} (kind source index detail : Nat) (hstore : d.store = s.dev.store)
    (hboot : d.get Obj.BOOT_COUNT = s.dev.get Obj.BOOT_COUNT) (hmirror : d.mirrorUp 0 = s.dev.mirrorUp 0)
    (ht : t.dev.store = (d.appendDefect s.vault kind source index detail).store)
    (hstatus : t.dev.get Obj.DEFECT_STATUS = (d.appendDefect s.vault kind source index detail).get Obj.DEFECT_STATUS) :
    s.DefectQueued t kind source index detail := by
  have hlisted := Dev.isListed_of_store hstore s.vault kind index
  have hqueued : d.queuedDefects = s.dev.queuedDefects := by simp only [Dev.queuedDefects, hstore]
  refine ⟨fun hl => ?_, fun hl => ⟨fun hfull => ⟨?_, ?_⟩, fun hroom hup => ?_⟩⟩
  · rw [ht, Dev.appendDefect, if_pos (hlisted.trans hl), hstore]
  · rw [ht, Dev.appendDefect, if_neg (by simp [hlisted, hl]), hqueued, if_pos hfull, Dev.store_raise]
    exact hstore
  · rw [hstatus, Dev.appendDefect, if_neg (by simp [hlisted, hl]), hqueued, if_pos hfull, Dev.get_raise _ _ _ _ _ _ _ (by decide),
      Dev.bit_get_putBit _ _ _ _ _ _ (by decide), if_pos rfl]
  · rw [ht, Dev.appendDefect, if_neg (by simp [hlisted, hl]), hqueued, if_neg (by omega), Dev.store_raise,
      (d.queueDefect_spec _).2.2 (hmirror.trans hup), hboot, hstore]

end Sys2Proof.Machine
end

section
/-! The reset of hearths (R167, R412, R413): what ending parts of steps changes, and how a reset leaves a hearth whatever step it ran. -/

namespace Sys2Proof.Machine

/-! ### Objects of a hearth's block -/

/-- An object with one value for each hearth, in the hearth's own block (R353). -/
abbrev ObjDef.OfHearth (o : ObjDef) : Prop := o.kind = .hearth ∧ 0x20000 ≤ o.base ∧ o.base < 0x20040 ∧ o.lo < 256

/-- Two values of hearths' blocks share no key, unless they are the same object of the same hearth. -/
theorem hearthKey_ne {o p : ObjDef} (ho : o.OfHearth) (hp : p.OfHearth) {i j : Nat} (h : o.base ≠ p.base ∨ o.lo ≠ p.lo ∨ i ≠ j) :
    o.key i 0 ≠ p.key j 0 := by
  obtain ⟨ok, _, _, _⟩ := ho
  obtain ⟨pk, _, _, _⟩ := hp
  simp only [ObjDef.key, ok, pk, Kind.stride]
  omega

/-- Every key that recording an event changes is one of the device's own block. -/
theorem lt_of_mem_eventKeys {k : Nat} (h : k ∈ eventKeys) : k < 0x10000 * 256 := by
  revert k
  decide

theorem hearthKey_not_event {o : ObjDef} (ho : o.OfHearth) (i : Nat) : o.key i 0 ∉ eventKeys := by
  intro h
  have := lt_of_mem_eventKeys h
  obtain ⟨ok, _, _, _⟩ := ho
  simp only [ObjDef.key, ok, Kind.stride] at this
  omega

/-- Keys of what shows the end of a hearth's part of a step. -/
def partKeys (h : Nat) : List Nat := [Obj.HALTED_STREAMS.key h 0, Obj.RUNNING_CTX.key h 0, Obj.HEARTH_STATE.key h 0]

/-- Keys of what a reset of a hearth writes. -/
def resetKeys (h : Nat) : List Nat :=
  partKeys h ++ [Obj.RESET_GENERATION.key h 0, Obj.FW_CHUNKS_MISSING.key h 0, Obj.FW_STATE.key h 0, Obj.TEST_RESULT.key h 0]

theorem partKeys_subset_resetKeys (h : Nat) : partKeys h ⊆ resetKeys h := List.subset_append_left ..

/-- What a reset writes of one hearth is nothing of another. -/
theorem hearthKey_not_reset {o : ObjDef} (ho : o.OfHearth) {i j : Nat} (h : i ≠ j) : o.key i 0 ∉ resetKeys j := by
  simp only [resetKeys, partKeys, List.mem_append, List.mem_cons, List.not_mem_nil, or_false, not_or]
  refine ⟨⟨?_, ?_, ?_⟩, ?_, ?_, ?_, ?_⟩ <;> exact hearthKey_ne ho (by decide) (.inr (.inr h))

/-- An object that the end of a part does not show. -/
theorem hearthKey_not_part {o : ObjDef} (ho : o.OfHearth)
    (h : ∀ p ∈ [Obj.HALTED_STREAMS, Obj.RUNNING_CTX, Obj.HEARTH_STATE], o.base ≠ p.base ∨ o.lo ≠ p.lo) (i j : Nat) : o.key i 0 ∉ partKeys j := by
  simp only [partKeys, List.mem_cons, List.not_mem_nil, or_false, not_or]
  simp only [List.forall_mem_cons, List.not_mem_nil, false_imp_iff, implies_true, and_true] at h
  obtain ⟨hh, hr, hs⟩ := h
  refine ⟨?_, ?_, ?_⟩
  · exact hearthKey_ne ho (by decide) (hh.imp_right .inl)
  · exact hearthKey_ne ho (by decide) (hr.imp_right .inl)
  · exact hearthKey_ne ho (by decide) (hs.imp_right .inl)

/-- REGION_STATE and REGION_PARTITION are nothing that a hearth's reset writes. -/
theorem regionKey_not_reset (g e j : Nat) (he : e < 4) :
    Obj.REGION_STATE.key g 0 ∉ resetKeys j ∧ (g < 4 → Obj.REGION_PARTITION.key g e ∉ resetKeys j) := by
  simp [resetKeys, partKeys, ObjDef.key, Kind.stride, Obj.REGION_STATE, Obj.REGION_PARTITION, Obj.HALTED_STREAMS, Obj.RUNNING_CTX,
    Obj.HEARTH_STATE, Obj.RESET_GENERATION, Obj.FW_CHUNKS_MISSING, Obj.FW_STATE, Obj.TEST_RESULT]
  omega

theorem regionKey_not_event (g e : Nat) : Obj.REGION_STATE.key g 0 ∉ eventKeys ∧ Obj.REGION_PARTITION.key g e ∉ eventKeys := by
  constructor <;> intro h <;> have := lt_of_mem_eventKeys h <;>
    simp only [ObjDef.key, Obj.REGION_STATE, Obj.REGION_PARTITION, Kind.stride] at this <;> omega

/-! ### The end of a hearth's part (R167, R325) -/

/-- A hearth that holds nothing of a step but its part, and that part is aborting. -/
def Hearth.Emptied (x : Hearth) : Prop :=
  x.window = [] ∧ x.counters = [] ∧ x.places = [] ∧ x.slots = [] ∧ x.cstore = [] ∧ ∀ r, x.run = some r → r.aborting = true

/-- `d'` is `d` after parts of steps have been aborted or have ended on hearths of `S` alone: no scratchpad has changed, and no hearth has
become absent or ceased to be. -/
structure Dev.Ends (S : Nat → Prop) (d d' : Dev) : Prop where
  shape : ∃ od hearths ctxs flues net events host i3c pilot,
    d' = { d with od := od, hearths := hearths, ctxs := ctxs, flues := flues, net := net, events := events, host := host, i3c := i3c, pilot := pilot }
  others : ∀ h, ¬ S h → d'.hearth h = d.hearth h
  scratch : ∀ h, (d'.hearth h).scr = (d.hearth h).scr ∧ (d'.hearth h).ash = (d.hearth h).ash
  emptied : ∀ h, (d.hearth h).Emptied → (d'.hearth h).Emptied
  objects : ∀ k, k ∉ eventKeys → (∀ h, S h → k ∉ partKeys h) → tget 0 d'.od k = tget 0 d.od k
  present : ∀ h, d'.hState h = 0 ↔ d.hState h = 0

section
variable {S T : Nat → Prop} {a b c d : Dev}

theorem Dev.Ends.refl (S : Nat → Prop) (d : Dev) : d.Ends S d where
  shape := ⟨_, _, _, _, _, _, _, _, _, rfl⟩
  others _ _ := rfl
  scratch _ := ⟨rfl, rfl⟩
  emptied _ h := h
  objects _ _ _ := rfl
  present _ := .rfl

theorem Dev.Ends.trans (h : a.Ends S b) (g : b.Ends S c) : a.Ends S c where
  shape := by
    obtain ⟨_, _, _, _, _, _, _, _, _, rfl⟩ := h.shape
    obtain ⟨_, _, _, _, _, _, _, _, _, rfl⟩ := g.shape
    exact ⟨_, _, _, _, _, _, _, _, _, rfl⟩
  others x hx := (g.others x hx).trans (h.others x hx)
  scratch x := ⟨(g.scratch x).1.trans (h.scratch x).1, (g.scratch x).2.trans (h.scratch x).2⟩
  emptied x hx := g.emptied x (h.emptied x hx)
  objects k he hk := (g.objects k he hk).trans (h.objects k he hk)
  present x := (g.present x).trans (h.present x)

theorem Dev.Ends.mono (h : a.Ends S b) (hs : ∀ x, S x → T x) : a.Ends T b where
  shape := h.shape
  others x hx := h.others x fun hS => hx (hs x hS)
  scratch := h.scratch
  emptied := h.emptied
  objects k he hk := h.objects k he fun x hx => hk x (hs x hx)
  present := h.present

theorem Dev.Recorded.ends (h : a.Recorded b) (S : Nat → Prop) : a.Ends S b := by
  obtain ⟨⟨_, _, _, _, _, _, rfl⟩, hk⟩ := h
  refine ⟨⟨_, _, _, _, _, _, _, _, _, rfl⟩, fun _ _ => rfl, fun _ => ⟨rfl, rfl⟩, fun _ h => h, fun k he _ => hk k he, fun x => ?_⟩
  have : tget 0 _ (Obj.HEARTH_STATE.key x 0) = tget 0 a.od (Obj.HEARTH_STATE.key x 0) := hk _ (hearthKey_not_event (by decide) x)
  simp only [Dev.hState, Dev.get, this]

theorem Dev.Ends.of_rest (S : Nat → Prop) (d : Dev) (ctxs : Tab Ctx) (flues : Tab Flue) (net : Net) :
    d.Ends S { d with ctxs := ctxs, flues := flues, net := net } :=
  ⟨⟨_, _, _, _, _, _, _, _, _, rfl⟩, fun _ _ => rfl, fun _ => ⟨rfl, rfl⟩, fun _ h => h, fun _ _ _ => rfl, fun _ => .rfl⟩

theorem Dev.modHearth_ends {h : Nat} {f : Hearth → Hearth} (hS : S h) (hf : ∀ x, (f x).scr = x.scr ∧ (f x).ash = x.ash)
    (he : ∀ x, x.Emptied → (f x).Emptied) : d.Ends S (d.modHearth h f) where
  shape := ⟨_, _, _, _, _, _, _, _, _, rfl⟩
  others x hx := Dev.hearth_setHearth_ne d (by rintro rfl; exact hx hS) _
  scratch x := by
    by_cases hx : x = h
    · subst hx
      simpa [Dev.modHearth] using hf (d.hearth x)
    · simp [Dev.modHearth, Dev.hearth_setHearth_ne d hx]
  emptied x hx := by
    by_cases hxh : x = h
    · subst hxh
      simpa [Dev.modHearth] using he _ hx
    · simpa [Dev.modHearth, Dev.hearth_setHearth_ne d hxh] using hx
  objects _ _ _ := rfl
  present _ := .rfl

/-- Writing an object that shows the end of a part, other than the hearth's state. -/
theorem Dev.putPart_ends {o : ObjDef} {h v : Nat} (hS : S h) (ho : o.OfHearth) (hk : o.key h 0 ∈ partKeys h)
    (hne : o.base ≠ Obj.HEARTH_STATE.base ∨ o.lo ≠ Obj.HEARTH_STATE.lo) : d.Ends S (d.put o v h) where
  shape := ⟨_, _, _, _, _, _, _, _, _, rfl⟩
  others _ _ := rfl
  scratch _ := ⟨rfl, rfl⟩
  emptied _ hx := hx
  objects k _ hkey := tget_tset_ne _ (by rintro rfl; exact hkey h hS hk) ..
  present x := by rw [Dev.hState, Dev.get_put_ne _ _ (hearthKey_ne (by decide) ho (hne.imp Ne.symm fun h => .inl h.symm)), Dev.hState]

/-- A FIRING hearth becomes IDLE. -/
theorem Dev.putIdle_ends {h : Nat} (hS : S h) (hf : d.hState h = hFiring) : d.Ends S (d.put Obj.HEARTH_STATE hIdle h) where
  shape := ⟨_, _, _, _, _, _, _, _, _, rfl⟩
  others _ _ := rfl
  scratch _ := ⟨rfl, rfl⟩
  emptied _ hx := hx
  objects k _ hkey := (Dev.put_onlyOd (o := Obj.HEARTH_STATE) (v := hIdle) (i := h) (ks := partKeys h) (by simp [partKeys])).2 k (hkey h hS)
  present x := by
    by_cases hx : x = h
    · subst hx
      rw [hf, Dev.hState, Dev.get_put_self]
      decide
    · rw [Dev.hState, Dev.get_put_ne _ _ (hearthKey_ne (by decide) (by decide) (.inr (.inr hx))), Dev.hState]

end

/-- Resetting the flues of a slot changes flues alone. -/
theorem Dev.resetCtxFlues_shape (d : Dev) (c : Nat) : ∃ flues, d.resetCtxFlues c = { d with flues := flues } :=
  List.foldlRecOn (motive := fun d' : Dev => ∃ flues, d' = { d with flues := flues }) _ _ ⟨_, rfl⟩ fun d' h f _ => by
    obtain ⟨flues, rfl⟩ := h
    exact ⟨_, rfl⟩

theorem Dev.abortReport_ends (S : Nat → Prop) (d : Dev) (c : Nat) : d.Ends S (d.abortReport c) := by
  unfold Dev.abortReport
  split
  · exact .refl ..
  · split
    · exact .refl ..
    · exact (Dev.Ends.of_rest S d _ d.flues d.net).trans ((Dev.raise_recorded ..).ends S)

/-- The end of an aborted step changes no hearth. -/
theorem Dev.abortEnd_ends (S : Nat → Prop) (d : Dev) (c : Nat) : d.Ends S (d.abortEnd c) := by
  unfold Dev.abortEnd
  split
  · split
    · split
      · obtain ⟨flues, e⟩ := d.resetCtxFlues_shape c
        rw [e]
        exact (Dev.Ends.of_rest S d _ flues d.net).trans (Dev.abortReport_ends S _ c)
      · exact .refl ..
    · exact .refl ..
  · exact .refl ..

theorem Dev.dropExchange_ends {S : Nat → Prop} {d : Dev} {h : Nat} (hS : S h) : d.Ends S (d.dropExchange h) := by
  unfold Dev.dropExchange
  split
  · exact .refl ..
  · exact (Dev.Ends.of_rest S d d.ctxs d.flues _).trans (Dev.modHearth_ends hS (fun _ => ⟨rfl, rfl⟩) fun _ hx => hx)

/-- The context slot of a step notes that a hearth has ended its part. -/
def Dev.notePart (d : Dev) (h c : Nat) : Dev :=
  match (d.ctx c).run with
  | some r => d.setCtx c { d.ctx c with run := some { r with ended := r.ended ++ [h] } }
  | none => d

theorem Dev.notePart_ends (S : Nat → Prop) (d : Dev) (h c : Nat) : d.Ends S (d.notePart h c) := by
  unfold Dev.notePart
  split
  · exact .of_rest S d _ d.flues d.net
  · exact .refl ..

/-- A hearth after it has ended its part of slot `c`'s step. -/
def Hearth.released (c : Nat) (x : Hearth) : Hearth :=
  { x with run := none, lastCtx := if x.owesExchange then x.lastCtx else some c, once := [], window := [], walk := Walk.start 0, jobs := [],
           bufs := [], feeders := [], feederPos := [], feedHalf := [], bellows := Bellows.fresh }

theorem Hearth.Emptied.released {x : Hearth} (h : x.Emptied) (c : Nat) : (x.released c).Emptied := by
  obtain ⟨-, hcounters, hplaces, hslots, hcstore, -⟩ := h
  exact ⟨rfl, hcounters, hplaces, hslots, hcstore, by simp [Hearth.released]⟩

/-- A hearth that was FIRING is IDLE again. -/
def Dev.stopFiring (d : Dev) (h : Nat) : Dev := if d.hState h = hFiring then d.put Obj.HEARTH_STATE hIdle h else d

theorem Dev.stopFiring_ends {S : Nat → Prop} {d : Dev} {h : Nat} (hS : S h) : d.Ends S (d.stopFiring h) := by
  unfold Dev.stopFiring
  split
  next hf => exact Dev.putIdle_ends hS hf
  · exact .refl ..

/-- The end of a part: what the hearth lets go, then what is shown of it. -/
def Dev.letGo (d : Dev) (h c : Nat) : Dev := (d.dropExchange h).modHearth h (Hearth.released c)

def Dev.showIdle (d : Dev) (h : Nat) : Dev := (d.put Obj.RUNNING_CTX 0xFF h).stopFiring h

theorem Dev.endPart_eq (d : Dev) (h c : Nat) : d.endPart h c = (((d.letGo h c).showIdle h).notePart h c).abortEnd c := rfl

theorem Dev.letGo_ends {S : Nat → Prop} {d : Dev} {h : Nat} (hS : S h) (c : Nat) : d.Ends S (d.letGo h c) :=
  (Dev.dropExchange_ends hS).trans (Dev.modHearth_ends (f := Hearth.released c) hS (fun _ => ⟨rfl, rfl⟩) fun _ hx => hx.released c)

theorem Dev.letGo_run (d : Dev) (h c : Nat) : ((d.letGo h c).hearth h).run = none := by
  simp [Dev.letGo, Dev.modHearth, Hearth.released]

theorem Dev.showIdle_ends {S : Nat → Prop} {d : Dev} {h : Nat} (hS : S h) : d.Ends S (d.showIdle h) :=
  (Dev.putPart_ends (o := Obj.RUNNING_CTX) hS (by decide) (by simp [partKeys]) (by decide)).trans (Dev.stopFiring_ends hS)

theorem Dev.showIdle_hearths (d : Dev) (h : Nat) : (d.showIdle h).hearths = d.hearths := by
  unfold Dev.showIdle Dev.stopFiring
  split <;> rfl

theorem Dev.endPart_ends {S : Nat → Prop} {d : Dev} {h : Nat} (hS : S h) (c : Nat) : d.Ends S (d.endPart h c) := by
  rw [Dev.endPart_eq]
  exact ((Dev.letGo_ends hS c).trans (Dev.showIdle_ends hS)).trans ((Dev.notePart_ends S _ h c).trans (Dev.abortEnd_ends S _ c))

/-- A hearth that has ended its part runs no step. -/
theorem Dev.endPart_run (d : Dev) (h c : Nat) : ((d.endPart h c).hearth h).run = none := by
  rw [Dev.endPart_eq]
  obtain ⟨d1, hd1⟩ : ∃ d1, d1 = (d.letGo h c).showIdle h := ⟨_, rfl⟩
  have hshow : d1.hearth h = (d.letGo h c).hearth h := by rw [hd1, Dev.hearth, Dev.showIdle_hearths, Dev.hearth]
  have hrest : d1.Ends (fun _ => False) ((d1.notePart h c).abortEnd c) := (Dev.notePart_ends _ d1 h c).trans (Dev.abortEnd_ends _ _ c)
  rw [← hd1, hrest.others h id, hshow]
  exact d.letGo_run h c

theorem Dev.abortSettle_ends {S : Nat → Prop} {d : Dev} {h : Nat} (hS : S h) : d.Ends S (d.abortSettle h) := by
  unfold Dev.abortSettle
  extract_lets x
  split
  · split
    · have hmod : d.Ends S (d.modHearth h fun x => { x with counters := [], places := [], slots := x.slots }) :=
        Dev.modHearth_ends hS (fun _ => ⟨rfl, rfl⟩) fun x ⟨hwindow, _, _, hslots, hcstore, hrun⟩ => ⟨hwindow, rfl, rfl, hslots, hcstore, hrun⟩
      exact hmod.trans (Dev.endPart_ends hS _)
    · exact .refl ..
  · exact .refl ..

/-- A hearth that holds nothing but an aborting part ends it. -/
theorem Dev.abortSettle_run {d : Dev} {h : Nat} (he : (d.hearth h).Emptied) : ((d.abortSettle h).hearth h).run = none := by
  obtain ⟨hwindow, -, -, -, -, hrun⟩ := he
  unfold Dev.abortSettle
  extract_lets x
  split
  next r hr =>
    rw [if_pos (by simp [x, hwindow, hrun r hr])]
    exact Dev.endPart_run ..
  next hr => exact hr

/-- A hearth whose part of a step is aborting: nothing more fires, and no increment is pending. -/
def Hearth.partAborted (x : Hearth) : Hearth :=
  { x with run := x.run.map fun r => { r with aborting := true, stopped := true },
           window := (x.window.filter fun e => e.st = .firing).map fun e => { e with inc := [] },
           places := x.places.map fun p => (p.1, p.2.map Transfer.goNative) }

theorem Hearth.Emptied.partAborted {x : Hearth} (h : x.Emptied) : x.partAborted.Emptied := by
  obtain ⟨hwindow, hcounters, hplaces, hslots, hcstore, -⟩ := h
  refine ⟨by simp [Hearth.partAborted, hwindow], hcounters, by simp [Hearth.partAborted, hplaces], hslots, hcstore, fun r hr => ?_⟩
  simp only [Hearth.partAborted, Option.map_eq_some_iff] at hr
  obtain ⟨r', -, rfl⟩ := hr
  rfl

theorem Dev.abortHearth_eq (d : Dev) (h : Nat) :
    d.abortHearth h = ((d.modHearth h Hearth.partAborted).put Obj.HALTED_STREAMS 0 h).abortSettle h := rfl

theorem Dev.abortHearth_ends {S : Nat → Prop} {d : Dev} {h : Nat} (hS : S h) : d.Ends S (d.abortHearth h) := by
  rw [Dev.abortHearth_eq]
  have hmod : d.Ends S (d.modHearth h Hearth.partAborted) := Dev.modHearth_ends hS (fun _ => ⟨rfl, rfl⟩) fun _ hx => hx.partAborted
  exact (hmod.trans (Dev.putPart_ends (o := Obj.HALTED_STREAMS) hS (by decide) (by simp [partKeys]) (by decide))).trans (Dev.abortSettle_ends hS)

/-- `d'` is `d` after running steps have been aborted: only hearths that ran a step have changed. -/
abbrev Dev.Aborts (d d' : Dev) : Prop := d.Ends (fun h => (d.hearth h).run ≠ none) d'

theorem Dev.Aborts.trans {a b c : Dev} (h : a.Aborts b) (g : b.Aborts c) : a.Aborts c := by
  refine Dev.Ends.trans h (g.mono fun x hx hrun => hx ?_)
  rw [h.others x (not_not_intro hrun), hrun]

/-- Aborting a running step changes hearths that run it alone. -/
theorem Dev.abortStep_aborts (d : Dev) (c cause : Nat) : d.Aborts (d.abortStep c cause) := by
  unfold Dev.abortStep
  extract_lets x
  split
  · exact .refl ..
  next r _ =>
    split
    · exact .refl ..
    · extract_lets idle d1 d2
      have h1 : d.Aborts d1 := .of_rest _ d _ d.flues d.net
      have h2 : d.Aborts d2 := by
        refine List.foldlRecOn (motive := fun d' : Dev => d.Aborts d') _ _ h1 fun d' hd' h hmem => Dev.Ends.trans hd' (Dev.abortHearth_ends ?_)
        intro hrun
        have hctx : d1.hearthCtx h = some c := by simpa using (List.mem_filter.mp hmem).2
        have hnone : (d1.hearth h).run = none := hrun
        simp [Dev.hearthCtx, hnone] at hctx
      split
      · exact Dev.Ends.trans h2 (Dev.abortEnd_ends _ _ c)
      · exact h2

/-- Aborting the running steps of several slots. -/
theorem Dev.abortSteps_aborts (cs : List Nat) (cause : Nat) (d : Dev) : d.Aborts (cs.foldl (fun d c => d.abortStep c cause) d) :=
  List.foldlRecOn (motive := fun d' : Dev => d.Aborts d') _ _ (.refl _ d) fun d' h c _ => h.trans (d'.abortStep_aborts c cause)

/-! ### A hearth's reset (R412, R413) -/

/-- How a reset that `a` stood before has left hearth `h`: it holds its scratchpad alone, it is closed, and unless it is absent it awaits
its test and its firmware. -/
structure Dev.HearthCleared (a d : Dev) (h : Nat) : Prop where
  emptied : (d.hearth h).Emptied
  run : (d.hearth h).run = none
  lastCtx : (d.hearth h).lastCtx = none
  scr : (d.hearth h).scr = (a.hearth h).scr
  ash : (d.hearth h).ash = (a.hearth h).ash
  generation : d.get Obj.RESET_GENERATION h = (a.get Obj.RESET_GENERATION h + 1) % 16
  awaits : a.hearthAbsent h = false → d.get Obj.HEARTH_STATE h = hResetting ∧ d.get Obj.FW_STATE h = 0 ∧ d.get Obj.RUNNING_CTX h = 0xFF ∧
    d.get Obj.TEST_RESULT h = 0
  closed : d.hearthOpen h = false

theorem Dev.HearthCleared.hearthReset {s t : State} {h : Nat} (c : s.dev.HearthCleared t.dev h) : s.HearthReset t h := by
  obtain ⟨hwindow, hcounters, hplaces, hslots, hcstore, -⟩ := c.emptied
  exact ⟨hwindow, hcounters, hplaces, hslots, hcstore, c.run, c.lastCtx, c.scr, c.ash, c.generation, c.awaits⟩

/-- What a reset of `hs`, one by one, leaves: each of `hs` is cleared, and of the others only those that ran a step have changed. -/
structure Dev.Resets (hs : List Nat) (d d' : Dev) : Prop where
  shape : ∃ od hearths ctxs flues net events host i3c pilot,
    d' = { d with od := od, hearths := hearths, ctxs := ctxs, flues := flues, net := net, events := events, host := host, i3c := i3c, pilot := pilot }
  cleared : ∀ h ∈ hs, d.HearthCleared d' h
  others : ∀ h ∉ hs, (d.hearth h).run = none → d'.hearth h = d.hearth h
  scratch : ∀ h ∉ hs, (d'.hearth h).scr = (d.hearth h).scr ∧ (d'.hearth h).ash = (d.hearth h).ash
  objects : ∀ k, k ∉ eventKeys → (∀ h ∈ hs, k ∉ resetKeys h) → (∀ h ∉ hs, (d.hearth h).run ≠ none → k ∉ partKeys h) →
    tget 0 d'.od k = tget 0 d.od k
  present : ∀ h ∉ hs, d'.hState h = 0 ↔ d.hState h = 0

theorem Dev.get_congr {d d' : Dev} {o : ObjDef} {i e : Nat} (h : tget 0 d'.od (o.key i e) = tget 0 d.od (o.key i e)) :
    d'.get o i e = d.get o i e := by simp only [Dev.get, h]

section
variable {hs : List Nat} {d d' : Dev}

/-- REGION_STATE and REGION_PARTITION are as they were. -/
theorem Dev.Resets.get_region (r : d.Resets hs d') (g : Nat) : d'.get Obj.REGION_STATE g = d.get Obj.REGION_STATE g :=
  Dev.get_congr (r.objects _ (regionKey_not_event g 0).1 (fun h _ => (regionKey_not_reset g 0 h (by decide)).1)
    fun h _ _ hm => (regionKey_not_reset g 0 h (by decide)).1 (partKeys_subset_resetKeys h hm))

theorem Dev.Resets.get_partition (r : d.Resets hs d') {g e : Nat} (hg : g < 4) (he : e < 4) :
    d'.get Obj.REGION_PARTITION g e = d.get Obj.REGION_PARTITION g e :=
  Dev.get_congr (r.objects _ (regionKey_not_event g e).2 (fun h _ => (regionKey_not_reset g e h he).2 hg)
    fun h _ _ hm => (regionKey_not_reset g e h he).2 hg (partKeys_subset_resetKeys h hm))

/-- An object of a hearth that is not reset, and that the end of a part does not show. -/
theorem Dev.Resets.get_other (r : d.Resets hs d') {o : ObjDef} (ho : o.OfHearth) {h : Nat} (hh : h ∉ hs)
    (hp : (d.hearth h).run = none ∨ ∀ j, o.key h 0 ∉ partKeys j) : d'.get o h = d.get o h := by
  refine Dev.get_congr (r.objects _ (hearthKey_not_event ho h) (fun j hj => hearthKey_not_reset ho (by rintro rfl; exact hh hj)) fun j _ hrun => ?_)
  rcases hp with hn | hp
  · exact fun hm => hearthKey_not_reset ho (i := h) (j := j) (by rintro rfl; exact hrun hn) (partKeys_subset_resetKeys j hm)
  · exact hp j

/-- Whether a hearth that is not reset is absent stays as it was. -/
theorem Dev.Resets.absent (r : d.Resets hs d') {h : Nat} (hh : h ∉ hs) : d'.hearthAbsent h = d.hearthAbsent h := by
  have hzero : (decide (d'.hState h = hAbsent)) = decide (d.hState h = hAbsent) := decide_eq_decide.mpr (r.present h hh)
  rw [Dev.hearthAbsent, hzero, r.get_region, Dev.hearthAbsent]

/-- Resets of hearths one after the other. -/
theorem Dev.Resets.trans {a b c : Dev} {xs ys : List Nat} (hd : ∀ h ∈ xs, h ∉ ys) (f : a.Resets xs b) (g : b.Resets ys c) :
    a.Resets (xs ++ ys) c where
  shape := by
    obtain ⟨_, _, _, _, _, _, _, _, _, rfl⟩ := f.shape
    obtain ⟨_, _, _, _, _, _, _, _, _, rfl⟩ := g.shape
    exact ⟨_, _, _, _, _, _, _, _, _, rfl⟩
  cleared h hm := by
    by_cases hy : h ∈ ys
    · have hx : h ∉ xs := fun hx => hd h hx hy
      have k := g.cleared h hy
      refine ⟨k.emptied, k.run, k.lastCtx, k.scr.trans (f.scratch h hx).1, k.ash.trans (f.scratch h hx).2, ?_, fun ha => k.awaits ?_, k.closed⟩
      · rw [k.generation, f.get_other (by decide) hx (.inr (hearthKey_not_part (by decide) (by decide) h))]
      · rw [f.absent hx, ha]
    · have hx : h ∈ xs := (List.mem_append.mp hm).resolve_right hy
      have k := f.cleared h hx
      have hsame := g.others h hy k.run
      have hget : ∀ o : ObjDef, o.OfHearth → c.get o h = b.get o h := fun o ho => g.get_other ho hy (.inl k.run)
      refine ⟨hsame ▸ k.emptied, hsame ▸ k.run, hsame ▸ k.lastCtx, hsame ▸ k.scr, hsame ▸ k.ash, ?_, fun ha => ?_, ?_⟩
      · rw [hget _ (by decide), k.generation]
      · rw [hget _ (by decide), hget _ (by decide), hget _ (by decide), hget _ (by decide)]
        exact k.awaits ha
      · have hstate : c.hState h = b.hState h := hget _ (by decide)
        rw [Dev.hearthOpen, hstate]
        exact k.closed
  others h hm hrun := by
    simp only [List.mem_append, not_or] at hm
    have hsame := f.others h hm.1 hrun
    rw [g.others h hm.2 (hsame ▸ hrun), hsame]
  scratch h hm := by
    simp only [List.mem_append, not_or] at hm
    exact ⟨(g.scratch h hm.2).1.trans (f.scratch h hm.1).1, (g.scratch h hm.2).2.trans (f.scratch h hm.1).2⟩
  objects k he hr hp := by
    refine (g.objects k he (fun h hy => hr h (List.mem_append_right _ hy)) fun h hy hrun => ?_).trans
      (f.objects k he (fun h hx => hr h (List.mem_append_left _ hx)) fun h hx hrun => ?_)
    · by_cases hx : h ∈ xs
      · exact absurd (f.cleared h hx).run hrun
      · exact hp h (by simp [hx, hy]) fun hn => hrun (by rw [f.others h hx hn, hn])
    · by_cases hy : h ∈ ys
      · exact fun hm => hr h (List.mem_append_right _ hy) (partKeys_subset_resetKeys h hm)
      · exact hp h (by simp [hx, hy]) hrun
  present h hm := by
    simp only [List.mem_append, not_or] at hm
    exact (g.present h hm.2).trans (f.present h hm.1)

theorem Dev.Resets.nil (d : Dev) : d.Resets [] d where
  shape := ⟨_, _, _, _, _, _, _, _, _, rfl⟩
  cleared h hm := by cases hm
  others _ _ _ := rfl
  scratch _ _ := ⟨rfl, rfl⟩
  objects _ _ _ _ := rfl
  present _ _ := .rfl

end

/-- A hearth that stops at once, every step over it aborted and its own part ended (R413). -/
def Dev.halted (d : Dev) (h : Nat) : Dev :=
  let d := d.modHearth h Hearth.afterReset
  (((d.stepsOver h).foldl (fun d c => d.abortStep c 3) d).abortSettle h).modHearth h fun x => { x with lastCtx := none }

/-- What a reset shows of a hearth that has stopped. -/
def Dev.showReset (d : Dev) (h : Nat) : Dev :=
  let d := d.put Obj.RESET_GENERATION ((d.get Obj.RESET_GENERATION h + 1) % 16) h
  let d := (d.put Obj.HALTED_STREAMS 0 h).put Obj.FW_CHUNKS_MISSING d.chunkMask h
  if d.hearthAbsent h then d
  else (((d.put Obj.FW_STATE 0 h).put Obj.HEARTH_STATE hResetting h).put Obj.RUNNING_CTX 0xFF h).put Obj.TEST_RESULT 0 h

theorem Dev.resetHearth_eq (d : Dev) (h : Nat) : d.resetHearth h = (d.halted h).showReset h := rfl

theorem Hearth.afterReset_emptied (x : Hearth) : x.afterReset.Emptied := by
  refine ⟨rfl, rfl, rfl, rfl, rfl, fun r hr => ?_⟩
  simp only [Hearth.afterReset, Option.map_eq_some_iff] at hr
  obtain ⟨r', -, rfl⟩ := hr
  rfl

/-- Where a hearth's stop can reach: the hearth itself, and hearths that ran a step. -/
abbrev Dev.OrRunning (d : Dev) (h j : Nat) : Prop := j = h ∨ (d.hearth j).run ≠ none

theorem Dev.halted_spec (d : Dev) (h : Nat) :
    d.Ends (d.OrRunning h) (d.halted h) ∧ ((d.halted h).hearth h).Emptied ∧ ((d.halted h).hearth h).run = none ∧
    ((d.halted h).hearth h).lastCtx = none := by
  have h1 : d.Ends (d.OrRunning h) (d.modHearth h Hearth.afterReset) :=
    Dev.modHearth_ends (.inl rfl) (fun _ => ⟨rfl, rfl⟩) fun x _ => x.afterReset_emptied
  have e1 : ((d.modHearth h Hearth.afterReset).hearth h).Emptied := by simpa [Dev.modHearth] using (d.hearth h).afterReset_emptied
  unfold Dev.halted
  extract_lets d1
  obtain ⟨d2, hd2⟩ : ∃ d2, d2 = (d1.stepsOver h).foldl (fun d c => d.abortStep c 3) d1 := ⟨_, rfl⟩
  have a2 : d1.Aborts d2 := hd2 ▸ Dev.abortSteps_aborts ..
  have h2 : d.Ends (d.OrRunning h) d2 := h1.trans (a2.mono fun j hj => by
    by_cases hjh : j = h
    · exact .inl hjh
    · exact .inr (by rwa [show d1.hearth j = d.hearth j from Dev.hearth_setHearth_ne d hjh _] at hj))
  have e2 := a2.emptied h e1
  have h3 : d2.Ends (d.OrRunning h) (d2.abortSettle h) := Dev.abortSettle_ends (.inl rfl)
  have e3 := h3.emptied h e2
  have r3 := Dev.abortSettle_run e2
  rw [← hd2]
  refine ⟨(h2.trans h3).trans (Dev.modHearth_ends (f := fun x => { x with lastCtx := none }) (.inl rfl) (fun _ => ⟨rfl, rfl⟩) fun _ hx => hx), ?_⟩
  rw [Dev.modHearth, Dev.hearth_setHearth_self]
  exact ⟨e3, r3, rfl⟩

/-- What a reset shows: the next generation, and unless the hearth is absent that it awaits its test and its firmware. -/
theorem Dev.showReset_spec (d : Dev) (h : Nat) :
    d.OnlyOd (d.showReset h) (resetKeys h) ∧
    (d.showReset h).get Obj.RESET_GENERATION h = (d.get Obj.RESET_GENERATION h + 1) % 16 ∧
    (d.hearthAbsent h = true → (d.showReset h).hState h = d.hState h) ∧
    (d.hearthAbsent h = false → (d.showReset h).get Obj.HEARTH_STATE h = hResetting ∧ (d.showReset h).get Obj.FW_STATE h = 0 ∧
      (d.showReset h).get Obj.RUNNING_CTX h = 0xFF ∧ (d.showReset h).get Obj.TEST_RESULT h = 0) := by
  have hput : ∀ {a : Dev} {o : ObjDef} (v : Nat), d.OnlyOd a (resetKeys h) → o.key h 0 ∈ resetKeys h → d.OnlyOd (a.put o v h) (resetKeys h) :=
    fun _ ha hk => ha.trans (Dev.put_onlyOd hk)
  have hget : ∀ {a : Dev} {o p : ObjDef} (v : Nat), p.OfHearth → o.OfHearth → (p.base ≠ o.base ∨ p.lo ≠ o.lo) →
      (a.put o v h).get p h = a.get p h :=
    fun v hp ho hne => Dev.get_put_ne _ v (hearthKey_ne hp ho (hne.imp_right .inl))
  have hgen : d.OnlyOd (d.put Obj.RESET_GENERATION ((d.get Obj.RESET_GENERATION h + 1) % 16) h) (resetKeys h) := hput _ (.same ..) (by simp [resetKeys])
  unfold Dev.showReset
  extract_lets d1 d2
  have h2 : d.OnlyOd d2 (resetKeys h) := hput _ (hput _ hgen (by simp [resetKeys, partKeys])) (by simp [resetKeys])
  have hstate : d2.hState h = d.hState h := by
    simp only [Dev.hState, d2, d1]
    rw [hget _ (by decide) (by decide) (by decide), hget _ (by decide) (by decide) (by decide), hget _ (by decide) (by decide) (by decide)]
  have hval : d2.get Obj.RESET_GENERATION h = (d.get Obj.RESET_GENERATION h + 1) % 16 := by
    simp only [d2, d1]
    rw [hget _ (by decide) (by decide) (by decide), hget _ (by decide) (by decide) (by decide), Dev.get_put_self]
    exact Nat.mod_eq_of_lt ((Nat.mod_lt _ (by decide)).trans_le (by decide : 16 ≤ 2 ^ Obj.RESET_GENERATION.bitsOf))
  have habs : d2.hearthAbsent h = d.hearthAbsent h := by
    rw [Dev.hearthAbsent, hstate, h2.get (regionKey_not_reset _ 0 h (by decide)).1, Dev.hearthAbsent]
  split
  next ha =>
    rw [habs] at ha
    exact ⟨h2, hval, fun _ => hstate, fun hn => by simp [ha] at hn⟩
  next ha =>
    rw [habs] at ha
    refine ⟨?_, ?_, fun hn => absurd hn ha, fun _ => ⟨?_, ?_, ?_, ?_⟩⟩
    · exact hput _ (hput _ (hput _ (hput _ h2 (by simp [resetKeys])) (by simp [resetKeys, partKeys])) (by simp [resetKeys, partKeys])) (by simp [resetKeys])
    · rw [hget _ (by decide) (by decide) (by decide), hget _ (by decide) (by decide) (by decide), hget _ (by decide) (by decide) (by decide),
        hget _ (by decide) (by decide) (by decide), hval]
    · rw [hget _ (by decide) (by decide) (by decide), hget _ (by decide) (by decide) (by decide), Dev.get_put_self]
      rfl
    · rw [hget _ (by decide) (by decide) (by decide), hget _ (by decide) (by decide) (by decide), hget _ (by decide) (by decide) (by decide),
        Dev.get_put_self]
      rfl
    · rw [hget _ (by decide) (by decide) (by decide), Dev.get_put_self]
      rfl
    · rw [Dev.get_put_self]
      rfl

/-- A reset of one hearth. -/
theorem Dev.resetHearth_resets (d : Dev) (h : Nat) : d.Resets [h] (d.resetHearth h) := by
  rw [Dev.resetHearth_eq]
  obtain ⟨hends, hempty, hrun, hlast⟩ := d.halted_spec h
  obtain ⟨b, hb⟩ : ∃ b, b = d.halted h := ⟨_, rfl⟩
  rw [← hb] at hends hempty hrun hlast ⊢
  obtain ⟨hshow, hgen, habsent, hawaits⟩ := b.showReset_spec h
  have hearths : (b.showReset h).hearths = b.hearths := by
    obtain ⟨od, e⟩ := hshow.1
    rw [e]
  have hsame : ∀ j, (b.showReset h).hearth j = b.hearth j := fun j => by rw [Dev.hearth, hearths, Dev.hearth]
  have hgenkey : b.get Obj.RESET_GENERATION h = d.get Obj.RESET_GENERATION h :=
    Dev.get_congr (hends.objects _ (hearthKey_not_event (by decide) h) fun j _ => hearthKey_not_part (by decide) (by decide) h j)
  have hregion : b.get Obj.REGION_STATE (h / 64) = d.get Obj.REGION_STATE (h / 64) :=
    Dev.get_congr (hends.objects _ (regionKey_not_event _ 0).1 fun j _ hm =>
      (regionKey_not_reset (h / 64) 0 j (by decide)).1 (partKeys_subset_resetKeys j hm))
  have habs : b.hearthAbsent h = d.hearthAbsent h := by
    have hzero : decide (b.hState h = hAbsent) = decide (d.hState h = hAbsent) := decide_eq_decide.mpr (hends.present h)
    rw [Dev.hearthAbsent, hzero, hregion, Dev.hearthAbsent]
  refine ⟨?_, ?_, fun j hj hjr => ?_, fun j _ => ?_, fun k he hr hp => ?_, fun j hj => ?_⟩
  · obtain ⟨_, _, _, _, _, _, _, _, _, hshape⟩ := hends.shape
    obtain ⟨od, e⟩ := hshow.1
    rw [e, hshape]
    exact ⟨_, _, _, _, _, _, _, _, _, rfl⟩
  · intro j hj
    obtain rfl := List.mem_singleton.mp hj
    obtain ⟨hscr, hash⟩ := hends.scratch j
    rw [← hsame j] at hempty hrun hlast hscr hash
    refine ⟨hempty, hrun, hlast, hscr, hash, ?_, ?_, ?_⟩
    · rw [hgen, hgenkey]
    · rw [← habs]
      exact hawaits
    · cases ha : b.hearthAbsent j with
      | true =>
        have hz : b.hState j = hAbsent := by simpa using (Bool.and_eq_true_iff.mp ha).1
        rw [Dev.hearthOpen, habsent ha, hz]
        rfl
      | false =>
        have hz : (b.showReset j).hState j = hResetting := (hawaits ha).1
        rw [Dev.hearthOpen, hz]
        rfl
  · rw [hsame, hends.others j (by simpa [hjr] using hj)]
  · rw [hsame]
    exact hends.scratch j
  · refine (hshow.2 k (hr h (by simp))).trans (hends.objects k he fun j hj => ?_)
    by_cases hjh : j = h
    · subst hjh
      exact fun hm => hr j (by simp) (partKeys_subset_resetKeys j hm)
    · exact hp j (by simpa using hjh) (hj.resolve_left hjh)
  · have hstate : (b.showReset h).hState j = b.hState j :=
      hshow.get (hearthKey_not_reset (by decide) (by simpa using hj))
    rw [hstate]
    exact hends.present j

/-- Resets of hearths one by one. -/
theorem Dev.foldl_resetHearth_resets {hs : List Nat} (hd : hs.Nodup) (d : Dev) : d.Resets hs (hs.foldl Dev.resetHearth d) := by
  induction hs generalizing d with
  | nil => exact .nil d
  | cons h hs ih =>
    obtain ⟨hh, hd⟩ := List.nodup_cons.mp hd
    obtain ⟨b, hb⟩ : ∃ b, b = d.resetHearth h := ⟨_, rfl⟩
    have first : d.Resets [h] b := hb ▸ d.resetHearth_resets h
    rw [List.foldl_cons, ← hb]
    exact first.trans (ys := hs) (by simpa using hh) (ih hd b)

/-- What awaits and what flues hold is no part of what a reset leaves of a hearth. -/
theorem Dev.Resets.of_rest {hs : List Nat} {d b : Dev} (r : d.Resets hs b) (net : Net) (flues : Tab Flue) :
    d.Resets hs { b with net := net, flues := flues } where
  shape := by
    obtain ⟨_, _, _, _, _, _, _, _, _, rfl⟩ := r.shape
    exact ⟨_, _, _, _, _, _, _, _, _, rfl⟩
  cleared h hm := by
    obtain ⟨hempty, hrun, hlast, hscr, hash, hgen, hawaits, hclosed⟩ := r.cleared h hm
    exact ⟨hempty, hrun, hlast, hscr, hash, hgen, hawaits, hclosed⟩
  others := r.others
  scratch := r.scratch
  objects := r.objects
  present := r.present

/-- A reset of a part's hearths; what is still due to them becomes stale. -/
theorem Dev.resetHearths_resets {hs : List Nat} (hd : hs.Nodup) (d : Dev) : d.Resets hs (d.resetHearths hs) :=
  (Dev.foldl_resetHearth_resets hd d).of_rest _ _

end Sys2Proof.Machine
end

section
/-! What the reset of a part spares (R412, R413): requests that its hearths absorb, and what its stacks, clusters and regions leave alone. -/

namespace Sys2Proof.Machine

/-! ### What waits at the boundary of a region (R413) -/

/-- `d'` is `d` after requests for hearths in a reset have met the part's proxy: they are absorbed and answered. -/
def Dev.Absorbed (d d' : Dev) : Prop :=
  (∃ od edge reply, d' = { d with od := od, edge := edge, reply := reply }) ∧ d.SameObjects d' [Obj.RESET_ABSORBED.key 0 0]

theorem Dev.Absorbed.trans {a b c : Dev} (h : a.Absorbed b) (g : b.Absorbed c) : a.Absorbed c := by
  obtain ⟨⟨_, _, _, rfl⟩, h⟩ := h
  obtain ⟨⟨_, _, _, rfl⟩, g⟩ := g
  exact ⟨⟨_, _, _, rfl⟩, h.trans g⟩

theorem Dev.Absorbed.of_edge (d : Dev) (edge : Tab (List EdgeReq)) : d.Absorbed { d with edge := edge } := ⟨⟨_, _, _, rfl⟩, .same _ _⟩

/-- An object of a hearth's block is not the count of what resets absorb. -/
theorem hearthKey_ne_absorbed {o : ObjDef} (ho : o.OfHearth) (i : Nat) : o.key i 0 ∉ [Obj.RESET_ABSORBED.key 0 0] := by
  obtain ⟨ok, hbase, _, _⟩ := ho
  simp only [ObjDef.key, ok, Kind.stride, Obj.RESET_ABSORBED, List.mem_singleton]
  omega

theorem Dev.Absorbed.get_hearth {d d' : Dev} (h : d.Absorbed d') {o : ObjDef} (ho : o.OfHearth) (i : Nat) : d'.get o i = d.get o i :=
  h.2.get (hearthKey_ne_absorbed ho i)

theorem Dev.Absorbed.hearthOpen {d d' : Dev} (h : d.Absorbed d') (i : Nat) : d'.hearthOpen i = d.hearthOpen i := by
  have hstate : d'.hState i = d.hState i := h.get_hearth (by decide) i
  simp only [Dev.hearthOpen, hstate]

theorem Dev.absorbNotice_absorbed (d : Dev) (h : Nat) : d.Absorbed (d.absorbNotice h) := by
  unfold Dev.absorbNotice
  split
  · obtain ⟨⟨od, e⟩, hs⟩ := Dev.bump_onlyOd (d := d) (o := Obj.RESET_ABSORBED) (i := 0) (e := 0) (n := 1) (List.mem_singleton.mpr rfl)
    exact ⟨⟨od, _, _, e⟩, hs⟩
  · exact ⟨⟨_, _, _, rfl⟩, .same _ _⟩

/-- A request for a hearth that is closed changes nothing of it. -/
theorem Dev.edgeNow_absorbed {d : Dev} {r : EdgeReq} (h : d.hearthOpen r.hearth = false) : d.Absorbed (d.edgeNow r) := by
  cases r with
  | write i off bs ash =>
    have hw : d.remoteWrite i off bs ash = (d, .absent) := if_pos (by simpa [EdgeReq.hearth] using h)
    simp only [Dev.edgeNow, hw]
    exact ⟨⟨_, _, _, rfl⟩, .same _ _⟩
  | notice i line =>
    have hn : d.edgeNow (.notice i line) = d.absorbNotice i := if_neg (by simpa [EdgeReq.hearth] using h)
    rw [hn]
    exact d.absorbNotice_absorbed i
  | counter i c =>
    have hn : d.edgeNow (.counter i c) = d.absorbNotice i := if_neg (by simpa [EdgeReq.hearth] using h)
    rw [hn]
    exact d.absorbNotice_absorbed i

theorem Dev.drainEdge_absorbed {d : Dev} {hs : List Nat} (h : ∀ i ∈ hs, d.hearthOpen i = false) : d.Absorbed (d.drainEdge hs) := by
  unfold Dev.drainEdge
  refine List.foldlRecOn (motive := fun d' : Dev => d.Absorbed d') _ _ ⟨⟨_, _, _, rfl⟩, .same _ _⟩ fun b hb g _ => ?_
  refine List.foldlRecOn (motive := fun d' : Dev => d.Absorbed d') _ _ (hb.trans (.of_edge b _)) fun c hc r hr => hc.trans (Dev.edgeNow_absorbed ?_)
  rw [hc.hearthOpen]
  exact h _ (by simpa using (List.mem_filter.mp hr).2)

/-- What a reset leaves of a hearth is told by the hearths and the objects alone. -/
theorem Dev.HearthCleared.of_same {a b c : Dev} {h : Nat} (k : a.HearthCleared b h) (hhearths : c.hearths = b.hearths) (hod : c.od = b.od) :
    a.HearthCleared c h := by
  have hsame : c.hearth h = b.hearth h := by rw [Dev.hearth, hhearths, Dev.hearth]
  have hget : ∀ o : ObjDef, c.get o h = b.get o h := fun o => by rw [Dev.get, hod, Dev.get]
  obtain ⟨hempty, hrun, hlast, hscr, hash, hgen, hawaits, hclosed⟩ := k
  rw [← hsame] at hempty hrun hlast hscr hash
  simp only [Dev.hearthOpen, Dev.hState, ← hget] at hgen hawaits hclosed
  exact ⟨hempty, hrun, hlast, hscr, hash, hgen, hawaits, hclosed⟩

/-- What a reset leaves of a hearth does not depend on what is absorbed after it. -/
theorem Dev.HearthCleared.of_absorbed {a b c : Dev} {h : Nat} (k : a.HearthCleared b h) (g : b.Absorbed c) : a.HearthCleared c h := by
  have hget : ∀ o : ObjDef, o.OfHearth → c.get o h = b.get o h := fun o ho => g.get_hearth ho h
  have hclosed := g.hearthOpen h
  obtain ⟨⟨_, _, _, rfl⟩, -⟩ := g
  obtain ⟨hempty, hrun, hlast, hscr, hash, hgen, hawaits, hc⟩ := k
  refine ⟨hempty, hrun, hlast, hscr, hash, ?_, ?_, hclosed.trans hc⟩
  · rw [hget _ (by decide), hgen]
  · rw [hget _ (by decide), hget _ (by decide), hget _ (by decide), hget _ (by decide)]
    exact hawaits

/-! ### What a reset of a part's stacks and clusters spares -/

/-- Objects that show how a reset has left a hearth. -/
def clearedObjs : List ObjDef := [Obj.HEARTH_STATE, Obj.FW_STATE, Obj.RUNNING_CTX, Obj.TEST_RESULT, Obj.RESET_GENERATION]

/-- From `d` to `d'` the slow tiers, the resets, every closed hearth and what shows of it stay, and the state of every region outside
`gs`. -/
structure Dev.Spares (gs : List Nat) (d d' : Dev) : Prop where
  slow : d'.slow = d.slow
  resets : d'.resets = d.resets
  hearths : ∀ h < 1024, d.hearthOpen h = false → d'.hearth h = d.hearth h
  shown : ∀ h < 1024, ∀ o ∈ clearedObjs, d'.get o h = d.get o h
  regions : ∀ g < 16, g ∉ gs → d'.get Obj.REGION_STATE g = d.get Obj.REGION_STATE g

/-- A key of nothing that `Dev.Spares` keeps. -/
def OutsideShown (k : Nat) : Prop := (∀ h < 1024, ∀ o ∈ clearedObjs, o.key h 0 ≠ k) ∧ ∀ g < 16, Obj.REGION_STATE.key g 0 ≠ k

theorem clearedObjs_ofHearth : ∀ o ∈ clearedObjs, o.OfHearth := by decide

section
variable {gs : List Nat} {a b c d d' : Dev}

theorem Dev.Spares.refl (gs : List Nat) (d : Dev) : d.Spares gs d := ⟨rfl, rfl, fun _ _ _ => rfl, fun _ _ _ _ => rfl, fun _ _ _ => rfl⟩

theorem Dev.Spares.hearthOpen (h : d.Spares gs d') {i : Nat} (hi : i < 1024) : d'.hearthOpen i = d.hearthOpen i := by
  have hstate : d'.hState i = d.hState i := h.shown i hi _ (by simp [clearedObjs])
  simp only [Dev.hearthOpen, hstate]

theorem Dev.Spares.trans (h : a.Spares gs b) (g : b.Spares gs c) : a.Spares gs c where
  slow := g.slow.trans h.slow
  resets := g.resets.trans h.resets
  hearths i hi ho := (g.hearths i hi ((h.hearthOpen hi).trans ho)).trans (h.hearths i hi ho)
  shown i hi o ho := (g.shown i hi o ho).trans (h.shown i hi o ho)
  regions i hi hn := (g.regions i hi hn).trans (h.regions i hi hn)

/-- A change of none of the fields that `Dev.Spares` reads. -/
theorem Dev.Spares.of_same (hslow : d'.slow = d.slow) (hresets : d'.resets = d.resets) (hhearths : d'.hearths = d.hearths) (hod : d'.od = d.od) :
    d.Spares gs d' where
  slow := hslow
  resets := hresets
  hearths h _ _ := by rw [Dev.hearth, hhearths, Dev.hearth]
  shown h _ o _ := by rw [Dev.get, hod, Dev.get]
  regions g _ _ := by rw [Dev.get, hod, Dev.get]

theorem Dev.Spares.of_onlyOd {ks : List Nat} (h : d.OnlyOd d' ks) (hk : ∀ k ∈ ks, OutsideShown k) : d.Spares gs d' where
  slow := by obtain ⟨⟨_, rfl⟩, -⟩ := h; rfl
  resets := by obtain ⟨⟨_, rfl⟩, -⟩ := h; rfl
  hearths i _ _ := by obtain ⟨⟨_, rfl⟩, -⟩ := h; rfl
  shown i hi o ho := h.get fun hm => (hk _ hm).1 i hi o ho rfl
  regions g hg _ := h.get fun hm => (hk _ hm).2 g hg rfl

theorem Dev.Spares.put {o : ObjDef} {i e : Nat} (h : d.Spares gs d') (v : Nat) (hk : OutsideShown (o.key i e)) : d.Spares gs (d'.put o v i e) :=
  h.trans (.of_onlyOd (ks := [o.key i e]) (Dev.put_onlyOd (by simp)) (by simpa using hk))

theorem Dev.Spares.bump {o : ObjDef} {i e : Nat} (h : d.Spares gs d') (n : Nat) (hk : OutsideShown (o.key i e)) : d.Spares gs (d'.bump o i n e) :=
  h.trans (.of_onlyOd (ks := [o.key i e]) (Dev.bump_onlyOd (by simp)) (by simpa using hk))

theorem Dev.Spares.modStack (h : d.Spares gs d') (st : Nat) (f : Stack → Stack) : d.Spares gs (d'.modStack st f) := h.trans (.of_same rfl rfl rfl rfl)

theorem Dev.Spares.ashWhere (h : d.Spares gs d') (st : Nat) (p : Nat → Bool) : d.Spares gs (d'.ashWhere st p) := h.trans (.of_same rfl rfl rfl rfl)

theorem Dev.Spares.zeroPointers (h : d.Spares gs d') (p : Nat → Bool) : d.Spares gs (d'.zeroPointers p) := h.trans (.of_same rfl rfl rfl rfl)

theorem Dev.Spares.foldl {α : Type} {f : Dev → α → Dev} {l : List α} (h : d.Spares gs d') (hf : ∀ b : Dev, ∀ x ∈ l, b.Spares gs (f b x)) :
    d.Spares gs (l.foldl f d') :=
  List.foldlRecOn (motive := fun b : Dev => d.Spares gs b) l f h fun b hb x hx => hb.trans (hf b x hx)

/-- A change of a hearth that is open. -/
theorem Dev.Spares.modHearth {i : Nat} (hi : d.hearthOpen i = true) (f : Hearth → Hearth) : d.Spares gs (d.modHearth i f) where
  slow := rfl
  resets := rfl
  hearths h _ hc := Dev.hearth_setHearth_ne d (by rintro rfl; simp [hi] at hc) _
  shown _ _ _ _ := rfl
  regions _ _ _ := rfl

/-- A cleared hearth stays as it is. -/
theorem Dev.HearthCleared.of_spares {h : Nat} (k : a.HearthCleared b h) (g : b.Spares gs c) (hh : h < 1024) : a.HearthCleared c h := by
  have hsame := g.hearths h hh k.closed
  have hget : ∀ o ∈ clearedObjs, c.get o h = b.get o h := g.shown h hh
  refine ⟨hsame ▸ k.emptied, hsame ▸ k.run, hsame ▸ k.lastCtx, hsame ▸ k.scr, hsame ▸ k.ash, ?_, ?_, (g.hearthOpen hh).trans k.closed⟩
  · rw [hget _ (by simp [clearedObjs]), k.generation]
  · rw [hget _ (by simp [clearedObjs]), hget _ (by simp [clearedObjs]), hget _ (by simp [clearedObjs]), hget _ (by simp [clearedObjs])]
    exact k.awaits

end

/-- An object that lies neither in a region's block nor in a hearth's. -/
theorem outsideShown_of_block {k : Nat} (h : k < 0x11000 * 256 ∨ (0x12000 * 256 ≤ k ∧ k < 0x20000 * 256)) : OutsideShown k := by
  constructor
  · intro i _ o ho e
    obtain ⟨hkind, hbase, -, -⟩ := clearedObjs_ofHearth o ho
    simp only [ObjDef.key, hkind, Kind.stride] at e
    omega
  · intro g hg e
    simp only [ObjDef.key, Obj.REGION_STATE, Kind.stride] at e
    omega

/-- An object of a hearth's block that a reset does not show. -/
theorem outsideShown_of_hearth {p : ObjDef} (hp : p.OfHearth) (hne : ∀ o ∈ clearedObjs, o.base ≠ p.base ∨ o.lo ≠ p.lo) (i : Nat) :
    OutsideShown (p.key i 0) := by
  constructor
  · exact fun h _ o ho => hearthKey_ne (clearedObjs_ofHearth o ho) hp ((hne o ho).imp_right .inl)
  · intro g hg e
    obtain ⟨hkind, hbase, -, -⟩ := hp
    simp only [ObjDef.key, hkind, Obj.REGION_STATE, Kind.stride] at e
    omega

/-- CLOCK_STATE and TEST_ROUND of a region are not its REGION_STATE. -/
theorem outsideShown_region {g : Nat} (hg : g < 16) : OutsideShown (Obj.CLOCK_STATE.key g 0) ∧ OutsideShown (Obj.TEST_ROUND.key g 0) := by
  have hlow : ∀ h, ∀ o ∈ clearedObjs, 0x20000 * 256 ≤ o.key h 0 := by
    intro h o ho
    obtain ⟨hkind, hbase, -, -⟩ := clearedObjs_ofHearth o ho
    simp only [ObjDef.key, hkind, Kind.stride]
    omega
  have hclock : Obj.CLOCK_STATE.key g 0 = (0x11020 + 0x100 * g) * 256 + 2 := rfl
  have hround : Obj.TEST_ROUND.key g 0 = (0x11000 + 0x100 * g) * 256 + 4 := rfl
  have hstate : ∀ j, Obj.REGION_STATE.key j 0 = (0x11000 + 0x100 * j) * 256 + 1 := fun _ => rfl
  refine ⟨⟨fun h _ o ho e => ?_, fun j _ e => ?_⟩, ⟨fun h _ o ho e => ?_, fun j _ e => ?_⟩⟩
  · have := hlow h o ho; omega
  · rw [hstate, hclock] at e; omega
  · have := hlow h o ho; omega
  · rw [hstate, hround] at e; omega

/-- An object of a stack's block. -/
theorem outsideShown_stack {o : ObjDef} {st e : Nat} (ho : o.kind = .stack ∧ 0x12000 ≤ o.base ∧ o.base < 0x12080 ∧ o.lo ≤ 128) (hst : st < 32)
    (he : e < 64) : OutsideShown (o.key st e) := by
  obtain ⟨hkind, hlow, hhigh, hlo⟩ := ho
  refine outsideShown_of_block (.inr ?_)
  simp only [ObjDef.key, hkind, Kind.stride]
  omega

/-! ### Writes of a base die -/

section
variable {gs : List Nat} {d : Dev} {st : Nat}

theorem Dev.storeSec_spares (hst : st < 32) (sec : Nat) (v : Line) : d.Spares gs (d.storeSec st sec v) := by
  unfold Dev.storeSec
  split
  · exact (Dev.Spares.refl gs d).bump 1 (outsideShown_stack (by decide) hst (by decide))
  · extract_lets d1 x rs vs
    split
    · exact .of_same rfl rfl rfl rfl
    · exact .of_same rfl rfl rfl rfl

theorem Dev.arrivalNow_spares (h line : Nat) : d.Spares gs (d.arrivalNow h line) := by
  unfold Dev.arrivalNow
  split
  next ho =>
    extract_lets d1
    have h1 : d.Spares gs d1 := (Dev.Spares.refl gs d).bump 1 (outsideShown_of_hearth (by decide) (by decide) h)
    have ho1 : d1.hearthOpen h = true := by
      have hstate : d1.hState h = d.hState h := Dev.get_bump_ne (hearthKey_ne (by decide) (by decide) (.inl (by decide)))
      rw [Dev.hearthOpen, hstate]
      exact ho
    split
    · split
      · exact h1.trans (.modHearth ho1 _)
      · exact h1
    · exact h1
  · unfold Dev.absorbNotice
    split
    · exact (Dev.Spares.refl gs d).bump 1 (outsideShown_of_block (by decide))
    · exact .refl ..

theorem Dev.wakeRegion_spares {g : Nat} (hg : g < 16) : d.Spares gs (d.wakeRegion g) :=
  .of_onlyOd (d.wakeRegion_spec g) (by simpa using (outsideShown_region hg).1)

theorem Dev.arrival_spares {h : Nat} (hh : h < 1024) (line : Nat) : d.Spares gs (d.arrival h line) := by
  unfold Dev.arrival
  split
  · exact (Dev.wakeRegion_spares (by omega)).trans (.of_same rfl rfl rfl rfl)
  · exact d.arrivalNow_spares h line

theorem Dev.hobNotice_spares (v : Nat) : d.Spares gs (d.hobNotice v) := by
  unfold Dev.hobNotice
  split
  · exact Dev.arrival_spares (Nat.mod_lt _ (by decide)) _
  · exact .refl ..

theorem Dev.mergeUsed_spares (a n sec : Nat) : d.Spares gs (d.mergeUsed st a n sec) := by
  unfold Dev.mergeUsed
  split
  · exact .refl ..
  · exact .of_same rfl rfl rfl rfl

end

section
variable {gs : List Nat} {st : Nat}

theorem Dev.writeFuel_spares (hst : st < 32) (n : Nat) : ∀ (d : Dev) (pa : Nat) (sec : Option Nat) (v : Line),
    d.Spares gs (Dev.writeFuel n d st pa sec v) := by
  induction n with
  | zero =>
    intro d pa sec v
    cases sec with
    | none => exact .refl ..
    | some s => exact Dev.storeSec_spares hst s v
  | succ n ih =>
    intro d pa sec v
    have hstore : d.Spares gs (match (generalizing := false) sec with | some s => d.storeSec st s v | none => d) := by
      cases sec with
      | none => exact .refl ..
      | some s => exact Dev.storeSec_spares hst s v
    unfold Dev.writeFuel
    extract_lets d1
    have h1 : d.Spares gs d1 := hstore
    split
    · exact h1
    · refine h1.foldl fun b w _ => ?_
      split
      · exact .refl ..
      · extract_lets c b' 
        split
        · refine Dev.Spares.trans ?_ (Dev.hobNotice_spares _)
          exact ((Dev.Spares.refl gs b).modStack st _).foldl fun e i _ => (Dev.mergeUsed_spares ..).trans (ih ..)
        · exact (Dev.Spares.refl gs b).modStack st _

variable {d : Dev}

theorem Dev.writeStack_spares (hst : st < 32) (a : Nat) (bs : List Byte) : d.Spares gs (d.writeStack st a bs) :=
  (Dev.Spares.refl gs d).foldl fun _ _ _ => (Dev.mergeUsed_spares ..).trans (Dev.writeFuel_spares hst ..)

theorem Dev.compress_spares (hst : st < 32) (w b : Nat) (p : PartBlock) : d.Spares gs (d.compress st w b p) := by
  unfold Dev.compress
  extract_lets c d1
  have h1 : d.Spares gs d1 := (Dev.Spares.refl gs d).modStack st _
  obtain ⟨bs, s⟩ := compressBlock c.code (blockVals c p)
  have h2 : d.Spares gs ((d1.writeStack st (c.data + 256 * b) bs).writeStack st (c.scale + b) [BitVec.ofNat 8 s]) :=
    (h1.trans (Dev.writeStack_spares hst ..)).trans (Dev.writeStack_spares hst ..)
  have h3 := h2.bump (o := Obj.CKPT_BLOCKS_WRITTEN) (i := st) (e := 0) 1 (outsideShown_stack (by decide) hst (by decide))
  dsimp only
  split
  · exact h3.bump 1 (outsideShown_stack (by decide) hst (by decide))
  · exact h3

theorem Dev.aperPut_spares (hst : st < 32) (w line : Nat) (v : Line) : d.Spares gs (d.aperPut st w line v).1 := by
  unfold Dev.aperPut
  extract_lets c b old
  split
  · exact (Dev.Spares.refl gs d).bump 1 (outsideShown_stack (by decide) hst (by decide))
  · split
    · exact .refl ..
    · have h1 : d.Spares gs (Dev.writeFuel 9 d st (aperPA st w line) none v) := Dev.writeFuel_spares hst ..
      split
      · exact h1.trans (Dev.compress_spares hst w b _)
      · dsimp only
        exact h1.modStack st _

theorem Dev.replyAcc_spares (r : Acc) : d.Spares gs (d.replyAcc r) := by
  cases r <;> exact .of_same rfl rfl rfl rfl

theorem Dev.retryParts_spares (hst : st < 32) : d.Spares gs (d.retryParts st) := by
  refine (Dev.Spares.refl gs d).foldl fun b q _ => ?_
  split
  · exact .refl ..
  · split
    · exact .refl ..
    next w line _ _ =>
      obtain ⟨⟨d', r⟩, hr⟩ : ∃ p, p = b.aperPut st w line ⟨q.data, q.ash⟩ := ⟨_, rfl⟩
      have hput : b.Spares gs d' := by simpa only [← hr] using b.aperPut_spares (gs := gs) hst w line ⟨q.data, q.ash⟩
      rw [← hr]
      dsimp only
      split
      · exact .refl ..
      · exact (hput.modStack st _).trans (Dev.replyAcc_spares _)

theorem Dev.flushWindow_spares (hst : st < 32) (w : Nat) : d.Spares gs (d.flushWindow st w) := by
  refine (Dev.Spares.refl gs d).foldl fun b k _ => ?_
  unfold Dev.flushBlock
  split
  · exact .refl ..
  · exact (Dev.compress_spares hst ..).trans (Dev.retryParts_spares hst)

/-! ### The drain of a stack (R183, R185) -/

theorem Dev.setPch_spares (hst : st < 32) {p : Nat} (hp : p < 64) (v : Pch) : d.Spares gs (d.setPch st p v) :=
  ((Dev.Spares.refl gs d).modStack st _).put _ (outsideShown_stack (by decide) hst (by omega))

theorem Dev.offAll_spares (hst : st < 32) : d.Spares gs ((List.range 64).foldl (fun d p => d.setPch st p .off) d) :=
  (Dev.Spares.refl gs d).foldl fun _ _ hp => Dev.setPch_spares hst (List.mem_range.mp hp) _

theorem Dev.initStack_spares (hst : st < 32) : d.Spares gs (d.initStack st) := by
  exact ((((Dev.Spares.refl gs d).ashWhere st _).trans (Dev.offAll_spares hst)).modStack st _).put 1 (outsideShown_stack (by decide) hst (by decide))

theorem Dev.drainEnd_spares (hst : st < 32) : d.Spares gs (d.drainEnd st) := by
  unfold Dev.drainEnd
  split
  · extract_lets d1 d2 d3 d4
    have h1 : d.Spares gs d1 := (Dev.Spares.refl gs d).modStack st _
    have h3 : d.Spares gs d3 := (h1.trans (Dev.offAll_spares hst)).ashWhere st _
    have h4 : d.Spares gs d4 := (h3.modStack st _).put 0 (outsideShown_stack (by decide) hst (by decide))
    split
    · split
      · exact h4.trans (Dev.initStack_spares hst)
      · exact h4
    · exact h1.put 4 (outsideShown_stack (by decide) hst (by decide))
  · exact .refl ..

/-- A request that meets the absent response changes nothing, whether it reads, writes or adds, a sector or an aperture line. -/
theorem Dev.serveAs_absent (w : HbmWait) : ∃ r, d.serveAs .absent st w = { d with reply := r } := by
  obtain ⟨sec, win, write, fold, data, mask, ash, ctx, source, chain, crc⟩ := w
  cases win <;> cases write <;> cases fold <;> exact ⟨_, rfl⟩

/-- A stack that drains answers every request absent (R183). -/
theorem Dev.offer_of_draining (hd : (d.stack st).draining = true) (w : HbmWait) : ∃ r, d.offer st w = { d with reply := r } := by
  have hgate : d.gate st w.sec = .absent := if_pos (.inr (.inr hd))
  unfold Dev.offer
  rw [hgate]
  exact Dev.serveAs_absent w

theorem Dev.letIn_spares (hd : (d.stack st).draining = true) : d.Spares gs (d.letIn st) := by
  have hstart : ((d.modStack st fun x => { x with boundary := [] }).stack st).draining = true := by simpa [Dev.modStack] using hd
  refine (List.foldlRecOn (motive := fun b : Dev => d.Spares gs b ∧ (b.stack st).draining = true) _ _
    ⟨(Dev.Spares.refl gs d).modStack st _, hstart⟩ fun b hb w _ => ?_).1
  obtain ⟨r, e⟩ := Dev.offer_of_draining hb.2 w
  rw [e]
  exact ⟨hb.1.trans (.of_same rfl rfl rfl rfl), hb.2⟩

theorem Dev.startDrain_spares (hst : st < 32) (off : Bool) : d.Spares gs (d.startDrain st off) := by
  unfold Dev.startDrain
  extract_lets again d1
  have h1 : d.Spares gs d1 := (Dev.Spares.refl gs d).modStack st _
  exact (h1.trans (Dev.letIn_spares (by simp [d1, Dev.modStack]))).trans (Dev.drainEnd_spares hst)

/-- A stack of a partition that is reset. -/
theorem Dev.resetStack_spares (hst : st < 32) : d.Spares gs (d.resetStack st) := by
  unfold Dev.resetStack
  extract_lets d1 d2
  have h1 : d.Spares gs d1 := (Dev.Spares.refl gs d).foldl fun _ w _ => Dev.flushWindow_spares hst w
  have h2 : d.Spares gs d2 := (h1.modStack st _).zeroPointers _
  split
  · exact h2
  · exact h2.trans (Dev.startDrain_spares hst false)

end

/-! ### A part's clusters and regions -/

/-- A flue whose ring holds nothing. -/
def Flue.Empty (x : Flue) : Prop := x.put = 0 ∧ x.get = 0 ∧ x.slots = []

/-- Resetting flues leaves each of them empty, whether or not it was in use. -/
theorem Dev.foldl_resetFlue_empty (d : Dev) {fs : List Nat} {f : Nat} (hf : f ∈ fs ∨ (d.flue f).Empty) :
    ((fs.foldl (fun d f => d.modFlue f Flue.reset) d).flue f).Empty := by
  have hset : ∀ b : Dev, ((b.modFlue f Flue.reset).flue f).Empty := fun b => by
    rw [Dev.modFlue, Dev.flue_setFlue_self]
    exact ⟨rfl, rfl, rfl⟩
  have hkeep : ∀ (b : Dev) (x : Nat), (b.flue f).Empty → ((b.modFlue x Flue.reset).flue f).Empty := fun b x hb => by
    by_cases hx : f = x
    · exact hx ▸ hset b
    · rwa [Dev.modFlue, Dev.flue_setFlue_ne _ hx]
  rcases hf with hf | hf
  · exact foldl_establishes (P := fun d : Dev => (d.flue f).Empty) (f := fun d f => d.modFlue f Flue.reset) hset (fun b x _ => hkeep b x) hf d
  · exact List.foldlRecOn (motive := fun d : Dev => (d.flue f).Empty) fs _ hf fun b hb x _ => hkeep b x hb

/-- Resetting flues changes flues alone. -/
theorem Dev.foldl_resetFlue_shape (d : Dev) (fs : List Nat) : ∃ flues, fs.foldl (fun d f => d.modFlue f Flue.reset) d = { d with flues := flues } :=
  List.foldlRecOn (motive := fun b : Dev => ∃ flues, b = { d with flues := flues }) fs _ ⟨_, rfl⟩ fun b hb f _ => by
    obtain ⟨flues, rfl⟩ := hb
    exact ⟨_, rfl⟩

/-- A table has its default where it has no entry. -/
theorem tget_of_not_mem {α : Type} (d : α) {t : Tab α} {k : Nat} (h : k ∉ t.map (·.1)) : tget d t k = d := by
  induction t with
  | nil => rfl
  | cons e t ih =>
    simp only [List.map_cons, List.mem_cons, not_or] at h
    rw [tget, if_neg h.1, ih h.2]

/-- A reset of a cluster: its router, its caches and the flues it holds (R161, R335, R412). -/
theorem Dev.resetCluster_spec (d : Dev) (c : Nat) :
    (∃ od clusters flues arb, d.resetCluster c = { d with od := od, clusters := clusters, flues := flues, arb := arb }) ∧
    d.SameObjects (d.resetCluster c) [Obj.MULTICAST_DONE.key c 0] ∧ (d.resetCluster c).get Obj.MULTICAST_DONE c = 0 ∧
    (d.resetCluster c).cluster c = Cluster.fresh ∧ ∀ f, f / 512 = c → ((d.resetCluster c).flue f).Empty := by
  unfold Dev.resetCluster
  extract_lets d1
  have hput : (d.setCluster c Cluster.fresh).OnlyOd ((d.setCluster c Cluster.fresh).put Obj.MULTICAST_DONE 0 c) [Obj.MULTICAST_DONE.key c 0] :=
    Dev.put_onlyOd (List.mem_singleton.mpr rfl)
  have hobjs : d.SameObjects d1 [Obj.MULTICAST_DONE.key c 0] := hput.2
  have hdone : d1.get Obj.MULTICAST_DONE c = 0 := (d.setCluster c Cluster.fresh).get_put_self Obj.MULTICAST_DONE 0 c 0
  have hfresh : d1.cluster c = Cluster.fresh := d.cluster_setCluster_self c Cluster.fresh
  have hflue : ∀ f, f / 512 = c → f ∈ (d1.flues.map (·.1)).filter (fun f => f / 512 = c) ∨ (d1.flue f).Empty := fun f hf => by
    by_cases hm : f ∈ d1.flues.map (·.1)
    · exact .inl (List.mem_filter.mpr ⟨hm, by simpa using hf⟩)
    · exact .inr (by rw [Dev.flue, tget_of_not_mem _ hm]; exact ⟨rfl, rfl, rfl⟩)
  have hempty := fun f hf => d1.foldl_resetFlue_empty (hflue f hf)
  obtain ⟨flues, e⟩ := d1.foldl_resetFlue_shape ((d1.flues.map (·.1)).filter fun f => f / 512 = c)
  rw [e] at hempty ⊢
  exact ⟨⟨_, _, _, _, rfl⟩, hobjs, hdone, hfresh, hempty⟩

theorem Dev.resetCluster_spares {gs : List Nat} {d : Dev} {c : Nat} (hc : c < 128) : d.Spares gs (d.resetCluster c) := by
  obtain ⟨⟨od, clusters, flues, arb, e⟩, hobjs, -, -, -⟩ := d.resetCluster_spec c
  rw [e] at hobjs ⊢
  have hout : OutsideShown (Obj.MULTICAST_DONE.key c 0) := outsideShown_of_block (by
    simp only [ObjDef.key, Obj.MULTICAST_DONE, Kind.stride]
    omega)
  exact (Dev.Spares.of_onlyOd (ks := [Obj.MULTICAST_DONE.key c 0]) ⟨⟨od, rfl⟩, hobjs⟩ (by simpa using hout)).trans (.of_same rfl rfl rfl rfl)

/-- One region of a partition that is reset. -/
def Dev.resetRegion (d : Dev) (g : Nat) : Dev :=
  let d := (clustersOfRegion g).foldl Dev.resetCluster d
  let d := (d.resetStack (2 * g)).resetStack (2 * g + 1)
  (d.put Obj.REGION_STATE 5 g).put Obj.TEST_ROUND 0 g

theorem Dev.Spares.mono {gs ls : List Nat} {d d' : Dev} (h : d.Spares gs d') (hs : gs ⊆ ls) : d.Spares ls d' :=
  ⟨h.slow, h.resets, h.hearths, h.shown, fun g hg hn => h.regions g hg fun hm => hn (hs hm)⟩

theorem regionState_ne_testRound (g j : Nat) : Obj.REGION_STATE.key g 0 ≠ Obj.TEST_ROUND.key j 0 := by
  simp only [ObjDef.key, Obj.REGION_STATE, Obj.TEST_ROUND, Kind.stride]
  omega

theorem Dev.resetRegion_spec {d : Dev} {g : Nat} (hg : g < 16) :
    d.Spares [g] (d.resetRegion g) ∧ (d.resetRegion g).get Obj.REGION_STATE g = 5 := by
  unfold Dev.resetRegion
  extract_lets d1 d2
  have h1 : d.Spares [g] d1 := (Dev.Spares.refl _ d).foldl fun b c hc => Dev.resetCluster_spares (by
    simp only [clustersOfRegion, List.mem_map, List.mem_range] at hc
    omega)
  have h2 : d.Spares [g] d2 := (h1.trans (Dev.resetStack_spares (by omega))).trans (Dev.resetStack_spares (by omega))
  clear_value d2
  have hstate : d2.Spares [g] (d2.put Obj.REGION_STATE 5 g) := by
    refine ⟨rfl, rfl, fun _ _ _ => rfl, fun h _ o ho => Dev.get_put_ne _ _ ?_, fun j _ hn => Dev.get_put_ne _ _ ?_⟩
    · obtain ⟨hkind, hbase, -, -⟩ := clearedObjs_ofHearth o ho
      simp only [ObjDef.key, hkind, Obj.REGION_STATE, Kind.stride]
      omega
    · simp only [List.mem_singleton] at hn
      simp only [ObjDef.key, Obj.REGION_STATE, Kind.stride]
      omega
  refine ⟨(h2.trans hstate).put 0 (outsideShown_region hg).2, ?_⟩
  rw [Dev.get_put_ne _ _ (regionState_ne_testRound g g), Dev.get_put_self]
  rfl

/-- Every region of a partition. -/
theorem Dev.foldl_resetRegion_spec {gs : List Nat} (hgs : ∀ g ∈ gs, g < 16) (d : Dev) :
    d.Spares gs (gs.foldl Dev.resetRegion d) ∧ ∀ g ∈ gs, (gs.foldl Dev.resetRegion d).get Obj.REGION_STATE g = 5 := by
  induction gs generalizing d with
  | nil => exact ⟨.refl .., by simp⟩
  | cons g gs ih =>
    obtain ⟨hspares, hstate⟩ := d.resetRegion_spec (hgs g (by simp))
    obtain ⟨hrest, hset⟩ := ih (fun j hj => hgs j (by simp [hj])) (d.resetRegion g)
    rw [List.foldl_cons]
    generalize d.resetRegion g = b at *
    refine ⟨(hspares.mono (by simp)).trans (hrest.mono (by simp)), fun j hj => ?_⟩
    by_cases hm : j ∈ gs
    · exact hset j hm
    · obtain rfl : j = g := by simpa [hm] using hj
      exact (hrest.regions j (hgs j (by simp)) hm).trans hstate

/-! ### The start of a reset (R411 to R416) -/

theorem nodup_partHearths (d : Dev) (p : ResetPart) : (d.partHearths p).Nodup := by
  cases p with
  | hearth h => exact List.nodup_singleton _
  | cluster c => exact List.nodup_range.map fun a b => by omega
  | partition n =>
    refine List.nodup_flatMap.mpr ⟨fun g _ => List.nodup_range.map fun a b => by omega, ?_⟩
    refine (List.nodup_range.filter _).imp fun {a b} hab => ?_
    intro x ha hb
    simp only [hearthsOfRegion, List.mem_map, List.mem_range] at ha hb
    omega

/-- A part has stopped: its hearths are reset, and what waits for them is absorbed. -/
def Dev.stopPart (d : Dev) (p : ResetPart) : Dev :=
  ({ d with resets := d.resets.filter fun r => !d.within r.part p }.resetHearths (d.partHearths p)).drainEdge (d.partHearths p)

theorem Dev.stopPart_spec (d : Dev) (p : ResetPart) :
    ((d.stopPart p).hbm = d.hbm ∧ (d.stopPart p).slow = d.slow ∧ (d.stopPart p).clusters = d.clusters) ∧
    (∀ h ∈ d.partHearths p, d.HearthCleared (d.stopPart p) h) ∧ ∀ n, (d.stopPart p).regionsOf n = d.regionsOf n := by
  obtain ⟨d0, hd0⟩ : ∃ d0, d0 = { d with resets := d.resets.filter fun r => !d.within r.part p } := ⟨_, rfl⟩
  have hreset : d0.Resets (d.partHearths p) (d0.resetHearths (d.partHearths p)) := Dev.resetHearths_resets (nodup_partHearths d p) d0
  unfold Dev.stopPart
  rw [← hd0]
  obtain ⟨d1, hd1⟩ : ∃ d1, d1 = d0.resetHearths (d.partHearths p) := ⟨_, rfl⟩
  rw [← hd1] at hreset ⊢
  have habsorbed := Dev.drainEdge_absorbed fun h hm => (hreset.cleared h hm).closed
  refine ⟨?_, fun h hm => ?_, fun n => ?_⟩
  · obtain ⟨⟨_, _, _, e⟩, -⟩ := habsorbed
    obtain ⟨_, _, _, _, _, _, _, _, _, e1⟩ := hreset.shape
    rw [e, e1, hd0]
    exact ⟨rfl, rfl, rfl⟩
  · obtain ⟨h1, h2, h3, h4, h5, h6, h7, h8⟩ := (hreset.cleared h hm).of_absorbed habsorbed
    rw [hd0] at h4 h5 h6 h7
    exact ⟨h1, h2, h3, h4, h5, h6, h7, h8⟩
  · have hpart : ∀ g < 16, (d1.drainEdge (d.partHearths p)).partOf g = d.partOf g := fun g hg => by
      have hkey : Obj.REGION_PARTITION.key (g / 4) (g % 4) ∉ [Obj.RESET_ABSORBED.key 0 0] := by
        simp [ObjDef.key, Obj.REGION_PARTITION, Obj.RESET_ABSORBED, Kind.stride]
        omega
      rw [Dev.partOf, habsorbed.2.get hkey, hreset.get_partition (by omega) (by omega), hd0]
      rfl
    refine List.filter_congr fun g hg => ?_
    rw [hpart g (List.mem_range.mp hg)]

/-- The clusters and regions of a part that has stopped. -/
def Dev.resetRest (d : Dev) : ResetPart → Dev
  | .hearth _ => d
  | .cluster c => d.resetCluster c.val
  | .partition n => (d.regionsOf n.val).foldl Dev.resetRegion d

/-- The start of a reset: the part stops, what it holds besides hearths is reset, and its run is noted. -/
theorem Dev.beginReset_eq (d : Dev) (p : ResetPart) : d.beginReset p =
    { (d.stopPart p).resetRest p with
      resets := ((d.stopPart p).resetRest p).resets ++ [⟨p, false, (d.partHearths p).filter fun h => !((d.stopPart p).resetRest p).hearthAbsent h⟩] } := by
  cases p <;> rfl

theorem Dev.beginReset_listed (d : Dev) (p : ResetPart) : ∃ r ∈ (d.beginReset p).resets, r.part = p ∧ r.drained = false := by
  rw [Dev.beginReset_eq]
  exact ⟨_, List.mem_append_right _ (List.mem_singleton.mpr rfl), rfl, rfl⟩
end Sys2Proof.Machine
end

section
/-! Settles O48: the four reset levels, the end of their drains and tests, and what joins the defect list (R404, R411 to R417). -/

namespace Sys2Proof.Machine

/-! ### Resets of a hearth, a cluster and a partition -/

theorem Dev.resetBusy_partition (d : Dev) (k : Fin 8) : d.resetBusy (.partition k) = false := by
  have hnone : d.resets.any (fun r => decide (2 < levelOf r.part) && d.within (.partition k) r.part) = false :=
    List.any_eq_false.mpr fun r _ => by cases r.part <;> simp [levelOf]
  exact (Bool.or_false _).trans hnone

theorem Dev.startReset_of_idle {d : Dev} {p : ResetPart} (h : d.resetBusy p = false) : d.startReset p = (d.beginReset p, 0) := if_neg (by simp [h])

theorem Dev.startReset_of_busy {d : Dev} {p : ResetPart} (h : d.resetBusy p = true) : d.startReset p = (d, 3) := if_pos h

theorem Dev.HearthCleared.answer {a b : Dev} {h : Nat} (k : a.HearthCleared b h) (status : Nat) : a.HearthCleared (b.answer status) h := k.of_same rfl rfl

/-- A hearth's reset: it is cleared, its test is due, and neither a cluster nor the stacks' contents have changed. -/
theorem Dev.beginReset_hearth {d : Dev} {h : Fin 1024} (ha : d.hearthAbsent h.val = false) :
    d.HearthCleared (d.beginReset (.hearth h)) h.val ∧
    (∃ r ∈ (d.beginReset (.hearth h)).resets, r.part = .hearth h ∧ r.drained = false ∧ r.testing = [h.val]) ∧
    (d.beginReset (.hearth h)).clusters = d.clusters ∧ (d.beginReset (.hearth h)).hbm = d.hbm ∧ (d.beginReset (.hearth h)).slow = d.slow := by
  obtain ⟨⟨hhbm, hslow, hclusters⟩, hcleared, -⟩ := d.stopPart_spec (.hearth h)
  have hc := hcleared h.val (List.mem_singleton.mpr rfl)
  have hbegin := d.beginReset_eq (.hearth h)
  simp only [Dev.resetRest, Dev.partHearths] at hbegin
  generalize d.stopPart (.hearth h) = b at *
  have hpresent : b.hearthAbsent h.val = false := by
    have hstate : b.hState h.val = hResetting := (hc.awaits ha).1
    rw [Dev.hearthAbsent, hstate]
    rfl
  have htesting : ([h.val].filter fun i => !b.hearthAbsent i) = [h.val] := by simp [hpresent]
  rw [htesting] at hbegin
  rw [hbegin]
  exact ⟨hc.of_same rfl rfl, ⟨_, List.mem_append_right _ (List.mem_singleton.mpr rfl), rfl, rfl, rfl⟩, hclusters, hhbm, hslow⟩

/-- A cluster's reset: its hearths are cleared, and its router, its caches and its flues hold nothing. -/
theorem Dev.beginReset_cluster (d : Dev) (c : Fin 128) :
    (∀ h ∈ hearthsOfCluster c.val, d.HearthCleared (d.beginReset (.cluster c)) h) ∧
    (d.beginReset (.cluster c)).cluster c.val = Cluster.fresh ∧ (d.beginReset (.cluster c)).get Obj.MULTICAST_DONE c.val = 0 ∧
    (∀ f, f / 512 = c.val → ((d.beginReset (.cluster c)).flue f).Empty) ∧
    (d.beginReset (.cluster c)).hbm = d.hbm ∧ (d.beginReset (.cluster c)).slow = d.slow := by
  obtain ⟨⟨hhbm, hslow, -⟩, hcleared, -⟩ := d.stopPart_spec (.cluster c)
  obtain ⟨⟨_, _, _, _, hshape⟩, -, hdone, hfresh, hflues⟩ := (d.stopPart (.cluster c)).resetCluster_spec c.val
  have hspares : (d.stopPart (.cluster c)).Spares [] ((d.stopPart (.cluster c)).resetCluster c.val) := Dev.resetCluster_spares c.isLt
  have hbegin := d.beginReset_eq (.cluster c)
  simp only [Dev.resetRest] at hbegin
  generalize d.stopPart (.cluster c) = b at *
  have hkept : (b.resetCluster c.val).hbm = d.hbm ∧ (b.resetCluster c.val).slow = d.slow := by
    rw [hshape]
    exact ⟨hhbm, hslow⟩
  generalize b.resetCluster c.val = b' at *
  rw [hbegin]
  refine ⟨fun h hm => ?_, hfresh, hdone, hflues, hkept⟩
  have hh : h < 1024 := by
    simp only [hearthsOfCluster, List.mem_map, List.mem_range] at hm
    omega
  exact ((hcleared h hm).of_spares hspares hh).of_same rfl rfl

/-- A partition's reset: the hearths of its regions are cleared, and each of its regions is in the drain. -/
theorem Dev.beginReset_partition (d : Dev) (k : Fin 8) :
    (∀ g ∈ d.regionsOf k.val, (d.beginReset (.partition k)).get Obj.REGION_STATE g = 5 ∧
      ∀ h ∈ hearthsOfRegion g, d.HearthCleared (d.beginReset (.partition k)) h) ∧
    (d.beginReset (.partition k)).slow = d.slow := by
  obtain ⟨⟨-, hslow, -⟩, hcleared, hregions⟩ := d.stopPart_spec (.partition k)
  have hbegin := d.beginReset_eq (.partition k)
  simp only [Dev.resetRest] at hbegin
  generalize d.stopPart (.partition k) = b at *
  have hlt : ∀ g ∈ b.regionsOf k.val, g < 16 := fun g hg => List.mem_range.mp (List.mem_filter.mp hg).1
  obtain ⟨hspares, hstate⟩ := Dev.foldl_resetRegion_spec hlt b
  generalize (b.regionsOf k.val).foldl Dev.resetRegion b = b' at *
  rw [hbegin]
  refine ⟨fun g hg => ⟨?_, fun h hm => ?_⟩, hspares.slow.trans hslow⟩
  · exact hstate g (hregions k.val ▸ hg)
  · have hg16 : g < 16 := hlt g (hregions k.val ▸ hg)
    have hh : h < 1024 := by
      simp only [hearthsOfRegion, List.mem_map, List.mem_range] at hm
      omega
    exact ((hcleared h (List.mem_flatMap.mpr ⟨g, hg, hm⟩)).of_spares hspares hh).of_same rfl rfl

/-- The write to HEARTH_RESET of a hearth that is served. -/
theorem hearthReset_served {s : State} {h : Fin 1024} (hs : s.dev.HearthServes h.val Obj.HEARTH_RESET 0) (v : Nat) :
    exec (.hearthReset h v) s = .next { s with dev := (s.dev.writeHearthReset h v).1.answer (s.dev.writeHearthReset h v).2 } := by
  show s.onDev (fun d => d.gatedHearth h.val Obj.HEARTH_RESET 0 v fun d => (d.writeHearthReset h v).1.answer (d.writeHearthReset h v).2) = _
  rw [State.onDev, Dev.gatedHearth_of_serves hs]

/-- The write to CLUSTER_RESET of a cluster whose region is served. -/
theorem clusterReset_served {s : State} {cl : Fin 128} (hs : s.dev.RegionServes (cl.val / 8) Obj.CLUSTER_RESET cl.val 0) (v : Nat) :
    exec (.clusterReset cl v) s = .next { s with dev := (s.dev.writeClusterReset cl v).1.answer (s.dev.writeClusterReset cl v).2 } := by
  show s.onDev (fun d => d.gated fun d => d.inRegion (cl.val / 8) Obj.CLUSTER_RESET cl.val 0 v
    fun d => (d.writeClusterReset cl v).1.answer (d.writeClusterReset cl v).2) = _
  rw [State.onDev, Dev.gated_of_serves hs.1, Dev.inRegion_of_serves hs]

/-- The write to PARTITION_RESET. -/
theorem partitionReset_served {s : State} (hs : s.dev.PilotServes) (n : Nat) :
    exec (.partitionReset n) s = .next { s with dev := (s.dev.writePartitionReset n).1.answer (s.dev.writePartitionReset n).2 } := by
  show s.onDev (fun d => d.gatedPilot fun d => (d.writePartitionReset n).1.answer (d.writePartitionReset n).2) = _
  rw [State.onDev, Dev.gatedPilot_of_serves hs]

theorem hearthReset_clauses (s : State) (h : Fin 1024) (v : Nat) (hs : s.dev.HearthServes h.val Obj.HEARTH_RESET 0) :
    (1 < v → ∃ t, exec (.hearthReset h v) s = .next t ∧ s.Refused t 4) ∧
    (v = 0 → ∃ t, exec (.hearthReset h v) s = .next t ∧ s.Refused t 0) ∧
    (v = 1 → s.dev.resetBusy (.hearth h) = true → ∃ t, exec (.hearthReset h v) s = .next t ∧ s.Refused t 3) ∧
    (v = 1 → s.dev.resetBusy (.hearth h) = false →
      ∃ t, exec (.hearthReset h v) s = .next t ∧ t.dev.reply = ⟨0, 0, []⟩ ∧ s.HearthReset t h.val ∧
        (∃ r ∈ t.dev.resets, r.part = .hearth h ∧ r.drained = false ∧ r.testing = [h.val]) ∧ t.dev.clusters = s.dev.clusters ∧ s.KeepsMemory t) := by
  rw [hearthReset_served hs]
  refine ⟨fun hv => ⟨_, rfl, ?_⟩, fun hv => ⟨_, rfl, ?_⟩, fun hv hb => ⟨_, rfl, ?_⟩, fun hv hb => ⟨_, rfl, ?_⟩⟩
  · rw [Dev.writeHearthReset, if_pos hv]
    rfl
  · rw [Dev.writeHearthReset, if_neg (by omega), if_pos hv]
    rfl
  · rw [Dev.writeHearthReset, if_neg (by omega), if_neg (by omega), Dev.startReset_of_busy hb]
    rfl
  · rw [Dev.writeHearthReset, if_neg (by omega), if_neg (by omega), Dev.startReset_of_idle hb]
    obtain ⟨hcleared, hrun, hclusters, hhbm, hslow⟩ := Dev.beginReset_hearth hs.2
    generalize s.dev.beginReset (.hearth h) = b at *
    exact ⟨rfl, (hcleared.answer 0).hearthReset, hrun, hclusters, hhbm, hslow, rfl, rfl⟩

theorem clusterReset_clauses (s : State) (cl : Fin 128) (v : Nat) (hs : s.dev.RegionServes (cl.val / 8) Obj.CLUSTER_RESET cl.val 0) :
    (1 < v → ∃ t, exec (.clusterReset cl v) s = .next t ∧ s.Refused t 4) ∧
    (v = 0 → ∃ t, exec (.clusterReset cl v) s = .next t ∧ s.Refused t 0) ∧
    (v = 1 → s.dev.resetBusy (.cluster cl) = true → ∃ t, exec (.clusterReset cl v) s = .next t ∧ s.Refused t 3) ∧
    (v = 1 → s.dev.resetBusy (.cluster cl) = false →
      ∃ t, exec (.clusterReset cl v) s = .next t ∧ t.dev.reply = ⟨0, 0, []⟩ ∧ (∀ h ∈ hearthsOfCluster cl.val, s.HearthReset t h) ∧
        t.dev.cluster cl.val = Cluster.fresh ∧ t.dev.get Obj.MULTICAST_DONE cl.val = 0 ∧
        (∀ f, f / 512 = cl.val → (t.dev.flue f).put = 0 ∧ (t.dev.flue f).get = 0 ∧ (t.dev.flue f).slots = []) ∧
        (∃ r ∈ t.dev.resets, r.part = .cluster cl ∧ r.drained = false) ∧ s.KeepsMemory t) := by
  rw [clusterReset_served hs]
  refine ⟨fun hv => ⟨_, rfl, ?_⟩, fun hv => ⟨_, rfl, ?_⟩, fun hv hb => ⟨_, rfl, ?_⟩, fun hv hb => ⟨_, rfl, ?_⟩⟩
  · rw [Dev.writeClusterReset, if_pos hv]
    rfl
  · rw [Dev.writeClusterReset, if_neg (by omega), if_pos hv]
    rfl
  · rw [Dev.writeClusterReset, if_neg (by omega), if_neg (by omega), Dev.startReset_of_busy hb]
    rfl
  · rw [Dev.writeClusterReset, if_neg (by omega), if_neg (by omega), Dev.startReset_of_idle hb]
    obtain ⟨hcleared, hfresh, hdone, hflues, hhbm, hslow⟩ := s.dev.beginReset_cluster cl
    have hrun := s.dev.beginReset_listed (.cluster cl)
    generalize s.dev.beginReset (.cluster cl) = b at *
    exact ⟨rfl, fun h hm => ((hcleared h hm).answer 0).hearthReset, hfresh, hdone, hflues, hrun, hhbm, hslow, rfl, rfl⟩

/-- CLUSTER_RESET while the region's clock is not running. -/
theorem clusterReset_queued (s : State) (cl : Fin 128) (v : Nat) (hs : s.dev.Serves)
    (hw : s.dev.mustWait [cl.val / 8] (.object .host (Obj.CLUSTER_RESET.key cl.val 0 / 256) (Obj.CLUSTER_RESET.key cl.val 0 % 256) v) = true) :
    ∃ t, exec (.clusterReset cl v) s = .next t ∧
      s.Queues t (.object .host (Obj.CLUSTER_RESET.key cl.val 0 / 256) (Obj.CLUSTER_RESET.key cl.val 0 % 256) v) := by
  generalize hr : PathReq.object .host (Obj.CLUSTER_RESET.key cl.val 0 / 256) (Obj.CLUSTER_RESET.key cl.val 0 % 256) v = r at *
  have hexec : exec (.clusterReset cl v) s = .next { s with dev := s.dev.queuePath [cl.val / 8] r } := by
    show s.onDev (fun d => d.gated fun d => d.inRegion (cl.val / 8) Obj.CLUSTER_RESET cl.val 0 v
      fun d => (d.writeClusterReset cl v).1.answer (d.writeClusterReset cl v).2) = _
    rw [State.onDev, Dev.gated_of_serves hs, Dev.inRegion, hr, if_pos hw]
  refine ⟨_, hexec, ?_⟩
  obtain ⟨x, ps, e, ⟨⟨_, rfl⟩, -⟩, hqueue, -⟩ := s.dev.queuePath_spec [cl.val / 8] r
  rw [e]
  exact ⟨hqueue, rfl, rfl, rfl, rfl, rfl, rfl, rfl⟩

theorem partitionReset_clauses (s : State) (n : Nat) (hs : s.dev.PilotServes) :
    (8 ≤ n → ∃ t, exec (.partitionReset n) s = .next t ∧ s.Refused t 4) ∧
    (∀ k : Fin 8, n = k.val →
      (s.dev.regionsOf n = [] → ∃ t, exec (.partitionReset n) s = .next t ∧ s.Refused t 0) ∧
      (s.dev.regionsOf n ≠ [] →
        ∃ t, exec (.partitionReset n) s = .next t ∧ t.dev.reply = ⟨0, 0, []⟩ ∧
          (∀ g ∈ s.dev.regionsOf n, t.dev.get Obj.REGION_STATE g = 5 ∧ ∀ h ∈ hearthsOfRegion g, s.HearthReset t h) ∧
          (∃ r ∈ t.dev.resets, r.part = .partition k ∧ r.drained = false) ∧ t.dev.slow = s.dev.slow ∧ t.vault = s.vault ∧
          t.pending = s.pending)) := by
  rw [partitionReset_served hs]
  refine ⟨fun hn => ⟨_, rfl, ?_⟩, ?_⟩
  · rw [Dev.writePartitionReset, dif_neg (by omega)]
    rfl
  · rintro k rfl
    refine ⟨fun hr => ⟨_, rfl, ?_⟩, fun hr => ⟨_, rfl, ?_⟩⟩
    · rw [Dev.writePartitionReset, dif_pos k.isLt, if_pos (by simp [hr])]
      rfl
    · rw [Dev.writePartitionReset, dif_pos k.isLt, if_neg (by simpa using hr), Dev.startReset_of_idle (s.dev.resetBusy_partition k)]
      obtain ⟨hregions, hslow⟩ := s.dev.beginReset_partition k
      have hrun := s.dev.beginReset_listed (.partition k)
      generalize s.dev.beginReset (.partition k) = b at *
      refine ⟨rfl, fun g hg => ⟨(hregions g hg).1, fun h hm => (((hregions g hg).2 h hm).answer 0).hearthReset⟩,
        hrun, hslow, rfl, rfl⟩

/-- HEARTH_RESET of an absent hearth. -/
theorem hearthReset_absent (s : State) (h : Fin 1024) (v : Nat) (hs : s.dev.Serves) (ha : s.dev.hearthAbsent h.val = true) :
    ∃ t, exec (.hearthReset h v) s = .next t ∧ s.Refused t 3 := by
  refine ⟨{ s with dev := s.dev.answer 3 }, ?_, rfl⟩
  show s.onDev (fun d => d.gatedHearth h.val Obj.HEARTH_RESET 0 v fun d => (d.writeHearthReset h v).1.answer (d.writeHearthReset h v).2) = _
  rw [State.onDev, Dev.gatedHearth, Dev.gated_of_serves hs, if_pos ha]

/-! ### Whole-device resets -/

theorem resetN_clauses (s : State) (sel0 sel1 : Nat) :
    (s.dev.get Obj.BOOT_STATE ≠ 0 → s.dev.power.onBank = false → ∃ t, exec (.resetN sel0 sel1) s = .next t ∧ s.Restarted t 0 sel0 sel1) ∧
    (s.dev.get Obj.BOOT_STATE = 0 ∨ s.dev.power.onBank = true → exec (.resetN sel0 sel1) s = .next s) := by
  refine ⟨fun hup hbank => ⟨s.wholeReset 0 sel0 sel1, ?_, s.wholeReset_restarted 0 sel0 sel1 hbank⟩, fun h => ?_⟩
  · show Host.Outcome.next (if s.dev.get Obj.BOOT_STATE = 0 ∨ s.dev.power.onBank = true then s else s.wholeReset 0 sel0 sel1) = _
    rw [if_neg (by simp [hup, hbank])]
  · show Host.Outcome.next (if s.dev.get Obj.BOOT_STATE = 0 ∨ s.dev.power.onBank = true then s else s.wholeReset 0 sel0 sel1) = _
    rw [if_pos h]

theorem wholeReset_clauses (s : State) (sel0 sel1 : Nat) (hs : s.dev.PilotServes) (hbank : s.dev.power.onBank = false) :
    (∃ t, exec (.wholeReset 0x5A5A sel0 sel1) s = .next t ∧ s.Restarted t 1 sel0 sel1) ∧
    ∀ v, v ≠ 0x5A5A → ∃ t, exec (.wholeReset v sel0 sel1) s = .next t ∧ s.Refused t 4 := by
  obtain ⟨⟨hboot, hroom⟩, hpilot⟩ := hs
  have hserved : ¬(s.dev.get Obj.BOOT_STATE < 2 ∨ s.dev.pathFull 2 = true ∨ s.dev.pilot.restarting = true) := by
    simp only [hroom, hpilot, Bool.false_eq_true, or_false]
    omega
  refine ⟨⟨s.wholeReset 1 sel0 sel1, ?_, s.wholeReset_restarted 1 sel0 sel1 hbank⟩, fun v hv => ⟨{ s with dev := s.dev.answer 4 }, ?_, rfl⟩⟩
  · show Host.Outcome.next (s.writeWholeReset 0x5A5A sel0 sel1) = _
    rw [State.writeWholeReset, if_neg hserved, if_neg (by decide)]
  · show Host.Outcome.next (s.writeWholeReset v sel0 sel1) = _
    rw [State.writeWholeReset, if_neg hserved, if_pos hv]

/-! ### The end of a drain (R413 to R415) -/

/-- Ending resets whose hearths are settled changes the list of resets, and what recording events changes; a reset with a hearth under test stays. -/
theorem Dev.settleResets_spec (d : Dev) :
    ∃ rs, ({ d with resets := rs } : Dev).Recorded d.settleResets ∧ ∀ r ∈ d.resets, r.testing ≠ [] → r ∈ rs := by
  unfold Dev.settleResets
  extract_lets ended done d1
  refine ⟨d.resets.filter fun r => !ended d r, ?_, fun r hr ht => List.mem_filter.mpr ⟨hr, ?_⟩⟩
  · refine List.foldlRecOn (motive := fun b : Dev => d1.Recorded b) done _ (.refl d1) fun b hb r _ => ?_
    split
    · exact hb.trans (Dev.raise_recorded ..)
    · exact hb.trans (Dev.raise_recorded ..)
    · exact hb
  · have htesting : r.testing.isEmpty = false := by simpa using ht
    simp only [ended]
    split <;> simp [htesting]

/-- What `Dev.settleResets` leaves as it is. -/
theorem Dev.settleResets_keeps (d : Dev) :
    d.settleResets.hearths = d.hearths ∧ d.settleResets.hbm = d.hbm ∧ d.settleResets.slow = d.slow ∧ d.settleResets.store = d.store ∧
    (∀ r ∈ d.resets, r.testing ≠ [] → r ∈ d.settleResets.resets) ∧ d.SameObjects d.settleResets eventKeys := by
  obtain ⟨rs, ⟨⟨_, _, _, _, _, _, e⟩, hobjs⟩, hruns⟩ := d.settleResets_spec
  refine ⟨by rw [e], by rw [e], by rw [e], by rw [e], fun r hr ht => by rw [e]; exact hruns r hr ht, hobjs⟩

/-- Keys that the bring-up of region `g` after its drain writes. -/
def restartKeys (g : Nat) : List Nat :=
  [Obj.REGION_STATE.key g 0, Obj.CLOCK_STATE.key g 0] ++ (hearthsOfRegion g).flatMap fun h => [Obj.HEARTH_STATE.key h 0]

theorem Dev.restartRegion_onlyOd (d : Dev) (g : Nat) : d.OnlyOd (d.restartRegion g) (restartKeys g) := by
  have hstate : d.OnlyOd (d.put Obj.REGION_STATE 1 g) (restartKeys g) := Dev.put_onlyOd (by simp [restartKeys])
  unfold Dev.restartRegion
  extract_lets d1
  have hclock : d.OnlyOd d1 (restartKeys g) := hstate.trans (Dev.put_onlyOd (by simp [restartKeys]))
  have hhearths := Dev.foldl_onlyOd (f := fun d h => d.put Obj.HEARTH_STATE hResetting h) (ks := fun h => [Obj.HEARTH_STATE.key h 0])
    (fun _ _ => Dev.put_onlyOd (List.mem_singleton.mpr rfl)) (hearthsOfRegion g) d1
  exact hclock.trans (hhearths.mono (List.subset_append_right ..))

/-- After its drain a region is OFF with its clock starting, and its hearths await their tests; a region's start takes this from no other. -/
theorem Dev.foldl_restartRegion_spec (d : Dev) {gs : List Nat} {g : Nat} (hg : g ∈ gs) (hlt : g < 16) :
    (gs.foldl Dev.restartRegion d).get Obj.REGION_STATE g = 1 ∧ (gs.foldl Dev.restartRegion d).get Obj.CLOCK_STATE g = 1 ∧
    ∀ h ∈ hearthsOfRegion g, (gs.foldl Dev.restartRegion d).get Obj.HEARTH_STATE h = hResetting := by
  have hregion : ∀ j, Obj.REGION_STATE.key j 0 = (0x11000 + 0x100 * j) * 256 + 1 := fun _ => rfl
  have hclock : ∀ j, Obj.CLOCK_STATE.key j 0 = (0x11020 + 0x100 * j) * 256 + 2 := fun _ => rfl
  have hstate : ∀ h, Obj.HEARTH_STATE.key h 0 = (0x20000 + 0x40 * h) * 256 + 5 := fun _ => rfl
  have htail : ∀ (b : Dev) (hs : List Nat) {o : ObjDef}, o.key g 0 < 0x20000 * 256 →
      (hs.foldl (fun d h => d.put Obj.HEARTH_STATE hResetting h) b).get o g = b.get o g := fun b hs o ho =>
    foldl_same (g := fun d : Dev => d.get o g) (f := fun d h => d.put Obj.HEARTH_STATE hResetting h)
      (fun a x _ => Dev.get_put_ne _ _ (by rw [hstate]; omega)) b
  refine ⟨?_, ?_, fun h hh => ?_⟩
  · refine foldl_establishes (P := fun d : Dev => d.get Obj.REGION_STATE g = 1) (fun b => ?_) (fun b x hx hb => ?_) hg d
    · rw [Dev.restartRegion, htail _ _ (by rw [hregion]; omega), Dev.get_put_ne _ _ (by rw [hregion, hclock]; omega), Dev.get_put_self]
      rfl
    · rw [Dev.restartRegion, htail _ _ (by rw [hregion]; omega), Dev.get_put_ne _ _ (by rw [hregion, hclock]; omega),
        Dev.get_put_ne _ _ (by rw [hregion, hregion]; omega), hb]
  · refine foldl_establishes (P := fun d : Dev => d.get Obj.CLOCK_STATE g = 1) (fun b => ?_) (fun b x hx hb => ?_) hg d
    · rw [Dev.restartRegion, htail _ _ (by rw [hclock]; omega), Dev.get_put_self]
      rfl
    · rw [Dev.restartRegion, htail _ _ (by rw [hclock]; omega), Dev.get_put_ne _ _ (by rw [hclock, hclock]; omega),
        Dev.get_put_ne _ _ (by rw [hregion, hclock]; omega), hb]
  · have hset : ∀ (b : Dev), (b.put Obj.HEARTH_STATE hResetting h).get Obj.HEARTH_STATE h = hResetting := fun b => b.get_put_self ..
    have hkeep : ∀ (b : Dev) (x : Nat), x ≠ h → b.get Obj.HEARTH_STATE h = hResetting →
        (b.put Obj.HEARTH_STATE hResetting x).get Obj.HEARTH_STATE h = hResetting := fun b x hx hb => by
      rw [Dev.get_put_ne _ _ (by rw [hstate, hstate]; omega), hb]
    refine foldl_establishes (P := fun d : Dev => d.get Obj.HEARTH_STATE h = hResetting) (fun b => ?_) (fun b x _ hb => ?_) hg d
    · rw [Dev.restartRegion]
      exact foldl_establishes (P := fun d : Dev => d.get Obj.HEARTH_STATE h = hResetting) (f := fun (d : Dev) h => d.put Obj.HEARTH_STATE hResetting h)
        hset hkeep hh _
    · rw [Dev.restartRegion]
      refine List.foldlRecOn (motive := fun d : Dev => d.get Obj.HEARTH_STATE h = hResetting) _ _ ?_ fun a ha x _ => ?_
      · rw [Dev.get_put_ne _ _ (by rw [hstate, hclock]; omega), Dev.get_put_ne _ _ (by rw [hstate, hregion]; omega), hb]
      · by_cases hx : x = h
        · subst hx
          exact hset a
        · exact hkeep a x hx ha

/-- What the end of a drain keeps: hearths, memory, the count of what it answered, and every reset with a hearth under test. -/
def Dev.DrainKeeps (d d' : Dev) : Prop :=
  d'.hearths = d.hearths ∧ d'.hbm = d.hbm ∧ d'.slow = d.slow ∧ (∀ r ∈ d.resets, r.testing ≠ [] → r ∈ d'.resets) ∧
  d'.get Obj.RESET_DRAIN_ANSWERED = d.get Obj.RESET_DRAIN_ANSWERED

theorem Dev.DrainKeeps.of_onlyOd {d d' : Dev} {ks : List Nat} (h : d.OnlyOd d' ks) (hk : Obj.RESET_DRAIN_ANSWERED.key 0 0 ∉ ks) : d.DrainKeeps d' := by
  have hget := h.get hk
  obtain ⟨⟨_, rfl⟩, -⟩ := h
  exact ⟨rfl, rfl, rfl, fun r hr _ => hr, hget⟩

/-- The reset tests of hearths begin. -/
def Dev.startTests (d : Dev) (hs : List Nat) : Dev := (hs.foldl (fun (d : Dev) h => d.put Obj.TEST_RESULT 1 h) d).settleResets

theorem Dev.startTests_spec (d : Dev) (hs : List Nat) : d.DrainKeeps (d.startTests hs) ∧ ∀ h ∈ hs, (d.startTests hs).get Obj.TEST_RESULT h = 1 := by
  unfold Dev.startTests
  have honly := Dev.foldl_onlyOd (f := fun (d : Dev) h => d.put Obj.TEST_RESULT 1 h) (ks := fun h => [Obj.TEST_RESULT.key h 0])
    (fun _ _ => Dev.put_onlyOd (List.mem_singleton.mpr rfl)) hs d
  have hset : ∀ h ∈ hs, (hs.foldl (fun (d : Dev) h => d.put Obj.TEST_RESULT 1 h) d).get Obj.TEST_RESULT h = 1 := fun h hm =>
    foldl_establishes (P := fun d : Dev => d.get Obj.TEST_RESULT h = 1) (f := fun (d : Dev) h => d.put Obj.TEST_RESULT 1 h) (fun b => b.get_put_self ..)
      (fun b x hx hb => (Dev.get_put_ne _ _ (hearthKey_ne (by decide) (by decide) (.inr (.inr hx.symm)))).trans hb) hm d
  generalize hs.foldl (fun (d : Dev) h => d.put Obj.TEST_RESULT 1 h) d = b at *
  obtain ⟨hhearths, hhbm, hslow, -, hruns, hobjs⟩ := b.settleResets_keeps
  have hcount : Obj.RESET_DRAIN_ANSWERED.key 0 0 ∉ hs.flatMap fun h => [Obj.TEST_RESULT.key h 0] := by
    simp [ObjDef.key, Obj.RESET_DRAIN_ANSWERED, Obj.TEST_RESULT, Kind.stride]
    omega
  obtain ⟨k1, k2, k3, k4, k5⟩ := Dev.DrainKeeps.of_onlyOd honly hcount
  refine ⟨⟨hhearths.trans k1, hhbm.trans k2, hslow.trans k3, fun r hr ht => hruns r (k4 r hr ht) ht, ?_⟩, fun h hm => ?_⟩
  · rw [hobjs.get (by decide), k5]
  · rw [hobjs.get (hearthKey_not_event (by decide) h), hset h hm]

/-- The bring-up of regions after their drain changes objects of the regions and their hearths alone. -/
theorem Dev.foldl_restartRegion_keeps (d : Dev) (gs : List Nat) : d.DrainKeeps (gs.foldl Dev.restartRegion d) := by
  refine .of_onlyOd (Dev.foldl_onlyOd Dev.restartRegion_onlyOd gs d) ?_
  simp [restartKeys, ObjDef.key, Obj.RESET_DRAIN_ANSWERED, Obj.REGION_STATE, Obj.CLOCK_STATE, Obj.HEARTH_STATE, Kind.stride]
  exact fun g _ => ⟨by omega, by omega, fun h _ => by omega⟩

/-- The end of a drain, before what it starts. -/
def Dev.drainAnswered (d : Dev) (p : ResetPart) (n : Nat) : Dev :=
  let d := d.bump Obj.RESET_DRAIN_ANSWERED 0 n
  { d with resets := d.resets.map fun (r : ResetRun) => if r.part = p then { r with drained := true } else r }

theorem Dev.drainAnswered_spec (d : Dev) (p : ResetPart) (n : Nat) :
    (∃ od rs, d.drainAnswered p n = { d with od := od, resets := rs }) ∧ d.SameObjects (d.drainAnswered p n) [Obj.RESET_DRAIN_ANSWERED.key 0 0] ∧
    (∀ r ∈ d.resets, r.part = p → { r with drained := true } ∈ (d.drainAnswered p n).resets) ∧
    (0 < n → (d.drainAnswered p n).get Obj.RESET_DRAIN_ANSWERED = (d.get Obj.RESET_DRAIN_ANSWERED + n) % 2 ^ Obj.RESET_DRAIN_ANSWERED.bitsOf) := by
  unfold Dev.drainAnswered
  extract_lets d1
  have hbump : d.OnlyOd d1 [Obj.RESET_DRAIN_ANSWERED.key 0 0] := Dev.bump_onlyOd (List.mem_singleton.mpr rfl)
  have hcount : 0 < n → d1.get Obj.RESET_DRAIN_ANSWERED = (d.get Obj.RESET_DRAIN_ANSWERED + n) % 2 ^ Obj.RESET_DRAIN_ANSWERED.bitsOf :=
    fun hn => Dev.get_bump_self _ _ _ _ _ (by omega)
  clear_value d1
  obtain ⟨⟨_, rfl⟩, hobjs⟩ := hbump
  refine ⟨⟨_, _, rfl⟩, hobjs, fun r hr hp => List.mem_map.mpr ⟨r, hr, if_pos hp⟩, hcount⟩

/-- The reset tests of a part's hearths, or the bring-up of its regions, begin. -/
def Dev.afterDrain (d : Dev) : ResetPart → Dev
  | .partition k => (d.regionsOf k.val).foldl Dev.restartRegion d
  | p => d.startTests ((d.partHearths p).filter fun h => !d.hearthAbsent h)

theorem Dev.cmdDrainTimeout_of_due {d : Dev} {p : ResetPart} (h : (d.resets.any fun (r : ResetRun) => decide (r.part = p) && !r.drained) = true) (n : Nat) :
    d.cmdDrainTimeout p n = (d.drainAnswered p n).afterDrain p := by
  rw [Dev.cmdDrainTimeout, if_pos h]
  cases p <;> rfl

theorem Dev.afterDrain_keeps (d : Dev) (p : ResetPart) : d.DrainKeeps (d.afterDrain p) := by
  cases p with
  | hearth h => exact (d.startTests_spec _).1
  | cluster c => exact (d.startTests_spec _).1
  | partition k => exact d.foldl_restartRegion_keeps _

/-- The reset tests of a hearth or a cluster begin. -/
theorem Dev.afterDrain_tests (d : Dev) {p : ResetPart} (hp : ∀ k, p ≠ .partition k) {h : Nat} (hm : h ∈ d.partHearths p)
    (ha : d.hearthAbsent h = false) : (d.afterDrain p).get Obj.TEST_RESULT h = 1 := by
  have hmem : h ∈ (d.partHearths p).filter fun h => !d.hearthAbsent h := List.mem_filter.mpr ⟨hm, by simp [ha]⟩
  cases p with
  | hearth i => exact (d.startTests_spec _).2 h hmem
  | cluster c => exact (d.startTests_spec _).2 h hmem
  | partition k => exact absurd rfl (hp k)

/-- RESET_DRAIN_TIMEOUT. -/
theorem resetDrainTimeout_clauses (s : State) (part : ResetPart) (n : Nat) (due : Bool)
    (hdue : due = (s.dev.resets.any fun (r : ResetRun) => decide (r.part = part) && !r.drained)) :
    (due = false → exec (.resetDrainTimeout part n) s = .next s) ∧
    (due = true →
      ∃ t, exec (.resetDrainTimeout part n) s = .next t ∧ (0 < n → s.Counted t Obj.RESET_DRAIN_ANSWERED 0 n) ∧
        (∀ r ∈ s.dev.resets, r.part = part → r.testing ≠ [] → { r with drained := true } ∈ t.dev.resets) ∧
        (∀ k, part = .partition k → ∀ g ∈ s.dev.regionsOf k.val, t.dev.get Obj.REGION_STATE g = 1 ∧ t.dev.get Obj.CLOCK_STATE g = 1 ∧
          ∀ h ∈ hearthsOfRegion g, t.dev.get Obj.HEARTH_STATE h = hResetting) ∧
        ((∀ k, part ≠ .partition k) → ∀ h ∈ s.dev.partHearths part, s.dev.hearthAbsent h = false → t.dev.get Obj.TEST_RESULT h = 1) ∧
        t.dev.hearths = s.dev.hearths ∧ s.KeepsMemory t) := by
  subst hdue
  refine ⟨fun hnone => ?_, fun hsome => ⟨{ s with dev := (s.dev.drainAnswered part n).afterDrain part }, ?_, ?_⟩⟩
  · show Host.Outcome.next { s with dev := s.dev.cmdDrainTimeout part n } = _
    rw [Dev.cmdDrainTimeout, if_neg (by simp [hnone])]
  · show Host.Outcome.next { s with dev := s.dev.cmdDrainTimeout part n } = _
    rw [Dev.cmdDrainTimeout_of_due hsome]
  · obtain ⟨hshape, hobjs, hruns, hcount⟩ := s.dev.drainAnswered_spec part n
    generalize s.dev.drainAnswered part n = d at *
    have hpart : ∀ g, d.partOf g = s.dev.partOf g := fun g => hobjs.get (by
      simp [ObjDef.key, Obj.REGION_PARTITION, Obj.RESET_DRAIN_ANSWERED, Kind.stride]
      omega)
    have hregions : ∀ k, d.regionsOf k = s.dev.regionsOf k := fun k => by simp only [Dev.regionsOf, hpart]
    have habsent : ∀ h, d.hearthAbsent h = s.dev.hearthAbsent h := fun h => by
      have hstate : d.hState h = s.dev.hState h := hobjs.get (by
        simp [ObjDef.key, Obj.HEARTH_STATE, Obj.RESET_DRAIN_ANSWERED, Kind.stride]
        omega)
      have hregion : d.get Obj.REGION_STATE (h / 64) = s.dev.get Obj.REGION_STATE (h / 64) := hobjs.get (by
        simp [ObjDef.key, Obj.REGION_STATE, Obj.RESET_DRAIN_ANSWERED, Kind.stride]
        omega)
      rw [Dev.hearthAbsent, hstate, hregion, Dev.hearthAbsent]
    have hhearths : d.partHearths part = s.dev.partHearths part := by cases part <;> simp only [Dev.partHearths, hregions]
    obtain ⟨k1, k2, k3, k4, k5⟩ := d.afterDrain_keeps part
    have htests := fun hp h => d.afterDrain_tests (p := part) hp (h := h)
    have hrestart : ∀ k, part = .partition k → d.afterDrain part = (d.regionsOf k.val).foldl Dev.restartRegion d := fun k e => by rw [e]; rfl
    generalize d.afterDrain part = b at *
    obtain ⟨_, _, rfl⟩ := hshape
    refine ⟨fun hn => k5.trans (hcount hn), fun r hr hp ht => k4 _ (hruns r hr hp) ht, fun k hk g hg => ?_, fun hp h hm ha => ?_, k1, k2, k3, rfl, rfl⟩
    · show b.get _ _ = _ ∧ b.get _ _ = _ ∧ ∀ h ∈ hearthsOfRegion g, b.get _ _ = _
      rw [hrestart k hk, hregions]
      exact Dev.foldl_restartRegion_spec _ hg (List.mem_range.mp (List.mem_filter.mp hg).1)
    · exact htests hp h (hhearths ▸ hm) ((habsent h).trans ha)

/-! ### The tests and the defect list (R18, R404, R414) -/

/-- The bits that `setBits` writes read as written. -/
theorem bits_setBits (v hi lo x : Nat) : bits (setBits v hi lo x) hi lo = x % 2 ^ (hi + 1 - lo) := by
  have hq : 0 < 2 ^ lo := Nat.two_pow_pos lo
  have hw : 0 < 2 ^ (hi + 1 - lo) := Nat.two_pow_pos _
  simp only [bits, setBits, Nat.shiftRight_eq_div_pow, Nat.shiftLeft_eq]
  generalize 2 ^ lo = q at *
  generalize 2 ^ (hi + 1 - lo) = w at *
  have hle : v / q % w * q ≤ v := (Nat.mul_le_mul_right q (Nat.mod_le _ w)).trans (Nat.div_mul_le_self v q)
  have hdiv : (v - v / q % w * q) / q = v / q - v / q % w := by rw [Nat.mul_comm, Nat.sub_mul_div]
  have hsub : v / q - v / q % w = w * (v / q / w) := by have := Nat.div_add_mod (v / q) w; omega
  rw [Nat.add_mul_div_right _ _ hq, hdiv, hsub, Nat.mul_add_mod, Nat.mod_mod]

/-- Cutting a word off above a field leaves the field. -/
theorem bits_mod_two_pow {n hi : Nat} (v lo : Nat) (h : hi < n) : bits (v % 2 ^ n) hi lo = bits v hi lo := by
  simp only [bits]
  refine Nat.eq_of_testBit_eq fun i => ?_
  simp only [Nat.testBit_mod_two_pow, Nat.testBit_shiftRight]
  by_cases hi' : i < hi + 1 - lo
  · simp [hi', show lo + i < n by omega]
  · simp [hi']

/-- SLOT_MAP shows the slot set. -/
theorem Dev.slotOf_setSlotOf (d : Dev) (h p : Nat) : (d.setSlotOf h p).slotOf h = p % 16 := by
  have hne : Obj.SLOT_MAP.key (h / 8) 0 ≠ Obj.PHYSICAL_HEARTH.key h 0 := by
    simp only [ObjDef.key, Obj.SLOT_MAP, Obj.PHYSICAL_HEARTH, Kind.stride]
    omega
  have hwidth : Obj.SLOT_MAP.bitsOf = 32 := by decide
  rw [Dev.slotOf, Dev.setSlotOf, Dev.get_put_ne _ _ hne, Dev.get_put_self, hwidth, bits_mod_two_pow _ _ (by omega), bits_setBits,
    show 4 * (h % 8) + 3 + 1 - 4 * (h % 8) = 4 by omega]
  rfl

/-- PHYS_STATUS shows the status set. -/
theorem Dev.physOf_setPhys (d : Dev) (c v : Nat) {p : Nat} (hp : p < 9) : (d.setPhys c p v).physOf c p = v % 8 := by
  have hwidth : Obj.PHYS_STATUS.bitsOf = 32 := by decide
  rw [Dev.physOf, Dev.setPhys, Dev.get_put_self, hwidth, bits_mod_two_pow _ _ (by omega), bits_setBits, show 3 * p + 2 + 1 - 3 * p = 3 by omega]
  rfl

/-- A hearth that has failed its test is shown absent, without a slot; its physical slot `p` is shown failed. -/
def Dev.showFailed (d : Dev) (h p fail : Nat) : Dev :=
  (((d.setPhys (h / 8) p 4).setSlotOf h 15).put Obj.HEARTH_STATE hAbsent h).put Obj.TEST_RESULT (fail % 2 ^ 16 * 2 ^ 16 + 3) h

/-- Keys of what a failed test writes. -/
def failedKeys (h : Nat) : List Nat :=
  [Obj.PHYS_STATUS.key (h / 8) 0, Obj.SLOT_MAP.key (h / 8) 0, Obj.PHYSICAL_HEARTH.key h 0, Obj.HEARTH_STATE.key h 0, Obj.TEST_RESULT.key h 0]

theorem Dev.resetTestFails_eq (d : Dev) (v : Vault) (h fail : Nat) :
    d.resetTestFails v h fail = (d.appendDefect v 1 2 (9 * (h / 8) + d.slotOf h) fail).showFailed h (d.slotOf h) fail := rfl

theorem Dev.showFailed_onlyOd (d : Dev) (h p fail : Nat) : d.OnlyOd (d.showFailed h p fail) (failedKeys h) := by
  have hphys : d.OnlyOd (d.setPhys (h / 8) p 4) (failedKeys h) := Dev.put_onlyOd (by simp [failedKeys])
  have hmap : ∀ b : Dev, b.OnlyOd (b.setSlotOf h 15) (failedKeys h) := fun b => by
    unfold Dev.setSlotOf
    extract_lets b1
    have h1 : b.OnlyOd b1 (failedKeys h) := Dev.put_onlyOd (by simp [failedKeys])
    exact h1.trans (Dev.put_onlyOd (by simp [failedKeys]))
  exact ((hphys.trans (hmap _)).trans (Dev.put_onlyOd (by simp [failedKeys]))).trans (Dev.put_onlyOd (by simp [failedKeys]))

theorem Dev.showFailed_shows (d : Dev) (h p fail : Nat) :
    (d.showFailed h p fail).get Obj.HEARTH_STATE h = hAbsent ∧ (d.showFailed h p fail).slotOf h = 15 ∧
    (d.showFailed h p fail).get Obj.TEST_RESULT h = fail % 2 ^ 16 * 2 ^ 16 + 3 ∧ (p < 9 → (d.showFailed h p fail).physOf (h / 8) p = 4) := by
  have hslot : ∀ {o : ObjDef}, o.OfHearth → Obj.SLOT_MAP.key (h / 8) 0 ≠ o.key h 0 ∧ Obj.PHYS_STATUS.key (h / 8) 0 ≠ o.key h 0 := fun {o} ho => by
    obtain ⟨ok, hbase, -, -⟩ := ho
    simp only [ObjDef.key, ok, Obj.SLOT_MAP, Obj.PHYS_STATUS, Kind.stride]
    omega
  have hphysmap : Obj.PHYS_STATUS.key (h / 8) 0 ≠ Obj.SLOT_MAP.key (h / 8) 0 := by
    simp only [ObjDef.key, Obj.SLOT_MAP, Obj.PHYS_STATUS, Kind.stride]
    omega
  refine ⟨?_, ?_, ?_, fun hp => ?_⟩
  · rw [Dev.showFailed, Dev.get_put_ne _ _ (hearthKey_ne (by decide) (by decide) (.inr (.inl (by decide)))), Dev.get_put_self]
    rfl
  · rw [Dev.slotOf, Dev.showFailed, Dev.get_put_ne _ _ (hslot (by decide)).1, Dev.get_put_ne _ _ (hslot (by decide)).1]
    exact Dev.slotOf_setSlotOf _ h 15
  · rw [Dev.showFailed, Dev.get_put_self]
    have hwidth : Obj.TEST_RESULT.bitsOf = 32 := by decide
    rw [hwidth]
    omega
  · rw [Dev.physOf, Dev.showFailed, Dev.get_put_ne _ _ (hslot (by decide)).2, Dev.get_put_ne _ _ (hslot (by decide)).2, Dev.setSlotOf,
      Dev.get_put_ne _ _ (hslot (by decide)).2, Dev.get_put_ne _ _ hphysmap]
    exact Dev.physOf_setPhys d (h / 8) 4 hp

/-- RESET_TEST_DONE of a hearth that is under test. -/
theorem Dev.cmdTestDone_of_mine {d : Dev} {h : Nat} (v : Vault) (fail : Nat)
    (hm : (d.resets.any fun (r : ResetRun) => r.drained && r.testing.contains h && decide (levelOf r.part < 2)) = true) :
    ∃ rs, d.cmdTestDone v h fail = (if fail = 0 then ({ d with resets := rs } : Dev).put Obj.TEST_RESULT 2 h
      else ({ d with resets := rs } : Dev).resetTestFails v h fail).settleResets := ⟨_, if_pos hm⟩

/-- RESET_TEST_DONE. -/
theorem resetTestDone_clauses (s : State) (h : Fin 1024) (fail : Nat) (mine : Bool) (p : Nat) (hp : p = s.dev.slotOf h.val)
    (hmine : mine = (s.dev.resets.any fun (r : ResetRun) => r.drained && r.testing.contains h.val && decide (levelOf r.part < 2))) :
    (mine = false → exec (.resetTestDone h fail) s = .next s) ∧
    (mine = true → fail = 0 →
      ∃ t, exec (.resetTestDone h fail) s = .next t ∧ t.dev.get Obj.TEST_RESULT h.val = 2 ∧ t.dev.hearths = s.dev.hearths ∧ s.KeepsMemory t) ∧
    (mine = true → fail ≠ 0 →
      ∃ t, exec (.resetTestDone h fail) s = .next t ∧ t.dev.get Obj.HEARTH_STATE h.val = hAbsent ∧ t.dev.slotOf h.val = 15 ∧
        t.dev.get Obj.TEST_RESULT h.val = fail % 2 ^ 16 * 2 ^ 16 + 3 ∧ (p < 9 → t.dev.physOf (h.val / 8) p = 4) ∧
        s.DefectQueued t 1 2 (9 * (h.val / 8) + p) fail ∧ t.dev.hearths = s.dev.hearths ∧ s.KeepsMemory t) := by
  subst hmine
  have hexec : exec (.resetTestDone h fail) s = .next { s with dev := s.dev.cmdTestDone s.vault h.val fail } := rfl
  have hevent := fun {o : ObjDef} (ho : o.OfHearth) => hearthKey_not_event ho h.val
  refine ⟨fun hnone => ?_, fun hsome hpass => ⟨_, hexec, ?_⟩, fun hsome hfail => ⟨_, hexec, ?_⟩⟩
  · rw [hexec, Dev.cmdTestDone, if_neg (by rw [hnone]; exact Bool.false_ne_true)]
  · obtain ⟨rs, e⟩ := Dev.cmdTestDone_of_mine s.vault fail hsome
    rw [e, if_pos hpass]
    obtain ⟨hhearths, hhbm, hslow, -, -, hobjs⟩ := (({ s.dev with resets := rs } : Dev).put Obj.TEST_RESULT 2 h.val).settleResets_keeps
    refine ⟨?_, hhearths, hhbm, hslow, rfl, rfl⟩
    rw [hobjs.get (hevent (by decide)), Dev.get_put_self]
    rfl
  · obtain ⟨rs, e⟩ := Dev.cmdTestDone_of_mine s.vault fail hsome
    have hslot : ({ s.dev with resets := rs } : Dev).slotOf h.val = p := hp.symm
    rw [e, if_neg hfail, Dev.resetTestFails_eq, hslot]
    obtain ⟨d, hd⟩ : ∃ d, d = ({ s.dev with resets := rs } : Dev) := ⟨_, rfl⟩
    rw [← hd]
    obtain ⟨khearths, khbm, kslow⟩ := (d.appendDefect_noted s.vault 1 2 (9 * (h.val / 8) + p) fail).keeps
    obtain ⟨a, ha⟩ : ∃ a, a = d.appendDefect s.vault 1 2 (9 * (h.val / 8) + p) fail := ⟨_, rfl⟩
    rw [← ha] at khearths khbm kslow ⊢
    obtain ⟨hstate, hmap, hresult, hphys⟩ := a.showFailed_shows h.val p fail
    have honly := a.showFailed_onlyOd h.val p fail
    generalize a.showFailed h.val p fail = b at *
    obtain ⟨hhearths, hhbm, hslow, hstore, -, hobjs⟩ := b.settleResets_keeps
    have hcluster : ∀ {o : ObjDef}, o.kind = .cluster ∧ 0x14000 ≤ o.base → o.key (h.val / 8) 0 ∉ eventKeys := fun {o} ho hm => by
      have := lt_of_mem_eventKeys hm
      simp only [ObjDef.key, ho.1, Kind.stride] at this
      omega
    have hstatus : Obj.DEFECT_STATUS.key 0 0 ∉ failedKeys h.val := by
      simp [failedKeys, ObjDef.key, Obj.DEFECT_STATUS, Obj.PHYS_STATUS, Obj.SLOT_MAP, Obj.PHYSICAL_HEARTH, Obj.HEARTH_STATE, Obj.TEST_RESULT, Kind.stride]
      omega
    have bstatus : b.get Obj.DEFECT_STATUS = a.get Obj.DEFECT_STATUS := honly.get hstatus
    obtain ⟨⟨_, rfl⟩, -⟩ := honly
    refine ⟨?_, ?_, ?_, fun hp => ?_, ?_, hhearths.trans (khearths.trans ?_), hhbm.trans (khbm.trans ?_), hslow.trans (kslow.trans ?_), rfl, rfl⟩
    · rw [hobjs.get (hevent (by decide)), hstate]
    · rw [Dev.slotOf, hobjs.get (hcluster (by decide))]
      exact hmap
    · rw [hobjs.get (hevent (by decide)), hresult]
    · rw [Dev.physOf, hobjs.get (hcluster (by decide))]
      exact hphys hp
    · refine State.defectQueued_append (d := d) 1 2 _ fail (by rw [hd]) (by rw [hd]; rfl) (by rw [hd]; rfl) ?_ ?_
      · rw [hstore, ← ha]
      · rw [hobjs.get (by decide), bstatus, ← ha]
    · rw [hd]
    · rw [hd]
    · rw [hd]

/-- DEFECT_ADD. -/
theorem defectAdd_clauses (s : State) (v k i : Nat) (hs : s.dev.PilotServes) (hk : k = bits v 63 60) (hi : i = bits v 55 44) :
    ((k = 1 ∧ i < 1152 ∨ k = 2 ∧ i < 128) →
      ∃ t, exec (.defectAdd v) s = .next t ∧ t.dev.reply = ⟨0, 0, []⟩ ∧ s.DefectQueued t k 4 i (bits v 43 32) ∧ t.dev.hearths = s.dev.hearths ∧
        s.KeepsMemory t) ∧
    (¬(k = 1 ∧ i < 1152 ∨ k = 2 ∧ i < 128) → ∃ t, exec (.defectAdd v) s = .next t ∧ s.Refused t 4) := by
  subst hk hi
  have hexec : exec (.defectAdd v) s = .next { s with dev := (s.dev.writeDefectAdd s.vault v).1.answer (s.dev.writeDefectAdd s.vault v).2 } := by
    show s.onDev (fun d => d.gatedPilot fun d => (d.writeDefectAdd s.vault v).1.answer (d.writeDefectAdd s.vault v).2) = _
    rw [State.onDev, Dev.gatedPilot_of_serves hs]
  rw [hexec]
  refine ⟨fun hunit => ⟨_, rfl, ?_⟩, fun hunit => ⟨_, rfl, ?_⟩⟩
  · rw [Dev.writeDefectAdd, if_pos hunit]
    obtain ⟨hhearths, hhbm, hslow⟩ := (s.dev.appendDefect_noted s.vault (bits v 63 60) 4 (bits v 55 44) (bits v 43 32)).keeps
    have hqueued : ∀ t : State, t.dev.store = (s.dev.appendDefect s.vault (bits v 63 60) 4 (bits v 55 44) (bits v 43 32)).store → _ → _ :=
      fun t => State.defectQueued_append (t := t) (bits v 63 60) 4 (bits v 55 44) (bits v 43 32) rfl rfl rfl
    generalize s.dev.appendDefect s.vault (bits v 63 60) 4 (bits v 55 44) (bits v 43 32) = b at *
    exact ⟨rfl, hqueued _ rfl rfl, hhearths, hhbm, hslow, rfl, rfl⟩
  · rw [Dev.writeDefectAdd, if_neg hunit]
    rfl

/-- LANE_DEFECT_RECORD: a lane that is marked and not good is recorded (R404). -/
def Dev.recordLane (d : Dev) (v : Vault) (p : Nat) (rx : Bool) (lane : Nat) : Dev :=
  if bit (if rx then (d.port p).rxGood else (d.port p).txGood) lane || !(d.port p).marked.contains (rx, lane) then d
  else d.appendDefect v 4 5 (p * 16 + (if rx then 8 else 0) + lane) 0

/-- The record of a lane that has failed. -/
theorem laneDefectRecord_clauses (s : State) (p : Fin 16) (rx : Bool) (lane : Fin 8) (good : Nat)
    (hgood : good = (if rx = true then (s.dev.port p.val).rxGood else (s.dev.port p.val).txGood)) :
    (bit good lane.val = true ∨ (rx, lane.val) ∉ (s.dev.port p.val).marked → exec (.laneDefectRecord p rx lane) s = .next s) ∧
    (bit good lane.val = false → (rx, lane.val) ∈ (s.dev.port p.val).marked →
      ∃ t, exec (.laneDefectRecord p rx lane) s = .next t ∧
        s.DefectQueued t 4 5 (p.val * 16 + (if rx = true then 8 else 0) + lane.val) 0 ∧ t.dev.hearths = s.dev.hearths ∧ s.KeepsMemory t) := by
  subst hgood
  have hexec : exec (.laneDefectRecord p rx lane) s = .next { s with dev := s.dev.recordLane s.vault p.val rx lane.val } := rfl
  rw [hexec]
  refine ⟨fun hnone => ?_, fun hbad hmarked => ⟨_, rfl, ?_⟩⟩
  · rw [Dev.recordLane, if_pos (by simpa using hnone)]
  · rw [Dev.recordLane, if_neg (by simpa [hbad] using hmarked)]
    obtain ⟨hhearths, hhbm, hslow⟩ := (s.dev.appendDefect_noted s.vault 4 5 (p.val * 16 + (if rx then 8 else 0) + lane.val) 0).keeps
    exact ⟨State.defectQueued_append _ _ _ _ rfl rfl rfl rfl rfl, hhearths, hhbm, hslow, rfl, rfl⟩

/-- Settles O48: each level of reset by what it clears and awaits, the end of a drain, and what joins the defect list. -/
theorem resetsClearTestAndListDefects : Obligations.ResetsClearTestAndListDefects := by
  unfold Obligations.ResetsClearTestAndListDefects
  intro s
  refine ⟨fun sel0 sel1 => ?_, fun n hs => partitionReset_clauses s n hs, fun cl v hs hw => clusterReset_queued s cl v hs hw,
    fun cl v hs => clusterReset_clauses s cl v hs, fun h v hs ha => hearthReset_absent s h v hs ha, fun h v hs => hearthReset_clauses s h v hs,
    fun part n due hdue => resetDrainTimeout_clauses s part n due hdue, fun h fail mine p hp hmine => resetTestDone_clauses s h fail mine p hp hmine,
    fun v k i hs hk hi => defectAdd_clauses s v k i hs hk hi, fun p rx lane good hgood => laneDefectRecord_clauses s p rx lane good hgood⟩
  obtain ⟨hrestart, hnothing⟩ := resetN_clauses s sel0 sel1
  exact ⟨hrestart, hnothing, wholeReset_clauses s sel0 sel1⟩

end Sys2Proof.Machine
end

section
/-! Fields of words (R7, R68, R85, R87, R92, R139, R158): each reads back from the word in which it stands. A word is a sum of its fields at
their places, each below the next place; a Boolean field is written as its number. -/

namespace Sys2Proof.Machine

/-! ### Bits of a word -/

theorem bits_eq (v hi lo : Nat) : bits v hi lo = v / 2 ^ lo % 2 ^ (hi + 1 - lo) := by
  rw [bits, Nat.shiftRight_eq_div_pow]

theorem bit_eq (v n : Nat) : bit v n = decide (v / 2 ^ n % 2 = 1) := Nat.testBit_eq_decide_div_mod_eq

theorem bits_add (v hi lo n : Nat) : bits v (n + hi) (n + lo) = bits (v / 2 ^ n) hi lo := by
  rw [bits_eq, bits_eq, Nat.div_div_eq_div_mul, ← Nat.pow_add, show n + hi + 1 - (n + lo) = hi + 1 - lo by omega]

theorem bit_add (v k n : Nat) : bit v (n + k) = bit (v / 2 ^ n) k := by
  rw [bit_eq, bit_eq, Nat.div_div_eq_div_mul, ← Nat.pow_add]

/-- A Boolean field in a word. -/
theorem ite_two_pow (b : Bool) (n : Nat) : (if b then 2 ^ n else 0) = b.toNat * 2 ^ n := by cases b <;> simp

theorem decide_of_eq_toNat {b : Bool} {n : Nat} (h : n = b.toNat) : decide (n = 1) = b := by
  subst h
  cases b <;> rfl

theorem ofSigned_lt (n : Nat) (i : Int) : ofSigned n i < 2 ^ n := by
  have h := Int.emod_lt_of_pos i (show (0 : Int) < 2 ^ n by positivity)
  have h0 := Int.emod_nonneg i (show (2 : Int) ^ n ≠ 0 by positivity)
  have hc : ((2 ^ n : Nat) : Int) = 2 ^ n := by simp
  unfold ofSigned
  omega

/-- A signed field reads back where its value fits the bits. -/
theorem toSigned_of_eq {n v : Nat} {i : Int} (hn : 0 < n) (hlo : -2 ^ (n - 1) ≤ i) (hhi : i < 2 ^ (n - 1)) (hv : v = ofSigned n i) :
    toSigned n v = i := by
  subst hv
  have hpow : (2 : Int) ^ n = 2 * 2 ^ (n - 1) := by rw [← pow_succ', Nat.sub_add_cancel hn]
  have hcast : ((2 ^ (n - 1) : Nat) : Int) = 2 ^ (n - 1) := by simp
  rw [toSigned, Nat.mod_eq_of_lt (ofSigned_lt n i)]
  rcases lt_or_ge i 0 with h | h
  · have hval : ofSigned n i = (i + 2 ^ n).toNat := by
      rw [ofSigned, ← Int.add_emod_right, Int.emod_eq_of_lt (by omega) (by omega)]
    rw [if_neg (by omega)]
    omega
  · have hval : ofSigned n i = i.toNat := by rw [ofSigned, Int.emod_eq_of_lt h (by omega)]
    rw [if_pos (by omega)]
    omega

/-! ### Entries of the firing table (R85, R87, R92) -/

theorem Wait.word_lt {w : Wait} (h : w.Fits) : w.word < 2 ^ 25 := by
  obtain ⟨hctr, hsel, hinc, -⟩ := h
  have hen := w.en.toNat_lt
  have hbase := ofSigned_lt 9 w.base
  rw [Wait.word, ite_two_pow]
  omega

/-- A wait condition reads back from any word that holds its 25 bits. -/
theorem Wait.ofWord_of_bits {w : Wait} {v lo : Nat} (h : w.Fits) (hv : bits v (lo + 24) lo = w.word) : Wait.ofWord v lo = w := by
  obtain ⟨hctr, hsel, hinc, hlo, hhi⟩ := h
  have hen := w.en.toNat_lt
  have hlt := ofSigned_lt 9 w.base
  have hword : bits (v / 2 ^ lo) 24 0 = w.word := (bits_add v 24 0 lo).symm.trans hv
  rw [bits_eq, Wait.word, ite_two_pow] at hword
  have hbase : bits v (lo + 8) lo = ofSigned 9 w.base := by
    rw [show bits v (lo + 8) lo = bits (v / 2 ^ lo) 8 0 from bits_add v 8 0 lo, bits_eq]
    omega
  rw [Wait.ofWord, toSigned_of_eq (n := 9) (by decide) hlo hhi hbase, bit_add, bits_add, bits_add, bits_add]
  simp only [bits_eq, bit_eq]
  congr 1
  case e_en => exact decide_of_eq_toNat (by omega)
  all_goals omega

theorem Header.ofWord_word {x : Header} (h : x.Fits) : Header.ofWord x.word = x := by
  obtain ⟨hkind, h0, h1, hctr, hamt⟩ := h
  have hw0 := Wait.word_lt h0
  have hw1 := Wait.word_lt h1
  have hen := x.sigEn.toNat_lt
  unfold Header.ofWord Header.word
  rw [ite_two_pow, Wait.ofWord_of_bits h0, Wait.ofWord_of_bits h1]
  · simp only [bits_eq, bit_eq]
    congr 1
    case e_sigEn => exact decide_of_eq_toNat (by omega)
    all_goals omega
  · rw [bits_eq]
    omega
  · rw [bits_eq]
    omega

theorem AddrField.word_lt {a : AddrField} (h : a.Fits) : a.word < 2 ^ 30 := by
  obtain ⟨hbase, hsel, hwrap, hstride⟩ := h
  unfold AddrField.word
  omega

theorem AddrField.ofWord_word {a : AddrField} (h : a.Fits) : AddrField.ofWord a.word = a := by
  obtain ⟨hbase, hsel, hwrap, hstride⟩ := h
  unfold AddrField.ofWord AddrField.word
  simp only [bits_eq]
  congr 1 <;> omega

theorem AddrField.ofWord_of_eq {a : AddrField} {v : Nat} (h : a.Fits) (hv : v = a.word) : AddrField.ofWord v = a :=
  hv ▸ AddrField.ofWord_word h

theorem GrateBody.ofWord_word {g : GrateBody} (h : g.Fits) : GrateBody.ofWord g.word = g := by
  obtain ⟨ha, hb, hd, hepi, ⟨m, hm, hmRows⟩, ⟨n, hn, hnCols⟩, ⟨k, hk, hkSum⟩, haFmt, hbFmt, hdFmt, haStride, hbStride, hdStride, haTag, hbTag,
    hdTag, hslot, hskip⟩ := h
  have hA := AddrField.word_lt ha
  have hB := AddrField.word_lt hb
  have hD := AddrField.word_lt hd
  have hcol := g.colMajor.toNat_lt
  have hearly := g.sigEarly.toNat_lt
  unfold GrateBody.ofWord GrateBody.word
  simp only [bits_eq, bit_eq, ite_two_pow]
  congr 1
  case e_a => exact AddrField.ofWord_of_eq ha (by omega)
  case e_b => exact AddrField.ofWord_of_eq hb (by omega)
  case e_d => exact AddrField.ofWord_of_eq hd (by omega)
  case e_colMajor => exact decide_of_eq_toNat (by omega)
  case e_sigEarly => exact decide_of_eq_toNat (by omega)
  all_goals omega

/-! ### Stream descriptors and flue settings (R139, R158) -/

theorem Desc.ofWord_word {x : Desc} (h : x.Fits) : Desc.ofWord x.word = x := by
  obtain ⟨hfar, hline, hlines, hrow, hrows, hfarPitch, hlocal, hdir, hmode, hepoch, hadd, hchain⟩ := h
  have hcache := x.cacheable.toNat_lt
  have hhalt := x.faultHalt.toNat_lt
  unfold Desc.ofWord Desc.word
  simp only [bits_eq, bit_eq, ite_two_pow]
  congr 1
  case e_cacheable => exact decide_of_eq_toNat (by omega)
  case e_faultHalt => exact decide_of_eq_toNat (by omega)
  all_goals omega

theorem FlueCfg.ofWord_word {x : FlueCfg} (h : x.Fits) : FlueCfg.ofWord x.word = x := by
  obtain ⟨hctx, hhome, hslot, hslots, hline, hlines, hhandle, hfill, hdrain⟩ := h
  have henable := x.enable.toNat_lt
  have hproxy := x.proxy.toNat_lt
  have hfillEn := x.fillEn.toNat_lt
  have hdrainEn := x.drainEn.toNat_lt
  unfold FlueCfg.ofWord FlueCfg.word
  simp only [bits_eq, bit_eq, ite_two_pow]
  congr 1
  case e_enable => exact decide_of_eq_toNat (by omega)
  case e_proxy => exact decide_of_eq_toNat (by omega)
  case e_fillEn => exact decide_of_eq_toNat (by omega)
  case e_drainEn => exact decide_of_eq_toNat (by omega)
  all_goals omega

/-! ### Scale slots (R68, R78) -/

theorem fit_of_eq_length {α : Type} (d : α) {n : Nat} {l : List α} (h : n = l.length) : fit d n l = l := by
  subst h
  refine List.ext_getElem (by simp [fit]) fun i _ hi => ?_
  simp [fit, hi]

theorem ScaleSlot.ofWord_word {x : ScaleSlot} (h : x.Fits) : ScaleSlot.ofWord x.word x.hist = x := by
  obtain ⟨hmax, hcurLo, hcurHi, hinitLo, hinitHi, hmargin, hhist⟩ := h
  have hcur := ofSigned_lt 8 x.curExp
  have hinit := ofSigned_lt 8 x.initExp
  have hvalid := x.curValid.toNat_lt
  have hused := x.used.toNat_lt
  have hreplayed := x.replayed.toNat_lt
  have hash := x.ashSeen.toNat_lt
  unfold ScaleSlot.ofWord ScaleSlot.word
  simp only [bits_eq, bit_eq, ite_two_pow]
  congr 1
  case e_curExp => exact toSigned_of_eq (by decide) hcurLo hcurHi (by omega)
  case e_initExp => exact toSigned_of_eq (by decide) hinitLo hinitHi (by omega)
  case e_curValid => exact decide_of_eq_toNat (by omega)
  case e_used => exact decide_of_eq_toNat (by omega)
  case e_replayed => exact decide_of_eq_toNat (by omega)
  case e_ashSeen => exact decide_of_eq_toNat (by omega)
  case e_hist =>
    refine fit_of_eq_length 0 (.trans (congrArg (min 16) ?_) (Nat.min_eq_right hhist))
    omega
  all_goals omega

/-! ### Little-endian numbers (R7) -/

theorem leNat_leBytes (n : Nat) : ∀ v, v < 256 ^ n → leNat (leBytes n v) = v := by
  induction n with
  | zero => simp [leBytes, leNat]
  | succ n ih =>
    intro v hv
    have hrest : v / 256 < 256 ^ n := by rw [Nat.pow_succ] at hv; omega
    simp only [leBytes, leNat, BitVec.toNat_ofNat, ih _ hrest]
    omega

theorem leBytes_leNat (bs : List Byte) : leBytes bs.length (leNat bs) = bs := by
  induction bs with
  | nil => rfl
  | cons b bs ih =>
    have hb := b.isLt
    have hfirst : BitVec.ofNat 8 (leNat (b :: bs)) = b := by
      apply BitVec.eq_of_toNat_eq
      simp only [leNat, BitVec.toNat_ofNat]
      omega
    have hrest : leNat (b :: bs) / 256 = leNat bs := by
      simp only [leNat]
      omega
    rw [List.length_cons, leBytes, hfirst, hrest, ih]

/-- Settles O56, word by word: every field stands below the place of the next one. -/
theorem fieldsSurviveTheirWords : Obligations.FieldsSurviveTheirWords :=
  ⟨fun _ => Header.ofWord_word, fun _ => AddrField.ofWord_word, fun _ => GrateBody.ofWord_word, fun _ => Desc.ofWord_word,
    fun _ => FlueCfg.ofWord_word, fun _ => ScaleSlot.ofWord_word, leNat_leBytes, leBytes_leNat⟩

end Sys2Proof.Machine
end

section
/-! Clearing objects, translation caches and snapshots (R80, R127, R170, R217, R234, R244, R270, R313, R314, R322, R332, R333): the objects
of each block, and what a write to its clearing object leaves. -/

namespace Sys2Proof.Machine

/-! ### Accesses that answer -/

theorem State.onDev_next {s : State} {f : Dev → Dev} {d : Dev} (h : f s.dev = d) : s.onDev f = .next { s with dev := d } := by rw [State.onDev, h]

/-- `d` changed in values of objects alone, with an answer. -/
theorem State.onlyObjects_answer {s : State} {d : Dev} {ks : List Nat} (h : s.dev.OnlyOd d ks) (a v : Nat) (bs : List Byte) :
    s.OnlyObjects { s with dev := d.answer a v bs } ks := by
  obtain ⟨⟨od, rfl⟩, hs⟩ := h
  exact ⟨rfl, hs⟩

theorem Dev.onOne_one (d : Dev) (f : Dev → Dev) : d.onOne 1 f = (f d).answer 0 := rfl

/-! ### Blocks of counters -/

/-- The objects at an index of the first block with a first subindex from `lo` to `hi`. -/
def blockObjs (base lo hi : Nat) : List ObjDef :=
  objTable.filter fun o => decide (o.base = base) && decide (lo ≤ o.lo) && decide (o.lo ≤ hi)

theorem mem_blockObjs {base lo hi : Nat} {o : ObjDef} :
    o ∈ blockObjs base lo hi ↔ o ∈ objTable ∧ o.base = base ∧ lo ≤ o.lo ∧ o.lo ≤ hi := by
  simp [blockObjs, and_assoc]

theorem blockKeys_of_block {base lo hi : Nat} {os : List ObjDef} (h : blockObjs base lo hi = os) (i : Nat) :
    blockKeys base lo hi i = os.flatMap fun o => o.keys i := by subst h; rfl

/-- Every object of the list has the reset value 0 in each block. -/
def ZeroReset (os : List ObjDef) : Prop := ∀ o ∈ os, o.reset = .fixed 0

theorem ZeroReset.resetVal {os : List ObjDef} (h : ZeroReset os) (i : Nat) : ∀ o ∈ os, ∀ e, o.resetVal i e = 0 := by
  intro o ho e
  rw [ObjDef.resetVal, h o ho]

/-- A write of 1 to the clearing object of a block. -/
theorem State.cleared_zero (s : State) {base lo hi : Nat} {os : List ObjDef} (hos : blockObjs base lo hi = os) (hz : ZeroReset os) (i : Nat) :
    s.Cleared { s with dev := (s.dev.zero os i).answer 0 } base lo hi i [] := by
  refine ⟨fun o ho hb hlo hhi e he => ?_, rfl, ?_⟩
  · exact Dev.get_zero s.dev (hz.resetVal i) (hos ▸ mem_blockObjs.mpr ⟨ho, hb, hlo, hhi⟩) he
  · rw [List.append_nil, blockKeys_of_block hos]
    exact State.onlyObjects_answer (Dev.zero_spec os i (hz.resetVal i) s.dev).1 ..

theorem arithCounters_block : blockObjs 0x20009 1 0xB = arithCounters ∧ ZeroReset arithCounters := by unfold ZeroReset; decide +kernel
theorem seqCounters_block : blockObjs 0x20013 1 0xA = seqCounters ∧ ZeroReset seqCounters := by unfold ZeroReset; decide +kernel
theorem streamCounters_block : blockObjs 0x2001B 1 7 = streamCounters ∧ ZeroReset streamCounters := by unfold ZeroReset; decide +kernel
theorem idleCounters_block : blockObjs 0x20020 1 7 = idleCounters ∧ ZeroReset idleCounters := by unfold ZeroReset; decide +kernel
theorem hbmCounters_block : blockObjs 0x12002 1 0xA = hbmCounters ∧ ZeroReset hbmCounters := by unfold ZeroReset; decide +kernel
theorem hobCounters_block : blockObjs 0x12008 1 8 = hobCounters ∧ ZeroReset hobCounters := by unfold ZeroReset; decide +kernel
theorem groupCounters_block : blockObjs 0x32004 4 6 = groupCounters ∧ ZeroReset groupCounters := by unfold ZeroReset; decide +kernel
theorem stokerCounters_block : blockObjs 0x31011 1 7 = stokerCounters ∧ ZeroReset stokerCounters := by unfold ZeroReset; decide +kernel
theorem portCounters_block : blockObjs 0x13001 1 0xA = portCounters ∧ ZeroReset portCounters := by unfold ZeroReset; decide +kernel
theorem fabricCounters_block : blockObjs 0x4001 3 6 = fabricCounters ∧ ZeroReset fabricCounters := by unfold ZeroReset; decide +kernel
theorem accountObjs_block : blockObjs 0x30002 1 0xB = accountObjs ∧ ZeroReset accountObjs := by unfold ZeroReset; decide +kernel
theorem accountSums_block : blockObjs 0x30003 1 6 = accountSums ∧ ZeroReset accountSums := by unfold ZeroReset; decide +kernel

/-- Every object's first subindex is 1 or more, as R339 keeps subindex 0. -/
theorem objTable_lo_pos : ∀ o ∈ objTable, 1 ≤ o.lo := by decide +kernel

theorem mem_accountObjs {o : ObjDef} (ho : o ∈ objTable) (hb : o.base = 0x30002) (hhi : o.lo ≤ 0xB) : o ∈ accountObjs := by
  rw [← accountObjs_block.1, mem_blockObjs]
  exact ⟨ho, hb, objTable_lo_pos o ho, hhi⟩

theorem mem_accountSums {o : ObjDef} (ho : o ∈ objTable) (hb : o.base = 0x30003) (hhi : o.lo ≤ 6) : o ∈ accountSums := by
  rw [← accountSums_block.1, mem_blockObjs]
  exact ⟨ho, hb, objTable_lo_pos o ho, hhi⟩

/-- A write to the clearing object of a hearth that is served. -/
theorem Dev.gatedHearth_onOne {d : Dev} {h : Nat} {o : ObjDef} (hs : d.HearthServes h o 0) (f : Dev → Dev) :
    d.gatedHearth h o 0 1 (fun d => d.onOne 1 f) = (f d).answer 0 := by
  rw [Dev.gatedHearth_of_serves hs, Dev.onOne_one]

theorem Dev.gated_onOne {d : Dev} (hs : d.Serves) (f : Dev → Dev) : d.gated (fun d => d.onOne 1 f) = (f d).answer 0 := by
  rw [Dev.gated_of_serves hs, Dev.onOne_one]

/-! ### A write into a region whose clock does not run (R365) -/

/-- A wake-up starts a stopped clock that a request waits for. -/
theorem Dev.wakeRegion_starts {d : Dev} {g : Nat} (hw : d.regionWaits g = true) (h0 : d.get Obj.CLOCK_STATE g = 0) :
    (d.wakeRegion g).get Obj.CLOCK_STATE g = 1 := by
  simp only [Dev.regionWaits, Dev.inService, Bool.and_eq_true, Bool.or_eq_true, decide_eq_true_eq] at hw
  obtain ⟨⟨hserv, htrip⟩, -⟩ := hw
  rw [Dev.wakeRegion, if_pos ⟨h0, hserv, htrip⟩, Dev.get_put_self]
  rfl

/-- A write to an object of a hearth whose region's clock does not run joins the memory-mapped path's queue. -/
theorem State.hearthWrite_queued (s : State) (hs : s.dev.Serves) {h v : Nat} (o : ObjDef) (f : Dev → Dev)
    (ha : s.dev.hearthAbsent h = false) (hw : s.dev.regionWaits (h / 64) = true) :
    ∃ t : State, s.onDev (fun d => d.gatedHearth h o 0 v f) = .next t ∧
      tget [] t.dev.paths 2 = tget [] s.dev.paths 2 ++ [.object .host (o.key h 0 / 256) (o.key h 0 % 256) v] ∧
      (s.dev.get Obj.CLOCK_STATE (h / 64) = 0 → t.dev.get Obj.CLOCK_STATE (h / 64) = 1) ∧
      t = { s with dev := { s.dev with od := t.dev.od, paths := t.dev.paths } } ∧ s.dev.SameObjects t.dev [clockKey h] := by
  have hq : s.dev.gatedHearth h o 0 v f =
      s.dev.queuePath [h / 64] (.object .host (o.key h 0 / 256) (o.key h 0 % 256) v) := by
    simp [Dev.gatedHearth, Dev.gated_of_serves hs, ha, Dev.inRegion, Dev.mustWait, hw]
  obtain ⟨⟨od, hod⟩, hsame⟩ := s.dev.wakeRegion_spec (h / 64)
  have hstart := Dev.wakeRegion_starts hw
  refine ⟨_, rfl, ?_, ?_, ?_, ?_⟩ <;> simp only [hq, Dev.queuePath, List.foldl_cons, List.foldl_nil]
  · rw [show pathNo (PathReq.path (.object .host (o.key h 0 / 256) (o.key h 0 % 256) v)) = 2 from rfl, tget_tset_self, hod]
  · exact hstart
  · rw [hod]
  · exact hsame

/-! ### Translation caches (R322) -/

/-- A cluster router without the translations of a slot. -/
def Cluster.without (c : Nat) (x : Cluster) : Cluster := { x with tlb := x.tlb.filter fun e => e.ctx ≠ c }

theorem Cluster.without_without (c : Nat) (x : Cluster) : (x.without c).without c = x.without c := by
  simp [Cluster.without, List.filter_filter]

theorem Dev.cluster_tlbDrop (d : Dev) (c cl : Nat) : (d.tlbDrop c).cluster cl = (d.cluster cl).without c := by
  have hfold : ∀ (ks : List Nat) (t : Tab Cluster), tget Cluster.fresh (ks.foldl (fun t k => tmod Cluster.fresh t k (Cluster.without c)) t) cl =
      if cl ∈ ks then (tget Cluster.fresh t cl).without c else tget Cluster.fresh t cl := by
    intro ks
    induction ks with
    | nil => simp
    | cons k ks ih =>
      intro t
      rw [List.foldl_cons, ih, tget_tmod]
      by_cases hk : cl = k
      · subst hk
        simp [Cluster.without_without]
      · simp [hk]
  have h := hfold (d.clusters.map (·.1)) d.clusters
  refine h.trans ?_
  split
  · rfl
  · next hm => rw [Dev.cluster, tget_of_not_mem _ hm]; rfl

/-! ### Snapshots (R333) -/

/-- Values put into successive elements of an object, the first into element `n`. -/
theorem Dev.putElems_spec (o : ObjDef) (i : Nat) (vals : List Nat) : ∀ (d : Dev) (n : Nat),
    d.OnlyOd ((vals.zipIdx n).foldl (fun d x => d.put o x.1 i x.2) d) ((List.range' n vals.length).map (o.key i)) ∧
    ∀ e (he : e < vals.length), ((vals.zipIdx n).foldl (fun d x => d.put o x.1 i x.2) d).get o i (n + e) = vals[e] % 2 ^ o.bitsOf := by
  induction vals with
  | nil => exact fun d n => ⟨.same .., by simp⟩
  | cons v vals ih =>
    intro d n
    obtain ⟨honly, hvals⟩ := ih (d.put o v i n) (n + 1)
    rw [List.zipIdx_cons, List.foldl_cons]
    refine ⟨.trans (Dev.put_onlyOd (by simp [List.range'_succ])) (honly.mono (by simp [List.range'_succ])), fun e he => ?_⟩
    cases e with
    | zero =>
      rw [honly.get, Nat.add_zero, Dev.get_put_self, List.getElem_cons_zero]
      simp [ObjDef.key]
    | succ e =>
      have := hvals e (by simpa using he)
      rw [Nat.add_assoc, Nat.add_comm 1 e] at this
      simpa using this

/-- Every account and every sum stands in SNAP at the place its subindex names. -/
theorem accounts_places :
    (∀ o ∈ accountObjs, (accountObjs ++ accountSums)[o.lo - 1]? = some o) ∧ ∀ o ∈ accountSums, (accountObjs ++ accountSums)[o.lo + 10]? = some o := by
  decide +kernel

theorem Dev.snapshot_onlyOd (d : Dev) (c : Nat) : d.OnlyOd (d.snapshot c) (Obj.SNAP.keys c ++ [Obj.SNAP_TICK.key c 0]) := by
  obtain ⟨honly, -⟩ := Dev.putElems_spec Obj.SNAP c ((accountObjs ++ accountSums).map fun o => d.get o c) d 0
  rw [← List.range_eq_range', List.length_map, show (accountObjs ++ accountSums).length = Obj.SNAP.n from rfl] at honly
  exact .trans (honly.mono (List.subset_append_left ..)) (Dev.put_onlyOd (by simp))

theorem Dev.get_tick_snapshot (d : Dev) (c : Nat) : (d.snapshot c).get Obj.SNAP_TICK c = d.tick % 2 ^ 64 := by
  obtain ⟨⟨⟨od, hod⟩, -⟩, -⟩ := Dev.putElems_spec Obj.SNAP c ((accountObjs ++ accountSums).map fun o => d.get o c) d 0
  rw [Dev.snapshot, Dev.get_put_self, hod]
  rfl

/-- The copy of the account or sum at place `e`. -/
theorem Dev.get_snapshot {d : Dev} {c e : Nat} {o : ObjDef} (ho : (accountObjs ++ accountSums)[e]? = some o) (hv : d.get o c < 2 ^ 64) :
    (d.snapshot c).get Obj.SNAP c e = d.get o c := by
  obtain ⟨-, hvals⟩ := Dev.putElems_spec Obj.SNAP c ((accountObjs ++ accountSums).map fun o => d.get o c) d 0
  obtain ⟨he, hget⟩ := List.getElem?_eq_some_iff.mp ho
  have hlt : e < 17 := he
  have hval := hvals e (by simpa using he)
  rw [List.getElem_map, hget, Nat.zero_add] at hval
  rw [Dev.snapshot, Dev.get_put_ne _ _ (by simp [ObjDef.key, Obj.SNAP, Obj.SNAP_TICK]; omega)]
  exact hval.trans (Nat.mod_eq_of_lt hv)

/-! ### The statement -/

/-- Clears of a hearth's counters. -/
theorem State.hearthClears (s : State) (h : Fin 1024) :
    (s.dev.HearthServes h.val Obj.COUNTERS_CLEAR 0 → ∃ t, exec (.countersClear h 1) s = .next t ∧ s.Cleared t 0x20009 1 0xB h.val []) ∧
    (s.dev.HearthServes h.val Obj.SEQ_COUNTERS_CLEAR 0 → ∃ t, exec (.seqCountersClear h 1) s = .next t ∧ s.Cleared t 0x20013 1 0xA h.val []) ∧
    (s.dev.HearthServes h.val Obj.STREAM_COUNTERS_CLEAR 0 →
      ∃ t, exec (.streamCountersClear h 1) s = .next t ∧ s.Cleared t 0x2001B 1 7 h.val []) ∧
    (s.dev.HearthServes h.val Obj.IDLE_COUNTERS_CLEAR 0 →
      ∃ t, exec (.idleCountersClear h 1) s = .next t ∧ s.Cleared t 0x20020 1 7 h.val []) := by
  have clears : ∀ {o : ObjDef} {os : List ObjDef} {base lo hi : Nat}, blockObjs base lo hi = os ∧ ZeroReset os → s.dev.HearthServes h.val o 0 →
      ∃ t, s.onDev (fun d => d.gatedHearth h.val o 0 1 fun d => d.onOne 1 fun d => d.zero os h.val) = .next t ∧
        s.Cleared t base lo hi h.val [] :=
    fun hb hs => ⟨_, State.onDev_next (Dev.gatedHearth_onOne hs _), s.cleared_zero hb.1 hb.2 _⟩
  exact ⟨clears arithCounters_block, clears seqCounters_block, clears streamCounters_block, clears idleCounters_block⟩

/-- Clears of the counters of units whose accesses wait for no clock. -/
theorem State.unitClears (s : State) (hs : s.dev.Serves) :
    (∀ st : Fin 32, (∃ t, exec (.hbmCountersClear st 1) s = .next t ∧ s.Cleared t 0x12002 1 0xA st.val []) ∧
      (∃ t, exec (.hobCountersClear st 1) s = .next t ∧ s.Cleared t 0x12008 1 8 st.val [])) ∧
    (∀ g : Fin 4096, ∃ t, exec (.groupCountersClear g 1) s = .next t ∧ s.Cleared t 0x32004 4 6 g.val []) ∧
    (∀ p : Fin 16, ∃ t, exec (.portCountersClear p 1) s = .next t ∧ s.Cleared t 0x13001 1 0xA p.val []) := by
  have clears : ∀ {os : List ObjDef} {base lo hi : Nat} (i : Nat), blockObjs base lo hi = os ∧ ZeroReset os →
      ∃ t, s.onDev (fun d => d.gated fun d => d.onOne 1 fun d => d.zero os i) = .next t ∧ s.Cleared t base lo hi i [] :=
    fun i hb => ⟨_, State.onDev_next (Dev.gated_onOne hs _), s.cleared_zero hb.1 hb.2 i⟩
  exact ⟨fun st => ⟨clears st.val hbmCounters_block, clears st.val hobCounters_block⟩, fun g => clears g.val groupCounters_block,
    fun p => clears p.val portCounters_block⟩

theorem State.stokerClears (s : State) (hs : s.dev.Serves) (k : Fin 2) (h0 : s.dev.get Obj.STOKER_STATE k.val ≠ 0)
    (h4 : s.dev.get Obj.STOKER_STATE k.val ≠ 4) : ∃ t, exec (.stokerCountersClear k 1) s = .next t ∧ s.Cleared t 0x31011 1 7 k.val [] := by
  have hexec : exec (.stokerCountersClear k 1) s = .next { s with dev := (s.dev.zero stokerCounters k.val).answer 0 } := by
    show s.onDev (fun d => d.gatedStoker k.val fun d => d.onOne 1 fun d => d.zero stokerCounters k.val) = _
    rw [State.onDev, Dev.gatedStoker_of_serves hs h0 h4, Dev.onOne_one]
  exact ⟨_, hexec, s.cleared_zero stokerCounters_block.1 stokerCounters_block.2 _⟩

theorem State.fabricClears (s : State) (hs : s.dev.PilotServes) :
    ∃ t, exec (.fabricCountersClear 1) s = .next t ∧ s.Cleared t 0x4001 3 6 0 [] := by
  have hexec : exec (.fabricCountersClear 1) s = .next { s with dev := (s.dev.zero fabricCounters).answer 0 } := by
    show s.onDev (fun d => d.gatedPilot fun d => d.onOne 1 fun d => d.zero fabricCounters) = _
    rw [State.onDev, Dev.gatedPilot_of_serves hs, Dev.onOne_one]
  exact ⟨_, hexec, s.cleared_zero fabricCounters_block.1 fabricCounters_block.2 _⟩

/-- A slot's accounts and sums are cleared together (R332). -/
theorem State.accountsCleared (s : State) (hs : s.dev.Serves) (c : Fin 16) :
    ∃ t, exec (.accountsClear c 1) s = .next t ∧
      (∀ o ∈ objTable, (o.base = 0x30002 ∧ o.lo ≤ 0xB ∨ o.base = 0x30003 ∧ o.lo ≤ 6) → ∀ e < o.n, t.dev.get o c.val e = 0) ∧
      t.dev.reply = ⟨0, 0, []⟩ ∧ s.OnlyObjects t (blockKeys 0x30002 1 0xB c.val ++ blockKeys 0x30003 1 6 c.val) := by
  have hz : ZeroReset (accountObjs ++ accountSums) := fun o ho =>
    (List.mem_append.mp ho).elim (accountObjs_block.2 o) (accountSums_block.2 o)
  have hmem : ∀ o ∈ objTable, (o.base = 0x30002 ∧ o.lo ≤ 0xB ∨ o.base = 0x30003 ∧ o.lo ≤ 6) → o ∈ accountObjs ++ accountSums := by
    rintro o ho (⟨hb, hhi⟩ | ⟨hb, hhi⟩)
    · exact List.mem_append_left _ (mem_accountObjs ho hb hhi)
    · exact List.mem_append_right _ (mem_accountSums ho hb hhi)
  have hexec : exec (.accountsClear c 1) s = .next { s with dev := (s.dev.zero (accountObjs ++ accountSums) c.val).answer 0 } := by
    show s.onDev (fun d => d.gated fun d => d.onOne 1 fun d => d.zero (accountObjs ++ accountSums) c.val) = _
    rw [State.onDev, Dev.gated_onOne hs]
  refine ⟨_, hexec, fun o ho hb e he => (Dev.get_answer ..).trans (Dev.get_zero s.dev (hz.resetVal c.val) (hmem o ho hb) he), rfl, ?_⟩
  have hkeys : blockKeys 0x30002 1 0xB c.val ++ blockKeys 0x30003 1 6 c.val = (accountObjs ++ accountSums).flatMap fun o => o.keys c.val :=
    (congrArg₂ (· ++ ·) (blockKeys_of_block accountObjs_block.1 _) (blockKeys_of_block accountSums_block.1 _)).trans List.flatMap_append.symm
  rw [hkeys]
  exact State.onlyObjects_answer (Dev.zero_spec _ c.val (hz.resetVal c.val) s.dev).1 ..

/-- TLB_INVALIDATE marks the slot until every cache has dropped its entries (R322). -/
theorem State.tlbInvalidated (s : State) (hs : s.dev.Serves) (c : Fin 16) :
    ∃ t, exec (.tlbInvalidate c 1) s = .next t ∧ t.dev.get Obj.TLB_INVAL_PENDING c.val = 1 ∧ t.dev.reply = ⟨0, 0, []⟩ ∧
      s.OnlyObjects t [Obj.TLB_INVAL_PENDING.key c.val 0] := by
  have hexec : exec (.tlbInvalidate c 1) s = .next { s with dev := (s.dev.put Obj.TLB_INVAL_PENDING 1 c.val).answer 0 } := by
    show s.onDev (fun d => d.gated fun d => d.onOne 1 fun d => d.put Obj.TLB_INVAL_PENDING 1 c.val) = _
    rw [State.onDev, Dev.gated_onOne hs]
  exact ⟨_, hexec, (Dev.get_answer ..).trans (Dev.get_put_self ..), rfl, State.onlyObjects_answer (Dev.put_onlyOd (by simp)) ..⟩

theorem State.tlbDropped (s : State) (c : Fin 16) (hp : s.dev.get Obj.TLB_INVAL_PENDING c.val = 1) :
    ∃ t, exec (.tlbInvalidateDone c) s = .next t ∧ t.dev.get Obj.TLB_INVAL_PENDING c.val = 0 ∧
      (∀ cl, ∀ e ∈ (t.dev.cluster cl).tlb, e.ctx ≠ c.val) ∧
      (∀ cl, ∀ e ∈ (s.dev.cluster cl).tlb, e.ctx ≠ c.val → e ∈ (t.dev.cluster cl).tlb) ∧
      t = { s with dev := { s.dev with od := t.dev.od, clusters := t.dev.clusters } } ∧
      s.dev.SameObjects t.dev [Obj.TLB_INVAL_PENDING.key c.val 0] := by
  have hexec : exec (.tlbInvalidateDone c) s =
      .next { s with dev := (s.dev.tlbDrop c.val).put Obj.TLB_INVAL_PENDING 0 c.val } := by
    show s.onDev (fun d => d.cmdTlbDone c.val) = _
    rw [State.onDev, Dev.cmdTlbDone, if_pos hp]
  refine ⟨_, hexec, Dev.get_put_self .., fun cl e he => ?_, fun cl e he hne => ?_, rfl, ?_⟩
  · rw [Dev.cluster_put, Dev.cluster_tlbDrop] at he
    simpa using (List.mem_filter.mp he).2
  · rw [Dev.cluster_put, Dev.cluster_tlbDrop]
    exact List.mem_filter.mpr ⟨he, by simpa using hne⟩
  · exact (Dev.put_onlyOd (d := s.dev.tlbDrop c.val) (by simp)).2

/-- ACCOUNTS_SNAPSHOT copies each account and sum, with the tick (R333). -/
theorem State.accountsCopied (s : State) (hs : s.dev.Serves) (c : Fin 16) :
    ∃ t, exec (.accountsSnapshot c 1) s = .next t ∧
      (∀ o ∈ objTable, o.base = 0x30002 → o.lo ≤ 0xB → s.dev.get o c.val < 2 ^ 64 → t.dev.get Obj.SNAP c.val (o.lo - 1) = s.dev.get o c.val) ∧
      (∀ o ∈ objTable, o.base = 0x30003 → o.lo ≤ 6 → s.dev.get o c.val < 2 ^ 64 → t.dev.get Obj.SNAP c.val (o.lo + 10) = s.dev.get o c.val) ∧
      t.dev.get Obj.SNAP_TICK c.val = s.dev.tick % 2 ^ 64 ∧ t.dev.reply = ⟨0, 0, []⟩ ∧
      s.OnlyObjects t (Obj.SNAP.keys c.val ++ [Obj.SNAP_TICK.key c.val 0]) := by
  have hexec : exec (.accountsSnapshot c 1) s = .next { s with dev := (s.dev.snapshot c.val).answer 0 } := by
    show s.onDev (fun d => d.gated fun d => d.onOne 1 fun d => d.snapshot c.val) = _
    rw [State.onDev, Dev.gated_onOne hs]
  refine ⟨_, hexec, fun o ho hb hhi hv => ?_, fun o ho hb hhi hv => ?_, (Dev.get_answer ..).trans (Dev.get_tick_snapshot s.dev c.val), rfl,
    State.onlyObjects_answer (Dev.snapshot_onlyOd ..) ..⟩
  · exact (Dev.get_answer ..).trans (Dev.get_snapshot (accounts_places.1 o (mem_accountObjs ho hb hhi)) hv)
  · exact (Dev.get_answer ..).trans (Dev.get_snapshot (accounts_places.2 o (mem_accountSums ho hb hhi)) hv)

/-- Settles O1: each clearing object names its block's counters, and a drop of translations filters every cluster's entries by their slot. -/
theorem countersClearCachesDropAndAccountsCopy : Obligations.CountersClearCachesDropAndAccountsCopy := by
  refine ⟨fun s hs => ?_, fun s c => ⟨fun hs => s.tlbInvalidated hs c, s.tlbDropped c, fun hs => s.accountsCopied hs c⟩⟩
  obtain ⟨hstack, hgroup, hport⟩ := s.unitClears hs
  refine ⟨fun h => ?_, hstack, hgroup, s.stokerClears hs, hport, fun hp => s.fabricClears ⟨hs, hp⟩, s.accountsCleared hs⟩
  obtain ⟨harith, hseq, hstream, hidle⟩ := s.hearthClears h
  exact ⟨harith, hseq, hstream, hidle, fun v ha hw => s.hearthWrite_queued hs Obj.COUNTERS_CLEAR _ ha hw⟩

end Sys2Proof.Machine
end

section
/-! Group settings and seeds (R60, R244, R246, R247, R268): what a write to GROUP_CTL, to GROUP_STATUS and to a seed leaves. -/

namespace Sys2Proof.Machine

/-! ### Fields replaced in a word -/

/-- A word with a field replaced, by its parts above the field, the field and its part below. -/
theorem setBits_eq {hi lo : Nat} (h : lo ≤ hi + 1) (v x : Nat) :
    setBits v hi lo x = 2 ^ lo * (2 ^ (hi + 1 - lo) * (v / 2 ^ (hi + 1)) + x % 2 ^ (hi + 1 - lo)) + v % 2 ^ lo := by
  have hpow : 2 ^ (hi + 1) = 2 ^ lo * 2 ^ (hi + 1 - lo) := by rw [← Nat.pow_add, Nat.add_sub_cancel' h]
  have hlow := Nat.div_add_mod v (2 ^ lo)
  have hmid := Nat.div_add_mod (v / 2 ^ lo) (2 ^ (hi + 1 - lo))
  rw [Nat.div_div_eq_div_mul, ← hpow] at hmid
  have hsplit : v = 2 ^ lo * (2 ^ (hi + 1 - lo) * (v / 2 ^ (hi + 1))) + v / 2 ^ lo % 2 ^ (hi + 1 - lo) * 2 ^ lo + v % 2 ^ lo := by
    rw [Nat.mul_comm _ (2 ^ lo), ← Nat.mul_add, hmid, hlow]
  rw [setBits, bits_eq, Nat.shiftLeft_eq, Nat.shiftLeft_eq, Nat.mul_add, Nat.mul_comm (2 ^ lo) (x % _)]
  omega

/-- A bit of a word with a field replaced. -/
theorem bit_setBits {hi lo : Nat} (h : lo ≤ hi + 1) (v x m : Nat) :
    bit (setBits v hi lo x) m = if lo ≤ m ∧ m ≤ hi then bit x (m - lo) else bit v m := by
  have hlow : v % 2 ^ lo < 2 ^ lo := Nat.mod_lt _ (Nat.two_pow_pos lo)
  have hx : x % 2 ^ (hi + 1 - lo) < 2 ^ (hi + 1 - lo) := Nat.mod_lt _ (Nat.two_pow_pos _)
  simp only [bit]
  rw [setBits_eq h, Nat.testBit_two_pow_mul_add _ hlow, Nat.testBit_two_pow_mul_add _ hx]
  rcases Nat.lt_or_ge m lo with hm | hm
  · simp [hm, Nat.testBit_mod_two_pow]
  · by_cases hle : m ≤ hi
    · simp [Nat.not_lt.mpr hm, hm, hle, show m - lo < hi + 1 - lo by omega, Nat.testBit_mod_two_pow]
    · simp [Nat.not_lt.mpr hm, hle, show ¬ m - lo < hi + 1 - lo by omega, Nat.testBit_div_two_pow,
        show m - lo - (hi + 1 - lo) + (hi + 1) = m by omega]

/-- A field is the bits that stand in it. -/
theorem bits_congr {v w hi lo : Nat} (h : ∀ m, lo ≤ m → m ≤ hi → bit v m = bit w m) : bits v hi lo = bits w hi lo := by
  refine Nat.eq_of_testBit_eq fun i => ?_
  rw [bits, bits, Nat.testBit_mod_two_pow, Nat.testBit_mod_two_pow, Nat.testBit_shiftRight, Nat.testBit_shiftRight]
  by_cases hi' : i < hi + 1 - lo
  · simp only [hi', decide_true, Bool.true_and]
    exact h (lo + i) (by omega) (by omega)
  · simp [hi']

/-! ### GROUP_STATUS (R246) -/

/-- A bit of GROUP_STATUS that the write names is cleared. -/
def Dev.clearStatus (v g : Nat) (d : Dev) (b : Nat) : Dev := if bit v b then d.putBit Obj.GROUP_STATUS b false g else d

theorem Dev.clearStatus_onlyOd (v g : Nat) (d : Dev) (b : Nat) : d.OnlyOd (d.clearStatus v g b) [Obj.GROUP_STATUS.key g 0] := by
  unfold Dev.clearStatus
  split
  · exact Dev.put_onlyOd (by simp)
  · exact .same ..

theorem Dev.bit_clearStatus (v g : Nat) (d : Dev) (b : Nat) {m : Nat} (hm : m < 32) :
    (d.clearStatus v g b).groupBit g m = (d.groupBit g m && !(decide (m = b) && bit v m)) := by
  unfold Dev.clearStatus Dev.groupBit
  by_cases hb : bit v b = true
  · rw [if_pos hb, Dev.bit_get_putBit _ _ _ _ _ _ hm]
    by_cases hmb : m = b
    · subst hmb
      simp [hb]
    · simp [hmb]
  · rw [if_neg hb]
    by_cases hmb : m = b
    · subst hmb
      simp [hb]
    · simp [hmb]

/-- The bits that a write names among the first `n` are cleared, the others stay. -/
theorem Dev.bit_clearStatuses (v g : Nat) (d : Dev) (n : Nat) {m : Nat} (hm : m < 32) :
    ((List.range n).foldl (Dev.clearStatus v g) d).groupBit g m = (d.groupBit g m && !(decide (m < n) && bit v m)) := by
  induction n with
  | zero => simp
  | succ n ih =>
    rw [List.range_succ, List.foldl_append, List.foldl_cons, List.foldl_nil, Dev.bit_clearStatus v g _ n hm, ih]
    rcases Nat.lt_trichotomy m n with h | h | h
    · simp [h, Nat.lt_succ_of_lt h, Nat.ne_of_lt h]
    · simp [h]
    · simp [Nat.not_lt.mpr (Nat.le_of_lt h), Nat.ne_of_gt h, show ¬ m < n + 1 by omega]

/-- The objects after a write to GROUP_STATUS: the bits named cleared, and with FALLBACK the count of failures zeroed. -/
def Dev.statusCleared (d : Dev) (g v : Nat) : Dev :=
  let d := (List.range 3).foldl (Dev.clearStatus v g) d
  if bit v 1 then d.setFails g 0 else d

theorem Dev.statusCleared_onlyOd (d : Dev) (g v : Nat) : d.OnlyOd (d.statusCleared g v) [Obj.GROUP_STATUS.key g 0] := by
  have hclear : d.OnlyOd ((List.range 3).foldl (Dev.clearStatus v g) d) [Obj.GROUP_STATUS.key g 0] :=
    List.foldlRecOn (motive := fun d' : Dev => d.OnlyOd d' [Obj.GROUP_STATUS.key g 0]) _ _ (.same ..)
      fun d' h b _ => h.trans (Dev.clearStatus_onlyOd v g d' b)
  unfold Dev.statusCleared
  split
  · exact hclear.trans (Dev.put_onlyOd (by simp))
  · exact hclear

theorem Dev.bit_statusCleared (d : Dev) (g v : Nat) {m : Nat} (hm : m < 32) :
    (d.statusCleared g v).groupBit g m =
      if bit v 1 = true ∧ 8 ≤ m ∧ m ≤ 15 then false else (d.groupBit g m && !(decide (m < 3) && bit v m)) := by
  have hbits := Dev.bit_clearStatuses v g d 3 hm
  unfold Dev.statusCleared
  by_cases hv : bit v 1 = true
  · rw [if_pos hv]
    simp only [hv, true_and]
    rw [Dev.groupBit, Dev.setFails, Dev.get_put_self, bit, Nat.testBit_mod_two_pow, show decide (m < Obj.GROUP_STATUS.bitsOf) = true from
      decide_eq_true hm, Bool.true_and, ← bit, bit_setBits (by decide)]
    split
    · simp [bit]
    · exact hbits
  · simp only [hv, Bool.false_eq_true, if_false, false_and]
    exact hbits

theorem Dev.consecFails_statusCleared (d : Dev) (g v : Nat) :
    (d.statusCleared g v).consecFails g = if bit v 1 then 0 else d.consecFails g := by
  unfold Dev.consecFails
  split
  · next hv =>
    refine .trans (bits_congr (w := 0) fun m hlo hhi => ?_) (by decide)
    exact (Dev.bit_statusCleared d g v (by omega)).trans (by rw [if_pos ⟨hv, hlo, hhi⟩]; simp [bit])
  · next hv =>
    refine bits_congr fun m hlo hhi => ?_
    exact (Dev.bit_statusCleared d g v (by omega)).trans (by simp [hv, show ¬ m < 3 by omega, Dev.groupBit])

/-- A root step is forced for group `g` at the Stoker's next update (R246). -/
def Stoker.force (g : Nat) (x : Stoker) : Stoker := { x with forced := if x.forced.contains g then x.forced else x.forced ++ [g] }

theorem Stoker.mem_force {g x : Nat} {k : Stoker} : x ∈ (k.force g).forced ↔ x ∈ k.forced ∨ x = g := by
  unfold Stoker.force
  by_cases h : k.forced.contains g = true
  · rw [if_pos h]
    exact ⟨.inl, fun hx => hx.elim id fun he => he ▸ List.contains_iff_mem.mp h⟩
  · rw [if_neg h]
    simp

theorem Dev.writeGroupStatus_eq {d : Dev} {g v : Nat} (h : d.groupBit g 4 = false) :
    d.writeGroupStatus g v =
      (if bit v 1 then (d.statusCleared g v).modStoker (g / 2048) (Stoker.force g) else d.statusCleared g v, 0) := by
  rw [Dev.writeGroupStatus, if_neg (by simp [h])]
  unfold Dev.statusCleared
  split <;> rfl

/-- A write to the GROUP_STATUS of a group that is not running. -/
theorem State.groupStatusWritten (s : State) (hs : s.dev.Serves) (g : Fin 4096) (v : Nat) (h4 : s.dev.groupBit g.val 4 = false) :
    ∃ t, exec (.groupStatusWrite g v) s = .next t ∧
      (∀ b < 3, t.dev.groupBit g.val b = (s.dev.groupBit g.val b && !bit v b)) ∧ t.dev.groupBit g.val 3 = s.dev.groupBit g.val 3 ∧
      t.dev.consecFails g.val = (if bit v 1 then 0 else s.dev.consecFails g.val) ∧
      (∀ x, x ∈ (t.dev.stoker (g.val / 2048)).forced ↔ x ∈ (s.dev.stoker (g.val / 2048)).forced ∨ (bit v 1 = true ∧ x = g.val)) ∧
      t.dev.reply = ⟨0, 0, []⟩ ∧ s.OnlyStoker t (g.val / 2048) [Obj.GROUP_STATUS.key g.val 0] := by
  have hexec : exec (.groupStatusWrite g v) s = .next { s with
      dev := (if bit v 1 then (s.dev.statusCleared g.val v).modStoker (g.val / 2048) (Stoker.force g.val) else s.dev.statusCleared g.val v).answer 0 } := by
    show s.onDev (fun d => d.gated fun d => (d.writeGroupStatus g.val v).1.answer (d.writeGroupStatus g.val v).2) = _
    rw [State.onDev, Dev.gated_of_serves hs, Dev.writeGroupStatus_eq h4]
  have hbit : ∀ m < 8, (s.dev.statusCleared g.val v).groupBit g.val m = (s.dev.groupBit g.val m && !(decide (m < 3) && bit v m)) := by
    intro m hm
    rw [Dev.bit_statusCleared _ _ _ (by omega), if_neg (by omega)]
  have hfails := Dev.consecFails_statusCleared s.dev g.val v
  obtain ⟨⟨od, hod⟩, hsame⟩ := s.dev.statusCleared_onlyOd g.val v
  have hstoker : ∀ k, (s.dev.statusCleared g.val v).stoker k = s.dev.stoker k := by
    intro k
    rw [hod]
    rfl
  rw [hexec]
  generalize s.dev.statusCleared g.val v = d at *
  have hrest : (∀ b < 3, d.groupBit g.val b = (s.dev.groupBit g.val b && !bit v b)) ∧ d.groupBit g.val 3 = s.dev.groupBit g.val 3 :=
    ⟨fun b hb => by simp [hbit b (by omega), hb], by simp [hbit 3 (by decide)]⟩
  by_cases hv : bit v 1 = true
  · rw [if_pos hv]
    refine ⟨_, rfl, hrest.1, hrest.2, hfails, fun x => ?_, rfl, ?_, hsame, fun k hk => ?_⟩
    · rw [Dev.stoker_answer, Dev.modStoker, Dev.stoker_setStoker_self, Stoker.mem_force, hstoker]
      simp [hv]
    · rw [hod]
      rfl
    · rw [Dev.stoker_answer, Dev.modStoker, Dev.stoker_setStoker_ne _ hk, hstoker]
  · rw [if_neg hv]
    refine ⟨_, rfl, hrest.1, hrest.2, hfails, fun x => ?_, rfl, ?_, hsame, fun k hk => hstoker k⟩
    · rw [Dev.stoker_answer, hstoker]
      simp [hv]
    · rw [hod]
      rfl

/-! ### GROUP_CTL (R244, R247) -/

/-- What a write to GROUP_CTL of an idle group does, by what it asks for. -/
theorem Dev.writeGroupCtl_idle {d : Dev} {g v w : Nat} (hw : w = v / 2 ^ 46 * 2 ^ 46) (hi : d.groupIdle g = true) :
    (bit w 63 = false ∨ d.groupLegal (d.gcfgOf g w) = true ∧ d.groupClash (d.gcfgOf g w) = none →
      d.writeGroupCtl g v = (d.put Obj.GROUP_CTL w g, 0)) ∧
    (bit w 63 = true → d.groupLegal (d.gcfgOf g w) = false → d.writeGroupCtl g v = (d, 4)) ∧
    (bit w 63 = true → d.groupLegal (d.gcfgOf g w) = true → ∀ o, d.groupClash (d.gcfgOf g w) = some o →
      d.writeGroupCtl g v = (d.raise Event.groupOverlap .group g none o, 4)) := by
  have heq : d.writeGroupCtl g v = if !bit w 63 then (d.put Obj.GROUP_CTL w g, 0) else if !d.groupLegal (d.gcfgOf g w) then (d, 4)
      else match d.groupClash (d.gcfgOf g w) with
        | some o => (d.raise Event.groupOverlap .group g none o, 4)
        | none => (d.put Obj.GROUP_CTL w g, 0) := by
    rw [Dev.writeGroupCtl, if_neg (by simp [hi]), hw] <;> rfl
  clear hw
  refine ⟨?_, fun hen hl => ?_, fun hen hl o ho => ?_⟩
  · rintro (hen | ⟨hl, hc⟩)
    · simp [heq, hen]
    · simp [heq, hl, hc]
  · simp [heq, hen, hl]
  · simp [heq, hen, hl, ho]

theorem State.groupEnabled (s : State) (hs : s.dev.Serves) (g : Fin 4096) (v w : Nat) (hw : w = v % 2 ^ 64 / 2 ^ 46 * 2 ^ 46) :
    (s.dev.groupIdle g.val = false → ∃ t, exec (.groupEnable g v) s = .next t ∧ t.dev.reply = ⟨3, 0, []⟩ ∧ s.OnlyObjects t []) ∧
    (s.dev.groupIdle g.val = true →
      (bit w 63 = false ∨ s.dev.groupLegal (s.dev.gcfgOf g.val w) = true ∧ s.dev.groupClash (s.dev.gcfgOf g.val w) = none) →
      ∃ t, exec (.groupEnable g v) s = .next t ∧ t.dev.get Obj.GROUP_CTL g.val = w ∧ t.dev.reply = ⟨0, 0, []⟩ ∧
        s.OnlyObjects t [Obj.GROUP_CTL.key g.val 0]) ∧
    (s.dev.groupIdle g.val = true → bit w 63 = true → s.dev.groupLegal (s.dev.gcfgOf g.val w) = false →
      ∃ t, exec (.groupEnable g v) s = .next t ∧ t.dev.reply = ⟨4, 0, []⟩ ∧ s.OnlyObjects t []) ∧
    (s.dev.groupIdle g.val = true → bit w 63 = true → s.dev.groupLegal (s.dev.gcfgOf g.val w) = true →
      (s.dev.groupClash (s.dev.gcfgOf g.val w)).isSome →
      ∃ t, exec (.groupEnable g v) s = .next t ∧ t.dev.reply = ⟨4, 0, []⟩ ∧ t.dev.get Obj.GROUP_CTL g.val = s.dev.get Obj.GROUP_CTL g.val ∧
        s.KeepsMemory t ∧ s.KeepsUnits t) := by
  have hexec : exec (.groupEnable g v) s = .next { s with
      dev := (s.dev.writeGroupCtl g.val (v % 2 ^ 64)).1.answer (s.dev.writeGroupCtl g.val (v % 2 ^ 64)).2 } := by
    show s.onDev (fun d => d.gated fun d => (d.writeGroupCtl g.val (v % 2 ^ 64)).1.answer (d.writeGroupCtl g.val (v % 2 ^ 64)).2) = _
    rw [State.onDev, Dev.gated_of_serves hs]
  have hlt : w < 2 ^ 64 := by omega
  rw [hexec]
  refine ⟨fun hi => ?_, fun hi h => ?_, fun hi hen hl => ?_, fun hi hen hl hc => ?_⟩
  · rw [show s.dev.writeGroupCtl g.val (v % 2 ^ 64) = (s.dev, 3) by simp [Dev.writeGroupCtl, hi]]
    exact ⟨_, rfl, rfl, State.onlyObjects_answer (.same ..) ..⟩
  · rw [(Dev.writeGroupCtl_idle hw hi).1 h]
    refine ⟨_, rfl, ?_, rfl, State.onlyObjects_answer (Dev.put_onlyOd (by simp)) ..⟩
    rw [Dev.get_answer, Dev.get_put_self]
    exact Nat.mod_eq_of_lt hlt
  · rw [(Dev.writeGroupCtl_idle hw hi).2.1 hen hl]
    exact ⟨_, rfl, rfl, State.onlyObjects_answer (.same ..) ..⟩
  · obtain ⟨o, ho⟩ := Option.isSome_iff_exists.mp hc
    rw [(Dev.writeGroupCtl_idle hw hi).2.2 hen hl o ho]
    refine ⟨_, rfl, rfl, ?_, ?_, ?_⟩
    · rw [Dev.get_answer]
      refine Dev.get_raise _ _ _ _ _ _ _ fun hm => ?_
      have := lt_of_mem_eventKeys hm
      simp [ObjDef.key, Obj.GROUP_CTL, Kind.stride] at this
      omega
    · exact ⟨Dev.hbm_raise .., Dev.slow_raise .., rfl, rfl⟩
    · exact ⟨Dev.hearths_raise .., Dev.clusters_raise .., Dev.flues_raise .., Dev.ports_raise .., Dev.ctxs_raise .., rfl, rfl⟩

/-! ### Seeds (R60, R268) -/

theorem State.stokerSeedWritten (s : State) (hs : s.dev.Serves) (k : Fin 2) (v : Nat) (h0 : s.dev.get Obj.STOKER_STATE k.val ≠ 0)
    (h4 : s.dev.get Obj.STOKER_STATE k.val ≠ 4) :
    ∃ t, exec (.stokerSrSeedWrite k v) s = .next t ∧ t.dev.get Obj.STOKER_SR_SEED k.val = v % 2 ^ Obj.STOKER_SR_SEED.bitsOf ∧
      t.dev.stoker k.val = { s.dev.stoker k.val with srDraws := 0 } ∧ t.dev.reply = ⟨0, 0, []⟩ ∧
      s.OnlyStoker t k.val [Obj.STOKER_SR_SEED.key k.val 0] := by
  have hexec : exec (.stokerSrSeedWrite k v) s = .next { s with dev := (s.dev.writeStokerSeed k.val v).answer 0 } := by
    show s.onDev (fun d => d.gatedStoker k.val fun d => (d.writeStokerSeed k.val v).answer 0) = _
    rw [State.onDev, Dev.gatedStoker_of_serves hs h0 h4]
  exact ⟨_, hexec, Dev.get_put_self s.dev .., Dev.stoker_setStoker_self .., rfl, rfl,
    (Dev.put_onlyOd (o := Obj.STOKER_SR_SEED) (by simp)).2, fun j hj => Dev.stoker_setStoker_ne _ hj _⟩

theorem State.hearthSeedWritten (s : State) (h : Fin 1024) (v : Nat) (hs : s.dev.HearthServes h.val Obj.HEARTH_SR_SEED 0) :
    ∃ t, exec (.hearthSrSeedWrite h v) s = .next t ∧ t.dev.get Obj.HEARTH_SR_SEED h.val = v % 2 ^ Obj.HEARTH_SR_SEED.bitsOf ∧
      t.dev.hearth h.val = { s.dev.hearth h.val with srDraws := 0 } ∧ (∀ j, j ≠ h.val → t.dev.hearth j = s.dev.hearth j) ∧
      t = { s with dev := { s.dev with od := t.dev.od, hearths := t.dev.hearths, reply := t.dev.reply } } ∧
      s.dev.SameObjects t.dev [Obj.HEARTH_SR_SEED.key h.val 0] ∧ t.dev.reply = ⟨0, 0, []⟩ := by
  have hexec : exec (.hearthSrSeedWrite h v) s = .next { s with dev := (s.dev.writeHearthSeed h.val v).answer 0 } := by
    show s.onDev (fun d => d.gatedHearth h.val Obj.HEARTH_SR_SEED 0 v fun d => (d.writeHearthSeed h.val v).answer 0) = _
    rw [State.onDev, Dev.gatedHearth_of_serves hs]
  exact ⟨_, hexec, Dev.get_put_self s.dev .., Dev.hearth_setHearth_self .., fun j hj => Dev.hearth_setHearth_ne _ hj _, rfl,
    (Dev.put_onlyOd (o := Obj.HEARTH_SR_SEED) (by simp)).2, rfl⟩

/-- Settles O26: a write to GROUP_CTL by what it asks for, one to GROUP_STATUS bit by bit, and the seeds. -/
theorem groupCtlEnablesAndStatusClears : Obligations.GroupCtlEnablesAndStatusClears := by
  refine fun s hs => ⟨fun g v w hw => s.groupEnabled hs g v w hw, fun g v => ⟨fun h4 => ?_, fun h4 => s.groupStatusWritten hs g v h4⟩,
    fun k v h0 h4 => s.stokerSeedWritten hs k v h0 h4, fun h v hh => s.hearthSeedWritten h v hh⟩
  have hexec : exec (.groupStatusWrite g v) s = .next { s with dev := s.dev.answer 3 } := by
    show s.onDev (fun d => d.gated fun d => (d.writeGroupStatus g.val v).1.answer (d.writeGroupStatus g.val v).2) = _
    rw [State.onDev, Dev.gated_of_serves hs, Dev.writeGroupStatus, if_pos h4]
  exact ⟨_, hexec, rfl, State.onlyObjects_answer (.same ..) ..⟩

end Sys2Proof.Machine
end

section
/-! Bytes and marks of a scratchpad (R12, R61): what each write of a run of bytes or of a line leaves at every byte and at every line. -/

namespace Sys2Proof.Machine

/-! ### Runs of cells -/

theorem tget_writeCells (bs : List Byte) : ∀ (m : Tab Byte) (a k : Nat),
    tget 0 (writeCells 0 m a bs) k = if a ≤ k ∧ k < a + bs.length then bs.getD (k - a) 0 else tget 0 m k := by
  induction bs with
  | nil =>
    intro m a k
    rw [if_neg (by simp)]
    rfl
  | cons b bs ih =>
    intro m a k
    rw [writeCells, ih, tget_tset]
    rcases Nat.lt_trichotomy k a with h | rfl | h
    · simp [Nat.not_le.mpr h, Nat.ne_of_lt h, show ¬ a + 1 ≤ k by omega]
    · simp
    · obtain ⟨j, rfl⟩ := Nat.exists_eq_add_of_lt h
      simp [show a + j + 1 - (a + 1) = j by omega, show a + j + 1 - a = j + 1 by omega, show a + j + 1 < a + 1 + bs.length ↔ j < bs.length by omega,
        show a + j + 1 < a + (bs.length + 1) ↔ j < bs.length by omega, show a + 1 ≤ a + j + 1 by omega, show a ≤ a + j + 1 by omega,
        show a + j + 1 ≠ a by omega]

/-- The cells of a scratchpad with a run of bytes written from `a`. -/
def putRun (m : Tab Byte) (a : Nat) (bs : List Byte) : Tab Byte :=
  (bs.zipIdx).foldl (fun m b => tset 0 m ((a + b.2) % scrBytes) b.1) m

/-- A run that ends within the scratchpad is written cell by cell. -/
theorem putRun_eq_writeCells {a : Nat} {bs : List Byte} (h : a + bs.length ≤ scrBytes) (m : Tab Byte) : putRun m a bs = writeCells 0 m a bs := by
  have hfold : ∀ (bs : List Byte) (m : Tab Byte) (n : Nat), a + n + bs.length ≤ scrBytes →
      (bs.zipIdx n).foldl (fun m b => tset 0 m ((a + b.2) % scrBytes) b.1) m = writeCells 0 m (a + n) bs := by
    intro bs
    induction bs with
    | nil => exact fun m n _ => rfl
    | cons b bs ih =>
      intro m n hn
      rw [List.length_cons] at hn
      rw [List.zipIdx_cons, List.foldl_cons, ih _ _ (by omega), Nat.mod_eq_of_lt (by omega)]
      rfl
  exact hfold bs m 0 h

/-! ### Bytes of a hearth -/

section
variable (x : Hearth)

theorem Hearth.byte_of_lt {a : Nat} (h : a < scrBytes) : x.byte a = tget 0 x.scr a := by rw [Hearth.byte, Nat.mod_eq_of_lt h]

/-- A byte after a run has been written into the cells. -/
theorem Hearth.byte_putRun {y : Hearth} {off k : Nat} {bs : List Byte} (hscr : y.scr = putRun x.scr off bs) (h : off + bs.length ≤ scrBytes)
    (hk : k < scrBytes) : y.byte k = if off ≤ k ∧ k < off + bs.length then bs.getD (k - off) 0 else x.byte k := by
  rw [Hearth.byte_of_lt y hk, Hearth.byte_of_lt x hk, hscr, putRun_eq_writeCells h, tget_writeCells]

/-- Line marks after some lines have been marked. -/
theorem tget_foldl_mark (ls : List Nat) (t : Tab Bool) (k : Nat) :
    tget false (ls.foldl (fun m l => tset false m l true) t) k = (decide (k ∈ ls) || tget false t k) := by
  induction ls generalizing t with
  | nil => simp
  | cons l ls ih =>
    rw [List.foldl_cons, ih, tget_tset]
    by_cases h : k = l
    · simp [h]
    · simp [h]

/-- A part written within the scratchpad marks no line that it does not touch. -/
theorem Hearth.ash_setPart_of_outside {off l : Nat} {bs : List Byte} (h : off + bs.length ≤ scrBytes)
    (hl : l < off / 64 ∨ (off + bs.length - 1) / 64 < l) (ash : Bool) : tget false (x.setPart off bs ash).ash l = tget false x.ash l := by
  cases ash with
  | false => rfl
  | true =>
    rw [Hearth.setPart, if_pos rfl, tget_foldl_mark]
    split
    · simp
    · have hne : l ∉ (List.range ((off + bs.length - 1) / 64 + 1 - off / 64)).map fun i => (off / 64 + i) % 32768 := by
        simp only [List.mem_map, List.mem_range, not_exists, not_and]
        intro i hi
        rw [Nat.mod_eq_of_lt (by unfold scrBytes at h; omega)]
        omega
      simp [hne]

/-- What a remote write that is admitted leaves of the hearth. -/
def Hearth.received (off : Nat) (bs : List Byte) (ash : Bool) (x : Hearth) : Hearth :=
  if off % 64 = 0 ∧ bs.length = 64 then x.setLine (off / 64) ⟨bs, ash⟩ else x.setPart off bs ash

theorem Hearth.received_scr {off : Nat} {bs : List Byte} (h : off + bs.length ≤ scrBytes) (ash : Bool) :
    (x.received off bs ash).scr = putRun x.scr off bs := by
  unfold Hearth.received
  split
  · next hw =>
    obtain ⟨hoff, hlen⟩ := hw
    have hl : off / 64 % 32768 = off / 64 := Nat.mod_eq_of_lt (by unfold scrBytes at h; omega)
    rw [putRun_eq_writeCells h, Hearth.setLine, hl, fit_of_eq_length 0 hlen.symm, Nat.mul_div_cancel' (Nat.dvd_of_mod_eq_zero hoff)]
  · rfl

theorem Hearth.ash_received_of_outside {off l : Nat} {bs : List Byte} (h : off + bs.length ≤ scrBytes)
    (hl : l < off / 64 ∨ (off + bs.length - 1) / 64 < l) (ash : Bool) : tget false (x.received off bs ash).ash l = tget false x.ash l := by
  unfold Hearth.received
  split
  · next hw =>
    refine tget_tset_ne _ ?_ ..
    rw [Nat.mod_eq_of_lt (by unfold scrBytes at h; omega)]
    omega
  · exact x.ash_setPart_of_outside h hl ash

/-- A whole line takes the write's mark (R61). -/
theorem Hearth.ash_received_line {off : Nat} {bs : List Byte} (h : off + bs.length ≤ scrBytes) (hoff : off % 64 = 0) (hlen : bs.length = 64)
    (ash : Bool) : tget false (x.received off bs ash).ash (off / 64) = ash := by
  have hl : off / 64 % 32768 = off / 64 := Nat.mod_eq_of_lt (by unfold scrBytes at h; omega)
  rw [Hearth.received, if_pos ⟨hoff, hlen⟩, Hearth.setLine, hl]
  exact tget_tset_self ..

end

/-! ### What a command of one hearth leaves as it was -/

/-- `d'` is `d` but for what hearth `h` holds, objects in `ks`, and what events and units without a state here change. -/
structure Dev.OnlyHearth (d d' : Dev) (h : Nat) (ks : List Nat) : Prop where
  hbm : d'.hbm = d.hbm
  slow : d'.slow = d.slow
  hearths : ∀ k, k ≠ h → d'.hearth k = d.hearth k
  objects : d.SameObjects d' (eventKeys ++ ks)
  flues : d'.flues = d.flues
  stks : d'.stks = d.stks
  stokers : d'.stokers = d.stokers
  ports : d'.ports = d.ports
  ctxs : d'.ctxs = d.ctxs

theorem State.onlyHearth_of_dev {s : State} {d : Dev} {h : Nat} {ks : List Nat} (g : s.dev.OnlyHearth d h ks) :
    s.OnlyHearth { s with dev := d } h ks :=
  ⟨⟨g.hbm, g.slow, rfl, rfl⟩, g.hearths, g.objects, g.flues, g.stks, g.stokers, g.ports, g.ctxs⟩

section
variable {a b c d : Dev} {h : Nat} {ks ls : List Nat}

theorem Dev.OnlyHearth.refl (d : Dev) (h : Nat) (ks : List Nat) : d.OnlyHearth d h ks :=
  ⟨rfl, rfl, fun _ _ => rfl, .same _ _, rfl, rfl, rfl, rfl, rfl⟩

theorem Dev.OnlyHearth.trans (g : a.OnlyHearth b h ks) (f : b.OnlyHearth c h ks) : a.OnlyHearth c h ks where
  hbm := f.hbm.trans g.hbm
  slow := f.slow.trans g.slow
  hearths k hk := (f.hearths k hk).trans (g.hearths k hk)
  objects := g.objects.trans f.objects
  flues := f.flues.trans g.flues
  stks := f.stks.trans g.stks
  stokers := f.stokers.trans g.stokers
  ports := f.ports.trans g.ports
  ctxs := f.ctxs.trans g.ctxs

theorem Dev.OnlyHearth.mono (g : a.OnlyHearth b h ks) (hs : ks ⊆ ls) : a.OnlyHearth b h ls :=
  { g with objects := g.objects.mono fun _ hk => (List.mem_append.mp hk).elim (List.mem_append_left _) fun hm => List.mem_append_right _ (hs hm) }

/-- An object that is neither in `ks` nor changed by events reads as before. -/
theorem Dev.OnlyHearth.get (g : a.OnlyHearth b h ks) {o : ObjDef} {i e : Nat} (hk : o.key i e ∉ ks) (he : o.key i e ∉ eventKeys) :
    b.get o i e = a.get o i e := g.objects.get (by simp [hk, he])

theorem Dev.OnlyHearth.of_onlyOd (g : a.OnlyOd b ks) : a.OnlyHearth b h ks := by
  obtain ⟨⟨od, rfl⟩, hs⟩ := g
  exact ⟨rfl, rfl, fun _ _ => rfl, hs.mono (List.subset_append_right ..), rfl, rfl, rfl, rfl, rfl⟩

theorem Dev.Recorded.onlyHearth (g : a.Recorded b) (h : Nat) (ks : List Nat) : a.OnlyHearth b h ks := by
  obtain ⟨⟨_, _, _, _, _, _, rfl⟩, hk⟩ := g
  exact ⟨rfl, rfl, fun _ _ => rfl, fun k hn => hk k fun hm => hn (List.mem_append_left _ hm), rfl, rfl, rfl, rfl, rfl⟩

theorem Dev.OnlyHearth.setHearth (d : Dev) (h : Nat) (x : Hearth) (ks : List Nat) : d.OnlyHearth (d.setHearth h x) h ks :=
  ⟨rfl, rfl, fun _ hk => Dev.hearth_setHearth_ne d hk x, .same _ _, rfl, rfl, rfl, rfl, rfl⟩

theorem Dev.OnlyHearth.modHearth (d : Dev) (h : Nat) (f : Hearth → Hearth) (ks : List Nat) : d.OnlyHearth (d.modHearth h f) h ks :=
  .setHearth ..

theorem Dev.OnlyHearth.bump {o : ObjDef} {i e n : Nat} (hk : o.key i e ∈ ks) : d.OnlyHearth (d.bump o i n e) h ks :=
  .of_onlyOd (Dev.bump_onlyOd hk)

theorem Dev.OnlyHearth.put {o : ObjDef} {v i e : Nat} (hk : o.key i e ∈ ks) : d.OnlyHearth (d.put o v i e) h ks :=
  .of_onlyOd (Dev.put_onlyOd hk)

theorem Dev.OnlyHearth.raise (d : Dev) (e : Ev) (k : Kind) (i : Nat) (c : Option Nat) (det hi h : Nat) (ks : List Nat) :
    d.OnlyHearth (d.raise e k i c det hi) h ks := (d.raise_recorded ..).onlyHearth h ks

theorem Dev.OnlyHearth.answer (g : d.OnlyHearth a h ks) (st v : Nat) (bs : List Byte) : d.OnlyHearth (a.answer st v bs) h ks :=
  ⟨g.hbm, g.slow, g.hearths, g.objects, g.flues, g.stks, g.stokers, g.ports, g.ctxs⟩

/-- Raising an event once changes the hearth's note of it and no more than an event does (R80). -/
theorem Dev.raiseOnce_onlyHearth (d : Dev) (h key : Nat) (e : Ev) (det : Nat) (ks : List Nat) : d.OnlyHearth (d.raiseOnce h key e det) h ks := by
  unfold Dev.raiseOnce
  split
  · exact .refl ..
  · exact .trans (.modHearth ..) (.raise ..)

end

/-- Raising an event once leaves the hearth but for its note of it. -/
theorem Dev.hearth_raiseOnce (d : Dev) (h key : Nat) (e : Ev) (det : Nat) :
    ∃ once, (d.raiseOnce h key e det).hearth h = { d.hearth h with once := once } := by
  unfold Dev.raiseOnce
  split
  · exact ⟨_, rfl⟩
  · refine ⟨key :: (d.hearth h).once, ?_⟩
    rw [Dev.hearth_raise, Dev.modHearth, Dev.hearth_setHearth_self]

/-- A counter that has gone up by one and is touched no more. -/
theorem Dev.OnlyHearth.get_bumped {d d' : Dev} {o : ObjDef} {h n : Nat} {ks : List Nat} (g : (d.bump o h n).OnlyHearth d' h ks) (ho : o.OfHearth)
    (hk : o.key h 0 ∉ ks) (hn : n ≠ 0) : d'.get o h = (d.get o h + n) % 2 ^ o.bitsOf := by
  rw [g.get hk (hearthKey_not_event ho h), Dev.get_bump_self _ _ _ _ _ hn]

/-! ### Remote writes and arrival notices (R25, R61, R134, R135, R374) -/

theorem State.remoteWrite_exec {s : State} {h : Fin 1024} {off : Nat} {data : List Byte} {ash : Bool} (hin : off + data.length ≤ scrBytes)
    (hnow : (s.dev.hearthOpen h.val && !s.dev.clockOn (h.val / 64)) = false) :
    exec (.remoteWrite h off data ash) s =
      .next { s with dev := (s.dev.remoteWrite h.val off data ash).1.answer (s.dev.remoteWrite h.val off data ash).2.code } := by
  show s.onDev (fun d => d.cmdRemoteWrite h.val off data ash) = _
  rw [State.onDev, Dev.cmdRemoteWrite, if_neg (by omega), if_neg (by simpa using hnow)]

theorem Dev.remoteWrite_admitted {d : Dev} {h off : Nat} {bs : List Byte} {ash : Bool} (hopen : d.hearthOpen h = true) (hne : bs ≠ [])
    (hok : d.remoteOk h (off / 64) ((off + bs.length - 1) / 64) = true) :
    d.remoteWrite h off bs ash = (d.modHearth h (Hearth.received off bs ash), .done) := by
  rw [Dev.remoteWrite, if_neg (by simp [hopen]), if_neg (by simpa using hne), if_pos hok]
  unfold Hearth.received
  split <;> rfl

theorem Dev.remoteWrite_refused {d : Dev} {h off : Nat} {bs : List Byte} {ash : Bool} (hopen : d.hearthOpen h = true) (hne : bs ≠ [])
    (hno : d.remoteOk h (off / 64) ((off + bs.length - 1) / 64) = false) : d.remoteWrite h off bs ash = (d.remoteRefuse h, .refused) := by
  rw [Dev.remoteWrite, if_neg (by simp [hopen]), if_neg (by simpa using hne), if_neg (by simp [hno])]

/-- Where a request that waits at a region's boundary stands, and what it starts. -/
theorem Dev.toEdge_spec (d : Dev) (h : Nat) (r : EdgeReq) :
    (∃ od edge, d.toEdge h r = { d with od := od, edge := edge }) ∧ d.SameObjects (d.toEdge h r) [clockKey h] ∧
    tget [] (d.toEdge h r).edge (h / 64) = tget [] d.edge (h / 64) ++ [r] ∧
    (d.inService (h / 64) = true → d.power.tripped = false → d.get Obj.CLOCK_STATE (h / 64) = 0 →
      (d.toEdge h r).get Obj.CLOCK_STATE (h / 64) = 1) := by
  obtain ⟨⟨od, hod⟩, hsame⟩ := d.wakeRegion_spec (h / 64)
  refine ⟨⟨od, _, by rw [Dev.toEdge, hod]⟩, hsame, ?_, fun hserv htrip h0 => ?_⟩
  · rw [Dev.toEdge, tget_tset_self, hod]
  · exact Dev.wakeRegion_starts (by simp [Dev.regionWaits, Dev.clockOn, hserv, htrip, h0]) h0

theorem State.remoteWritten (s : State) (h : Fin 1024) (off : Nat) (data : List Byte) (ash : Bool) (hopen : s.dev.hearthOpen h.val = true)
    (hclock : s.dev.clockOn (h.val / 64) = true) (hne : data ≠ []) (hin : off + data.length ≤ scrBytes)
    (hok : s.dev.remoteOk h.val (off / 64) ((off + data.length - 1) / 64) = true) :
    ∃ t, exec (.remoteWrite h off data ash) s = .next t ∧ t.dev.reply = ⟨0, 0, []⟩ ∧
      (∀ k < data.length, (t.dev.hearth h.val).byte (off + k) = data.getD k 0) ∧
      (∀ a < scrBytes, (a < off ∨ off + data.length ≤ a) → (t.dev.hearth h.val).byte a = (s.dev.hearth h.val).byte a) ∧
      (off % 64 = 0 → data.length = 64 → tget false (t.dev.hearth h.val).ash (off / 64) = ash) ∧
      (∀ l, (l < off / 64 ∨ (off + data.length - 1) / 64 < l) → tget false (t.dev.hearth h.val).ash l = tget false (s.dev.hearth h.val).ash l) ∧
      s.OnlyHearth t h.val [] := by
  have hexec := State.remoteWrite_exec (s := s) (h := h) (ash := ash) hin (by simp [hclock])
  rw [Dev.remoteWrite_admitted hopen hne hok] at hexec
  have hhearth : ((s.dev.modHearth h.val (Hearth.received off data ash)).answer 0).hearth h.val = (s.dev.hearth h.val).received off data ash := by
    rw [Dev.hearth_answer, Dev.modHearth, Dev.hearth_setHearth_self]
  have hbyte : ∀ {k : Nat}, k < scrBytes → ((s.dev.hearth h.val).received off data ash).byte k =
      if off ≤ k ∧ k < off + data.length then data.getD (k - off) 0 else (s.dev.hearth h.val).byte k :=
    fun hk => Hearth.byte_putRun _ (Hearth.received_scr _ hin ash) hin hk
  refine ⟨_, hexec, rfl, fun k hk => ?_, fun a ha hout => ?_, fun hoff hlen => ?_, fun l hl => ?_,
    State.onlyHearth_of_dev (.answer (.modHearth ..) ..)⟩
  · rw [show Answer.code .done = 0 from rfl, hhearth, hbyte (by omega), if_pos ⟨by omega, by omega⟩, Nat.add_sub_cancel_left]
  · rw [show Answer.code .done = 0 from rfl, hhearth, hbyte ha, if_neg (by omega)]
  · rw [show Answer.code .done = 0 from rfl, hhearth]
    exact Hearth.ash_received_line _ hin hoff hlen ash
  · rw [show Answer.code .done = 0 from rfl, hhearth]
    exact Hearth.ash_received_of_outside _ hin hl ash

theorem State.remoteRefused (s : State) (h : Fin 1024) (off : Nat) (data : List Byte) (ash : Bool) (hopen : s.dev.hearthOpen h.val = true)
    (hclock : s.dev.clockOn (h.val / 64) = true) (hne : data ≠ []) (hin : off + data.length ≤ scrBytes)
    (hno : s.dev.remoteOk h.val (off / 64) ((off + data.length - 1) / 64) = false) :
    ∃ t, exec (.remoteWrite h off data ash) s = .next t ∧ t.dev.reply = ⟨1, 0, []⟩ ∧ (t.dev.hearth h.val).scr = (s.dev.hearth h.val).scr ∧
      (t.dev.hearth h.val).ash = (s.dev.hearth h.val).ash ∧
      t.dev.get Obj.REMOTE_WRITES_REFUSED h.val = (s.dev.get Obj.REMOTE_WRITES_REFUSED h.val + 1) % 2 ^ 64 ∧
      s.OnlyHearth t h.val [Obj.REMOTE_WRITES_REFUSED.key h.val 0] := by
  have hexec := State.remoteWrite_exec (s := s) (h := h) (ash := ash) hin (by simp [hclock])
  rw [Dev.remoteWrite_refused hopen hne hno] at hexec
  obtain ⟨once, honce⟩ := (s.dev.bump Obj.REMOTE_WRITES_REFUSED h.val).hearth_raiseOnce h.val Once.refused.num Event.remoteRefused 0
  have hx : (s.dev.bump Obj.REMOTE_WRITES_REFUSED h.val).hearth h.val = s.dev.hearth h.val := rfl
  have honly := (s.dev.bump Obj.REMOTE_WRITES_REFUSED h.val).raiseOnce_onlyHearth h.val Once.refused.num Event.remoteRefused 0
  refine ⟨_, hexec, rfl, ?_, ?_, ?_, State.onlyHearth_of_dev (.answer (.trans (.bump (by simp)) (honly _)) ..)⟩
  · rw [Dev.hearth_answer, Dev.remoteRefuse, honce, hx]
  · rw [Dev.hearth_answer, Dev.remoteRefuse, honce, hx]
  · exact (honly []).get_bumped (by decide) (by simp) one_ne_zero

/-- The region of a line does not depend on counters of the hearth. -/
theorem Dev.regionAt_congr {d d' : Dev} {h : Nat} (hr : ∀ n < 16, d'.get Obj.REGION h n = d.get Obj.REGION h n) (line : Nat) :
    d'.regionAt h line = d.regionAt h line := by
  unfold Dev.regionAt
  rw [List.map_congr_left fun n hn => hr n (List.mem_range.mp hn)]

/-- Everything an arrival notice does to an open hearth. -/
theorem Dev.arrivalNow_open {d : Dev} {h : Nat} (hopen : d.hearthOpen h = true) (line : Nat) :
    d.arrivalNow h line = match d.regionAt h line with
      | some w => if bit w 23 then (d.bump Obj.ARRIVAL_NOTICES h).modHearth h fun x => x.addCounter (bits w 22 17) 1
          else d.bump Obj.ARRIVAL_NOTICES h
      | none => d.bump Obj.ARRIVAL_NOTICES h := by
  have hregion : (d.bump Obj.ARRIVAL_NOTICES h).regionAt h line = d.regionAt h line :=
    Dev.regionAt_congr (fun n hn => Dev.get_bump_ne (by simp only [ObjDef.key, Obj.REGION, Obj.ARRIVAL_NOTICES, Kind.stride]; omega)) line
  rw [Dev.arrivalNow, if_pos hopen, ← hregion] <;> rfl

theorem Hearth.counter_addCounter (x : Hearth) (c k : Nat) (a : Int) :
    (x.addCounter c a).counter k = if k = c then countBy (x.counter k) a else x.counter k := by
  rw [Hearth.counter, Hearth.addCounter, tget_tset]
  split
  · next h => rw [h, countBy]
  · rfl

theorem State.arrivalNoticed (s : State) (h : Fin 1024) (line : Fin 32768) (hopen : s.dev.hearthOpen h.val = true)
    (hclock : s.dev.clockOn (h.val / 64) = true) :
    ∃ t, exec (.arrivalNotice h line) s = .next t ∧
      t.dev.get Obj.ARRIVAL_NOTICES h.val = (s.dev.get Obj.ARRIVAL_NOTICES h.val + 1) % 2 ^ 64 ∧
      (∀ w, s.dev.regionAt h.val line.val = some w → w.testBit 23 = true → ∀ k, (t.dev.hearth h.val).counter k =
        if k = bits w 22 17 then countBy ((s.dev.hearth h.val).counter k) 1 else (s.dev.hearth h.val).counter k) ∧
      (t.dev.hearth h.val).scr = (s.dev.hearth h.val).scr ∧ s.OnlyHearth t h.val [Obj.ARRIVAL_NOTICES.key h.val 0] := by
  have hexec : exec (.arrivalNotice h line) s = .next { s with dev := s.dev.arrivalNow h.val line.val } := by
    show s.onDev (fun d => d.arrival h.val line.val) = _
    rw [State.onDev, Dev.arrival, if_neg (by simp [hclock])]
  have hcount : (s.dev.bump Obj.ARRIVAL_NOTICES h.val).get Obj.ARRIVAL_NOTICES h.val = (s.dev.get Obj.ARRIVAL_NOTICES h.val + 1) % 2 ^ 64 :=
    Dev.get_bump_self _ _ _ _ _ one_ne_zero
  have honly : s.dev.OnlyHearth (s.dev.bump Obj.ARRIVAL_NOTICES h.val) h.val [Obj.ARRIVAL_NOTICES.key h.val 0] := .bump (by simp)
  have hadd : ∀ c, ((s.dev.bump Obj.ARRIVAL_NOTICES h.val).modHearth h.val fun x => x.addCounter c 1).hearth h.val =
      (s.dev.hearth h.val).addCounter c 1 := fun c => Dev.hearth_setHearth_self ..
  rw [hexec, Dev.arrivalNow_open hopen]
  split
  · next w hw =>
    split
    · refine ⟨_, rfl, hcount, fun w' hw' _ k => ?_, ?_, State.onlyHearth_of_dev (honly.trans (.modHearth ..))⟩
      · cases hw.symm.trans hw'
        rw [hadd, Hearth.counter_addCounter]
      · rw [hadd]
        rfl
    · next hbit =>
      refine ⟨_, rfl, hcount, fun w' hw' hbit' => ?_, rfl, State.onlyHearth_of_dev honly⟩
      cases hw.symm.trans hw'
      exact absurd hbit' hbit
  · next hw => exact ⟨_, rfl, hcount, fun w' hw' => by simp [hw] at hw', rfl, State.onlyHearth_of_dev honly⟩

/-- Settles O14: a remote write by its region's answer and its clock, and what an arrival notice counts. -/
theorem remoteWritesAndArrivalNotices : Obligations.RemoteWritesAndArrivalNotices := by
  refine ⟨fun s h off data ash ho hc hne hin hok => s.remoteWritten h off data ash ho hc hne hin hok,
    fun s h off data ash ho hc hne hin hno => s.remoteRefused h off data ash ho hc hne hin hno, fun s h off data ash ho hin => ?_,
    fun s h off data ash ho hc hin => ?_, fun s h line ho hc => s.arrivalNoticed h line ho hc⟩
  · have hexec := State.remoteWrite_exec (s := s) (h := h) (ash := ash) hin (by simp [ho])
    rw [show s.dev.remoteWrite h.val off data ash = (s.dev, .absent) from if_pos (by simp [ho])] at hexec
    exact ⟨_, hexec, rfl, State.onlyObjects_answer (.same ..) ..⟩
  · have hexec : exec (.remoteWrite h off data ash) s = .next { s with dev := s.dev.toEdge h.val (.write h.val off data ash) } := by
      show s.onDev (fun d => d.cmdRemoteWrite h.val off data ash) = _
      rw [State.onDev, Dev.cmdRemoteWrite, if_neg (by omega), if_pos (by simp [ho, hc])]
    obtain ⟨⟨od, edge, hshape⟩, hsame, hedge, hclock⟩ := s.dev.toEdge_spec h.val (.write h.val off data ash)
    exact ⟨_, hexec, hedge, hclock, by rw [hshape], hsame⟩

end Sys2Proof.Machine
end

section
/-! A replayed GRATE entry may squash itself. A failed scale check returns the entry to waiting with the exponent that the check set, and
squashes the entries that depend on it (R122, R125): those whose dependency mask names it. The model's state holds any mask, also one that
names its own entry, and a squashed entry waits afresh, without the replay and its exponent. -/

namespace Sys2Proof.Machine

/-- A firing GRATE entry of one (n-block, m-block) pair and output format E4M3 (code 2), whose dependency mask names itself. -/
def selfMasked : WEntry := ⟨0, 0, 2 * 2 ^ 68, [], [], 0, .firing, none, [0], [], none, false, none, none, ([], []), []⟩

/-- That entry's job, its pair drained and its scale check failed, which set the exponent 5. -/
def failedJob : GrateJob := ⟨0, 0, 0, [], [], 1, 1, false, 0, false, some 5⟩

/-- A part of a step with one replay in its budget. -/
def replayRun : StepRun := ⟨0, false, 1, 0, false, 0, 0, false, true, false, false⟩

def selfMaskedDev : Dev :=
  Dev.fresh.setHearth 0 { Hearth.fresh with run := some replayRun, window := [selfMasked], jobs := [failedJob] }

def selfMaskedState : State := { State.reset with dev := selfMaskedDev }

/-- At the end of its run no entry of the window is marked for a replay. -/
theorem selfMasked_noReplay : ((selfMaskedDev.cmdGrateDone 0).hearth 0).window.all (fun o => !o.replay) = true := by decide +kernel

/-- Refutes O11: the scale check of an entry whose dependency mask names itself fails with a replay in the budget; the entry is squashed with
those that depend on it, so that it waits without a replay. -/
theorem not_grateAndVectorResultsAreWritten : ¬ Obligations.GrateAndVectorResultsAreWritten := by
  unfold Obligations.GrateAndVectorResultsAreWritten
  intro h
  obtain ⟨hgrate, -⟩ := h
  obtain ⟨-, hreplay, -⟩ := hgrate selfMaskedState 0 selfMasked failedJob replayRun _ rfl rfl rfl rfl (by decide +kernel)
    (by decide +kernel) rfl
  obtain ⟨t, ht, ⟨o, ho, -, -, hagain, -⟩, -⟩ := hreplay 5 (by decide +kernel) rfl (by decide)
  obtain rfl : { selfMaskedState with dev := selfMaskedDev.cmdGrateDone 0 } = t := by injection ht
  have hnone := List.all_eq_true.mp selfMasked_noReplay o ho
  rw [hagain] at hnone
  exact absurd hnone (by decide)

end Sys2Proof.Machine
end

section
/-! What the units of a hearth change while they read operands, write results, count and report. The projection `f` of a hearth says what
stays: `Hearth.unnoted` all but the notes of events raised once (R80), `Hearth.control` all but those and the scratchpad,
`Hearth.unslotted` all but those and the scale slots. -/

namespace Sys2Proof.Machine

/-- A hearth without its notes of events raised once. -/
def Hearth.unnoted (x : Hearth) : Hearth := { x with once := [] }

/-- A hearth without those notes and its scratchpad. -/
def Hearth.control (x : Hearth) : Hearth := { x with once := [], scr := [], ash := [] }

/-- A hearth without those, its scale slots and its count of draws. -/
def Hearth.unslotted (x : Hearth) : Hearth := { x with once := [], scr := [], ash := [], slots := [], slotBad := [], srDraws := 0 }

section
variable {x y : Hearth}

theorem Hearth.control_of_unnoted (g : x.unnoted = y.unnoted) : x.control = y.control := congrArg (fun z => z.control) g

theorem Hearth.unslotted_of_control (g : x.control = y.control) : x.unslotted = y.unslotted := congrArg (fun z => z.unslotted) g

theorem Hearth.bufs_of_unslotted (g : x.unslotted = y.unslotted) : x.bufs = y.bufs := congrArg (fun z => z.bufs) g

theorem Hearth.jobs_of_unslotted (g : x.unslotted = y.unslotted) : x.jobs = y.jobs := congrArg (fun z => z.jobs) g

theorem Hearth.window_of_unslotted (g : x.unslotted = y.unslotted) : x.window = y.window := congrArg (fun z => z.window) g

theorem Hearth.slots_of_control (g : x.control = y.control) : x.slots = y.slots := congrArg (fun z => z.slots) g

theorem Hearth.slot_congr (g : x.slots = y.slots) (n : Nat) : x.slot n = y.slot n := congrArg (tget ScaleSlot.fresh · n) g

end

/-- Counters of a hearth that its units add to while they work (R80). -/
def unitCounters : List ObjDef :=
  [Obj.ACC_SATURATIONS, Obj.CONVERT_SATURATIONS, Obj.NONFINITE_INPUTS, Obj.ASH_LINES_WRITTEN, Obj.SRAM_CORRECTED, Obj.SRAM_UNCORRECTED,
   Obj.BLOCK_PRODUCTS_SKIPPED]

theorem unitCounters_ofHearth : ∀ p ∈ unitCounters, p.OfHearth := by decide

/-- A hearth's object that its units do not add to while they work. -/
abbrev ObjDef.NotUnit (o : ObjDef) : Prop := o.OfHearth ∧ ∀ p ∈ unitCounters, o.base ≠ p.base ∨ o.lo ≠ p.lo

/-- `d'` is `d` after work of units of hearth `h`, which leaves what `f` shows of the hearth. -/
structure Dev.Works {α : Type} (f : Hearth → α) (h : Nat) (d d' : Dev) : Prop where
  hbm : d'.hbm = d.hbm
  slow : d'.slow = d.slow
  counters : ∀ o : ObjDef, o.NotUnit → d'.get o h = d.get o h
  hearth : f (d'.hearth h) = f (d.hearth h)

/-- A key of a hearth's object lies below the context slots' blocks (R353). -/
theorem hearthKey_lt {o : ObjDef} (ho : o.OfHearth) {h : Nat} (hh : h < 1024) : o.key h 0 < 0x30000 * 256 := by
  obtain ⟨ok, _, _, _⟩ := ho
  simp only [ObjDef.key, ok, Kind.stride]
  omega

section
variable {α : Type} {f : Hearth → α} {h : Nat} {a b c d : Dev}

theorem Dev.Works.refl (f : Hearth → α) (h : Nat) (d : Dev) : d.Works f h d := ⟨rfl, rfl, fun _ _ => rfl, rfl⟩

theorem Dev.Works.trans (g : a.Works f h b) (k : b.Works f h c) : a.Works f h c :=
  ⟨k.hbm.trans g.hbm, k.slow.trans g.slow, fun o ho => (k.counters o ho).trans (g.counters o ho), k.hearth.trans g.hearth⟩

theorem Dev.Works.control (g : a.Works Hearth.unnoted h b) : a.Works Hearth.control h b :=
  { g with hearth := Hearth.control_of_unnoted g.hearth }

theorem Dev.Works.unslotted (g : a.Works Hearth.control h b) : a.Works Hearth.unslotted h b :=
  { g with hearth := Hearth.unslotted_of_control g.hearth }

theorem Dev.Works.foldl {ι : Type} {l : List ι} {u : Dev → ι → Dev} (hu : ∀ (a : Dev) i, a.Works f h (u a i)) (d : Dev) : d.Works f h (l.foldl u d) := by
  induction l generalizing d with
  | nil => exact .refl ..
  | cons i l ih => exact (hu d i).trans (ih _)

theorem Dev.hearth_bump (d : Dev) (o : ObjDef) (i n e k : Nat) : (d.bump o i n e).hearth k = d.hearth k := by
  unfold Dev.bump
  split <;> rfl

theorem Dev.hbm_bump (d : Dev) (o : ObjDef) (i n e : Nat) : (d.bump o i n e).hbm = d.hbm ∧ (d.bump o i n e).slow = d.slow := by
  unfold Dev.bump
  split <;> exact ⟨rfl, rfl⟩

theorem Dev.Works.bump {p : ObjDef} (hp : p ∈ unitCounters) (f : Hearth → α) (h n : Nat) (d : Dev) : d.Works f h (d.bump p h n) where
  hbm := (Dev.hbm_bump ..).1
  slow := (Dev.hbm_bump ..).2
  counters o ho := Dev.get_bump_ne (hearthKey_ne ho.1 (unitCounters_ofHearth p hp) ((ho.2 p hp).imp_right .inl))
  hearth := congrArg f (Dev.hearth_bump ..)

theorem Dev.Works.modHearth (d : Dev) {u : Hearth → Hearth} (hu : f (u (d.hearth h)) = f (d.hearth h)) : d.Works f h (d.modHearth h u) :=
  ⟨rfl, rfl, fun _ _ => rfl, by rw [Dev.modHearth, Dev.hearth_setHearth_self, hu]⟩

theorem Dev.Works.raise (f : Hearth → α) (d : Dev) (e : Ev) (k : Kind) (i : Nat) (ctx : Option Nat) (det hi h : Nat) :
    d.Works f h (d.raise e k i ctx det hi) := by
  have hrec := d.raise_recorded e k i ctx det hi
  refine ⟨?_, ?_, fun o ho => hrec.get (hearthKey_not_event ho.1 h), by rw [Dev.hearth_raise]⟩
  · obtain ⟨⟨_, _, _, _, _, _, hd⟩, -⟩ := hrec; rw [hd]
  · obtain ⟨⟨_, _, _, _, _, _, hd⟩, -⟩ := hrec; rw [hd]

theorem Dev.raiseOnce_works (d : Dev) (h key : Nat) (e : Ev) (det : Nat) : d.Works Hearth.unnoted h (d.raiseOnce h key e det) := by
  unfold Dev.raiseOnce
  split
  · exact .refl ..
  · exact .trans (.modHearth d rfl) (.raise ..)

theorem Dev.work_works (f : Hearth → α) (h : Nat) (d : Dev) : d.Works f h (d.work h) := by
  unfold Dev.work
  split
  · exact .refl ..
  · exact ⟨rfl, rfl, fun _ _ => rfl, rfl⟩

/-- A charge to a context slot counts in the slot's block, which no hearth's object is in. -/
theorem Dev.charge_works {p : ObjDef} (hp : 0x30000 * 256 ≤ p.key 0 0) (f : Hearth → α) (hh : h < 1024) (d : Dev) (ctx n unit : Nat) :
    d.Works f h ((d.bump p ctx n).noteUnit unit ctx n) := by
  have hkey : p.key 0 0 ≤ p.key ctx 0 := by simp only [ObjDef.key]; gcongr; omega
  refine ⟨(Dev.hbm_bump ..).1, (Dev.hbm_bump ..).2, fun o ho => Dev.get_bump_ne ?_, congrArg f (Dev.hearth_bump ..)⟩
  have := hearthKey_lt ho.1 hh
  omega

theorem Dev.chargeVector_works (f : Hearth → α) (hh : h < 1024) (n : Nat) (d : Dev) : d.Works f h (d.chargeVector h n) := by
  unfold Dev.chargeVector
  split
  · exact .refl ..
  · exact Dev.charge_works (by decide) f hh ..

theorem Dev.chargeGrate_works (f : Hearth → α) (hh : h < 1024) (n : Nat) (d : Dev) : d.Works f h (d.chargeGrate h n) := by
  unfold Dev.chargeGrate
  split
  · exact .refl ..
  · exact Dev.charge_works (by decide) f hh ..

theorem Dev.countAshLine_works (d : Dev) (h n : Nat) : d.Works Hearth.unnoted h (d.countAshLine h n) := by
  unfold Dev.countAshLine
  split
  · exact .refl ..
  · exact .trans (.bump (by decide) ..) (Dev.raiseOnce_works ..)

theorem Hearth.control_writeRun (x : Hearth) (off : Nat) (bs : List Byte) (mark : Nat → Bool) : (x.writeRun off bs mark).1.control = x.control := by
  unfold Hearth.writeRun
  split <;> rfl

theorem Dev.ownRun_works (d : Dev) (h off : Nat) (bs : List Byte) (mark : Nat → Bool) : d.Works Hearth.control h (d.ownRun h off bs mark) :=
  .trans (.modHearth (u := fun x => (x.writeRun off bs mark).1) d (Hearth.control_writeRun ..)) (Dev.countAshLine_works ..).control

theorem Dev.ownElems_works (d : Dev) (h : Nat) (fmt : Fmt) (off : Nat) (es : List (Nat × Bool)) :
    d.Works Hearth.control h (d.ownElems h fmt off es) := Dev.ownRun_works ..

theorem Dev.countSram_works (d : Dev) (h : Nat) (access : Nat → Nat) (errs : List (Nat × SramOutcome)) :
    d.Works Hearth.unnoted h (d.countSram h access errs) := by
  have hcount := Dev.Works.trans (.bump (p := Obj.SRAM_CORRECTED) (by decide) Hearth.unnoted h (accessesWith access .corrected errs) d)
    (.bump (p := Obj.SRAM_UNCORRECTED) (by decide) _ _ (accessesWith access .uncorrectable errs) _)
  rw [Dev.countSram]
  split
  · exact hcount
  · exact hcount.trans (Dev.raiseOnce_works ..)

theorem Dev.Works.drawing (g : a.Works f h b) (n : Nat) : a.Works f h { b with free := n } := ⟨g.hbm, g.slow, g.counters, g.hearth⟩

theorem Dev.meetSram_works (d : Dev) (h : Nat) (errs : List (Nat × SramOutcome)) : d.Works Hearth.control h (d.meetSram h errs) := by
  refine (Dev.countSram_works d h (· / 8) errs).control.trans (.foldl (fun a e => ?_) _)
  exact .drawing (.modHearth a rfl) _

theorem Dev.readSram_works (d : Dev) (h : Nat) (e : WEntry) (errs : List (Nat × SramOutcome)) :
    d.Works Hearth.control h (d.readSram h e errs) := Dev.meetSram_works ..

@[simp] theorem Dev.readSram_nil (d : Dev) (h : Nat) (e : WEntry) : d.readSram h e [] = d := rfl

theorem Hearth.unslotted_spoilSlot (x : Hearth) (k v : Nat) : (x.spoilSlot k v).unslotted = x.unslotted := rfl

theorem Dev.meetSlots_works (d : Dev) (h : Nat) (ks : List Nat) (errs : List (Nat × SramOutcome)) :
    d.Works Hearth.unslotted h (d.meetSlots h ks errs) := by
  refine (Dev.countSram_works d h id _).control.unslotted.trans (.foldl (fun a e => ?_) _)
  exact .drawing (.modHearth a (Hearth.unslotted_spoilSlot ..)) _

/-- Where the code finds no new error the slots stay. -/
theorem Dev.meetSlots_nil_works (d : Dev) (h : Nat) (ks : List Nat) : d.Works Hearth.unnoted h (d.meetSlots h ks []) :=
  Dev.countSram_works ..

theorem Dev.modSlot_works (d : Dev) (h n : Nat) (u : ScaleSlot → ScaleSlot) : d.Works Hearth.unslotted h (d.modSlot h n u) := .modHearth d rfl

theorem Dev.slot_modSlot {d : Dev} {n : Nat} {v : ScaleSlot} (hv : (d.hearth h).slot n = v) (u : ScaleSlot → ScaleSlot) :
    ((d.modSlot h n u).hearth h).slot n = u v := by
  rw [Dev.modSlot, Dev.modHearth, Dev.hearth_setHearth_self, ← hv]
  exact (tget_tmod ..).trans (if_pos rfl)

end

end Sys2Proof.Machine
end

section
/-! Operands of the grates: what a row's request reads, and whom a bank is granted to (R36, R37, R39). -/

namespace Sys2Proof.Machine

/-- Two hearths hold the same scratchpad and the same marks. -/
def Hearth.SameData (x y : Hearth) : Prop := (∀ k, tget 0 y.scr k = tget 0 x.scr k) ∧ ∀ l, tget false y.ash l = tget false x.ash l

section
variable {x y : Hearth}

theorem Hearth.SameData.of_eq (hs : y.scr = x.scr) (ha : y.ash = x.ash) : x.SameData y := ⟨fun _ => by rw [hs], fun _ => by rw [ha]⟩

theorem Hearth.SameData.byte (g : x.SameData y) (a : Nat) : y.byte a = x.byte a := g.1 _

theorem Hearth.SameData.num (g : x.SameData y) (a n : Nat) : y.num a n = x.num a n := by
  simp only [Hearth.num, g.byte]

theorem Hearth.SameData.ashAt (g : x.SameData y) (a n : Nat) : y.ashAt a n = x.ashAt a n := by
  simp only [Hearth.ashAt, g.2]

theorem Hearth.SameData.elem (g : x.SameData y) (f : Fmt) (off i : Nat) : y.elem f off i = x.elem f off i := by
  simp only [Hearth.elem, g.num, g.ashAt]

theorem Hearth.SameData.aElem (g : x.SameData y) (e : WEntry) (b : GrateBody) (m k : Nat) : y.aElem e b m k = x.aElem e b m k := g.elem ..

theorem Hearth.SameData.wElem (g : x.SameData y) (e : WEntry) (b : GrateBody) (tr : Bool) (k n : Nat) :
    y.wElem e b tr k n = x.wElem e b tr k n := by
  simp only [Hearth.wElem, g.elem]

theorem Hearth.SameData.feedElem (g : x.SameData y) (e : WEntry) (b : GrateBody) (row : Nat) (c : Nat × Nat) :
    y.feedElem e b row c = x.feedElem e b row c := by
  simp only [Hearth.feedElem, g.aElem]

/-- A line written with what it holds leaves the data. -/
theorem Hearth.SameData.setLine (g : x.SameData y) (l : Nat) : x.SameData (y.setLine l (x.line l)) := by
  refine ⟨fun k => ?_, fun k => ?_⟩
  · have hlen : (readCells 0 x.scr (64 * (l % 32768)) 64).length = 64 := by simp [readCells]
    rw [Hearth.setLine, Hearth.line, fit_of_eq_length 0 hlen.symm, tget_writeCells, hlen]
    split
    · next hk => rw [readCells, List.getD_eq_getElem _ _ (by simp; omega)]; simp [Nat.add_sub_cancel' hk.1]
    · exact g.1 k
  · rw [Hearth.setLine, Hearth.line, tget_tset]
    split
    · next hk => rw [hk]
    · exact g.2 k

theorem Hearth.SameData.asRead_lines (g : x.SameData y) (ls : List Nat) :
    x.SameData ((ls.map fun l => (l, x.line l)).foldl (fun y l => y.setLine l.1 l.2) y) := by
  induction ls generalizing y with
  | nil => exact g
  | cons l ls ih => exact ih (g.setLine l)

end

/-! ### The arbitration of the banks (R37) -/

theorem rotPick_alone {n p i : Nat} : (rotPick n p [i]).getD i = i := by
  cases hr : rotPick n p [i] with
  | none => rfl
  | some j =>
    have := List.find?_some hr
    simpa using this

theorem Hearth.grant_alone (x : Hearth) (row bank : Nat) : x.grant row bank [] = (2, row) := by
  simp [Hearth.grant, rotPick_alone]

/-- An access without rivals is granted and its line read. -/
theorem Hearth.feedAccess_alone (row : Nat) (s : Hearth × Bool) (l : Nat) :
    Hearth.feedAccess row [] s l =
      ({ s.1.granted (l % 32) 2 row with feedHalf := tmod [] s.1.feedHalf row fun g => g ++ [(l, s.1.line l)] }, s.2) := by
  simp only [Hearth.feedAccess, Hearth.grant_alone]
  rfl

/-- An access that loses its bank is remembered. -/
theorem Hearth.feedAccess_lost {row l : Nat} {rivals : List (Nat × Nat × Nat)} {s : Hearth × Bool}
    (hl : s.2 = true ∨ s.1.grant row (l % 32) rivals ≠ (2, row)) : (Hearth.feedAccess row rivals s l).2 = true := by
  simp only [Hearth.feedAccess]
  split
  · next hg => exact hl.resolve_right fun hne => hne (Prod.ext hg.1 hg.2)
  · rfl

theorem Hearth.feedAccesses_lost {row : Nat} {rivals : List (Nat × Nat × Nat)} (ls : List Nat) {s : Hearth × Bool} (hs : s.2 = true) :
    (ls.foldl (Hearth.feedAccess row rivals) s).2 = true := by
  induction ls generalizing s with
  | nil => exact hs
  | cons l ls ih => exact ih (Hearth.feedAccess_lost (.inl hs))

theorem Hearth.feeders_feedAccess (row : Nat) (rivals : List (Nat × Nat × Nat)) (s : Hearth × Bool) (l : Nat) :
    (Hearth.feedAccess row rivals s l).1.feeders = s.1.feeders := by
  simp only [Hearth.feedAccess]
  split <;> rfl

/-- A request without rivals reads all its lines and changes nothing but what it has read and the pointers of its banks. -/
theorem Hearth.feedAccesses_alone (row : Nat) (ls : List Nat) (x : Hearth) :
    ∃ half bank rows, ls.foldl (Hearth.feedAccess row []) (x, false) =
        ({ x with feedHalf := half, bankPtr := bank, rowPtr := rows }, false) ∧
      tget [] half row = tget [] x.feedHalf row ++ ls.map fun l => (l, x.line l) := by
  induction ls generalizing x with
  | nil => exact ⟨_, _, _, rfl, by simp⟩
  | cons l ls ih =>
    obtain ⟨half, bank, rows, hfold, hhalf⟩ := ih (Hearth.feedAccess row [] (x, false) l).1
    rw [Hearth.feedAccess_alone] at hfold hhalf
    refine ⟨half, bank, rows, ?_, ?_⟩
    · rw [List.foldl_cons, Hearth.feedAccess_alone, hfold]
      rfl
    · rw [hhalf, tget_tmod, if_pos rfl, List.append_assoc]
      rfl

/-! ### FEEDER_READ (R37, R39) -/

section
variable {d : Dev} {h row : Nat} {e : WEntry} {j : GrateJob} {c : Nat × Nat} {cs : List (Nat × Nat)} {rivals : List (Nat × Nat × Nat)}

/-- The lines that a row's request has still to read. -/
def Hearth.feedLeft (x : Hearth) (e : WEntry) (row : Nat) (c : Nat × Nat) : List Nat :=
  ((GrateBody.ofWord e.raw).feedLines e row c.1 c.2).filter fun l => !((tget [] x.feedHalf row).map (·.1)).contains l

/-- A row's queue with its next elements. -/
def Hearth.fed (x : Hearth) (e : WEntry) (row : Nat) (q : List (Nat × Bool)) (cs : List (Nat × Nat)) : Hearth :=
  { x with feeders := tset [] x.feeders row (q ++ cs.map ((x.asRead row).feedElem e (GrateBody.ofWord e.raw) row)),
           feederPos := tset 0 x.feederPos row (tget 0 x.feederPos row + cs.length),
           feedHalf := tset [] x.feedHalf row [] }

/-- What a row's request of its next elements does where the code finds nothing. -/
theorem Dev.cmdFeeder_request (hf : (d.hearth h).folding = some (e, j))
    (hn : (GrateBody.ofWord e.raw).feedNext j (tget [] (d.hearth h).feeders row).length = c :: cs)
    (hq : (tget [] (d.hearth h).feeders row).length ≤ 16) :
    d.cmdFeeder h row rivals [] =
      if (((d.hearth h).feedLeft e row c).foldl (Hearth.feedAccess row rivals) (d.hearth h, false)).2 then
        (d.setHearth h (((d.hearth h).feedLeft e row c).foldl (Hearth.feedAccess row rivals) (d.hearth h, false)).1).bump
          Obj.FEEDER_READ_RETRIES h
      else d.setHearth h ((((d.hearth h).feedLeft e row c).foldl (Hearth.feedAccess row rivals) (d.hearth h, false)).1.fed e row
        (tget [] (d.hearth h).feeders row) (c :: cs)) := by
  simp only [Dev.cmdFeeder, hf, hn, if_neg (Nat.not_lt.mpr hq), List.filter_nil, Dev.readSram_nil]
  rfl

theorem State.feederFed (s : State) (h : Fin 1024) (row : Fin 32) (hf : (s.dev.hearth h.val).folding = some (e, j))
    (hn : (GrateBody.ofWord e.raw).feedNext j (tget [] (s.dev.hearth h.val).feeders row.val).length = c :: cs)
    (hq : (tget [] (s.dev.hearth h.val).feeders row.val).length ≤ 16) (hhalf : tget [] (s.dev.hearth h.val).feedHalf row.val = []) :
    ∃ t, exec (.feederRead h row [] []) s = .next t ∧
      tget [] (t.dev.hearth h.val).feeders row.val = tget [] (s.dev.hearth h.val).feeders row.val ++
        (c :: cs).map ((s.dev.hearth h.val).feedElem e (GrateBody.ofWord e.raw) row.val) ∧
      (t.dev.hearth h.val).scr = (s.dev.hearth h.val).scr ∧ t = { s with dev := { s.dev with hearths := t.dev.hearths } } ∧
      s.OnlyHearth t h.val [] := by
  obtain ⟨half, bank, rows, hfold, hread⟩ :=
    Hearth.feedAccesses_alone row.val ((s.dev.hearth h.val).feedLeft e row.val c) (s.dev.hearth h.val)
  have hcmd := Dev.cmdFeeder_request (rivals := []) hf hn hq
  rw [hfold] at hcmd
  have hsame : (s.dev.hearth h.val).SameData
      ({ s.dev.hearth h.val with feedHalf := half, bankPtr := bank, rowPtr := rows }.asRead row.val) := by
    rw [Hearth.asRead, hread, hhalf]
    exact Hearth.SameData.asRead_lines (.of_eq rfl rfl) _
  refine ⟨_, State.onDev_next (f := fun d => d.cmdFeeder h.val row.val [] []) hcmd, ?_, ?_, rfl, State.onlyHearth_of_dev (.setHearth ..)⟩
  · simp only [Bool.false_eq_true, if_false, Dev.hearth_setHearth_self, Hearth.fed, tget_tset_self, funext (hsame.feedElem e _ row.val)]
  · simp only [Bool.false_eq_true, if_false, Dev.hearth_setHearth_self, Hearth.fed]

theorem State.feederRetries (s : State) (h : Fin 1024) (row : Fin 32) {l : Nat} {ls : List Nat}
    (hf : (s.dev.hearth h.val).folding = some (e, j))
    (hn : (GrateBody.ofWord e.raw).feedNext j (tget [] (s.dev.hearth h.val).feeders row.val).length = c :: cs)
    (hq : (tget [] (s.dev.hearth h.val).feeders row.val).length ≤ 16) (hleft : (s.dev.hearth h.val).feedLeft e row.val c = l :: ls)
    (hlose : (s.dev.hearth h.val).grant row.val (l % 32) rivals ≠ (2, row.val)) :
    ∃ t, exec (.feederRead h row rivals []) s = .next t ∧
      t.dev.get Obj.FEEDER_READ_RETRIES h.val = (s.dev.get Obj.FEEDER_READ_RETRIES h.val + 1) % 2 ^ 64 ∧
      (t.dev.hearth h.val).feeders = (s.dev.hearth h.val).feeders ∧ s.OnlyHearth t h.val [Obj.FEEDER_READ_RETRIES.key h.val 0] := by
  have hcmd := Dev.cmdFeeder_request (rivals := rivals) hf hn hq
  rw [hleft, List.foldl_cons, if_pos (Hearth.feedAccesses_lost ls (Hearth.feedAccess_lost (.inr hlose)))] at hcmd
  refine ⟨_, State.onDev_next (f := fun d => d.cmdFeeder h.val row.val rivals []) hcmd, ?_, ?_,
    State.onlyHearth_of_dev (.trans (.setHearth ..) (.bump (by simp)))⟩
  · exact Dev.get_bump_self _ _ _ _ _ one_ne_zero
  · show ((s.dev.setHearth h.val _).hearth h.val).feeders = _
    rw [Dev.hearth_setHearth_self, foldl_same (g := fun s : Hearth × Bool => s.1.feeders) fun s l _ => Hearth.feeders_feedAccess row.val rivals s l]
    exact Hearth.feeders_feedAccess ..

end

end Sys2Proof.Machine
end

section
/-! The drain of an accumulator buffer, the scale check at the last of an entry's, and the check reader (R47, R70, R71, R121). -/

namespace Sys2Proof.Machine

/-! ### The scale check (R70, R71) -/

/-- STEP_MAX and the ash note of a slot after a scale check. -/
def ScaleSlot.raised (s : ScaleSlot) (j : GrateJob) : ScaleSlot :=
  { s with stepMax := Nat.max s.stepMax j.maxMag, ashSeen := s.ashSeen || j.ashSeen }

/-- A slot whose exponent a failed scale check has set. -/
def ScaleSlot.corrected (s : ScaleSlot) (e : Int) : ScaleSlot := { s with curExp := e, curValid := true, replayed := true }

section
variable {d : Dev} {h : Nat} {b : GrateBody} {j : GrateJob} {errs : List (Nat × SramOutcome)}

theorem Dev.scaleCheck_unscaled (hb : b.fd.scaled = false) : d.scaleCheck h b j errs = (d, j) := by
  simp [Dev.scaleCheck, hb]

theorem Dev.scaleCheck_passed (hb : b.fd.scaled = true) (hx : b.fd.exceeds j.maxMag j.exp = false) :
    d.scaleCheck h b j errs = ((d.meetSlots h [b.slotExp] errs).modSlot h b.slotExp fun s => s.raised j, j) := by
  simp [Dev.scaleCheck, hb, hx, ScaleSlot.raised]

theorem Dev.scaleCheck_failed (hb : b.fd.scaled = true) (hx : b.fd.exceeds j.maxMag j.exp = true) :
    d.scaleCheck h b j errs =
      ((((d.meetSlots h [b.slotExp] errs).modSlot h b.slotExp fun s => s.raised j).modSlot h b.slotExp fun s =>
          s.corrected (b.fd.scaleExp j.maxMag 0)).bump Obj.SCALE_CHECK_FAILS h,
        { j with failed := some (b.fd.scaleExp j.maxMag 0) }) := by
  simp [Dev.scaleCheck, hb, hx, ScaleSlot.raised, ScaleSlot.corrected]

/-- A scale check changes scale slots, counts a failure and notes it in the job. -/
theorem Dev.scaleCheck_spec (d : Dev) (h : Nat) (b : GrateBody) (j : GrateJob) (errs : List (Nat × SramOutcome)) :
    ∃ d', d.Works Hearth.unslotted h d' ∧ (d.scaleCheck h b j errs = (d', j) ∨
      ∃ v, d.scaleCheck h b j errs = (d'.bump Obj.SCALE_CHECK_FAILS h, { j with failed := some v })) := by
  have hraised : d.Works Hearth.unslotted h ((d.meetSlots h [b.slotExp] errs).modSlot h b.slotExp fun s => s.raised j) :=
    (Dev.meetSlots_works ..).trans (Dev.modSlot_works ..)
  cases hb : b.fd.scaled with
  | false => exact ⟨d, .refl .., .inl (Dev.scaleCheck_unscaled hb)⟩
  | true =>
    cases hx : b.fd.exceeds j.maxMag j.exp with
    | false => exact ⟨_, hraised, .inl (Dev.scaleCheck_passed hb hx)⟩
    | true => exact ⟨_, hraised.trans (Dev.modSlot_works ..), .inr ⟨_, Dev.scaleCheck_failed hb hx⟩⟩

/-- A check that passes where the code finds no new error raises STEP_MAX. -/
theorem Dev.scaleRaised_spec (d : Dev) (h : Nat) (b : GrateBody) (j : GrateJob) :
    ∃ a, ((d.meetSlots h [b.slotExp] []).modSlot h b.slotExp fun s => s.raised j) = a ∧
      (a.hearth h).slot b.slotExp = ((d.hearth h).slot b.slotExp).raised j ∧ (a.hearth h).jobs = (d.hearth h).jobs ∧
      a.get Obj.SCALE_CHECK_FAILS h = d.get Obj.SCALE_CHECK_FAILS h := by
  have hmet := (d.meetSlots_nil_works h [b.slotExp]).control
  have hraised := hmet.unslotted.trans (Dev.modSlot_works _ h b.slotExp fun s => s.raised j)
  exact ⟨_, rfl, Dev.slot_modSlot (Hearth.slot_congr (Hearth.slots_of_control hmet.hearth) _) _, Hearth.jobs_of_unslotted hraised.hearth,
    hraised.counters _ (by decide)⟩

theorem Dev.scaleCheck_passed_spec (hb : b.fd.scaled = true) (hx : b.fd.exceeds j.maxMag j.exp = false) :
    ∃ d', d.scaleCheck h b j [] = (d', j) ∧ (d'.hearth h).slot b.slotExp = ((d.hearth h).slot b.slotExp).raised j ∧
      (d'.hearth h).jobs = (d.hearth h).jobs ∧ d'.get Obj.SCALE_CHECK_FAILS h = d.get Obj.SCALE_CHECK_FAILS h := by
  obtain ⟨a, ha, hspec⟩ := d.scaleRaised_spec h b j
  exact ⟨a, by rw [Dev.scaleCheck_passed hb hx, ha], hspec⟩

/-- A failed check where the code finds no new error sets the slot's exponent and is counted. -/
theorem Dev.scaleCheck_failed_spec (hb : b.fd.scaled = true) (hx : b.fd.exceeds j.maxMag j.exp = true) :
    ∃ d', d.scaleCheck h b j [] = (d', { j with failed := some (b.fd.scaleExp j.maxMag 0) }) ∧
      (d'.hearth h).slot b.slotExp = (((d.hearth h).slot b.slotExp).raised j).corrected (b.fd.scaleExp j.maxMag 0) ∧
      (d'.hearth h).jobs = (d.hearth h).jobs ∧ d'.get Obj.SCALE_CHECK_FAILS h = (d.get Obj.SCALE_CHECK_FAILS h + 1) % 2 ^ 64 := by
  obtain ⟨a, ha, hslot, hjobs, hfails⟩ := d.scaleRaised_spec h b j
  refine ⟨(a.modSlot h b.slotExp fun s => s.corrected (b.fd.scaleExp j.maxMag 0)).bump Obj.SCALE_CHECK_FAILS h,
    by rw [Dev.scaleCheck_failed hb hx, ha], ?_, ?_, ?_⟩
  · rw [Dev.hearth_bump]
    exact Dev.slot_modSlot hslot _
  · rw [Dev.hearth_bump]
    exact (Hearth.jobs_of_unslotted (Dev.modSlot_works a h ..).hearth).trans hjobs
  · rw [Dev.get_bump_self _ _ _ _ _ one_ne_zero]
    exact congrArg (fun n => (n + 1) % 2 ^ 64) hfails

end

/-! ### The drain of a buffer (R47) -/

/-- The end of a drain of n-block `nb`, with the job as it is then: the scale check at the entry's last, an early signal, the buffer freed. -/
def Dev.drainFinish (d : Dev) (h : Nat) (e : WEntry) (nb : Nat) (j : GrateJob) (errs : List (Nat × SramOutcome)) : Dev :=
  let b := GrateBody.ofWord e.raw
  let p := if j.drained = b.pairs then d.scaleCheck h b j (slotErrs errs) else (d, j)
  p.1.modHearth h fun x =>
    let x := if b.sigEarly && decide (nb + 1 = b.nBlocks) then x.signal e else x
    { x.setJob p.2 with bufs := x.bufs.tail }

/-- The job after one more drain, of an output with magnitude `mag`. -/
def GrateJob.drain (j : GrateJob) (mag : Nat) (ash : Bool) : GrateJob :=
  { j with drained := j.drained + 1, maxMag := Nat.max j.maxMag mag, ashSeen := ash }

theorem Dev.Works.foldl_fst {α β ι : Type} {f : Hearth → α} {h : Nat} {l : List ι} {u : Dev × β → ι → Dev × β}
    (hu : ∀ (a : Dev × β) i, a.1.Works f h (u a i).1) (a : Dev × β) : a.1.Works f h (l.foldl u a).1 := by
  induction l generalizing a with
  | nil => exact .refl ..
  | cons i l ih => exact (hu a i).trans (ih _)

/-- Saturations of a drain are counted, and with FP32 output raised once. -/
theorem Dev.saturations_works (a : Dev) (h n : Nat) (c : Prop) [Decidable c] :
    a.Works Hearth.control h (if c then (if n = 0 then a else
      (a.bump Obj.ACC_SATURATIONS h n).raiseOnce h Once.accSat.num Event.accSaturation) else a.bump Obj.CONVERT_SATURATIONS h n) := by
  split
  · split
    · exact .refl ..
    · exact .trans (.bump (by decide) ..) (Dev.raiseOnce_works ..).control
  · exact .bump (by decide) ..

theorem Dev.epilogue_works {h : Nat} (hh : h < 1024) (a : Dev) (c : Prop) [Decidable c] (n : Nat) :
    a.Works Hearth.control h (if c then a else a.chargeVector h n) := by
  split
  · exact .refl ..
  · exact Dev.chargeVector_works _ hh ..

/-- A buffer's errors are counted and its runs written. -/
theorem Dev.drainRuns_works {h : Nat} {fmt : Fmt}
    {u : Dev × List ((Nat × Nat) × Drained) → Nat × List (Nat × Nat) → Dev × List ((Nat × Nat) × Drained)}
    (hu : ∀ a i, ∃ es, (u a i).1 = a.1.ownElems h fmt i.1 es) (d : Dev) (access : Nat → Nat) (errs : List (Nat × SramOutcome))
    (runs : List (Nat × List (Nat × Nat))) : d.Works Hearth.control h (runs.foldl u (d.countSram h access errs, [])).1 := by
  refine (Dev.countSram_works d h access errs).control.trans (.foldl_fst (fun a i => ?_) (_, []))
  obtain ⟨es, hes⟩ := hu a i
  rw [hes]
  exact Dev.ownElems_works ..

/-- A drain writes, counts and charges, and then finishes. -/
theorem Dev.drainBuf_spec {h : Nat} (hh : h < 1024) (d : Dev) (e : WEntry) (j : GrateJob) (buf : AccBuf) (errs : List (Nat × SramOutcome)) :
    ∃ d' mag ash, d.Works Hearth.control h d' ∧ d.drainBuf h e j buf errs = d'.drainFinish h e buf.nb (j.drain mag ash) errs := by
  refine ⟨_, _, _, .trans (.trans ?_ (Dev.saturations_works ..)) (Dev.epilogue_works hh ..), rfl⟩
  split
  · exact Dev.drainRuns_works (fun _ _ => ⟨_, rfl⟩) ..
  · exact (Dev.drainRuns_works (fun _ _ => ⟨_, rfl⟩) ..).trans (.foldl (fun a q => .foldl (fun a v => Dev.ownRun_works ..) a) _)

/-! ### What a drain leaves behind -/

/-- A signal changes counters and increments. -/
theorem Hearth.signal_spec (x : Hearth) (e : WEntry) : ∃ w c, x.signal e = { x with window := w, counters := c } := by
  unfold Hearth.signal Hearth.increment
  split
  · split
    · split
      · exact ⟨_, _, rfl⟩
      · exact ⟨_, _, rfl⟩
    · exact ⟨_, _, rfl⟩
  · exact ⟨_, _, rfl⟩

/-- A hearth whose job `j` has replaced the one with its number finds it. -/
theorem mem_setJob {js : List GrateJob} {j j' : GrateJob} (hj : j ∈ js) (hid : j'.id = j.id) :
    j' ∈ js.map fun o => if o.id = j'.id then j' else o :=
  List.mem_map.mpr ⟨j, hj, if_pos hid.symm⟩

/-- What the finish of a drain leaves in the hearth, from the scale check's answer. -/
theorem Dev.drainFinish_hearth {d : Dev} {h nb : Nat} {e : WEntry} {j : GrateJob} {errs : List (Nat × SramOutcome)} {p : Dev × GrateJob}
    (hp : (if j.drained = (GrateBody.ofWord e.raw).pairs then d.scaleCheck h (GrateBody.ofWord e.raw) j (slotErrs errs) else (d, j)) = p) :
    ((d.drainFinish h e nb j errs).hearth h).bufs = (p.1.hearth h).bufs.tail ∧
    ((d.drainFinish h e nb j errs).hearth h).jobs = ((p.1.hearth h).setJob p.2).jobs ∧
    ((d.drainFinish h e nb j errs).hearth h).slots = (p.1.hearth h).slots ∧
    (d.drainFinish h e nb j errs).hbm = p.1.hbm ∧ (d.drainFinish h e nb j errs).slow = p.1.slow ∧
    ∀ o : ObjDef, (d.drainFinish h e nb j errs).get o h = p.1.get o h := by
  obtain ⟨w, c, hsig⟩ := (p.1.hearth h).signal_spec e
  simp only [Dev.drainFinish, hp, Dev.modHearth, Dev.hearth_setHearth_self]
  refine ⟨?_, ?_, ?_, rfl, rfl, fun _ => rfl⟩ <;> split <;> simp only [hsig, Hearth.setJob]

section
variable {s : State} {h : Fin 1024} {errs : List (Nat × SramOutcome)} {buf : AccBuf} {rest : List AccBuf} {e : WEntry} {j : GrateJob}

/-- OUTPUT_DRAIN of the buffer completed first, up to its finish. -/
theorem State.outputDrain_exec (hb : (s.dev.hearth h.val).bufs = buf :: rest) (he : (s.dev.hearth h.val).entryOf buf.id = some e)
    (hj : (s.dev.hearth h.val).jobs.find? (fun j => j.id = buf.id) = some j) (errs : List (Nat × SramOutcome)) :
    ∃ d mag ash, s.dev.Works Hearth.control h.val d ∧
      exec (.outputDrain h errs) s = .next { s with dev := d.drainFinish h.val e buf.nb (j.drain mag ash) errs } := by
  obtain ⟨d, mag, ash, hworks, hdrain⟩ := (s.dev.work h.val).drainBuf_spec h.isLt e j buf errs
  refine ⟨d, mag, ash, (Dev.work_works ..).trans hworks, State.onDev_next (f := fun d => d.cmdDrain h.val errs) ?_⟩
  simp only [Dev.cmdDrain, hb, he, hj, hdrain]

theorem State.drained (hb : (s.dev.hearth h.val).bufs = buf :: rest) (he : (s.dev.hearth h.val).entryOf buf.id = some e)
    (hj : (s.dev.hearth h.val).jobs.find? (fun j => j.id = buf.id) = some j) (errs : List (Nat × SramOutcome)) :
    ∃ t, exec (.outputDrain h errs) s = .next t ∧ (t.dev.hearth h.val).bufs = rest ∧
      (∃ j' ∈ (t.dev.hearth h.val).jobs, j'.id = j.id ∧ j'.drained = j.drained + 1 ∧ j.maxMag ≤ j'.maxMag) ∧ s.KeepsMemory t := by
  obtain ⟨d, mag, ash, hworks, hexec⟩ := State.outputDrain_exec hb he hj errs
  have hmem := List.mem_of_find?_eq_some hj
  obtain ⟨p, hp, hpd, hpid, hpdr, hpmax⟩ : ∃ p : Dev × GrateJob,
      (if (j.drain mag ash).drained = (GrateBody.ofWord e.raw).pairs then
        d.scaleCheck h.val (GrateBody.ofWord e.raw) (j.drain mag ash) (slotErrs errs) else (d, j.drain mag ash)) = p ∧
      (p.1.hbm = s.dev.hbm ∧ p.1.slow = s.dev.slow ∧ (p.1.hearth h.val).unslotted = (s.dev.hearth h.val).unslotted) ∧
      p.2.id = j.id ∧ p.2.drained = j.drained + 1 ∧ p.2.maxMag = Nat.max j.maxMag mag := by
    split
    · obtain ⟨d', hw, hc | ⟨v, hc⟩⟩ := d.scaleCheck_spec h.val (GrateBody.ofWord e.raw) (j.drain mag ash) (slotErrs errs)
      all_goals
        have hw := hworks.unslotted.trans hw
        exact ⟨_, hc, ⟨hw.hbm, hw.slow, hw.hearth⟩, rfl, rfl, rfl⟩
    · exact ⟨_, rfl, ⟨hworks.hbm, hworks.slow, hworks.unslotted.hearth⟩, rfl, rfl, rfl⟩
  obtain ⟨hhbm, hslow, hhearth⟩ := hpd
  obtain ⟨hbufs, hjobs, -, hhbm', hslow', -⟩ := Dev.drainFinish_hearth (nb := buf.nb) hp
  have hpb : (p.1.hearth h.val).bufs = (s.dev.hearth h.val).bufs := Hearth.bufs_of_unslotted hhearth
  have hpj : (p.1.hearth h.val).jobs = (s.dev.hearth h.val).jobs := Hearth.jobs_of_unslotted hhearth
  refine ⟨_, hexec, ?_, ⟨p.2, ?_, hpid, hpdr, ?_⟩, hhbm'.trans hhbm, hslow'.trans hslow, rfl, rfl⟩
  · rw [hbufs, hpb, hb, List.tail_cons]
  · rw [hjobs, Hearth.setJob, hpj]
    exact mem_setJob hmem hpid
  · rw [hpmax]
    exact Nat.le_max_left ..

/-- The last drain of an entry with a scaled format makes the scale check (R70, R71). -/
theorem State.lastDrained (hb : (s.dev.hearth h.val).bufs = buf :: rest) (he : (s.dev.hearth h.val).entryOf buf.id = some e)
    (hj : (s.dev.hearth h.val).jobs.find? (fun j => j.id = buf.id) = some j) {b : GrateBody} (hbody : b = GrateBody.ofWord e.raw)
    (hscaled : b.fd.scaled = true) (hlast : j.drained + 1 = b.pairs) :
    ∃ t, exec (.outputDrain h []) s = .next t ∧
      ∃ j' ∈ (t.dev.hearth h.val).jobs, j'.id = j.id ∧ j'.exp = j.exp ∧
        ((t.dev.hearth h.val).slot b.slotExp).stepMax = max ((s.dev.hearth h.val).slot b.slotExp).stepMax j'.maxMag ∧
        (b.fd.exceeds j'.maxMag j.exp = true → j'.failed = some (b.fd.scaleExp j'.maxMag 0) ∧
          ((t.dev.hearth h.val).slot b.slotExp).curExp = b.fd.scaleExp j'.maxMag 0 ∧
          t.dev.get Obj.SCALE_CHECK_FAILS h.val = (s.dev.get Obj.SCALE_CHECK_FAILS h.val + 1) % 2 ^ 64) ∧
        (b.fd.exceeds j'.maxMag j.exp = false → j'.failed = j.failed ∧
          t.dev.get Obj.SCALE_CHECK_FAILS h.val = s.dev.get Obj.SCALE_CHECK_FAILS h.val) := by
  subst hbody
  obtain ⟨d, mag, ash, hworks, hexec⟩ := State.outputDrain_exec hb he hj []
  have hjobs : (d.hearth h.val).jobs = (s.dev.hearth h.val).jobs := Hearth.jobs_of_unslotted hworks.unslotted.hearth
  have hslot : (d.hearth h.val).slot (GrateBody.ofWord e.raw).slotExp = (s.dev.hearth h.val).slot (GrateBody.ofWord e.raw).slotExp :=
    Hearth.slot_congr (Hearth.slots_of_control hworks.hearth) _
  have hfails : d.get Obj.SCALE_CHECK_FAILS h.val = s.dev.get Obj.SCALE_CHECK_FAILS h.val := hworks.counters _ (by decide)
  have hmem : j ∈ (d.hearth h.val).jobs := hjobs ▸ List.mem_of_find?_eq_some hj
  cases hx : (GrateBody.ofWord e.raw).fd.exceeds (j.drain mag ash).maxMag j.exp with
  | true =>
    obtain ⟨d', hcheck, hslot', hjobs', hfails'⟩ := Dev.scaleCheck_failed_spec (d := d) (h := h.val) hscaled hx
    obtain ⟨-, hj', hs', -, -, hget⟩ := Dev.drainFinish_hearth (j := j.drain mag ash) (nb := buf.nb) (errs := [])
      ((if_pos hlast).trans hcheck)
    refine ⟨_, hexec, { j.drain mag ash with failed := some ((GrateBody.ofWord e.raw).fd.scaleExp (j.drain mag ash).maxMag 0) }, ?_, rfl, rfl, ?_,
      fun _ => ⟨rfl, ?_, ?_⟩, fun hno => absurd (hx.symm.trans hno) (by decide)⟩
    · rw [hj', Hearth.setJob, hjobs']
      exact mem_setJob hmem rfl
    · rw [Hearth.slot_congr hs', hslot', hslot]; rfl
    · rw [Hearth.slot_congr hs', hslot']; rfl
    · rw [hget, hfails', hfails]
  | false =>
    obtain ⟨d', hcheck, hslot', hjobs', hfails'⟩ := Dev.scaleCheck_passed_spec (d := d) (h := h.val) hscaled hx
    obtain ⟨-, hj', hs', -, -, hget⟩ := Dev.drainFinish_hearth (j := j.drain mag ash) (nb := buf.nb) (errs := [])
      ((if_pos hlast).trans hcheck)
    refine ⟨_, hexec, j.drain mag ash, ?_, rfl, rfl, ?_, fun hyes => absurd (hx.symm.trans hyes) (by decide), fun _ => ⟨rfl, ?_⟩⟩
    · rw [hj', Hearth.setJob, hjobs']
      exact mem_setJob hmem rfl
    · rw [Hearth.slot_congr hs', hslot', hslot]; rfl
    · rw [hget, hfails', hfails]

/-- SKIP_CHECK_READ reads the first of the blocks to check (R121). -/
theorem State.skipChecked (s : State) (h : Fin 1024) (sram : List (Nat × SramOutcome)) {c : Nat × Nat × Nat} {rest : List (Nat × Nat × Nat)}
    (hj : (s.dev.hearth h.val).jobs.find? (fun j => !j.checks.isEmpty) = some j) (he : (s.dev.hearth h.val).entryOf j.id = some e)
    (hc : j.checks = c :: rest) :
    ∃ t, exec (.skipCheckRead h sram) s = .next t ∧
      (∃ j' ∈ (t.dev.hearth h.val).jobs, j'.id = j.id ∧ j'.checks = rest ∧ (j.wrongSkip = true → j'.wrongSkip = true)) ∧
      (sram = [] → (t.dev.hearth h.val).scr = (s.dev.hearth h.val).scr) ∧ s.KeepsMemory t := by
  have hread := s.dev.readSram_works h.val e sram
  have hcmd : ∃ wrong, s.dev.cmdSkipCheck h.val sram = (s.dev.readSram h.val e sram).modHearth h.val
      fun x => x.setJob { j with checks := rest, wrongSkip := j.wrongSkip || wrong } := by
    simp only [Dev.cmdSkipCheck, hj, he, hc]
    exact ⟨_, rfl⟩
  obtain ⟨wrong, hcmd⟩ := hcmd
  refine ⟨_, State.onDev_next (f := fun d => d.cmdSkipCheck h.val sram) hcmd, ⟨{ j with checks := rest, wrongSkip := j.wrongSkip || wrong },
    ?_, rfl, rfl, fun hw => by simp [hw]⟩, fun hs => ?_, hread.hbm, hread.slow, rfl, rfl⟩
  · simp only [Dev.modHearth, Dev.hearth_setHearth_self, Hearth.setJob, Hearth.jobs_of_unslotted hread.unslotted.hearth]
    exact mem_setJob (List.mem_of_find?_eq_some hj) rfl
  · simp only [hs, Dev.readSram_nil, Dev.modHearth, Dev.hearth_setHearth_self]
    rfl

end

/-- Settles O10: the bank's arbitration decides what a feeder reads, and drains and check readers take the head of their lists. -/
theorem feederDrainAndCheckReadersAdvance : Obligations.FeederDrainAndCheckReadersAdvance := by
  unfold Obligations.FeederDrainAndCheckReadersAdvance
  intro s h
  exact ⟨fun row _ _ _ _ => s.feederFed h row, fun row _ _ _ _ _ _ _ => s.feederRetries h row,
    fun errs _ _ _ _ hb he hj => State.drained hb he hj errs, fun _ _ _ _ _ hbody hb he hj => State.lastDrained hb he hj hbody,
    fun sram _ _ _ _ hj he hc => s.skipChecked h sram hj he hc⟩

end Sys2Proof.Machine
end

section
/-! The firing scan's pick and its firing (R106, R108, R124). -/

namespace Sys2Proof.Machine

/-! ### What the scan says of the entry it picks -/

theorem Dev.scanFrom_fires {d : Dev} {h : Nat} {e : WEntry} {w : List WEntry} {older held : Bool}
    (hp : (d.scanFrom h w older held).1 = some e) : e ∈ w ∧ ∃ older', d.scanOne h e older' = .fires := by
  induction w generalizing older held with
  | nil => simp [Dev.scanFrom] at hp
  | cons o w ih =>
    have hrest : ∀ {older held}, (d.scanFrom h w older held).1 = some e → e ∈ o :: w ∧ ∃ older', d.scanOne h e older' = .fires :=
      fun hp => ⟨List.mem_cons_of_mem _ (ih hp).1, (ih hp).2⟩
    simp only [Dev.scanFrom] at hp
    split at hp
    · split at hp
      · next hv =>
        obtain rfl : o = e := Option.some.inj hp
        exact ⟨List.mem_cons_self .., _, hv⟩
      · exact hrest hp
      · exact hrest hp
    · exact hrest hp

/-- An entry that fires finds its unit free, and a provisional slot where it needs one (R106, R107, R124). -/
theorem Dev.scanOne_fires {d : Dev} {h : Nat} {e : WEntry} {older : Bool} (hv : d.scanOne h e older = .fires) :
    (d.hearth h).unitFree e = true ∧ (e.slot = none → e.predicting = true → (d.hearth h).freeSlot.isSome = true) := by
  simp only [Dev.scanOne] at hv
  split at hv
  · contradiction
  split at hv
  · contradiction
  split at hv
  · contradiction
  split at hv
  · contradiction
  split at hv
  · contradiction
  next hunit _ hslot =>
    refine ⟨by simpa using hunit, fun hnone hpred => ?_⟩
    cases hs : (d.hearth h).freeSlot with
    | some n => rfl
    | none => simp [hnone, hpred, hs] at hslot

/-! ### The entry as it has fired -/

/-- The entry that `markFired` leaves in the window. -/
def Hearth.firedEntry (x : Hearth) (e : WEntry) (ranges : List (Nat × Nat) × List (Nat × Nat)) : WEntry :=
  let src := x.sources e
  let prov := e.slot.isSome || e.predicting || !src.isEmpty
  { e with st := .firing, slot := if prov then (match e.slot with | some s => some s | none => x.freeSlot) else none,
           mask := if prov then (e.mask ++ src.flatMap fun o => o.id :: o.mask).dedup else [], ranges := ranges,
           prov := if prov then (e.prov ++ ranges.2).dedup else e.prov }

section
variable (x : Hearth) (e : WEntry) (ranges : List (Nat × Nat) × List (Nat × Nat))

@[simp] theorem Hearth.firedEntry_id : (x.firedEntry e ranges).id = e.id := rfl

/-- The window once an entry has fired. -/
def Hearth.firedWindow : List WEntry := x.window.map fun o => if o.id = e.id then x.firedEntry e ranges else o

theorem Hearth.markFired_eq : x.markFired e ranges = { x with window := x.firedWindow e ranges } := rfl

end

section
variable {x : Hearth} {e : WEntry} {ranges : List (Nat × Nat) × List (Nat × Nat)}

/-- A predicting entry has a provisional slot once it has fired. -/
theorem Hearth.firedEntry_slot (hslot : e.slot = none → e.predicting = true → x.freeSlot.isSome = true) (hp : e.predicting = true) :
    (x.firedEntry e ranges).slot.isSome = true := by
  simp only [Hearth.firedEntry, hp, Bool.or_true, Bool.true_or, if_true]
  split
  · rfl
  · next hnone => exact hslot hnone hp

theorem Hearth.mem_firedWindow (hm : e ∈ x.window) : x.firedEntry e ranges ∈ x.firedWindow e ranges :=
  List.mem_map.mpr ⟨e, hm, if_pos rfl⟩

/-- The fired entry is the only one with its number. -/
theorem Hearth.find_firedWindow (hm : e ∈ x.window) : (x.firedWindow e ranges).find? (fun o => o.id = e.id) = some (x.firedEntry e ranges) := by
  cases hf : (x.firedWindow e ranges).find? fun o => o.id = e.id with
  | none =>
    have := List.find?_eq_none.mp hf _ (Hearth.mem_firedWindow (ranges := ranges) hm)
    simp at this
  | some o =>
    obtain ⟨o', -, rfl⟩ := List.mem_map.mp (List.mem_of_find?_eq_some hf)
    have hid := List.find?_some hf
    by_cases ho : o'.id = e.id
    · rw [if_pos ho]
    · simp [ho] at hid

/-- Entries of other numbers are found as before. -/
theorem Hearth.find_firedWindow_ne {id : Nat} (hid : id ≠ e.id) :
    (x.firedWindow e ranges).find? (fun o => o.id = id) = x.window.find? fun o => o.id = id := by
  unfold Hearth.firedWindow
  induction x.window with
  | nil => rfl
  | cons o w ih =>
    rw [List.map_cons, List.find?_cons, List.find?_cons, ih]
    by_cases ho : o.id = e.id
    · simp [ho, Ne.symm hid]
    · simp [ho]

end

/-! ### The firing of a GRATE entry -/

/-- A grate entry's ranges are those of its addresses and of the way weights are read. -/
theorem Dev.rangesOf_grate {d d' : Dev} {h : Nat} {e : WEntry} (hx : d'.hearth h = d.hearth h) (hk : e.kind = .grate) :
    d'.rangesOf h e = d.rangesOf h e := by
  have htr : d'.transposed h = d.transposed h := by rw [Dev.transposed, Dev.transposed, hx]
  simp only [Dev.rangesOf, Dev.rangesNow, hk, htr]

theorem Dev.touchesOther_grate {d d' : Dev} {h c : Nat} {e : WEntry} (hx : d'.hearth h = d.hearth h) (hk : e.kind = .grate)
    (hr : ∀ n < 16, d'.get Obj.REGION h n = d.get Obj.REGION h n) : d'.touchesOther h c e = d.touchesOther h c e := by
  simp only [Dev.touchesOther, Dev.rangesOf_grate hx hk]
  rw [Bool.eq_iff_iff, List.any_eq_true, List.any_eq_true]
  exact exists_congr fun n => and_congr_right fun hn => by rw [hr n (List.mem_range.mp hn)]

/-- The device once `e` has fired on hearth `h`, with an egress entry held before it or not: counted, and its entry marked (R106, R108). -/
def Dev.fired (d : Dev) (h : Nat) (e : WEntry) (held : Bool) (ranges : List (Nat × Nat) × List (Nat × Nat)) : Dev :=
  ((d.bump Obj.EGRESS_HOLD_CYCLES h held.toNat).setHearth h { d.hearth h with window := (d.hearth h).firedWindow e ranges }).bump
    Obj.ENTRIES_FIRED h

theorem Dev.hearth_fired (d : Dev) (h : Nat) (e : WEntry) (held : Bool) (ranges : List (Nat × Nat) × List (Nat × Nat)) :
    (d.fired h e held ranges).hearth h = { d.hearth h with window := (d.hearth h).firedWindow e ranges } := by
  rw [Dev.fired, Dev.hearth_bump, Dev.hearth_setHearth_self]

/-- An entry of the grates that the scan picks fires. -/
theorem Dev.fireIf_grate {d : Dev} {h : Nat} {e : WEntry} (hF : d.Fires h .grate e) (fire : Dev → WEntry → Dev) :
    ∃ held ranges, d.fireIf h (fun e => e.kind = .grate) fire = fire (d.fired h e held ranges) ((d.hearth h).firedEntry e ranges) := by
  obtain ⟨hmay, hscan, hkind, -, htouch⟩ := hF
  have hmem := (Dev.scanFrom_fires hscan).1
  obtain ⟨held, hpair⟩ : ∃ held, d.scanFrom h (d.hearth h).window false false = (some e, held) := ⟨_, Prod.ext hscan rfl⟩
  have hheld : (if held = true then d.bump Obj.EGRESS_HOLD_CYCLES h else d) = d.bump Obj.EGRESS_HOLD_CYCLES h held.toNat := by
    cases held <;> rfl
  have hlegal : (d.bump Obj.EGRESS_HOLD_CYCLES h held.toNat).touchesOther h
      (((d.bump Obj.EGRESS_HOLD_CYCLES h held.toNat).hearthCtx h).getD 0) e = false := by
    rw [Dev.hearthCtx, Dev.hearth_bump, ← htouch]
    refine Dev.touchesOther_grate (Dev.hearth_bump ..) hkind fun m hm => Dev.get_bump_ne ?_
    simp only [ObjDef.key, Obj.REGION, Obj.EGRESS_HOLD_CYCLES, Kind.stride]
    omega
  refine ⟨held, (d.bump Obj.EGRESS_HOLD_CYCLES h held.toNat).rangesNow h e, ?_⟩
  have hfired : (d.bump Obj.EGRESS_HOLD_CYCLES h held.toNat).modHearth h (fun x => x.markFired e
      ((d.bump Obj.EGRESS_HOLD_CYCLES h held.toNat).rangesNow h e)) =
      (d.bump Obj.EGRESS_HOLD_CYCLES h held.toNat).setHearth h
        { d.hearth h with window := (d.hearth h).firedWindow e ((d.bump Obj.EGRESS_HOLD_CYCLES h held.toNat).rangesNow h e) } := by
    rw [Dev.modHearth, Dev.hearth_bump, Hearth.markFired_eq]
  simp only [Dev.fireIf, hmay, hpair, hheld, hkind, hlegal, hfired, Bool.not_true, decide_true, Bool.false_eq_true, if_false, Bool.or_self]
  rw [← Dev.fired, Hearth.entryOf, Dev.hearth_fired, Hearth.find_firedWindow hmem]

end Sys2Proof.Machine
end

section
/-! A GRATE entry begins, and the grates fold a pair of its blocks into an accumulator buffer (R34, R38, R43, R69, R120). -/

namespace Sys2Proof.Machine

/-! ### The begin of a GRATE entry -/

/-- The job with which GRATE entry `e` begins. -/
def Dev.newJob (d : Dev) (h : Nat) (e : WEntry) : GrateJob :=
  let b := GrateBody.ofWord e.raw
  let skips := d.skipSet h e b
  { id := e.id, exp := (d.hearth h).outExp e b, ein := d.tagExp h (b.a.tag e.i e.t b.aTag) + d.tagExp h (b.b.tag e.i e.t b.bTag),
    skips := skips, checks := b.checkSet skips, folded := 0, drained := 0, wrongSkip := false, maxMag := 0, ashSeen := false,
    failed := none }

/-- A hearth on which job `j` begins, the slot of its exponent written or not. -/
def Hearth.begun (x : Hearth) (j : GrateJob) (choose : Bool) (b : GrateBody) : Hearth :=
  let x := if choose then x.writeSlot b.slotExp false fun s => s.choose b.fd else x
  { x with jobs := x.jobs ++ [j], feeders := [], feederPos := [], feedHalf := [] }

/-- A GRATE entry's begin reads its slot, counts and adds its job. -/
theorem Dev.startGrate_spec (d : Dev) (h : Nat) (e : WEntry) (sram : List (Nat × SramOutcome)) :
    ∃ d' j choose, d.Works Hearth.unslotted h d' ∧ (sram = [] → d.Works Hearth.unnoted h d') ∧ j.id = e.id ∧ j.folded = 0 ∧
      d.startGrate h e sram = d'.setHearth h ((d'.hearth h).begun j choose (GrateBody.ofWord e.raw)) := by
  have hcounts : ∀ (a : Dev) (n m : Nat), a.Works Hearth.unnoted h ((a.bump Obj.NONFINITE_INPUTS h n).bump Obj.BLOCK_PRODUCTS_SKIPPED h m) :=
    fun a n m => .trans (.bump (by decide) ..) (.bump (by decide) ..)
  have hmet := d.meetSlots_works h ((d.hearth h).slotReads (GrateBody.ofWord e.raw)) sram
  refine ⟨_, (d.meetSlots h ((d.hearth h).slotReads (GrateBody.ofWord e.raw)) sram).newJob h e, _,
    hmet.trans (hcounts _ _ _).control.unslotted, fun hs => ?_, rfl, rfl, rfl⟩
  subst hs
  exact (Dev.meetSlots_nil_works ..).trans (hcounts _ _ _)

/-! ### One pair of blocks -/

/-- A hearth without the row queues and the planes of the grates. -/
def Hearth.unqueued (x : Hearth) : Hearth := { x with feeders := [], feederPos := [], feedHalf := [], planes := [] }

theorem Hearth.unqueued_consume (x : Hearth) (n : Nat) : (x.consume n).unqueued = x.unqueued := by
  unfold Hearth.consume
  refine (foldl_same (g := Hearth.unqueued) (fun _ _ _ => ?_) _).trans ?_ <;> rfl

theorem Hearth.unqueued_setPlanes (x : Hearth) (e : WEntry) (b : GrateBody) (tr : Bool) (nb : Nat) :
    (x.setPlanes e b tr nb).unqueued = x.unqueued := by
  unfold Hearth.setPlanes
  refine (foldl_same (g := Hearth.unqueued) (fun _ _ _ => ?_) _).trans ?_ <;> rfl

/-- The accumulator elements of the pair that job `j` folds next, row after row. -/
def Dev.pairAccs (d : Dev) (h : Nat) (e : WEntry) (j : GrateJob) : List AccElem :=
  let b := GrateBody.ofWord e.raw
  let x := d.hearth h
  let tr := d.transposed h
  let nb := j.folded / b.mBlocks
  let mb := j.folded % b.mBlocks
  let rows := (List.range (b.rowsOf mb)).map (256 * mb + ·)
  let cols := (List.range (b.colsOf nb)).map (128 * nb + ·)
  let coords := b.coords j.skips nb mb
  let kbs := List.range b.kBlocks
  let ws := kbs.map fun kb => cols.map fun n => (x.wCol e b tr kb n).map (gval b.fb)
  rows.flatMap fun m =>
    let as := kbs.map fun kb => (x.actVec e b coords m kb).map (gval b.fa)
    (cols.zipIdx).map fun nc =>
      kbs.foldl (fun acc kb =>
        if j.skips.contains (m / 32, kb, nc.1 / 32) then acc
        else acc.add (colSum (as.getD kb []) ((ws.getD kb []).getD nc.2 []))) (⟨0, false, 0⟩ : AccElem)

/-- The buffer of the pair that job `j` folds next. -/
def Dev.pairBuf (d : Dev) (h : Nat) (e : WEntry) (j : GrateJob) : AccBuf :=
  ⟨j.id, j.folded / (GrateBody.ofWord e.raw).mBlocks, j.folded % (GrateBody.ofWord e.raw).mBlocks,
    (d.pairAccs h e j).map fun a => (a.raw, a.ash)⟩

/-- The hearth with the next pair of job `j` folded, one of its skips found wrong or not. -/
def Hearth.paired (x : Hearth) (e : WEntry) (j : GrateJob) (tr wrong : Bool) (buf : AccBuf) : Hearth :=
  let b := GrateBody.ofWord e.raw
  let x := ((x.consume (b.coords j.skips (j.folded / b.mBlocks) (j.folded % b.mBlocks)).length).setPlanes e b tr (j.folded / b.mBlocks)).setJob
    { j with folded := j.folded + 1, wrongSkip := wrong }
  { x with bufs := x.bufs ++ [buf] }

theorem Hearth.unqueued_paired (x : Hearth) (e : WEntry) (j : GrateJob) (tr wrong : Bool) (buf : AccBuf) :
    (x.paired e j tr wrong buf).unqueued = { x.unqueued with
      jobs := (x.setJob { j with folded := j.folded + 1, wrongSkip := wrong }).jobs, bufs := x.bufs ++ [buf] } := by
  have hx := (Hearth.unqueued_setPlanes (x.consume _) e (GrateBody.ofWord e.raw) tr (j.folded / (GrateBody.ofWord e.raw).mBlocks)).trans
    (Hearth.unqueued_consume x ((GrateBody.ofWord e.raw).coords j.skips (j.folded / (GrateBody.ofWord e.raw).mBlocks)
      (j.folded % (GrateBody.ofWord e.raw).mBlocks)).length)
  exact congrArg (fun y : Hearth => { y with
    jobs := (y.setJob { j with folded := j.folded + 1, wrongSkip := wrong }).jobs, bufs := y.bufs ++ [buf] }) hx

/-- A fold changes the hearth so, and then counts and charges. -/
theorem Dev.foldPair_works {h : Nat} (hh : h < 1024) (d : Dev) (e : WEntry) (j : GrateJob) :
    ∃ wrong, (d.setHearth h ((d.hearth h).paired e j (d.transposed h) wrong (d.pairBuf h e j))).Works Hearth.unnoted h (d.foldPair h e j) := by
  have hsats : ∀ (a : Dev) (n : Nat), a.Works Hearth.unnoted h
      (if n = 0 then a else (a.bump Obj.ACC_SATURATIONS h n).raiseOnce h Once.accSat.num Event.accSaturation) := fun a n => by
    split
    · exact .refl ..
    · exact .trans (.bump (by decide) ..) (Dev.raiseOnce_works ..)
  have hwork : ∀ (a : Dev) (c : Bool), a.Works Hearth.unnoted h (if c then a else a.work h) := fun a c => by
    split
    · exact .refl ..
    · exact Dev.work_works ..
  exact ⟨_, .trans (.trans (Dev.chargeGrate_works _ hh ..) (hwork ..)) (hsats ..)⟩

/-! ### The sums of a pair where nothing is skipped and no queue holds anything (R34, R38) -/

/-- The accumulator element of row `m` and column `n`: the exact column sums of its k-blocks added in order. -/
def Hearth.accOf (x : Hearth) (e : WEntry) (b : GrateBody) (tr : Bool) (m n : Nat) : AccElem :=
  (List.range b.kBlocks).foldl (fun (a : AccElem) kb => a.add (colSum
    ((List.range (b.kWidth kb)).map fun k => gval b.fa (x.aElem e b m (b.kStep * kb + k)))
    ((List.range (b.kWidth kb)).map fun k => gval b.fb (x.wElem e b tr (b.kStep * kb + k) n)))) ⟨0, false, 0⟩

/-- With empty queues an activation element is read from the scratchpad. -/
theorem Hearth.actVec_empty {x : Hearth} (hx : x.feeders = []) (e : WEntry) (b : GrateBody) (coords : List (Nat × Nat)) (m kb : Nat) :
    x.actVec e b coords m kb = (List.range (b.kWidth kb)).map fun r => x.aElem e b m (b.kStep * kb + r) := by
  simp [Hearth.actVec, Hearth.actElem, hx, tget]

theorem zipIdx_map_range {α β : Type} (g : Nat → α) (f : α × Nat → β) (n : Nat) :
    (((List.range n).map g).zipIdx).map f = (List.range n).map fun c => f (g c, c) := by
  apply List.ext_getElem <;> simp

theorem getD_map_range {α : Type} (g : Nat → α) {n i : Nat} (h : i < n) (a : α) : ((List.range n).map g).getD i a = g i := by
  simp [List.getD, h]

/-- Every element of the pair's buffer is the sum of its row and column. -/
theorem Dev.pairAccs_plain {d : Dev} {h : Nat} {e : WEntry} {j : GrateJob} (hq : (d.hearth h).feeders = []) (hs : j.skips = []) :
    d.pairAccs h e j = (List.range ((GrateBody.ofWord e.raw).rowsOf (j.folded % (GrateBody.ofWord e.raw).mBlocks))).flatMap fun r =>
      (List.range ((GrateBody.ofWord e.raw).colsOf (j.folded / (GrateBody.ofWord e.raw).mBlocks))).map fun c =>
        (d.hearth h).accOf e (GrateBody.ofWord e.raw) (d.transposed h) (256 * (j.folded % (GrateBody.ofWord e.raw).mBlocks) + r)
          (128 * (j.folded / (GrateBody.ofWord e.raw).mBlocks) + c) := by
  simp only [Dev.pairAccs, hs, List.flatMap_map, zipIdx_map_range, Hearth.actVec_empty hq]
  refine List.flatMap_congr fun r _ => List.map_congr_left fun c hc => ?_
  refine List.foldl_ext _ _ _ fun a kb hkb => ?_
  have hkb := List.mem_range.mp hkb
  have hc := List.mem_range.mp hc
  rw [if_neg (by simp), getD_map_range _ hkb, getD_map_range _ hkb, List.map_map, List.map_map, getD_map_range _ hc]
  simp only [Function.comp_def, Hearth.wCol, List.map_map]

/-! ### Folding on (R43) -/

/-- What of a hearth folding leaves. -/
def Hearth.steady (x : Hearth) : Hearth := { x.unqueued with once := [], jobs := [], bufs := [] }

theorem Hearth.steady_of_unqueued {x y : Hearth} {js : List GrateJob} {bs : List AccBuf}
    (g : y.unqueued = { x.unqueued with jobs := js, bufs := bs }) : y.steady = x.steady :=
  congrArg (fun z : Hearth => { z with once := [], jobs := [], bufs := [] }) g

theorem Hearth.steady_of_unnoted {x y : Hearth} (g : x.unnoted = y.unnoted) : x.steady = y.steady := congrArg (fun z => z.steady) g

/-- A fold adds its buffer and counts itself in the job. -/
theorem Dev.foldPair_spec {h : Nat} (hh : h < 1024) (d : Dev) (e : WEntry) (j : GrateJob) :
    d.Works Hearth.steady h (d.foldPair h e j) ∧
      (∃ wrong, ((d.foldPair h e j).hearth h).jobs = ((d.hearth h).setJob { j with folded := j.folded + 1, wrongSkip := wrong }).jobs) ∧
      ((d.foldPair h e j).hearth h).bufs = (d.hearth h).bufs ++ [d.pairBuf h e j] := by
  obtain ⟨wrong, hworks⟩ := d.foldPair_works hh e j
  have hy := (d.hearth h).unqueued_paired e j (d.transposed h) wrong (d.pairBuf h e j)
  have hx := hworks.hearth
  rw [Dev.hearth_setHearth_self] at hx
  have hu := Hearth.unslotted_of_control (Hearth.control_of_unnoted hx)
  refine ⟨⟨hworks.hbm, hworks.slow, hworks.counters, ?_⟩, ⟨wrong, ?_⟩, ?_⟩
  · exact (Hearth.steady_of_unnoted hx).trans (Hearth.steady_of_unqueued hy)
  · exact (Hearth.jobs_of_unslotted hu).trans (congrArg (fun z => z.jobs) hy)
  · exact (Hearth.bufs_of_unslotted hu).trans (congrArg (fun z => z.bufs) hy)

/-- The entry with number `id` has a pair folded. -/
def Hearth.HasFolded (x : Hearth) (id : Nat) : Prop := ∃ j ∈ x.jobs, j.id = id ∧ 1 ≤ j.folded

theorem Hearth.HasFolded.setJob {x : Hearth} {id : Nat} (g : x.HasFolded id) {j : GrateJob} (hj : 1 ≤ j.folded) : (x.setJob j).HasFolded id := by
  obtain ⟨o, ho, hid, hf⟩ := g
  by_cases h : o.id = j.id
  · exact ⟨j, mem_setJob ho h.symm, h.symm.trans hid, hj⟩
  · exact ⟨o, List.mem_map.mpr ⟨o, ho, if_neg h⟩, hid, hf⟩

theorem Hearth.hasFolded_congr {x y : Hearth} (hj : y.jobs = x.jobs) (id : Nat) : y.HasFolded id ↔ x.HasFolded id := by
  rw [Hearth.HasFolded, Hearth.HasFolded, hj]

theorem Dev.HasFolded.foldPair {d : Dev} {h id : Nat} (hh : h < 1024) (g : (d.hearth h).HasFolded id) (e : WEntry) (j : GrateJob) :
    ((d.foldPair h e j).hearth h).HasFolded id := by
  obtain ⟨-, ⟨wrong, hj⟩, -⟩ := d.foldPair_spec hh e j
  rw [Hearth.hasFolded_congr hj]
  exact g.setJob (Nat.le_add_left ..)

/-- The grates fold on only while a buffer is free. -/
theorem Dev.foldOn_full {d : Dev} {h : Nat} (hb : 2 ≤ (d.hearth h).bufs.length) (n : Nat) : d.foldOn h n = d := by
  cases n with
  | zero => rfl
  | succ n =>
    rw [Dev.foldOn]
    split
    · rfl
    · rw [if_neg (by omega)]

theorem Dev.foldOn_step {d : Dev} {h : Nat} {e : WEntry} {j : GrateJob} (hf : (d.hearth h).folding = some (e, j))
    (hb : (d.hearth h).bufs.length < 2) (n : Nat) : d.foldOn h (n + 1) = (d.foldPair h e j).foldOn h n := by
  simp only [Dev.foldOn, hf, if_pos hb]

theorem Dev.foldOn_works {h : Nat} (hh : h < 1024) (n : Nat) (d : Dev) :
    d.Works Hearth.steady h (d.foldOn h n) ∧ ∀ id, (d.hearth h).HasFolded id → ((d.foldOn h n).hearth h).HasFolded id := by
  induction n generalizing d with
  | zero => exact ⟨.refl .., fun _ g => g⟩
  | succ n ih =>
    rw [Dev.foldOn]
    split
    · exact ⟨.refl .., fun _ g => g⟩
    · next e j _ =>
      split
      · exact ⟨(d.foldPair_spec hh e j).1.trans (ih _).1, fun id g => (ih _).2 id (Dev.HasFolded.foldPair hh g e j)⟩
      · exact ⟨.refl .., fun _ g => g⟩

/-- The job that folds next is one of the hearth's. -/
theorem Hearth.mem_jobs_of_folding {x : Hearth} {e : WEntry} {j : GrateJob} (hf : x.folding = some (e, j)) : j ∈ x.jobs := by
  unfold Hearth.folding at hf
  split at hf
  · contradiction
  · next o ho =>
    obtain ⟨_, -, heq⟩ := Option.map_eq_some_iff.mp hf
    obtain rfl : o = j := congrArg Prod.snd heq
    exact List.mem_of_find?_eq_some ho

/-! ### The command (R40, R43, R332) -/

/-- What the grates do before they fold: stalls are counted and charged, the operands read. -/
def Dev.stalled (d : Dev) (h : Nat) (e : WEntry) (j : GrateJob) (stalls : Nat) (sram : List (Nat × SramOutcome)) : Dev :=
  (((if stalls = 0 then d else d.work h).bump Obj.FEEDER_STALL_CYCLES h stalls).chargeGrate h
    (stalls * ((GrateBody.ofWord e.raw).colBlocks (j.folded / (GrateBody.ofWord e.raw).mBlocks)).length)).readSram h e sram

theorem Dev.cmdGrate_folding {d : Dev} {h stalls : Nat} {sram : List (Nat × SramOutcome)} {e : WEntry} {j : GrateJob}
    (hf : (d.hearth h).folding = some (e, j)) : d.cmdGrate h stalls sram = (d.stalled h e j stalls sram).foldOn h 2 := by
  simp only [Dev.cmdGrate, hf]
  rfl

theorem Dev.stalled_spec {h : Nat} (hh : h < 1024) (d : Dev) (e : WEntry) (j : GrateJob) (stalls : Nat) (sram : List (Nat × SramOutcome)) :
    (d.stalled h e j stalls sram).hbm = d.hbm ∧ (d.stalled h e j stalls sram).slow = d.slow ∧
    ((d.stalled h e j stalls sram).hearth h).control = (d.hearth h).control ∧
    (sram = [] → (d.stalled h e j stalls sram).hearth h = d.hearth h) ∧
    (d.stalled h e j stalls sram).get Obj.ENTRIES_FIRED h = d.get Obj.ENTRIES_FIRED h ∧
    (d.stalled h e j stalls sram).get Obj.FEEDER_STALL_CYCLES h % 2 ^ 64 = (d.get Obj.FEEDER_STALL_CYCLES h + stalls) % 2 ^ 64 := by
  have hw : d.Works id h (if stalls = 0 then d else d.work h) := by
    split
    · exact .refl ..
    · exact Dev.work_works ..
  unfold Dev.stalled
  generalize (if stalls = 0 then d else d.work h) = a at hw ⊢
  generalize stalls * ((GrateBody.ofWord e.raw).colBlocks (j.folded / (GrateBody.ofWord e.raw).mBlocks)).length = n
  have hc := (Dev.chargeGrate_works id hh n (a.bump Obj.FEEDER_STALL_CYCLES h stalls))
  have hr := ((a.bump Obj.FEEDER_STALL_CYCLES h stalls).chargeGrate h n).readSram_works h e sram
  obtain ⟨hhbm, hslow⟩ := a.hbm_bump Obj.FEEDER_STALL_CYCLES h stalls 0
  have hx : ((a.bump Obj.FEEDER_STALL_CYCLES h stalls).chargeGrate h n).hearth h = d.hearth h :=
    hc.hearth.trans ((Dev.hearth_bump ..).trans hw.hearth)
  refine ⟨hr.hbm.trans (hc.hbm.trans (hhbm.trans hw.hbm)), hr.slow.trans (hc.slow.trans (hslow.trans hw.slow)),
    hr.hearth.trans (congrArg Hearth.control hx), fun hs => ?_, ?_, ?_⟩
  · rw [hs, Dev.readSram_nil, hx]
  · rw [hr.counters _ (by decide), hc.counters _ (by decide), Dev.get_bump_ne (hearthKey_ne (by decide) (by decide) (.inl (by decide))),
      hw.counters _ (by decide)]
  · rw [hr.counters _ (by decide), hc.counters _ (by decide), ← hw.counters _ (by decide)]
    by_cases h0 : stalls = 0
    · rw [h0]
      rfl
    · rw [Dev.get_bump_self _ _ _ _ _ h0]
      exact Nat.mod_mod ..

/-- The entry that fires is the one that the grates fold, since what they held before is folded (R107, R110). -/
theorem Hearth.folding_begun {x y : Hearth} {e' : WEntry} {id : Nat} {j : GrateJob} (hold : ∀ o ∈ x.jobs, x.folded o = true)
    (hself : y.entryOf id = some e') (hother : ∀ k, k ≠ id → y.entryOf k = x.entryOf k) (hjobs : y.jobs = x.jobs ++ [j])
    (hid : j.id = id) (hf : j.folded = 0) : ∃ o, y.folding = some (e', o) ∧ o.id = id := by
  have hpairs : 0 < (GrateBody.ofWord e'.raw).pairs := by
    simp only [GrateBody.pairs, GrateBody.ofWord]
    exact Nat.mul_pos (by omega) (by omega)
  have hnew : y.folded j = false := by simp [Hearth.folded, hid, hself, hf, hpairs.ne']
  obtain ⟨o, ho⟩ := Option.isSome_iff_exists.mp (List.find?_isSome.mpr ⟨j, hjobs ▸ List.mem_append_right _ (List.mem_singleton_self j),
    by simp [hnew]⟩ : (y.jobs.find? fun o => !y.folded o).isSome = true)
  have hoid : o.id = id := by
    by_contra hne
    have hmem := List.mem_of_find?_eq_some ho
    rw [hjobs, List.mem_append, List.mem_singleton] at hmem
    have hx : o ∈ x.jobs := hmem.resolve_right fun hoj => hne (hoj ▸ hid)
    have hunfolded := List.find?_some ho
    have hfolded := hold o hx
    simp only [Hearth.folded, hother _ hne] at hunfolded hfolded
    simp [hfolded] at hunfolded
  exact ⟨o, by simp only [Hearth.folding, ho, hoid, hself]; rfl, hoid⟩

/-- A grate entry finds the grates free when every job is folded and a buffer is free (R107, R110). -/
theorem Hearth.unitFree_grate {x : Hearth} {e : WEntry} (hk : e.kind = .grate) (hu : x.unitFree e = true) :
    (∀ o ∈ x.jobs, x.folded o = true) ∧ x.bufs.length < 2 := by
  simp only [Hearth.unitFree, hk, Bool.and_eq_true, List.all_eq_true, decide_eq_true_eq] at hu
  obtain ⟨⟨hfolded, -⟩, hbufs⟩ := hu
  exact ⟨hfolded, hbufs⟩

/-- GRATE fires the entry that the scan picks and folds its first pair. -/
theorem Dev.cmdGrate_fires {d : Dev} {h stalls : Nat} {sram : List (Nat × SramOutcome)} {e : WEntry} (hnone : (d.hearth h).folding = none)
    (hF : d.Fires h .grate e) :
    ∃ held ranges, ∀ o, (((d.fired h e held ranges).startGrate h ((d.hearth h).firedEntry e ranges) sram).hearth h).folding =
        some ((d.hearth h).firedEntry e ranges, o) →
      d.cmdGrate h stalls sram = (((d.fired h e held ranges).startGrate h ((d.hearth h).firedEntry e ranges) sram).stalled h
        ((d.hearth h).firedEntry e ranges) o stalls sram).foldOn h 2 := by
  obtain ⟨held, ranges, hfire⟩ := Dev.fireIf_grate hF fun d e => d.startGrate h e sram
  refine ⟨held, ranges, fun o ho => ?_⟩
  simp only [Dev.cmdGrate, hnone, hfire, ho]
  rfl

theorem Hearth.scr_of_steady {x y : Hearth} (g : x.steady = y.steady) : x.scr = y.scr := congrArg (fun z => z.scr) g

theorem Hearth.window_of_steady {x y : Hearth} (g : x.steady = y.steady) : x.window = y.window := congrArg (fun z => z.window) g

theorem Dev.fired_spec (d : Dev) (h : Nat) (e : WEntry) (held : Bool) (ranges : List (Nat × Nat) × List (Nat × Nat)) :
    (d.fired h e held ranges).hbm = d.hbm ∧ (d.fired h e held ranges).slow = d.slow ∧
    (d.fired h e held ranges).get Obj.ENTRIES_FIRED h = (d.get Obj.ENTRIES_FIRED h + 1) % 2 ^ 64 ∧
    (d.fired h e held ranges).get Obj.FEEDER_STALL_CYCLES h = d.get Obj.FEEDER_STALL_CYCLES h := by
  obtain ⟨hhbm, hslow⟩ := d.hbm_bump Obj.EGRESS_HOLD_CYCLES h held.toNat 0
  have hkeep : ∀ o : ObjDef, o.OfHearth → o.base ≠ Obj.EGRESS_HOLD_CYCLES.base ∨ o.lo ≠ Obj.EGRESS_HOLD_CYCLES.lo →
      (d.bump Obj.EGRESS_HOLD_CYCLES h held.toNat).get o h = d.get o h := fun o ho hne =>
    Dev.get_bump_ne (hearthKey_ne ho (by decide) (hne.elim .inl fun hlo => .inr (.inl hlo)))
  unfold Dev.fired
  refine ⟨(Dev.hbm_bump ..).1.trans hhbm, (Dev.hbm_bump ..).2.trans hslow, ?_, ?_⟩
  · rw [Dev.get_bump_self _ _ _ _ _ one_ne_zero]
    exact congrArg (fun n => (n + 1) % 2 ^ 64) (hkeep Obj.ENTRIES_FIRED (by decide) (by decide))
  · rw [Dev.get_bump_ne (hearthKey_ne (by decide) (by decide) (.inl (by decide)))]
    exact hkeep _ (by decide) (by decide)

/-- The hearth once the entry that the scan picks has fired and begun. -/
theorem Dev.begun_spec (d : Dev) (h : Nat) (e : WEntry) (held : Bool) (ranges : List (Nat × Nat) × List (Nat × Nat))
    (sram : List (Nat × SramOutcome)) :
    ∃ d', (d.fired h e held ranges).startGrate h ((d.hearth h).firedEntry e ranges) sram = d' ∧ d'.hbm = d.hbm ∧ d'.slow = d.slow ∧
      d'.get Obj.ENTRIES_FIRED h = (d.get Obj.ENTRIES_FIRED h + 1) % 2 ^ 64 ∧
      d'.get Obj.FEEDER_STALL_CYCLES h = d.get Obj.FEEDER_STALL_CYCLES h ∧ (d'.hearth h).window = (d.hearth h).firedWindow e ranges ∧
      (d'.hearth h).bufs = (d.hearth h).bufs ∧ (∃ j : GrateJob, j.id = e.id ∧ j.folded = 0 ∧ (d'.hearth h).jobs = (d.hearth h).jobs ++ [j]) ∧
      (sram = [] → (d'.hearth h).scr = (d.hearth h).scr) := by
  obtain ⟨hhbm, hslow, hfired, hstall⟩ := d.fired_spec h e held ranges
  obtain ⟨a, j, choose, hwork, hnoted, hid, hfolded, hstart⟩ :=
    (d.fired h e held ranges).startGrate_spec h ((d.hearth h).firedEntry e ranges) sram
  have hx := hwork.hearth
  rw [Dev.hearth_fired] at hx
  have hbegun : ∀ x : Hearth, ∀ b, (x.begun j choose b).window = x.window ∧ (x.begun j choose b).bufs = x.bufs ∧
      (x.begun j choose b).jobs = x.jobs ++ [j] ∧ (x.begun j choose b).scr = x.scr := fun x b => by
    cases choose <;> exact ⟨rfl, rfl, rfl, rfl⟩
  obtain ⟨hwindow, hbufs, hjobs, hscr⟩ := hbegun (a.hearth h) (GrateBody.ofWord e.raw)
  refine ⟨_, hstart, hwork.hbm.trans hhbm, hwork.slow.trans hslow, (hwork.counters _ (by decide)).trans hfired,
    (hwork.counters _ (by decide)).trans hstall, ?_, ?_, ⟨j, hid, hfolded, ?_⟩, fun hs => ?_⟩
  · rw [Dev.hearth_setHearth_self]
    exact hwindow.trans (Hearth.window_of_unslotted hx)
  · rw [Dev.hearth_setHearth_self]
    have hb := Hearth.bufs_of_unslotted hx
    exact hbufs.trans hb
  · rw [Dev.hearth_setHearth_self]
    have hj := Hearth.jobs_of_unslotted hx
    exact hjobs.trans (congrArg (· ++ [j]) hj)
  · have hy := (hnoted hs).hearth
    rw [Dev.hearth_fired] at hy
    rw [Dev.hearth_setHearth_self]
    exact hscr.trans (congrArg (fun z => z.scr) hy)

/-- GRATE with an entry to fire: it fires, begins and folds its first pair. -/
theorem State.grateFires (s : State) (h : Fin 1024) (e : WEntry) (stalls : Nat) (sram : List (Nat × SramOutcome))
    (hnone : (s.dev.hearth h.val).folding = none) (hF : s.dev.Fires h.val .grate e) :
    ∃ t, exec (.grate h stalls sram) s = .next t ∧ t.dev.get Obj.ENTRIES_FIRED h.val = (s.dev.get Obj.ENTRIES_FIRED h.val + 1) % 2 ^ 64 ∧
      (∃ o ∈ (t.dev.hearth h.val).window, o.id = e.id ∧ o.st = .firing ∧ (e.predicting = true → o.slot.isSome)) ∧
      (∃ j ∈ (t.dev.hearth h.val).jobs, j.id = e.id ∧ 1 ≤ j.folded) ∧
      t.dev.get Obj.FEEDER_STALL_CYCLES h.val % 2 ^ 64 = (s.dev.get Obj.FEEDER_STALL_CYCLES h.val + stalls) % 2 ^ 64 ∧
      (sram = [] → (t.dev.hearth h.val).scr = (s.dev.hearth h.val).scr) ∧ s.KeepsMemory t := by
  obtain ⟨held, ranges, hcmd⟩ := Dev.cmdGrate_fires (stalls := stalls) (sram := sram) hnone hF
  obtain ⟨-, hscan, hkind, -, -⟩ := hF
  obtain ⟨hmem, older, hone⟩ := Dev.scanFrom_fires hscan
  obtain ⟨hunit, hslot⟩ := Dev.scanOne_fires hone
  obtain ⟨hold, hfree⟩ := Hearth.unitFree_grate hkind hunit
  obtain ⟨a, ha, hahbm, haslow, hafired, hastall, hawindow, habufs, ⟨j, hid, hfolded, hajobs⟩, hascr⟩ :=
    s.dev.begun_spec h.val e held ranges sram
  rw [ha] at hcmd
  have hentry : (a.hearth h.val).entryOf e.id = some ((s.dev.hearth h.val).firedEntry e ranges) := by
    rw [Hearth.entryOf, hawindow, Hearth.find_firedWindow hmem]
  obtain ⟨o, ho, hoid⟩ := Hearth.folding_begun hold hentry
    (fun k hk => by rw [Hearth.entryOf, hawindow, Hearth.find_firedWindow_ne hk, Hearth.entryOf]) hajobs hid hfolded
  obtain ⟨hbhbm, hbslow, hbcontrol, hbscr, hbfired, hbstall⟩ := a.stalled_spec h.isLt ((s.dev.hearth h.val).firedEntry e ranges) o stalls sram
  have hbunslotted := Hearth.unslotted_of_control hbcontrol
  have hbjobs := Hearth.jobs_of_unslotted hbunslotted
  specialize hcmd o ho
  generalize a.stalled h.val ((s.dev.hearth h.val).firedEntry e ranges) o stalls sram = b at *
  have hbfolding : (b.hearth h.val).folding = some ((s.dev.hearth h.val).firedEntry e ranges, o) := by
    rw [← ho]
    simp only [Hearth.folding, Hearth.folded, Hearth.entryOf, hbjobs, Hearth.window_of_unslotted hbunslotted]
  have hbfree : (b.hearth h.val).bufs.length < 2 := by rw [Hearth.bufs_of_unslotted hbunslotted, habufs]; exact hfree
  rw [Dev.foldOn_step hbfolding hbfree] at hcmd
  obtain ⟨hfold, ⟨wrong, hfjobs⟩, -⟩ := b.foldPair_spec h.isLt ((s.dev.hearth h.val).firedEntry e ranges) o
  generalize b.foldPair h.val ((s.dev.hearth h.val).firedEntry e ranges) o = f at *
  obtain ⟨hon, hkeeps⟩ := Dev.foldOn_works h.isLt 1 f
  have hworks := hfold.trans hon
  generalize f.foldOn h.val 1 = c at *
  refine ⟨_, State.onDev_next (f := fun d => d.cmdGrate h.val stalls sram) hcmd, ?_, ⟨(s.dev.hearth h.val).firedEntry e ranges, ?_, rfl, rfl,
    Hearth.firedEntry_slot hslot⟩, hkeeps e.id ?_, ?_, fun hs => ?_, hworks.hbm.trans (hbhbm.trans hahbm),
    hworks.slow.trans (hbslow.trans haslow), rfl, rfl⟩
  · exact (hworks.counters _ (by decide)).trans (hbfired.trans hafired)
  · rw [Hearth.window_of_steady hworks.hearth, Hearth.window_of_unslotted hbunslotted, hawindow]
    exact Hearth.mem_firedWindow hmem
  · refine ⟨{ o with folded := o.folded + 1, wrongSkip := wrong }, ?_, hoid, Nat.le_add_left ..⟩
    rw [hfjobs, Hearth.setJob]
    exact mem_setJob (Hearth.mem_jobs_of_folding hbfolding) rfl
  · rw [hworks.counters _ (by decide), hbstall, hastall]
  · rw [Hearth.scr_of_steady hworks.hearth, hbscr hs, hascr hs]

/-- GRATE with an entry that holds the grates folds its next pair. -/
theorem State.grateFolds (s : State) (h : Fin 1024) (e : WEntry) (j : GrateJob) (hf : (s.dev.hearth h.val).folding = some (e, j))
    (hb : (s.dev.hearth h.val).bufs.length = 1) (hq : (s.dev.hearth h.val).feeders = []) (hs : j.skips = []) :
    ∃ t, exec (.grate h 0 []) s = .next t ∧
      (t.dev.hearth h.val).bufs = (s.dev.hearth h.val).bufs ++ [⟨j.id, j.folded / (GrateBody.ofWord e.raw).mBlocks,
        j.folded % (GrateBody.ofWord e.raw).mBlocks,
        (List.range ((GrateBody.ofWord e.raw).rowsOf (j.folded % (GrateBody.ofWord e.raw).mBlocks))).flatMap fun r =>
          (List.range ((GrateBody.ofWord e.raw).colsOf (j.folded / (GrateBody.ofWord e.raw).mBlocks))).map fun c =>
            let a := (s.dev.hearth h.val).accOf e (GrateBody.ofWord e.raw) (s.dev.transposed h.val)
              (256 * (j.folded % (GrateBody.ofWord e.raw).mBlocks) + r) (128 * (j.folded / (GrateBody.ofWord e.raw).mBlocks) + c)
            (a.raw, a.ash)⟩] ∧
      (∃ j' ∈ (t.dev.hearth h.val).jobs, j'.id = j.id ∧ j'.folded = j.folded + 1) ∧
      (t.dev.hearth h.val).scr = (s.dev.hearth h.val).scr ∧ s.KeepsMemory t := by
  have hcmd := Dev.cmdGrate_folding (stalls := 0) (sram := []) hf
  obtain ⟨hhbm, hslow, -, hx, -, -⟩ := s.dev.stalled_spec h.isLt e j 0 []
  have hx := hx rfl
  generalize s.dev.stalled h.val e j 0 [] = b at *
  obtain ⟨hfold, ⟨wrong, hjobs⟩, hbufs⟩ := b.foldPair_spec h.isLt e j
  rw [Dev.foldOn_step (hx ▸ hf) (by rw [hx, hb]; decide), Dev.foldOn_full (by rw [hbufs, hx, List.length_append, hb]; rfl)] at hcmd
  generalize b.foldPair h.val e j = c at *
  have htr : b.transposed h.val = s.dev.transposed h.val := by rw [Dev.transposed, hx, Dev.transposed]
  refine ⟨_, State.onDev_next (f := fun d => d.cmdGrate h.val 0 []) hcmd, ?_, ⟨{ j with folded := j.folded + 1, wrongSkip := wrong }, ?_, rfl, rfl⟩,
    ?_, hfold.hbm.trans hhbm, hfold.slow.trans hslow, rfl, rfl⟩
  · rw [hbufs, hx, Dev.pairBuf, Dev.pairAccs_plain (hx ▸ hq) hs, hx, htr, List.map_flatMap]
    simp only [List.map_map, Function.comp_def]
  · rw [hjobs, hx, Hearth.setJob]
    exact mem_setJob (Hearth.mem_jobs_of_folding hf) rfl
  · rw [Hearth.scr_of_steady hfold.hearth, hx]

/-- Settles O9: with nothing to fold the scan's pick fires and begins, and a fold's buffer holds the exact column sums of its pair. -/
theorem grateFiresAndFoldsBlockPairs : Obligations.GrateFiresAndFoldsBlockPairs := by
  unfold Obligations.GrateFiresAndFoldsBlockPairs
  refine ⟨State.grateFires, fun s h e j x b hx hb hf hbufs hq hs => ?_⟩
  subst hx hb
  exact s.grateFolds h e j hf hbufs hq hs

end Sys2Proof.Machine
end

section
/-! The end of the scale-slot exchange and the start of a hearth's part of a step (R77, R78, R231, R324). -/

namespace Sys2Proof.Machine

/-! ### The values a hearth latches (R324) -/

/-- A part of a step with the values of hearth `h` latched. -/
def StepRun.latching (r : StepRun) (d : Dev) (h : Nat) (transposed : Bool) : StepRun :=
  { r with
    empty := decide (d.get Obj.TABLE_ENTRIES h = 0), budget := d.get Obj.REPLAY_BUDGET h, stallLimit := d.get Obj.STALL_LIMIT h,
    transposed := transposed, causeLo := d.get Obj.CAUSE_MAP_LO h, causeHi := d.get Obj.CAUSE_MAP_HI h, needExchange := false }

/-- Hearth `h` begins part `r` at its entry point. -/
def Dev.beginPart (d : Dev) (h : Nat) (r : StepRun) : Dev :=
  d.modHearth h fun x =>
    { x with run := some r, walk := Walk.start (d.get Obj.ENTRY_POINT h),
             bellows := { Bellows.fresh with walk := Walk.start (d.get Obj.ENTRY_POINT h) } }

/-- Before a hearth latches, a refused transposed read is reported and the entry point may be set. -/
theorem Dev.latchStart_begins (d : Dev) (h : Nat) (r : StepRun) :
    ∃ b transposed, d.OnlyHearth b h [Obj.ENTRY_POINT.key h 0] ∧ b.hearth h = d.hearth h ∧
      d.latchStart h r = if (r.latching b h transposed).empty then (b.beginPart h (r.latching b h transposed)).endPart h r.ctx
        else b.beginPart h (r.latching b h transposed) := by
  have hraise : ∀ c : Bool, d.OnlyHearth (if c then d.raise Event.transposedRefused .hearth h (some r.ctx) else d) h
      [Obj.ENTRY_POINT.key h 0] ∧ (if c then d.raise Event.transposedRefused .hearth h (some r.ctx) else d).hearth h = d.hearth h := fun c => by
    cases c
    · exact ⟨.refl .., rfl⟩
    · exact ⟨.raise .., Dev.hearth_raise ..⟩
  have hentry : ∀ (a : Dev) (c : Bool) (v : Nat), a.OnlyHearth (if c then a.put Obj.ENTRY_POINT v h else a) h [Obj.ENTRY_POINT.key h 0] ∧
      (if c then a.put Obj.ENTRY_POINT v h else a).hearth h = a.hearth h := fun a c v => by
    cases c
    · exact ⟨.refl .., rfl⟩
    · exact ⟨.put (by simp), rfl⟩
  exact ⟨_, _, (hraise _).1.trans (hentry _ _ _).1, (hentry _ _ _).2.trans (hraise _).2, rfl⟩

/-- A hearth whose table is not empty begins its part with the settings latched. -/
theorem Dev.latchStart_spec {d : Dev} {h : Nat} (r : StepRun) (ht : d.get Obj.TABLE_ENTRIES h ≠ 0) :
    ∃ r' bellows, d.OnlyHearth (d.latchStart h r) h [Obj.ENTRY_POINT.key h 0] ∧
      (d.latchStart h r).hearth h =
        { d.hearth h with run := some r', walk := Walk.start ((d.latchStart h r).get Obj.ENTRY_POINT h), bellows := bellows } ∧
      r'.latched d h r.ctx ∧ r'.released = r.released ∧ r'.stopped = r.stopped := by
  obtain ⟨b, transposed, honly, hhearth, hstart⟩ := d.latchStart_begins h r
  have hget : ∀ o : ObjDef, o.OfHearth → o.base ≠ Obj.ENTRY_POINT.base ∨ o.lo ≠ Obj.ENTRY_POINT.lo → b.get o h = d.get o h :=
    fun o ho hne => honly.get (by
      rw [List.mem_singleton]
      exact hearthKey_ne ho (by decide) (hne.imp_right .inl)) (hearthKey_not_event ho h)
  have hempty : (r.latching b h transposed).empty = false := by
    simp only [StepRun.latching, hget Obj.TABLE_ENTRIES (by decide) (by decide), decide_eq_false ht]
  rw [hempty, if_neg (by decide)] at hstart
  rw [hstart]
  refine ⟨r.latching b h transposed, { Bellows.fresh with walk := Walk.start (b.get Obj.ENTRY_POINT h) },
    honly.trans (.modHearth ..), ?_, ⟨rfl, hget Obj.REPLAY_BUDGET (by decide) (by decide),
    hget Obj.STALL_LIMIT (by decide) (by decide), hget Obj.CAUSE_MAP_LO (by decide) (by decide),
    hget Obj.CAUSE_MAP_HI (by decide) (by decide), ?_, rfl⟩, rfl, rfl⟩
  · rw [Dev.beginPart, Dev.modHearth, Dev.hearth_setHearth_self, hhearth]
    rfl
  · rw [← hget Obj.TABLE_ENTRIES (by decide) (by decide)]
    rfl

/-! ### The slots an exchange leaves (R78) -/

/-- The slot read for position `i`, fresh where its line was affected. -/
def Exchange.slotAt (e : Exchange) (i : Nat) : ScaleSlot :=
  match e.line (i / 8), e.line (16 + i) with
  | some a, some b => ScaleSlot.ofWord (leNat ((a.bytes.drop (8 * (i % 8))).take 8))
      ((List.range 16).map fun j => leNat ((b.bytes.drop (4 * j)).take 4))
  | _, _ => ScaleSlot.fresh

theorem tget_foldl_tset_range {α : Type} [DecidableEq α] (a : α) (f : Nat → α) (n i : Nat) (t : Tab α) :
    tget a ((List.range n).foldl (fun t i => tset a t i (f i)) t) i = if i < n then f i else tget a t i := by
  induction n with
  | zero => simp
  | succ n ih =>
    rw [List.range_succ, List.foldl_append, List.foldl_cons, List.foldl_nil, tget_tset, ih]
    grind

theorem Exchange.slot_slots (e : Exchange) {i : Nat} (hi : i < 128) : tget ScaleSlot.fresh e.slots i = e.slotAt i :=
  (tget_foldl_tset_range ScaleSlot.fresh e.slotAt 128 i []).trans (if_pos hi)

/-! ### The end of an exchange (R77, R78, R324) -/

/-- The end of an exchange reports what was affected and puts the slots in, before the hearth goes on to latch. -/
theorem Dev.endExchange_latches (d : Dev) (h : Nat) (r : StepRun) (e : Exchange) :
    ∃ a, d.OnlyHearth a h [] ∧ a.hearth h = { d.hearth h with slots := e.slots, slotBad := [], exch := none } ∧
      d.endExchange h r e = a.latchStart h r := by
  have hraise : ∀ (a : Dev) (c : Bool) (o : Option Nat), a.OnlyHearth (if c then a.raise Event.scaleSaveFault .hearth h o else a) h [] ∧
      (if c then a.raise Event.scaleSaveFault .hearth h o else a).hearth h = a.hearth h := fun a c o => by
    cases c
    · exact ⟨.refl .., rfl⟩
    · exact ⟨.raise .., Dev.hearth_raise ..⟩
  have hawait : ∀ a : Dev, a.OnlyHearth (a.await e.tag none) h [] := fun a =>
    ⟨rfl, rfl, fun _ _ => rfl, .same _ _, rfl, rfl, rfl, rfl, rfl⟩
  refine ⟨_, .trans (.trans (.trans (hraise d _ _).1 (hraise _ _ _).1) (hawait _)) (.modHearth ..), ?_, rfl⟩
  rw [Dev.modHearth, Dev.hearth_setHearth_self]
  exact congrArg (fun x : Hearth => { x with slots := e.slots, slotBad := [], exch := none }) ((hraise _ _ _).2.trans (hraise d _ _).2)

/-- The end of an exchange on a hearth whose table is not empty. -/
theorem Dev.endExchange_spec {d : Dev} {h : Nat} (r : StepRun) (e : Exchange) (ht : d.get Obj.TABLE_ENTRIES h ≠ 0) :
    ∃ r' bellows, d.OnlyHearth (d.endExchange h r e) h [Obj.ENTRY_POINT.key h 0] ∧
      (d.endExchange h r e).hearth h =
        { d.hearth h with run := some r', walk := Walk.start ((d.endExchange h r e).get Obj.ENTRY_POINT h), bellows := bellows,
                          slots := e.slots, slotBad := [], exch := none } ∧
      r'.latched d h r.ctx ∧ r'.released = r.released ∧ r'.stopped = r.stopped := by
  obtain ⟨a, honly, hhearth, hend⟩ := d.endExchange_latches h r e
  have hget : ∀ o : ObjDef, o.OfHearth → a.get o h = d.get o h := fun o ho => honly.get (by simp) (hearthKey_not_event ho h)
  rw [← hget _ (by decide)] at ht
  obtain ⟨r', bellows, honly', hhearth', ⟨hctx, hbudget, hstall, hlo, hhi, hempty, hneed⟩, hkeep⟩ := Dev.latchStart_spec r ht
  rw [hend]
  refine ⟨r', bellows, (honly.mono (List.nil_subset _)).trans honly', ?_, ⟨hctx, hbudget.trans (hget _ (by decide)),
    hstall.trans (hget _ (by decide)), hlo.trans (hget _ (by decide)), hhi.trans (hget _ (by decide)), ?_, hneed⟩, hkeep⟩
  · rw [hhearth', hhearth]
  · rw [hempty, hget _ (by decide)]

/-! ### SCALE_SLOT_EXCHANGE (R77) -/

/-- An exchange with no line to move stays as it is. -/
theorem Dev.scaleOn_moved (d : Dev) (c h : Nat) {e : Exchange} (hn : e.next = 2 * scaleLines) : d.scaleOn c h e = (d, e) := by
  simp [Dev.scaleOn, hn]

section
variable {s : State} {h : Fin 1024} {r : StepRun}

/-- SCALE_SLOT_EXCHANGE of a part that owes its exchange. -/
theorem State.exchange_exec {d : Dev} (hrun : (s.dev.hearth h.val).run = some r) (hneed : r.needExchange = true) (hab : r.aborting = false)
    (hd : ({ s.dev with crc := [] } : Dev).exchange h.val r [] = d) :
    exec (.scaleSlotExchange h [] []) s = .next { s with dev := { d with crc := [] } } := by
  refine State.onDev_next (f := fun d => d.withCrc [] fun d => d.cmdExchange h.val []) ?_
  have hcmd : ({ s.dev with crc := [] } : Dev).cmdExchange h.val [] = d := by
    have hrun' : (({ s.dev with crc := [] } : Dev).hearth h.val).run = some r := hrun
    simp only [Dev.cmdExchange, hrun', hneed, hab, Bool.not_false, Bool.and_self, if_true, hd]
  rw [Dev.withCrc, hcmd]

theorem State.exchangeEnds {e : Exchange} (hrun : (s.dev.hearth h.val).run = some r) (hneed : r.needExchange = true) (hab : r.aborting = false)
    (ht : s.dev.get Obj.TABLE_ENTRIES h.val ≠ 0) (he : (s.dev.hearth h.val).exch = some e) (hn : e.next = 2 * scaleLines)
    (hw : e.writes = []) (hr : e.reads = []) :
    ∃ t, exec (.scaleSlotExchange h [] []) s = .next t ∧ (t.dev.hearth h.val).exch = none ∧
      (∃ r', (t.dev.hearth h.val).run = some r' ∧ r'.latched s.dev h.val r.ctx ∧ r'.released = r.released ∧ r'.stopped = r.stopped) ∧
      (t.dev.hearth h.val).walk = Walk.start (t.dev.get Obj.ENTRY_POINT h.val) ∧ (t.dev.hearth h.val).slots = e.slots ∧
      s.OnlyHearth t h.val [Obj.ENTRY_POINT.key h.val 0] := by
  have hexch : ({ s.dev with crc := [] } : Dev).exchange h.val r [] = ({ s.dev with crc := [] } : Dev).endExchange h.val r e := by
    have he' : (({ s.dev with crc := [] } : Dev).hearth h.val).exch = some e := he
    simp [Dev.exchange, he', Dev.scaleOn_moved _ _ _ hn, hn, hw, hr]
  obtain ⟨r', bellows, honly, hhearth, hlatched, hkeep⟩ :=
    Dev.endExchange_spec (d := { s.dev with crc := [] }) (h := h.val) r e ht
  have hexec := State.exchange_exec hrun hneed hab hexch
  generalize ({ s.dev with crc := [] } : Dev).endExchange h.val r e = d at *
  have hd : ({ d with crc := [] } : Dev).hearth h.val = d.hearth h.val := rfl
  refine ⟨_, hexec, ?_, ⟨r', ?_, hlatched, hkeep⟩, ?_, ?_,
    ⟨⟨honly.hbm, honly.slow, rfl, rfl⟩, honly.hearths, honly.objects, honly.flues, honly.stks, honly.stokers, honly.ports, honly.ctxs⟩⟩
  · rw [hd, hhearth]
  · rw [hd, hhearth]
  · rw [hd, hhearth]
    rfl
  · rw [hd, hhearth]

theorem State.exchangeReads {d : Dev} {e : Exchange} (hrun : (s.dev.hearth h.val).run = some r) (hneed : r.needExchange = true)
    (hab : r.aborting = false) (hx : (s.dev.hearth h.val).exch = none) (hlast : (s.dev.hearth h.val).lastCtx = none)
    (hon : ({ s.dev with crc := [] } : Dev).scaleOn r.ctx h.val ⟨65536, scaleLines, [], [], [], false⟩ = (d, e)) (hn : e.next = 2 * scaleLines)
    (hr : e.reads = []) (hw : e.writes = []) (ht : d.get Obj.TABLE_ENTRIES h.val ≠ 0) :
    ∃ t, exec (.scaleSlotExchange h [] []) s = .next t ∧
      (∃ r', (t.dev.hearth h.val).run = some r' ∧ r'.ctx = r.ctx ∧ r'.needExchange = false) ∧ (t.dev.hearth h.val).slots = e.slots := by
  have hexch : ({ s.dev with crc := [] } : Dev).exchange h.val r [] = d.endExchange h.val r e := by
    have hx' : (({ s.dev with crc := [] } : Dev).hearth h.val).exch = none := hx
    have hlast' : (({ s.dev with crc := [] } : Dev).hearth h.val).lastCtx = none := hlast
    simp [Dev.exchange, hx', hlast', hon, hn, hw, hr]
  obtain ⟨r', bellows, -, hhearth, ⟨hctx, -, -, -, -, -, hneed'⟩, -⟩ := Dev.endExchange_spec (h := h.val) r e ht
  have hexec := State.exchange_exec hrun hneed hab hexch
  generalize d.endExchange h.val r e = d' at *
  have hd : ({ d' with crc := [] } : Dev).hearth h.val = d'.hearth h.val := rfl
  refine ⟨_, hexec, ⟨r', ?_, hctx, hneed'⟩, ?_⟩
  · rw [hd, hhearth]
  · rw [hd, hhearth]

end

end Sys2Proof.Machine
end

section
/-! The end of a step and the energy of an interval (R315, R325, R333). -/

namespace Sys2Proof.Machine

/-! ### CTX_STATE (R315) -/

/-- CTX_STATE shows the state of its slot, whose wait may begin; nothing else changes. -/
theorem Dev.refreshCtx_spec (d : Dev) (c : Nat) :
    (∃ od ctxs, d.refreshCtx c = { d with od := od, ctxs := ctxs }) ∧ d.SameObjects (d.refreshCtx c) [Obj.CTX_STATE.key c 0] ∧
    (∀ k, k ≠ c → (d.refreshCtx c).ctx k = d.ctx k) ∧ (∃ n, (d.refreshCtx c).ctx c = { d.ctx c with since := n }) ∧
    (d.refreshCtx c).get Obj.CTX_STATE c = (d.refreshCtx c).ctxShown c := by
  have hsince : ∃ ctxs n, (∀ k, k ≠ c → tget Ctx.fresh ctxs k = d.ctx k) ∧ tget Ctx.fresh ctxs c = { d.ctx c with since := n } ∧
      d.refreshCtx c = ({ d with ctxs := ctxs } : Dev).put Obj.CTX_STATE (d.ctxShown c) c := by
    have hst : (if (d.ctx c).run.isSome then 3 else if d.get Obj.CTX_ENABLE c = 0 then 0 else if (d.ctx c).halted then 4
        else if d.get Obj.PENDING_STEPS c ≠ 0 then 2 else 1) = d.ctxShown c := by
      simp only [Dev.ctxShown, ne_eq, ite_not]
    simp only [Dev.refreshCtx, hst]
    split
    · exact ⟨_, _, fun k hk => tget_tset_ne _ hk .., tget_tset_self .., rfl⟩
    · exact ⟨_, _, fun _ _ => rfl, rfl, rfl⟩
  obtain ⟨ctxs, n, hother, hself, heq⟩ := hsince
  have hsame : d.SameObjects (d.refreshCtx c) [Obj.CTX_STATE.key c 0] := by
    rw [heq]
    exact (Dev.put_onlyOd (by simp)).2
  have hctx : (d.refreshCtx c).ctx c = { d.ctx c with since := n } := by rw [heq]; exact hself
  have hget : ∀ o : ObjDef, o.key c 0 ≠ Obj.CTX_STATE.key c 0 → (d.refreshCtx c).get o c = d.get o c := fun o ho => hsame.get (by simpa using ho)
  have hshown : (d.refreshCtx c).ctxShown c = d.ctxShown c := by
    simp only [Dev.ctxShown, hctx, hget Obj.CTX_ENABLE (by simp [ObjDef.key, Obj.CTX_ENABLE, Obj.CTX_STATE]),
      hget Obj.PENDING_STEPS (by simp [ObjDef.key, Obj.PENDING_STEPS, Obj.CTX_STATE])]
  have hlt : d.ctxShown c < 2 ^ Obj.CTX_STATE.bitsOf := by
    unfold Dev.ctxShown
    split_ifs <;> decide
  refine ⟨⟨_, _, heq⟩, hsame, fun k hk => ?_, ⟨n, hctx⟩, ?_⟩
  · rw [heq]
    exact hother k hk
  · rw [hshown, heq, Dev.get_put_self]
    exact Nat.mod_eq_of_lt hlt

/-! ### What a notice of the end of a step leaves (R135, R325) -/

/-- `d'` is `d` but for hearths, what events change, and objects that stand before the context slots' blocks. -/
structure Dev.BelowCtx (d d' : Dev) : Prop where
  hbm : d'.hbm = d.hbm
  slow : d'.slow = d.slow
  ctxs : d'.ctxs = d.ctxs
  objects : ∀ k, 0x30000 * 256 ≤ k → tget 0 d'.od k = tget 0 d.od k

section
variable {a b d : Dev}

theorem Dev.BelowCtx.refl (d : Dev) : d.BelowCtx d := ⟨rfl, rfl, rfl, fun _ _ => rfl⟩

theorem Dev.BelowCtx.trans (g : d.BelowCtx a) (k : a.BelowCtx b) : d.BelowCtx b :=
  ⟨k.hbm.trans g.hbm, k.slow.trans g.slow, k.ctxs.trans g.ctxs, fun n hn => (k.objects n hn).trans (g.objects n hn)⟩

theorem Dev.BelowCtx.of_onlyOd {k : Nat} (g : d.OnlyOd a [k]) (hk : k < 0x30000 * 256) : d.BelowCtx a := by
  obtain ⟨⟨od, rfl⟩, hs⟩ := g
  exact ⟨rfl, rfl, rfl, fun n hn => hs n (by simp; omega)⟩

theorem Dev.BelowCtx.bump {o : ObjDef} {i : Nat} (hk : o.key i 0 < 0x30000 * 256) : d.BelowCtx (d.bump o i) :=
  .of_onlyOd (Dev.bump_onlyOd (by simp)) hk

theorem Dev.raise_belowCtx (d : Dev) (e : Ev) (k : Kind) (i : Nat) (c : Option Nat) (det hi : Nat) : d.BelowCtx (d.raise e k i c det hi) := by
  obtain ⟨⟨_, _, _, _, _, _, hd⟩, hs⟩ := d.raise_recorded e k i c det hi
  refine ⟨by rw [hd], by rw [hd], by rw [hd], fun n hn => hs n fun hm => ?_⟩
  have := lt_of_mem_eventKeys hm
  omega

theorem Dev.arrivalNow_belowCtx {h : Nat} (hh : h < 1024) (d : Dev) (line : Nat) : d.BelowCtx (d.arrivalNow h line) := by
  have hcount : d.BelowCtx (d.bump Obj.ARRIVAL_NOTICES h) := .bump (hearthKey_lt (by decide) hh)
  have hmod : ∀ (a : Dev) f, a.BelowCtx (a.modHearth h f) := fun _ _ => ⟨rfl, rfl, rfl, fun _ _ => rfl⟩
  unfold Dev.arrivalNow
  split
  · extract_lets a
    split
    · split
      · exact hcount.trans (hmod ..)
      · exact hcount
    · exact hcount
  · unfold Dev.absorbNotice
    split
    · exact .bump (by decide)
    · exact .refl ..

theorem Dev.arrival_belowCtx {h : Nat} (hh : h < 1024) (d : Dev) (line : Nat) : d.BelowCtx (d.arrival h line) := by
  unfold Dev.arrival
  split
  · have hwake : d.BelowCtx (d.wakeRegion (h / 64)) := .of_onlyOd (d.wakeRegion_spec (h / 64)) (by
      simp only [ObjDef.key, Obj.CLOCK_STATE, Kind.stride]
      omega)
    exact ⟨hwake.hbm, hwake.slow, hwake.ctxs, hwake.objects⟩
  · exact Dev.arrivalNow_belowCtx hh d line

end

/-! ### STEP_COMPLETE (R325) -/

section
variable {s : State} {c : Fin 16} {r : CtxRun}

/-- The device with a slot's step taken from it and counted. -/
def Dev.stepOver (d : Dev) (c : Nat) (o : ObjDef) : Dev := (d.setCtx c { d.ctx c with run := none }).bump o c

theorem Dev.stepOver_spec (d : Dev) (c : Nat) (o : ObjDef) :
    (∃ od ctxs, d.stepOver c o = { d with od := od, ctxs := ctxs }) ∧ d.SameObjects (d.stepOver c o) [o.key c 0] ∧
    (d.stepOver c o).get o c = (d.get o c + 1) % 2 ^ o.bitsOf ∧ (d.stepOver c o).ctx c = { d.ctx c with run := none } ∧
    ∀ k, k ≠ c → (d.stepOver c o).ctx k = d.ctx k :=
  ⟨⟨_, _, rfl⟩, (Dev.put_onlyOd (d := d.setCtx c { d.ctx c with run := none }) (by simp)).2, Dev.get_bump_self _ _ _ _ _ one_ne_zero,
    tget_tset_self .., fun _ hk => tget_tset_ne _ hk ..⟩

theorem State.stepComplete_exec (hrun : (s.dev.ctx c.val).run = some r) (hall : ∀ h ∈ r.hearths, h ∈ r.ended) :
    ∃ d, (s.dev.stepOver c.val Obj.STEPS_COMPLETED).BelowCtx d ∧ exec (.stepComplete c) s =
      .next { s with dev := Dev.refreshCtx (if r.aborted.isSome then s.dev.stepOver c.val Obj.STEPS_ABORTED else d) c.val } := by
  have hended : (r.hearths.all fun h => r.ended.contains h) = true := by simpa using hall
  have hnotify : ∀ (a : Dev) (n : Nat), a.BelowCtx (if bit n 35 then a.arrival (bits n 34 25) (bits n 24 10) else a) := fun a n => by
    split
    · exact Dev.arrival_belowCtx (Nat.mod_lt _ (by decide)) ..
    · exact .refl ..
  refine ⟨_, (hnotify _ ((s.dev.stepOver c.val Obj.STEPS_COMPLETED).get Obj.STEP_NOTIFY c.val)).trans
    (Dev.raise_belowCtx _ Event.stepComplete .ctx c.val (some c.val) 0 0),
    State.onDev_next (f := fun d => d.cmdStepComplete c.val) ?_⟩
  simp only [Dev.cmdStepComplete, hrun, hended, Bool.not_true, Bool.false_eq_true, if_false]
  cases r.aborted <;> rfl

theorem State.stepCompleted (hrun : (s.dev.ctx c.val).run = some r) (hall : ∀ h ∈ r.hearths, h ∈ r.ended) (hab : r.aborted = none) :
    ∃ t, exec (.stepComplete c) s = .next t ∧ (t.dev.ctx c.val).run = none ∧
      t.dev.get Obj.STEPS_COMPLETED c.val = (s.dev.get Obj.STEPS_COMPLETED c.val + 1) % 2 ^ 64 ∧
      t.dev.get Obj.CTX_STATE c.val = t.dev.ctxShown c.val ∧ s.KeepsMemory t ∧ ∀ k, k ≠ c.val → t.dev.ctx k = s.dev.ctx k := by
  obtain ⟨d, hbelow, hexec⟩ := State.stepComplete_exec hrun hall
  obtain ⟨⟨od, ctxs, hover⟩, -, hcount, hself, hother⟩ := s.dev.stepOver_spec c.val Obj.STEPS_COMPLETED
  obtain ⟨⟨od', ctxs', hshape⟩, hsame, hother', ⟨n, hself'⟩, hshown⟩ := d.refreshCtx_spec c.val
  have hctx : ∀ k, d.ctx k = (s.dev.stepOver c.val Obj.STEPS_COMPLETED).ctx k := fun k => by rw [Dev.ctx, Dev.ctx, hbelow.ctxs]
  have hget : d.get Obj.STEPS_COMPLETED c.val = (s.dev.stepOver c.val Obj.STEPS_COMPLETED).get Obj.STEPS_COMPLETED c.val :=
    Dev.get_congr (hbelow.objects _ (by simp only [ObjDef.key, Obj.STEPS_COMPLETED, Kind.stride]; omega))
  rw [hab] at hexec
  refine ⟨_, hexec, ?_, ?_, hshown, ⟨?_, ?_, rfl, rfl⟩, fun k hk => ?_⟩
  · show ((d.refreshCtx c.val).ctx c.val).run = none
    rw [hself', hctx, hself]
  · show (d.refreshCtx c.val).get Obj.STEPS_COMPLETED c.val = _
    rw [hsame.get (by simp only [ObjDef.key, Obj.STEPS_COMPLETED, Obj.CTX_STATE, Kind.stride, List.mem_singleton]; omega), hget, hcount]
    rfl
  · show (d.refreshCtx c.val).hbm = _
    rw [hshape]
    exact hbelow.hbm.trans (by rw [hover])
  · show (d.refreshCtx c.val).slow = _
    rw [hshape]
    exact hbelow.slow.trans (by rw [hover])
  · show (d.refreshCtx c.val).ctx k = _
    rw [hother' k hk, hctx, hother k hk]

theorem State.stepAborted {why : Nat} (hrun : (s.dev.ctx c.val).run = some r) (hall : ∀ h ∈ r.hearths, h ∈ r.ended)
    (hab : r.aborted = some why) :
    ∃ t, exec (.stepComplete c) s = .next t ∧ (t.dev.ctx c.val).run = none ∧
      t.dev.get Obj.STEPS_ABORTED c.val = (s.dev.get Obj.STEPS_ABORTED c.val + 1) % 2 ^ 64 ∧
      t.dev.get Obj.CTX_STATE c.val = t.dev.ctxShown c.val ∧
      s.OnlyCtx t c.val [Obj.STEPS_ABORTED.key c.val 0, Obj.CTX_STATE.key c.val 0] := by
  obtain ⟨_, -, hexec⟩ := State.stepComplete_exec hrun hall
  obtain ⟨⟨od, ctxs, hover⟩, hobjects, hcount, hself, hother⟩ := s.dev.stepOver_spec c.val Obj.STEPS_ABORTED
  rw [hab, if_pos (by rfl)] at hexec
  generalize s.dev.stepOver c.val Obj.STEPS_ABORTED = d at *
  obtain ⟨⟨od', ctxs', hshape⟩, hsame, hother', ⟨n, hself'⟩, hshown⟩ := d.refreshCtx_spec c.val
  refine ⟨_, hexec, ?_, ?_, hshown, ?_, (hobjects.mono (by simp)).trans (hsame.mono (by simp)), fun k hk => (hother' k hk).trans (hother k hk)⟩
  · show ((d.refreshCtx c.val).ctx c.val).run = none
    rw [hself', hself]
  · show (d.refreshCtx c.val).get Obj.STEPS_ABORTED c.val = _
    rw [hsame.get (by simp only [ObjDef.key, Obj.STEPS_ABORTED, Obj.CTX_STATE, Kind.stride, List.mem_singleton]; omega), hcount]
    rfl
  · rw [hshape, hover]

end

end Sys2Proof.Machine
end

section
/-! The energy of an attribution interval, divided among the slots by their work (R333). -/

namespace Sys2Proof.Machine

/-! ### Energy added to an account -/

/-- The object that counts an account's millijoules: a slot's, or the unattributed one's. -/
def energyObj (c : Nat) : ObjDef := if c < 16 then Obj.ENERGY_MJ else Obj.ENERGY_UNATTRIBUTED_MJ

/-- Which of its elements that is: the slot's, or the device's own. -/
def energyInst (c : Nat) : Nat := if c < 16 then c else 0

/-- An account counts whole millijoules and carries the rest forward; nothing else changes. -/
theorem Dev.addEnergy_spec (d : Dev) (c uj : Nat) :
    (∃ od, d.addEnergy c uj = { d with od := od, attrib := tset 0 d.attrib (2000 + c) ((tget 0 d.attrib (2000 + c) + uj) % 1000) }) ∧
    d.SameObjects (d.addEnergy c uj) [(energyObj c).key (energyInst c) 0] ∧
    (d.addEnergy c uj).get (energyObj c) (energyInst c) % 2 ^ 64 =
      (d.get (energyObj c) (energyInst c) + (tget 0 d.attrib (2000 + c) + uj) / 1000) % 2 ^ 64 := by
  have hbump : ∀ (a : Dev) (o : ObjDef) (i n : Nat), o.bitsOf = 64 → a.SameObjects (a.bump o i n) [o.key i 0] ∧
      (a.bump o i n).get o i % 2 ^ 64 = (a.get o i + n) % 2 ^ 64 := fun a o i n ho => by
    refine ⟨(Dev.bump_onlyOd (by simp)).2, ?_⟩
    by_cases hn : n = 0
    · simp [Dev.bump, hn]
    · rw [Dev.get_bump_self _ _ _ _ _ hn, ho, Nat.mod_mod]
  have hshape : ∀ (a : Dev) (o : ObjDef) (i n : Nat), ∃ od, a.bump o i n = { a with od := od } := fun a o i n =>
    (Dev.bump_onlyOd (ks := [o.key i 0]) (by simp)).1
  unfold Dev.addEnergy energyObj energyInst carryKey
  by_cases hc : c < 16
  · simp only [if_pos hc]
    obtain ⟨od, hod⟩ := hshape { d with attrib := tset 0 d.attrib (2000 + c) ((tget 0 d.attrib (2000 + c) + uj) % 1000) } Obj.ENERGY_MJ c
      ((tget 0 d.attrib (2000 + c) + uj) / 1000)
    exact ⟨⟨od, hod⟩, (hbump _ _ _ _ rfl).1, (hbump _ _ _ _ rfl).2⟩
  · simp only [if_neg hc]
    obtain ⟨od, hod⟩ := hshape { d with attrib := tset 0 d.attrib (2000 + c) ((tget 0 d.attrib (2000 + c) + uj) % 1000) }
      Obj.ENERGY_UNATTRIBUTED_MJ 0 ((tget 0 d.attrib (2000 + c) + uj) / 1000)
    exact ⟨⟨od, hod⟩, (hbump _ _ _ _ rfl).1, (hbump _ _ _ _ rfl).2⟩

theorem Dev.attrib_addEnergy (d : Dev) (c uj k : Nat) : tget 0 (d.addEnergy c uj).attrib k =
    if k = 2000 + c then (tget 0 d.attrib k + uj) % 1000 else tget 0 d.attrib k := by
  obtain ⟨⟨od, hd⟩, -, -⟩ := d.addEnergy_spec c uj
  rw [hd]
  show tget 0 (tset 0 d.attrib (2000 + c) _) k = _
  rw [tget_tset]
  split
  · next hk => rw [hk]
  · rfl

/-- An object that is not the account's own reads as before. -/
theorem Dev.get_addEnergy_ne {d : Dev} {c uj : Nat} {o : ObjDef} {i : Nat} (h : o.key i 0 ≠ (energyObj c).key (energyInst c) 0) :
    (d.addEnergy c uj).get o i = d.get o i := by
  obtain ⟨-, hs, -⟩ := d.addEnergy_spec c uj
  exact hs.get (by simpa using h)

/-- The end of an attribution interval: the counts of work start again. -/
def Dev.intervalEnd (d : Dev) : Dev := { d with attrib := tdrop (fun k => k < 2000 || decide (3000 ≤ k)) d.attrib }

theorem Dev.attrib_intervalEnd (d : Dev) (k : Nat) :
    tget 0 d.intervalEnd.attrib k = if k < 2000 ∨ 3000 ≤ k then 0 else tget 0 d.attrib k := by
  rw [Dev.intervalEnd, tget_tdrop]
  exact if_congr (by simp) rfl rfl

theorem State.energy_exec (s : State) (u : EnergyUnit) (uj : Nat) :
    exec (.energyAttribution [(u, uj)]) s = .next { s with dev := (s.dev.divideEnergy u uj).intervalEnd } := rfl

/-! ### Energy of no unit -/

theorem State.energyOther (s : State) (uj : Nat) : ∃ t, exec (.energyAttribution [(.other, uj)]) s = .next t ∧
    t.dev.get Obj.ENERGY_UNATTRIBUTED_MJ % 2 ^ 64 =
      (s.dev.get Obj.ENERGY_UNATTRIBUTED_MJ + (tget 0 s.dev.attrib 2016 + uj) / 1000) % 2 ^ 64 ∧
    tget 0 t.dev.attrib 2016 = (tget 0 s.dev.attrib 2016 + uj) % 1000 ∧
    t = { s with dev := { s.dev with od := t.dev.od, attrib := t.dev.attrib } } ∧
    s.dev.SameObjects t.dev [Obj.ENERGY_UNATTRIBUTED_MJ.key 0 0] := by
  obtain ⟨⟨od, hd⟩, hs, hget⟩ := s.dev.addEnergy_spec 16 uj
  have hcarry := s.dev.attrib_addEnergy 16 uj 2016
  have hother : s.dev.divideEnergy .other uj = s.dev.addEnergy 16 uj := rfl
  have hexec := s.energy_exec .other uj
  rw [hother] at hexec
  generalize s.dev.addEnergy 16 uj = d at *
  refine ⟨_, hexec, hget, ?_, ?_, hs⟩
  · exact (d.attrib_intervalEnd 2016).trans hcarry
  · subst hd
    rfl

/-! ### Energy of a region on which one slot worked alone -/

/-- The sum of values that are zero but for one. -/
theorem foldl_add_single {f : Nat → Nat} {c : Nat} {n : Nat} (h : ∀ k < n, k ≠ c → f k = 0) :
    ((List.range n).map f).foldl (· + ·) 0 = if c < n then f c else 0 := by
  induction n with
  | zero => rfl
  | succ n ih =>
    rw [List.range_succ, List.map_append, List.foldl_append, ih fun k hk => h k (Nat.lt_succ_of_lt hk)]
    by_cases hn : n = c
    · simp [hn]
    · have hzero := h n (Nat.lt_succ_self n) hn
      simp only [List.map_cons, List.map_nil, List.foldl_cons, List.foldl_nil, hzero, Nat.add_zero]
      exact if_congr (by omega) rfl rfl

/-- What the shares of the slots leave of account `c` and of the region's energy. -/
theorem Dev.addEnergies_spec (d : Dev) (u : Nat → Nat) {c g : Nat} (hc : c < 16) {n : Nat} (hn : n ≤ 16) :
    ((List.range n).foldl (fun d k => d.addEnergy k (u k)) d).get Obj.ENERGY_MJ c % 2 ^ 64 =
      (if c < n then d.get Obj.ENERGY_MJ c + (tget 0 d.attrib (2000 + c) + u c) / 1000 else d.get Obj.ENERGY_MJ c) % 2 ^ 64 ∧
    tget 0 ((List.range n).foldl (fun d k => d.addEnergy k (u k)) d).attrib (2000 + c) =
      (if c < n then (tget 0 d.attrib (2000 + c) + u c) % 1000 else tget 0 d.attrib (2000 + c)) ∧
    ((List.range n).foldl (fun d k => d.addEnergy k (u k)) d).get Obj.REGION_ENERGY_UJ g = d.get Obj.REGION_ENERGY_UJ g := by
  induction n with
  | zero => exact ⟨rfl, rfl, rfl⟩
  | succ n ih =>
    obtain ⟨hcount, hcarry, hregion⟩ := ih (by omega)
    have hobj : energyObj n = Obj.ENERGY_MJ ∧ energyInst n = n := ⟨if_pos (by omega), if_pos (by omega)⟩
    rw [List.range_succ, List.foldl_append, List.foldl_cons, List.foldl_nil]
    generalize (List.range n).foldl (fun d k => d.addEnergy k (u k)) d = a at *
    have hregion' : (a.addEnergy n (u n)).get Obj.REGION_ENERGY_UJ g = d.get Obj.REGION_ENERGY_UJ g := by
      rw [Dev.get_addEnergy_ne, hregion]
      rw [hobj.1, hobj.2]
      simp only [ObjDef.key, Obj.REGION_ENERGY_UJ, Obj.ENERGY_MJ, Kind.stride]
      omega
    by_cases hnc : n = c
    · subst hnc
      obtain ⟨-, -, hself⟩ := a.addEnergy_spec n (u n)
      rw [hobj.1, hobj.2] at hself
      rw [if_neg (Nat.lt_irrefl n)] at hcount hcarry
      refine ⟨?_, ?_, hregion'⟩
      · rw [hself, Nat.add_mod, hcount, hcarry, if_pos (Nat.lt_succ_self n), ← Nat.add_mod]
      · rw [Dev.attrib_addEnergy, if_pos rfl, if_pos (Nat.lt_succ_self n), hcarry]
    · have hlt : (c < n + 1) = (c < n) := propext (by omega)
      refine ⟨?_, ?_, hregion'⟩
      · rw [Dev.get_addEnergy_ne, hcount]
        · simp only [hlt]
        · rw [hobj.1, hobj.2]
          simp only [ObjDef.key, Obj.ENERGY_MJ, Kind.stride]
          omega
      · rw [Dev.attrib_addEnergy, if_neg (by omega), hcarry]
        simp only [hlt]

/-- Where one slot alone worked on a region its share is all of the energy. -/
theorem Dev.divideEnergy_alone {d : Dev} {g c : Fin 16} {uj : Nat} (hw : tget 0 d.attrib (unitRegion g.val * 16 + c.val) ≠ 0)
    (hothers : ∀ k < 16, k ≠ c.val → tget 0 d.attrib (unitRegion g.val * 16 + k) = 0) :
    ∃ u : Nat → Nat, u c.val = uj ∧ d.divideEnergy (.region g) uj =
      ((List.range 16).foldl (fun d k => d.addEnergy k (u k)) (d.bump Obj.REGION_ENERGY_UJ g.val uj)).addEnergy 16 0 := by
  have hn : ∀ k, tget 0 (d.bump Obj.REGION_ENERGY_UJ g.val uj).attrib k = tget 0 d.attrib k := fun k => by
    unfold Dev.bump
    split <;> rfl
  have htotal : ((List.range 16).map fun k => tget 0 d.attrib (unitRegion g.val * 16 + k)).foldl (· + ·) 0 =
      tget 0 d.attrib (unitRegion g.val * 16 + c.val) := (foldl_add_single hothers).trans (if_pos c.isLt)
  have hshare : ∀ k < 16, k ≠ c.val → uj * tget 0 d.attrib (unitRegion g.val * 16 + k) / tget 0 d.attrib (unitRegion g.val * 16 + c.val) = 0 :=
    fun k hk hne => by rw [hothers k hk hne, Nat.mul_zero, Nat.zero_div]
  have hself : uj * tget 0 d.attrib (unitRegion g.val * 16 + c.val) / tget 0 d.attrib (unitRegion g.val * 16 + c.val) = uj :=
    Nat.mul_div_cancel _ (Nat.pos_of_ne_zero hw)
  refine ⟨fun k => uj * tget 0 d.attrib (unitRegion g.val * 16 + k) / tget 0 d.attrib (unitRegion g.val * 16 + c.val), hself, ?_⟩
  simp only [Dev.divideEnergy, unitNumber, Dev.unchargedWork, hn, htotal, Nat.add_zero, if_neg hw, List.map_map, Function.comp_def]
  rw [foldl_add_single hshare, if_pos c.isLt, hself, Nat.sub_self]
  rfl

theorem State.energyRegion (s : State) (g c : Fin 16) (uj : Nat) (hw : tget 0 s.dev.attrib (unitRegion g.val * 16 + c.val) ≠ 0)
    (hothers : ∀ k < 16, k ≠ c.val → tget 0 s.dev.attrib (unitRegion g.val * 16 + k) = 0) :
    ∃ t, exec (.energyAttribution [(.region g, uj)]) s = .next t ∧
      t.dev.get Obj.ENERGY_MJ c.val % 2 ^ 64 = (s.dev.get Obj.ENERGY_MJ c.val + (tget 0 s.dev.attrib (2000 + c.val) + uj) / 1000) % 2 ^ 64 ∧
      tget 0 t.dev.attrib (2000 + c.val) = (tget 0 s.dev.attrib (2000 + c.val) + uj) % 1000 ∧
      t.dev.get Obj.REGION_ENERGY_UJ g.val % 2 ^ 64 = (s.dev.get Obj.REGION_ENERGY_UJ g.val + uj) % 2 ^ 64 ∧
      ∀ k < 2000, tget 0 t.dev.attrib k = 0 := by
  obtain ⟨u, hu, hdivide⟩ := Dev.divideEnergy_alone (uj := uj) hw hothers
  have hexec := s.energy_exec (.region g) uj
  rw [hdivide] at hexec
  have hregion : (s.dev.bump Obj.REGION_ENERGY_UJ g.val uj).get Obj.REGION_ENERGY_UJ g.val % 2 ^ 64 =
      (s.dev.get Obj.REGION_ENERGY_UJ g.val + uj) % 2 ^ 64 := by
    by_cases h0 : uj = 0
    · simp [Dev.bump, h0]
    · rw [Dev.get_bump_self _ _ _ _ _ h0]
      exact Nat.mod_mod ..
  have hmj : (s.dev.bump Obj.REGION_ENERGY_UJ g.val uj).get Obj.ENERGY_MJ c.val = s.dev.get Obj.ENERGY_MJ c.val := Dev.get_bump_ne (by
    simp only [ObjDef.key, Obj.REGION_ENERGY_UJ, Obj.ENERGY_MJ, Kind.stride]
    omega)
  have hattrib : (s.dev.bump Obj.REGION_ENERGY_UJ g.val uj).attrib = s.dev.attrib := by
    unfold Dev.bump
    split <;> rfl
  obtain ⟨hcount, hcarry, henergy⟩ := (s.dev.bump Obj.REGION_ENERGY_UJ g.val uj).addEnergies_spec u c.isLt (g := g.val) (Nat.le_refl 16)
  rw [if_pos c.isLt, hattrib, hu] at hcount hcarry
  generalize (List.range 16).foldl (fun d k => d.addEnergy k (u k)) (s.dev.bump Obj.REGION_ENERGY_UJ g.val uj) = d at *
  have hrest : ∀ o : ObjDef, ∀ i, o.key i 0 ≠ Obj.ENERGY_UNATTRIBUTED_MJ.key 0 0 → (d.addEnergy 16 0).get o i = d.get o i :=
    fun o i ho => Dev.get_addEnergy_ne ho
  refine ⟨_, hexec, ?_, ?_, ?_, fun k hk => ?_⟩
  · show (d.addEnergy 16 0).get Obj.ENERGY_MJ c.val % 2 ^ 64 = _
    rw [hrest _ _ (by simp only [ObjDef.key, Obj.ENERGY_MJ, Obj.ENERGY_UNATTRIBUTED_MJ, Kind.stride]; omega), hcount, hmj]
  · rw [Dev.attrib_intervalEnd, if_neg (by omega), Dev.attrib_addEnergy, if_neg (by omega), hcarry]
  · show (d.addEnergy 16 0).get Obj.REGION_ENERGY_UJ g.val % 2 ^ 64 = _
    rw [hrest _ _ (by simp only [ObjDef.key, Obj.REGION_ENERGY_UJ, Obj.ENERGY_UNATTRIBUTED_MJ, Kind.stride]; omega), henergy, hregion]
  · exact (Dev.attrib_intervalEnd ..).trans (if_pos (.inl hk))

/-- Settles O4: how an exchange and a step end, and how the energy of one unit is shared. -/
theorem slotsExchangeStepsCountAndEnergyIsShared : Obligations.SlotsExchangeStepsCountAndEnergyIsShared := by
  unfold Obligations.SlotsExchangeStepsCountAndEnergyIsShared
  refine ⟨⟨fun s h r e hrun hneed hab ht he hn hw hr => ?_, fun s h r d e hrun hneed hab hx hlast hon hn hr hw ht _ =>
      State.exchangeReads hrun hneed hab hx hlast hon hn hr hw ht⟩,
    fun s c r => State.stepCompleted, fun s c r why => State.stepAborted, State.energyOther, fun s g c uj => s.energyRegion g c uj⟩
  obtain ⟨t, hexec, hexch, hpart, hwalk, hslots, honly⟩ := State.exchangeEnds hrun hneed hab ht he hn hw hr
  refine ⟨t, hexec, hexch, hpart, hwalk, fun i hi => ?_, honly⟩
  rw [Hearth.slot, hslots, e.slot_slots hi]
  rfl

end Sys2Proof.Machine
end


section
/-! The wait conditions (R99), and the fill stage's walk through the dynamic entry sequence (R84, R97, R103, R105, R113). -/

namespace Sys2Proof.Machine

/-! ### Wait conditions (R99) -/

theorem Wait.met_iff (w : Wait) (i t : Tab Nat) (v : Nat) : w.met i t v = true ↔ w.threshold i t ≤ 0 ∨ w.threshold i t ≤ (v : Int) := by
  simp [Wait.met]

/-- An entry waits for its enabled conditions alone. -/
theorem Hearth.waitsMet_iff (x : Hearth) (hd : Header) (i t : Tab Nat) :
    x.waitsMet hd i t = true ↔ ∀ w ∈ [hd.w0, hd.w1], w.en = true → w.met i t (x.visible w.ctr) = true := by
  simp only [Hearth.waitsMet, Header.waits, List.all_eq_true, List.mem_filter, and_imp]

/-- Settles O58: each condition is met at its threshold, and one that is off is not looked at. -/
theorem waitConditionsAreMetAtTheirThreshold : Obligations.WaitConditionsAreMetAtTheirThreshold := by
  refine fun x hd i t => ⟨?_, fun h0 h1 => (x.waitsMet_iff hd i t).mpr fun w hw hen => ?_⟩
  · rw [Hearth.waitsMet_iff]
    refine forall₂_congr fun w _ => imp_congr_right fun _ => ?_
    rw [Wait.met_iff, Wait.threshold, forall_eq, Nat.cast_mul]
  · rcases List.mem_pair.mp hw with rfl | rfl
    · rw [h0] at hen
      contradiction
    · rw [h1] at hen
      contradiction

/-! ### The walk (R103) -/

section
variable {w : Walk} {nxt : Nat} {f : LoopFrame} {fs : List LoopFrame}

@[simp] theorem Walk.begin_i (w : Walk) (l il : Nat) : tget 0 (w.begin l il).i l = il := by simp [Walk.begin]

@[simp] theorem Walk.begin_t (w : Walk) (l il : Nat) : tget 0 (w.begin l il).t l = tget 0 w.n l := by simp [Walk.begin]

@[simp] theorem Walk.begin_n (w : Walk) (l il : Nat) : tget 0 (w.begin l il).n l = tget 0 w.n l + 1 := by simp [Walk.begin]

/-- Outside every body the walk goes to the next entry. -/
theorem Walk.advance_outside (h : w.loops = []) : w.advance nxt = { w with pos := nxt, ordinal := w.ordinal + 1 } := by
  rw [Walk.advance, h, Walk.exit, ← h]

/-- Inside a body the walk goes to an entry that is not the one behind the body. -/
theorem Walk.advance_inside (h : w.loops = f :: fs) (hn : nxt ≠ f.last + 1) : w.advance nxt = { w with pos := nxt, ordinal := w.ordinal + 1 } := by
  rw [Walk.advance, h, Walk.exit, if_neg hn, ← h]

/-- At the end of a body with passes left the next pass begins. -/
theorem Walk.advance_nextPass (h : w.loops = f :: fs) (hleft : 0 < f.left) : w.advance (f.last + 1) =
    let b := w.begin f.level (tget 0 w.i f.level + 1)
    ⟨f.first, { f with left := f.left - 1 } :: fs, b.i, b.t, b.n, w.ordinal + 1⟩ := by
  rw [Walk.advance, h, Walk.exit, if_pos rfl, if_pos hleft]
  rfl

theorem Walk.exit_ordinal (l : List LoopFrame) (w : Walk) (nxt : Nat) : (Walk.exit l w nxt).ordinal = w.ordinal := by
  induction l with
  | nil => rfl
  | cons f fs ih =>
    unfold Walk.exit
    split
    · split
      · rfl
      · exact ih
    · rfl

/-- Every dynamic entry passed is counted. -/
theorem Walk.advance_ordinal (w : Walk) (nxt : Nat) : (w.advance nxt).ordinal = w.ordinal + 1 := Walk.exit_ordinal ..

/-- A LOOP entry with passes to make begins the first. -/
theorem Walk.loop_begins {b : LoopBody} {passes : Nat} (h : passes ≠ 0) : w.loop b passes =
    let v := w.begin b.level 0
    ⟨w.pos + 1, ⟨b.level, w.pos + 1, w.pos + b.len, passes - 1⟩ :: w.loops, v.i, v.t, v.n, w.ordinal + 1⟩ := by
  rw [Walk.loop, if_neg h]

/-- A LOOP entry without passes to make skips its body. -/
theorem Walk.loop_skips (b : LoopBody) : w.loop b 0 = w.advance (w.pos + 1 + b.len) := if_pos rfl

end

/-! ### Reads that meet no error (R80) -/

@[simp] theorem Dev.entrySram_nil (d : Dev) (h idx : Nat) : d.entrySram h idx [] = d := rfl

@[simp] theorem Dev.fillSram_nil (d : Dev) (h : Nat) : d.fillSram h [] = d := ite_self d

/-! ### FILL_STAGE_READ (R84, R103, R105, R113) -/

/-- The fill stage has taken the entry it stands at into the window. -/
def Hearth.filled (x : Hearth) (raw : Nat) : Hearth :=
  { x with window := x.window ++ [x.newEntry raw], nextId := x.nextId + 1, walk := x.walk.advance (x.walk.pos + 1) }

theorem Dev.cmdFill_takes {d : Dev} {h : Nat} {k : EKind} (hfill : d.mayFill h = true) (hread : d.readable h (d.hearth h).walk = true)
    (hk : EKind.ofCode (bits (d.tableEntry h (d.hearth h).walk.pos) 255 252) = some k) (hloop : k ≠ .loop) (hbranch : k ≠ .branch) :
    d.cmdFill h [] = d.setHearth h ((d.hearth h).filled (d.tableEntry h (d.hearth h).walk.pos)) := by
  simp only [Dev.cmdFill, hfill, Dev.entrySram_nil, hread, hk, Bool.not_true, Bool.false_eq_true, if_false]
  split
  · next he => exact absurd (Option.some.inj he) hloop
  · next he => exact absurd (Option.some.inj he) hbranch
  · rfl

/-- The fill stage has been stopped. -/
def Hearth.stopFill (x : Hearth) : Hearth := { x with run := x.run.map fun r => { r with stopped := true } }

/-- An illegal entry that other entries still stand before stops the fill stage, and the event says so (R113). -/
theorem Dev.cmdFill_stops {d : Dev} {h : Nat} (hfill : d.mayFill h = true) (hread : d.readable h (d.hearth h).walk = false)
    (hw : (d.hearth h).window ≠ []) : d.cmdFill h [] = (d.modHearth h Hearth.stopFill).raise Event.illegalEntry .hearth h
      ((d.modHearth h Hearth.stopFill).hearthCtx h) (d.hearth h).walk.pos := by
  have hsettle : ∀ a : Dev, (a.hearth h).window = (d.hearth h).window → a.illegalSettle h = a := fun a ha => by
    unfold Dev.illegalSettle
    extract_lets x
    split
    · rw [if_neg (by simp [x, ha, hw])]
    · rfl
  simp only [Dev.cmdFill, hfill, Dev.entrySram_nil, hread, Bool.not_true, Bool.not_false, Bool.false_eq_true, if_false, if_true]
  refine hsettle _ ?_
  rw [Dev.hearth_raise, Dev.modHearth, Dev.hearth_setHearth_self]

/-- Settles O5: what the fill stage makes of a legal entry, and how an illegal one stops it. -/
theorem fillStageTakesTheNextLegalEntry : Obligations.FillStageTakesTheNextLegalEntry := by
  refine fun s h hfill => ⟨fun k hread hk hloop hbranch => ?_, fun r hread hrun hw => ?_⟩
  · have hexec := State.onDev_next (f := fun d => d.cmdFill h.val []) (Dev.cmdFill_takes hfill hread hk hloop hbranch)
    refine ⟨_, (s.dev.hearth h.val).newEntry (s.dev.tableEntry h.val (s.dev.hearth h.val).walk.pos), hexec, ?_⟩
    rw [Dev.hearth_setHearth_self]
    refine ⟨rfl, rfl, rfl, rfl, rfl, rfl, rfl, rfl, Walk.advance_ordinal .., fun hout => ?_, fun f fs hin hlast => ?_,
      fun f fs hin hlast hleft => ?_, rfl, State.onlyHearth_of_dev (.setHearth ..)⟩
    · rw [Hearth.filled, Walk.advance_outside hout]
    · rw [Hearth.filled, Walk.advance_inside hin (by omega)]
      exact ⟨rfl, hin⟩
    · rw [Hearth.filled, hlast, Walk.advance_nextPass hin hleft]
      exact ⟨rfl, by simp, rfl⟩
  · have hexec := State.onDev_next (f := fun d => d.cmdFill h.val []) (Dev.cmdFill_stops hfill hread hw)
    refine ⟨_, hexec, ?_⟩
    rw [Dev.hearth_raise, Dev.modHearth, Dev.hearth_setHearth_self]
    exact ⟨by rw [Hearth.stopFill, hrun]; rfl, rfl, State.onlyHearth_of_dev (.trans (.modHearth ..) (.raise ..))⟩

/-! ### LOOP and BRANCH (R97, R103) -/

theorem Dev.cmdLoop_at {d : Dev} {h raw : Nat} (hc : d.controlAt h .loop = some raw) : d.cmdLoop h [] =
    d.modHearth h fun x => { x with walk := x.walk.loop (.ofWord raw) (x.passes (.ofWord raw)) } := by
  simp only [Dev.cmdLoop, Dev.fillSram_nil, hc]

/-- Whether the BRANCH entry at the fill stage is taken, by its comparison. -/
def Hearth.takes (x : Hearth) (b : BranchBody) : Bool := b.holds (x.branchVal x.walk b)

/-- Where the fill stage goes on behind a BRANCH entry. -/
def Hearth.branched (x : Hearth) (b : BranchBody) : Walk := x.walk.advance (if x.takes b then b.target else x.walk.pos + 1)

theorem Dev.cmdBranch_at {d : Dev} {h raw : Nat} (hc : d.controlAt h .branch = some raw) : d.cmdBranch h [] =
    d.modHearth h fun x => { x with walk := x.branched (.ofWord raw),
                                    bellows := x.bellows.resolve x.walk.ordinal (x.takes (.ofWord raw)) (x.branched (.ofWord raw)) } := by
  simp only [Dev.cmdBranch, Dev.fillSram_nil, hc]
  rfl

/-- A branch that does not end a body goes where its comparison says. -/
theorem Hearth.branched_of_notLast {x : Hearth} {b : BranchBody}
    (h : ∀ f fs, x.walk.loops = f :: fs → x.walk.pos ≠ f.last ∧ b.target ≠ f.last + 1) :
    x.branched b = { x.walk with pos := if x.takes b then b.target else x.walk.pos + 1, ordinal := x.walk.ordinal + 1 } := by
  cases hl : x.walk.loops with
  | nil => exact Walk.advance_outside hl
  | cons f fs =>
    obtain ⟨hpos, htarget⟩ := h f fs hl
    refine Walk.advance_inside hl ?_
    split
    · exact htarget
    · omega

/-- Settles O6: a LOOP begins its first pass or skips its body, and a BRANCH goes the way its comparison says. -/
theorem loopAndBranchSteerTheWalk : Obligations.LoopAndBranchSteerTheWalk := by
  refine fun s h raw => ⟨fun hc hp => ?_, fun hc hp hout => ?_, fun hc hlast => ?_⟩
  · have hexec := State.onDev_next (f := fun d => d.cmdLoop h.val []) (Dev.cmdLoop_at hc)
    refine ⟨_, hexec, ?_⟩
    rw [Dev.modHearth, Dev.hearth_setHearth_self, Walk.loop_begins hp]
    exact ⟨rfl, by simp, by simp, by simp, rfl, rfl, State.onlyHearth_of_dev (.setHearth ..)⟩
  · have hexec := State.onDev_next (f := fun d => d.cmdLoop h.val []) (Dev.cmdLoop_at hc)
    refine ⟨_, hexec, ?_⟩
    rw [Dev.modHearth, Dev.hearth_setHearth_self, hp, Walk.loop_skips, Walk.advance_outside hout]
    exact ⟨rfl, rfl, State.onlyHearth_of_dev (.setHearth ..)⟩
  · have hexec := State.onDev_next (f := fun d => d.cmdBranch h.val []) (Dev.cmdBranch_at hc)
    refine ⟨_, hexec, ?_⟩
    rw [Dev.modHearth, Dev.hearth_setHearth_self, Hearth.branched_of_notLast hlast]
    exact ⟨rfl, rfl, rfl, rfl, State.onlyHearth_of_dev (.setHearth ..)⟩

end Sys2Proof.Machine
end

section
/-! What the scan's pick leaves as it fires, completes and retires (R100, R106, R111, R112, R124), for entries of every kind. -/

namespace Sys2Proof.Machine

/-! ### Firing (R106, R108, R132) -/

/-- An entry's ranges follow from the hearth, the place of its descriptors and the flues' settings. -/
theorem Dev.rangesOf_congr {d d' : Dev} {h : Nat} (hx : d'.hearth h = d.hearth h)
    (hdesc : d'.get Obj.DESC_TABLE_BASE h = d.get Obj.DESC_TABLE_BASE h) (hflue : ∀ f, d'.get Obj.FLUE_CFG f = d.get Obj.FLUE_CFG f)
    (e : WEntry) : d'.rangesOf h e = d.rangesOf h e := by
  have htr : d'.transposed h = d.transposed h := by rw [Dev.transposed, Dev.transposed, hx]
  have hds : ∀ n, d'.descriptor h n = d.descriptor h n := fun n => by rw [Dev.descriptor, Dev.descriptor, hx, hdesc]
  have hcfg : ∀ f, d'.flueCfg f = d.flueCfg f := fun f => by rw [Dev.flueCfg, Dev.flueCfg, hflue]
  have hnow : d'.rangesNow h e = d.rangesNow h e := by
    cases hk : e.kind <;> simp only [Dev.rangesNow, hk, htr, hds, hcfg]
  rw [Dev.rangesOf, Dev.rangesOf, hnow]

section
variable (d : Dev) (h : Nat)

/-- The device once an egress entry has been held in its scan, or not. -/
abbrev Dev.egressHeld (held : Bool) : Dev := d.bump Obj.EGRESS_HOLD_CYCLES h held.toNat

/-- Counting a held egress entry moves no descriptor. -/
theorem Dev.descBase_egressHeld (held : Bool) : (d.egressHeld h held).get Obj.DESC_TABLE_BASE h = d.get Obj.DESC_TABLE_BASE h :=
  Dev.get_bump_ne (hearthKey_ne (by decide) (by decide) (.inl (by decide)))

theorem Dev.descriptor_egressHeld (held : Bool) (n : Nat) : (d.egressHeld h held).descriptor h n = d.descriptor h n := by
  rw [Dev.descriptor, Dev.descriptor, Dev.descBase_egressHeld, Dev.hearth_bump]

/-- Counting a held egress entry leaves what legality at firing looks at (R132). -/
theorem Dev.touchesOther_egressHeld (held : Bool) (c : Nat) (e : WEntry) : (d.egressHeld h held).touchesOther h c e = d.touchesOther h c e := by
  have hregion : ∀ m < 16, (d.egressHeld h held).get Obj.REGION h m = d.get Obj.REGION h m := fun m hm =>
    Dev.get_bump_ne (by simp only [ObjDef.key, Obj.REGION, Obj.EGRESS_HOLD_CYCLES, Kind.stride]; omega)
  have hranges := Dev.rangesOf_congr (Dev.hearth_bump d Obj.EGRESS_HOLD_CYCLES h held.toNat 0 h) (d.descBase_egressHeld h held)
    (fun f => Dev.get_bump_ne (by simp only [ObjDef.key, Obj.FLUE_CFG, Obj.EGRESS_HOLD_CYCLES, Kind.stride]; omega)) e
  simp only [Dev.touchesOther, hranges]
  rw [Bool.eq_iff_iff, List.any_eq_true, List.any_eq_true]
  exact exists_congr fun m => and_congr_right fun hm => by rw [hregion m (List.mem_range.mp hm)]

end

/-- An entry of any kind that the scan picks fires. -/
theorem Dev.fireIf_fires {d : Dev} {h : Nat} {k : EKind} {e : WEntry} (hF : d.Fires h k e) (fire : Dev → WEntry → Dev) :
    ∃ held ranges, d.fireIf h (fun e => e.kind = k) fire = fire (d.fired h e held ranges) ((d.hearth h).firedEntry e ranges) := by
  obtain ⟨hmay, hscan, hkind, hdesc, htouch⟩ := hF
  obtain ⟨held, hpair⟩ : ∃ held, d.scanFrom h (d.hearth h).window false false = (some e, held) := ⟨_, Prod.ext hscan rfl⟩
  have hheld : (if held = true then d.bump Obj.EGRESS_HOLD_CYCLES h else d) = d.egressHeld h held := by
    cases held <;> rfl
  have hlegal : (d.egressHeld h held).touchesOther h (((d.egressHeld h held).hearthCtx h).getD 0) e = false := by
    rw [Dev.hearthCtx, Dev.hearth_bump, Dev.touchesOther_egressHeld]
    exact htouch
  have hfired : (d.egressHeld h held).modHearth h (fun x => x.markFired e ((d.egressHeld h held).rangesNow h e)) =
      (d.egressHeld h held).setHearth h { d.hearth h with window := (d.hearth h).firedWindow e ((d.egressHeld h held).rangesNow h e) } := by
    rw [Dev.modHearth, Dev.hearth_bump, Hearth.markFired_eq]
  refine ⟨held, (d.egressHeld h held).rangesNow h e, ?_⟩
  simp only [Dev.fireIf, hmay, hpair, hheld, hkind, hlegal, Bool.not_true, decide_true, Bool.false_eq_true, if_false, Bool.or_false]
  rw [if_neg, hfired, ← Dev.fired, Hearth.entryOf, Dev.hearth_fired, Hearth.find_firedWindow (Dev.scanFrom_fires hscan).1]
  · split
    · rw [Dev.descriptor_egressHeld, hdesc rfl]
      decide
    · decide

/-- What firing leaves as it was. -/
theorem Dev.fired_onlyHearth (d : Dev) (h : Nat) (e : WEntry) (held : Bool) (ranges : List (Nat × Nat) × List (Nat × Nat)) :
    d.OnlyHearth (d.fired h e held ranges) h [Obj.ENTRIES_FIRED.key h 0, Obj.EGRESS_HOLD_CYCLES.key h 0] :=
  .trans (.trans (.bump (by simp)) (.setHearth ..)) (.bump (by simp))

section
variable {x : Hearth} {e : WEntry} {ranges : List (Nat × Nat) × List (Nat × Nat)}

/-- Entries of the grates alone predict (R124). -/
theorem WEntry.predicting_of_kind (h : e.kind ≠ .grate) : e.predicting = false := by
  unfold WEntry.predicting
  split
  · next hk => exact absurd hk h
  · rfl

/-- An entry that depends on no provisional one fires outside the provisional slots (R124). -/
theorem Hearth.firedEntry_committed (hslot : e.slot = none) (hk : e.kind ≠ .grate) (hsrc : x.sources e = []) :
    x.firedEntry e ranges = { e with st := .firing, mask := [], ranges := ranges } := by
  simp [Hearth.firedEntry, hslot, WEntry.predicting_of_kind hk, hsrc]

/-- An entry that depends on provisional ones fires in a provisional slot, with them in its mask (R124). -/
theorem Hearth.firedEntry_dependent (hslot : e.slot = none → x.freeSlot.isSome = true) (hsrc : x.sources e ≠ []) :
    (x.firedEntry e ranges).slot.isSome = true ∧ (x.firedEntry e ranges).mask ≠ [] := by
  obtain ⟨o, os, ho⟩ := List.exists_cons_of_ne_nil hsrc
  simp only [Hearth.firedEntry, ho, List.isEmpty_cons, Bool.not_false, Bool.or_true, if_true]
  refine ⟨?_, ?_⟩
  · split
    · rfl
    · next hnone => exact hslot hnone
  · rw [ne_eq, List.dedup_eq_nil]
    simp

end

/-- A dependent entry that fires finds a provisional slot (R106, R124). -/
theorem Dev.scanOne_dependent {d : Dev} {h : Nat} {e : WEntry} {older : Bool} (hv : d.scanOne h e older = .fires)
    (hsrc : (d.hearth h).sources e ≠ []) (hslot : e.slot = none) : (d.hearth h).freeSlot.isSome = true := by
  by_contra hfree
  rw [Option.isSome_iff_ne_none, not_not] at hfree
  simp [Dev.scanOne, hsrc, hslot, hfree] at hv

end Sys2Proof.Machine
end

section
/-! Completion and retirement of window entries (R98, R100, R111, R112), and what ends a hearth's part of a step (R76, R167, R325). -/

namespace Sys2Proof.Machine

/-! ### The window by number -/

section
variable {x : Hearth} {e e' : WEntry} {id : Nat}

theorem Hearth.id_of_entryOf (h : x.entryOf id = some e) : e.id = id := by simpa using List.find?_some h

/-- An entry that has replaced the one with its number is found by it. -/
theorem Hearth.entryOf_setEntry (h : x.entryOf id = some e) (hid : e'.id = id) : (x.setEntry e').entryOf id = some e' := by
  subst hid
  unfold Hearth.entryOf at h
  unfold Hearth.setEntry Hearth.entryOf
  induction hw : x.window generalizing x with
  | nil => simp [hw] at h
  | cons o w ih =>
    by_cases ho : o.id = e'.id
    · simp [ho]
    · rw [hw, List.find?_cons_of_neg (by simpa using ho)] at h
      rw [List.map_cons, if_neg ho, List.find?_cons_of_neg (by simpa using ho)]
      exact ih (x := { x with window := w }) h rfl

theorem Hearth.mem_of_entryOf (h : x.entryOf id = some e) : e ∈ x.window := List.mem_of_find?_eq_some h

/-- An increment by an entry in no provisional slot is committed (R111). -/
theorem Hearth.increment_committed (h : x.entryOf id = some e) (hslot : e.slot = none) (c : Nat) (a : Int) :
    x.increment id c a = x.addCounter c a := by simp [Hearth.increment, h, hslot]

/-- An increment by an entry in a provisional slot stays with the entry (R98). -/
theorem Hearth.increment_provisional (h : x.entryOf id = some e) (hslot : e.slot.isSome = true) (c : Nat) (a : Int) :
    (x.increment id c a).counters = x.counters ∧ (x.increment id c a).run = x.run ∧
    ∃ inc, (x.increment id c a).entryOf id = some { e with inc := inc } := by
  have hinc : x.increment id c a = x.setEntry { e with inc := tset 0 e.inc c (tget 0 e.inc c + a) } := by simp [Hearth.increment, h, hslot]
  have hid := Hearth.id_of_entryOf h
  rw [hinc]
  exact ⟨rfl, rfl, _, Hearth.entryOf_setEntry h hid⟩

theorem countBy_natCast (v n : Nat) : countBy v n = (v + n) % 2 ^ 32 := by
  rw [countBy, if_neg (by omega), ← Nat.cast_add, Int.toNat_natCast]

/-- The signal of an entry in no provisional slot is committed (R85, R111). -/
theorem Hearth.signal_committed (h : x.entryOf e.id = some e) (hslot : e.slot = none) :
    (x.signal e).window = x.window ∧ ∀ k, (x.signal e).counter k = e.hdr.signalled k (x.counter k) := by
  unfold Hearth.signal
  split
  · next hsig =>
    rw [Hearth.increment_committed h hslot]
    refine ⟨rfl, fun k => ?_⟩
    rw [Hearth.counter_addCounter, countBy_natCast, Header.signalled]
    simp [hsig, Nat.add_assoc]
  · next hsig => exact ⟨rfl, fun k => by simp [Header.signalled, hsig]⟩

/-- The signal of an entry in a provisional slot is an increment of the entry (R98, R111). -/
theorem Hearth.signal_provisional (h : x.entryOf e.id = some e) (hslot : e.slot.isSome = true) :
    (x.signal e).counters = x.counters ∧ ∃ inc, (x.signal e).entryOf e.id = some { e with inc := inc } := by
  unfold Hearth.signal
  split
  · obtain ⟨hcounters, -, hentry⟩ := Hearth.increment_provisional h hslot e.hdr.sigCtr (e.hdr.sigAmt + 1 : Nat)
    exact ⟨hcounters, hentry⟩
  · exact ⟨rfl, e.inc, h⟩

end

/-! ### Retirement (R111, R112) -/

/-- Entry `id` is retired, and no entry depends on it any more; retired entries in front leave the window. -/
def Hearth.leave (x : Hearth) (id : Nat) : Hearth :=
  { x with window := dropRetired ((x.window.map fun o =>
    if o.id = id then { o with st := .retired, slot := none, inc := [], mask := [] } else { o with mask := o.mask.filter (· ≠ id) })) }

/-- Provisional increments are committed. -/
def Hearth.commit (x : Hearth) (inc : Tab Int) : Hearth := inc.foldl (fun x ca => x.addCounter ca.1 ca.2) x

/-- A GRATE entry signals late, and its scale slot has been used. -/
def Hearth.grateLeaves (x : Hearth) (e : WEntry) : Hearth :=
  let b := GrateBody.ofWord e.raw
  let x := if e.kind = .grate && !b.sigEarly && e.hdr.sigEn then x.addCounter e.hdr.sigCtr (e.hdr.sigAmt + 1 : Nat) else x
  if e.kind = .grate && decide (2 ≤ b.dFmt) && decide (b.dFmt ≤ 5) then x.writeSlot b.slotExp false fun s => { s with used := true } else x

/-- The hearth once entry `e` has retired. -/
def Hearth.retired (x : Hearth) (e : WEntry) : Hearth := ((x.leave e.id).commit e.inc).grateLeaves e

theorem mem_dropRetired {o : WEntry} {w : List WEntry} (h : o ∈ dropRetired w) : o ∈ w := by
  induction w with
  | nil => exact h
  | cons e w ih =>
    unfold dropRetired at h
    split at h
    · exact List.mem_cons_of_mem _ (ih h)
    · exact h

theorem Hearth.mem_leave {x : Hearth} {id : Nat} {o : WEntry} (h : o ∈ (x.leave id).window) : (o.id = id → o.st = .retired) ∧ id ∉ o.mask := by
  obtain ⟨o', -, rfl⟩ := List.mem_map.mp (mem_dropRetired h)
  by_cases ho : o'.id = id <;> simp [ho]

/-- Committing increments changes counters alone. -/
theorem Hearth.commit_shape (x : Hearth) (inc : Tab Int) : ∃ cs, x.commit inc = { x with counters := cs } :=
  List.foldlRecOn (motive := fun y : Hearth => ∃ cs, y = { x with counters := cs }) _ _ ⟨_, rfl⟩ fun y h ca _ => by
    obtain ⟨cs, rfl⟩ := h
    exact ⟨_, rfl⟩

/-- A counter once the increments of an entry are committed, each of them once. -/
theorem Hearth.counter_commit {inc : Tab Int} (h : twf 0 inc = true) (x : Hearth) (k : Nat) :
    (x.commit inc).counter k = if tget 0 inc k = 0 then x.counter k else countBy (x.counter k) (tget 0 inc k) := by
  have hfrom : ∀ (inc : Tab Int) (lo : Nat) (x : Hearth), twfFrom 0 lo inc = true →
      (x.commit inc).counter k = if tget 0 inc k = 0 then x.counter k else countBy (x.counter k) (tget 0 inc k) := by
    intro inc
    induction inc with
    | nil => exact fun _ _ _ => rfl
    | cons ca inc ih =>
      obtain ⟨c, a⟩ := ca
      intro lo x h
      simp only [twfFrom, Bool.and_eq_true, decide_eq_true_eq] at h
      obtain ⟨⟨-, ha⟩, hrest⟩ := h
      refine (ih (c + 1) (x.addCounter c a) hrest).trans ?_
      rw [Hearth.counter_addCounter]
      by_cases hk : k = c
      · subst hk
        simp [tget, ha, tget_of_lt hrest (Nat.lt_succ_self k)]
      · simp [tget, hk]
  exact hfrom inc 0 x h

/-- The grates' part of a retirement changes counters and scale slots alone. -/
theorem Hearth.grateLeaves_shape (x : Hearth) (e : WEntry) :
    ∃ cs slots bad, x.grateLeaves e = { x with counters := cs, slots := slots, slotBad := bad } := by
  unfold Hearth.grateLeaves
  extract_lets b y
  have hy : ∃ cs, y = { x with counters := cs } := by
    simp only [y]
    split
    · exact ⟨_, rfl⟩
    · exact ⟨_, rfl⟩
  obtain ⟨cs, hy⟩ := hy
  rw [hy]
  split
  · exact ⟨_, _, _, rfl⟩
  · exact ⟨_, _, _, rfl⟩

theorem Hearth.grateLeaves_of_kind {e : WEntry} (hk : e.kind ≠ .grate) (x : Hearth) : x.grateLeaves e = x := by
  simp [Hearth.grateLeaves, hk]

section
variable (x : Hearth) (e : WEntry)

/-- A retirement leaves the window without the entry's number in any mask, and the part of the step as it was. -/
theorem Hearth.retired_spec : (x.retired e).window = (x.leave e.id).window ∧ (x.retired e).run = x.run := by
  obtain ⟨cs, slots, bad, hgrate⟩ := Hearth.grateLeaves_shape ((x.leave e.id).commit e.inc) e
  obtain ⟨cs', hcommit⟩ := (x.leave e.id).commit_shape e.inc
  rw [Hearth.retired, hgrate, hcommit]
  exact ⟨rfl, rfl⟩

theorem Hearth.mem_retired {o : WEntry} (h : o ∈ (x.retired e).window) : (o.id = e.id → o.st = .retired) ∧ e.id ∉ o.mask := by
  rw [(x.retired_spec e).1] at h
  exact Hearth.mem_leave h

/-- The counters once an entry other than one of the grates has retired. -/
theorem Hearth.counter_retired (hk : e.kind ≠ .grate) (hinc : twf 0 e.inc = true) (k : Nat) :
    (x.retired e).counter k = if tget 0 e.inc k = 0 then x.counter k else countBy (x.counter k) (tget 0 e.inc k) := by
  rw [Hearth.retired, Hearth.grateLeaves_of_kind hk, Hearth.counter_commit hinc]
  rfl

end

section
variable {d d' : Dev} {h id : Nat} {e : WEntry}

theorem Dev.FillGoes.congr (g : d.FillGoes h) (hrun : (d'.hearth h).run = (d.hearth h).run) : d'.FillGoes h := by
  unfold Dev.FillGoes
  rw [hrun]
  exact g

/-- While the fill stage goes on no illegal entry ends the step. -/
theorem Dev.illegalSettle_of_goes (g : d.FillGoes h) : d.illegalSettle h = d := by
  obtain ⟨r, hrun, hstop, -⟩ := g
  simp [Dev.illegalSettle, hrun, hstop]

/-- Everything a retirement does while the fill stage goes on. -/
theorem Dev.retire_eq (g : d.FillGoes h) (he : (d.hearth h).entryOf id = some e) (htag : e.tagWord = none) :
    d.retire h id = (d.setHearth h ((d.hearth h).retired e)).bump Obj.ENTRIES_RETIRED h := by
  have hid := Hearth.id_of_entryOf he
  subst hid
  simp only [Dev.retire, he, htag]
  refine Dev.illegalSettle_of_goes (g.congr ?_)
  rw [Dev.hearth_bump, Dev.hearth_setHearth_self]
  exact (Hearth.retired_spec _ e).2

/-- A retirement is counted, and changes the hearth alone. -/
theorem Dev.retire_counted (g : d.FillGoes h) (he : (d.hearth h).entryOf id = some e) (htag : e.tagWord = none) :
    (d.retire h id).hearth h = (d.hearth h).retired e ∧
    (d.retire h id).get Obj.ENTRIES_RETIRED h = (d.get Obj.ENTRIES_RETIRED h + 1) % 2 ^ 64 ∧
    d.OnlyHearth (d.retire h id) h [Obj.ENTRIES_RETIRED.key h 0] := by
  rw [Dev.retire_eq g he htag]
  refine ⟨?_, Dev.get_bump_self _ _ _ _ _ one_ne_zero, .trans (.setHearth ..) (.bump (by simp))⟩
  rw [Dev.hearth_bump, Dev.hearth_setHearth_self]

/-! ### Completion (R111, R112) -/

/-- An entry once it has completed. -/
def WEntry.ended (e : WEntry) : WEntry := { e with st := .complete }

/-- The hearth once entry `e` has completed and signalled. -/
def Hearth.completed (x : Hearth) (e : WEntry) : Hearth := (x.setEntry e.ended).signal e.ended

theorem Hearth.completed_run (x : Hearth) (e : WEntry) : (x.completed e).run = x.run := by
  obtain ⟨w, cs, hs⟩ := (x.setEntry e.ended).signal_spec e.ended
  rw [Hearth.completed, hs]
  rfl

theorem Dev.completeEntry_eq (g : d.FillGoes h) (he : (d.hearth h).entryOf id = some e) :
    d.completeEntry h id true = if e.free then (d.setHearth h ((d.hearth h).completed e)).retire h id
      else d.setHearth h ((d.hearth h).completed e) := by
  obtain ⟨r, hrun, -, hab⟩ := g
  simp only [Dev.completeEntry, he, hrun, hab, Bool.not_false, Bool.and_self, Bool.false_eq_true, if_false, if_true]
  rfl

/-- An entry that nothing keeps provisional signals, completes and retires at once. -/
theorem Dev.completeEntry_committed (g : d.FillGoes h) (he : (d.hearth h).entryOf id = some e) (hslot : e.slot = none) (hmask : e.mask = [])
    (hinc : e.inc = []) (htag : e.tagWord = none) (hk : e.kind ≠ .grate) :
    (∀ k, ((d.completeEntry h id true).hearth h).counter k = e.hdr.signalled k ((d.hearth h).counter k)) ∧
    (∀ o ∈ ((d.completeEntry h id true).hearth h).window, o.id = id → o.st = .retired) ∧
    (d.completeEntry h id true).get Obj.ENTRIES_RETIRED h = (d.get Obj.ENTRIES_RETIRED h + 1) % 2 ^ 64 ∧
    d.OnlyHearth (d.completeEntry h id true) h [Obj.ENTRIES_RETIRED.key h 0] := by
  have hid := Hearth.id_of_entryOf he
  subst hid
  have hset : ((d.hearth h).setEntry e.ended).entryOf e.id = some e.ended := Hearth.entryOf_setEntry he rfl
  obtain ⟨hwindow, hcounter⟩ := Hearth.signal_committed (e := e.ended) hset hslot
  have hself : (d.setHearth h ((d.hearth h).completed e)).hearth h = (d.hearth h).completed e := Dev.hearth_setHearth_self ..
  have hentry : ((d.setHearth h ((d.hearth h).completed e)).hearth h).entryOf e.id = some e.ended := by
    rw [hself, ← hset, Hearth.entryOf, Hearth.completed, hwindow, Hearth.entryOf]
  have hgoes : (d.setHearth h ((d.hearth h).completed e)).FillGoes h := g.congr (by rw [hself, Hearth.completed_run])
  obtain ⟨hx, hcount, honly⟩ := Dev.retire_counted hgoes hentry htag
  rw [Dev.completeEntry_eq g he, if_pos (by simp [WEntry.free, hmask]), hx, hself]
  refine ⟨fun k => ?_, fun o ho => (Hearth.mem_retired _ _ ho).1, hcount, .trans (.setHearth ..) honly⟩
  rw [Hearth.counter_retired _ e.ended hk (by rw [WEntry.ended, hinc]; rfl), WEntry.ended, hinc]
  exact hcounter k

/-- An entry in a provisional slot that depends on another completes, and its signal stays with it. -/
theorem Dev.completeEntry_provisional (g : d.FillGoes h) (he : (d.hearth h).entryOf id = some e) (hslot : e.slot.isSome = true)
    (hmask : e.mask ≠ []) : ((d.completeEntry h id true).hearth h).counters = (d.hearth h).counters ∧
      ∃ o ∈ ((d.completeEntry h id true).hearth h).window, o.id = id ∧ o.st = .complete ∧ o.slot.isSome = true ∧ o.mask ≠ [] := by
  have hid := Hearth.id_of_entryOf he
  subst hid
  have hset : ((d.hearth h).setEntry e.ended).entryOf e.id = some e.ended := Hearth.entryOf_setEntry he rfl
  obtain ⟨hcounters, inc, hentry⟩ := Hearth.signal_provisional (e := e.ended) hset hslot
  rw [Dev.completeEntry_eq g he, if_neg (by simp [WEntry.free, hmask]), Dev.hearth_setHearth_self]
  exact ⟨hcounters, _, Hearth.mem_of_entryOf hentry, rfl, rfl, hslot, hmask⟩

end

end Sys2Proof.Machine
end

section
/-! NOP, COUNTER and ENTRY_RETIRE (R97, R100, R106, R111, R112). -/

namespace Sys2Proof.Machine

section
variable {s : State} {h : Fin 1024} {e : WEntry} {k : EKind} {held : Bool} {ranges : List (Nat × Nat) × List (Nat × Nat)}

/-! ### The entry that fires -/

/-- The hearth finds the entry that has fired by its number. -/
theorem Dev.entryOf_fired {d : Dev} {h : Nat} (hm : e ∈ (d.hearth h).window) :
    ((d.fired h e held ranges).hearth h).entryOf e.id = some ((d.hearth h).firedEntry e ranges) := by
  rw [Dev.hearth_fired]
  exact Hearth.find_firedWindow hm

theorem Dev.FillGoes.fired {d : Dev} {h : Nat} (g : d.FillGoes h) : (d.fired h e held ranges).FillGoes h := g.congr (by rw [Dev.hearth_fired])

/-- What an entry that signals, completes and retires as it fires leaves of the device `d` in which it has fired. -/
theorem State.firedAndRetired {d : Dev} (hgo : s.dev.FillGoes h.val) (hm : e ∈ (s.dev.hearth h.val).window)
    (hk : e.kind ≠ .grate) (hslot : e.slot = none) (hsrc : (s.dev.hearth h.val).sources e = []) (hinc : e.inc = []) (htag : e.tagWord = none)
    (hwindow : (d.hearth h.val).window = (s.dev.hearth h.val).firedWindow e ranges) (hrun : (d.hearth h.val).run = (s.dev.hearth h.val).run)
    (honly : (s.dev.fired h.val e held ranges).OnlyHearth d h.val []) :
    (∀ k, ((d.completeEntry h.val e.id true).hearth h.val).counter k = e.hdr.signalled k ((d.hearth h.val).counter k)) ∧
    (∀ o ∈ ((d.completeEntry h.val e.id true).hearth h.val).window, o.id = e.id → o.st = .retired) ∧
    (d.completeEntry h.val e.id true).get Obj.ENTRIES_FIRED h.val = (s.dev.get Obj.ENTRIES_FIRED h.val + 1) % 2 ^ 64 ∧
    (d.completeEntry h.val e.id true).get Obj.ENTRIES_RETIRED h.val = (s.dev.get Obj.ENTRIES_RETIRED h.val + 1) % 2 ^ 64 ∧
    s.OnlyHearth { s with dev := d.completeEntry h.val e.id true } h.val
      [Obj.ENTRIES_FIRED.key h.val 0, Obj.ENTRIES_RETIRED.key h.val 0, Obj.EGRESS_HOLD_CYCLES.key h.val 0] := by
  have hentry : (d.hearth h.val).entryOf e.id = some { e with st := .firing, mask := [], ranges := ranges } := by
    rw [Hearth.entryOf, hwindow, Hearth.find_firedWindow hm, Hearth.firedEntry_committed hslot hk hsrc]
  have hfired := s.dev.fired_onlyHearth h.val e held ranges
  have hd := hfired.trans (honly.mono (List.nil_subset _))
  obtain ⟨hcounter, hretired, hcount, hrest⟩ := Dev.completeEntry_committed (hgo.congr hrun) hentry hslot rfl hinc htag hk
  obtain ⟨-, -, hfiredCount, -⟩ := s.dev.fired_spec h.val e held ranges
  refine ⟨hcounter, hretired, ?_, ?_, State.onlyHearth_of_dev ((hd.mono (by simp)).trans (hrest.mono (by simp)))⟩
  · rw [hrest.get (by simpa using hearthKey_ne (by decide) (by decide) (.inr (.inl (by decide)))) (hearthKey_not_event (by decide) _),
      honly.get (by simp) (hearthKey_not_event (by decide) _), hfiredCount]
  · rw [hcount, hd.get ?_ (hearthKey_not_event (by decide) _)]
    simp only [List.mem_cons, List.not_mem_nil, or_false, not_or]
    exact ⟨hearthKey_ne (by decide) (by decide) (.inr (.inl (by decide))), hearthKey_ne (by decide) (by decide) (.inr (.inl (by decide)))⟩

/-- NOP: an entry that depends on no provisional one retires in the same command. -/
theorem State.nopRetires (hF : s.dev.Fires h.val .nop e) (hgo : s.dev.FillGoes h.val) (hslot : e.slot = none)
    (hsrc : (s.dev.hearth h.val).sources e = []) (hinc : e.inc = []) (htag : e.tagWord = none) :
    ∃ t, exec (.nop h) s = .next t ∧
      (∀ k, (t.dev.hearth h.val).counter k = e.hdr.signalled k ((s.dev.hearth h.val).counter k)) ∧
      (∀ o ∈ (t.dev.hearth h.val).window, o.id = e.id → o.st = .retired) ∧
      t.dev.get Obj.ENTRIES_FIRED h.val = (s.dev.get Obj.ENTRIES_FIRED h.val + 1) % 2 ^ 64 ∧
      t.dev.get Obj.ENTRIES_RETIRED h.val = (s.dev.get Obj.ENTRIES_RETIRED h.val + 1) % 2 ^ 64 ∧
      s.OnlyHearth t h.val [Obj.ENTRIES_FIRED.key h.val 0, Obj.ENTRIES_RETIRED.key h.val 0, Obj.EGRESS_HOLD_CYCLES.key h.val 0] := by
  obtain ⟨held, ranges, hfire⟩ := Dev.fireIf_fires hF fun d e => d.completeEntry h.val e.id true
  obtain ⟨-, hscan, hkind, -, -⟩ := hF
  have hx := s.dev.hearth_fired h.val e held ranges
  obtain ⟨hsignal, hrest⟩ := State.firedAndRetired (held := held) hgo (Dev.scanFrom_fires hscan).1 (by simp [hkind]) hslot hsrc hinc htag
    (by rw [hx]) (by rw [hx]) (.refl ..)
  exact ⟨_, State.onDev_next (f := fun d => d.cmdNop h.val) hfire, fun k => (hsignal k).trans (by rw [hx]; rfl), hrest⟩

/-- COUNTER: an entry that depends on no provisional one adds its addend and retires in the same command. -/
theorem State.counterRetires (hF : s.dev.Fires h.val .counter e) (hgo : s.dev.FillGoes h.val) (hslot : e.slot = none)
    (hsrc : (s.dev.hearth h.val).sources e = []) (hinc : e.inc = []) (htag : e.tagWord = none) :
    ∃ t, exec (.counter h) s = .next t ∧
      (∀ k, (t.dev.hearth h.val).counter k = e.hdr.signalled k (if k = (counterBody e.raw).1 then
        countBy ((s.dev.hearth h.val).counter k) (counterBody e.raw).2 else (s.dev.hearth h.val).counter k)) ∧
      (∀ o ∈ (t.dev.hearth h.val).window, o.id = e.id → o.st = .retired) ∧
      t.dev.get Obj.ENTRIES_FIRED h.val = (s.dev.get Obj.ENTRIES_FIRED h.val + 1) % 2 ^ 64 ∧
      t.dev.get Obj.ENTRIES_RETIRED h.val = (s.dev.get Obj.ENTRIES_RETIRED h.val + 1) % 2 ^ 64 ∧
      s.OnlyHearth t h.val [Obj.ENTRIES_FIRED.key h.val 0, Obj.ENTRIES_RETIRED.key h.val 0, Obj.EGRESS_HOLD_CYCLES.key h.val 0] := by
  obtain ⟨held, ranges, hfire⟩ := Dev.fireIf_fires hF fun d e =>
    (d.modHearth h.val fun x => x.increment e.id (counterBody e.raw).1 (counterBody e.raw).2).completeEntry h.val e.id true
  obtain ⟨-, hscan, hkind, -, -⟩ := hF
  have hm := (Dev.scanFrom_fires hscan).1
  have hk : e.kind ≠ .grate := by simp [hkind]
  have hentry := Dev.entryOf_fired (held := held) (ranges := ranges) hm
  rw [Hearth.firedEntry_committed hslot hk hsrc] at hfire hentry
  have hadd := Hearth.increment_committed hentry hslot (counterBody e.raw).1 (counterBody e.raw).2
  have hx : ((s.dev.fired h.val e held ranges).modHearth h.val fun x =>
      x.increment e.id (counterBody e.raw).1 (counterBody e.raw).2).hearth h.val = _ := (Dev.hearth_setHearth_self ..).trans hadd
  rw [Dev.hearth_fired] at hx
  obtain ⟨hsignal, hrest⟩ := State.firedAndRetired (held := held) hgo hm hk hslot hsrc hinc htag (by rw [hx]; rfl) (by rw [hx]; rfl)
    (.modHearth ..)
  refine ⟨_, State.onDev_next (f := fun d => d.cmdCounter h.val) hfire, fun k => (hsignal k).trans ?_, hrest⟩
  rw [hx, Hearth.counter_addCounter]
  rfl

/-! ### Dependent entries (R124) -/

/-- An entry that depends on a provisional one fires in a provisional slot, with a mask. -/
theorem State.firesDependent (hF : s.dev.Fires h.val k e) (hsrc : (s.dev.hearth h.val).sources e ≠ [])
    (ranges : List (Nat × Nat) × List (Nat × Nat)) :
    ((s.dev.hearth h.val).firedEntry e ranges).slot.isSome = true ∧ ((s.dev.hearth h.val).firedEntry e ranges).mask ≠ [] := by
  obtain ⟨-, hscan, -⟩ := hF
  obtain ⟨-, older, hone⟩ := Dev.scanFrom_fires hscan
  exact Hearth.firedEntry_dependent (fun hslot => Dev.scanOne_dependent hone hsrc hslot) hsrc

theorem State.nopStaysProvisional (hF : s.dev.Fires h.val .nop e) (hgo : s.dev.FillGoes h.val)
    (hsrc : (s.dev.hearth h.val).sources e ≠ []) :
    ∃ t, exec (.nop h) s = .next t ∧ (t.dev.hearth h.val).counters = (s.dev.hearth h.val).counters ∧
      (∃ o ∈ (t.dev.hearth h.val).window, o.id = e.id ∧ o.st = .complete ∧ o.slot.isSome ∧ o.mask ≠ []) := by
  obtain ⟨held, ranges, hfire⟩ := Dev.fireIf_fires hF fun d e => d.completeEntry h.val e.id true
  obtain ⟨hslot, hmask⟩ := State.firesDependent hF hsrc ranges
  obtain ⟨-, hscan, -⟩ := hF
  obtain ⟨hcounters, hentry⟩ := Dev.completeEntry_provisional (hgo.fired (held := held))
    (Dev.entryOf_fired (ranges := ranges) (Dev.scanFrom_fires hscan).1) hslot hmask
  exact ⟨_, State.onDev_next (f := fun d => d.cmdNop h.val) hfire, hcounters.trans (by rw [Dev.hearth_fired]), hentry⟩

theorem State.counterStaysProvisional (hF : s.dev.Fires h.val .counter e) (hgo : s.dev.FillGoes h.val)
    (hsrc : (s.dev.hearth h.val).sources e ≠ []) :
    ∃ t, exec (.counter h) s = .next t ∧ (t.dev.hearth h.val).counters = (s.dev.hearth h.val).counters ∧
      (∃ o ∈ (t.dev.hearth h.val).window, o.id = e.id ∧ o.st = .complete ∧ o.slot.isSome ∧ o.mask ≠ []) := by
  obtain ⟨held, ranges, hfire⟩ := Dev.fireIf_fires hF fun d e =>
    (d.modHearth h.val fun x => x.increment e.id (counterBody e.raw).1 (counterBody e.raw).2).completeEntry h.val e.id true
  obtain ⟨hslot, hmask⟩ := State.firesDependent hF hsrc ranges
  obtain ⟨-, hscan, -⟩ := hF
  have hentry := Dev.entryOf_fired (held := held) (ranges := ranges) (Dev.scanFrom_fires hscan).1
  obtain ⟨hkept, hrun, inc, hinc⟩ := Hearth.increment_provisional hentry hslot (counterBody e.raw).1 (counterBody e.raw).2
  obtain ⟨d, hd⟩ : ∃ d, d = (s.dev.fired h.val e held ranges).modHearth h.val fun x =>
    x.increment e.id (counterBody e.raw).1 (counterBody e.raw).2 := ⟨_, rfl⟩
  have hx : d.hearth h.val = ((s.dev.fired h.val e held ranges).hearth h.val).increment e.id (counterBody e.raw).1 (counterBody e.raw).2 := by
    rw [hd, Dev.modHearth, Dev.hearth_setHearth_self]
  rw [← hx] at hkept hrun hinc
  obtain ⟨hcounters, hleft⟩ := Dev.completeEntry_provisional (hgo.fired.congr hrun) hinc hslot hmask
  refine ⟨_, State.onDev_next (f := fun d => d.cmdCounter h.val) (hfire.trans (by rw [hd]; rfl)),
    hcounters.trans (hkept.trans (by rw [Dev.hearth_fired])), hleft⟩

/-! ### ENTRY_RETIRE (R112) -/

theorem State.entryRetires {id : Nat} (hgo : s.dev.FillGoes h.val) (he : (s.dev.hearth h.val).entryOf id = some e) (hst : e.st = .complete)
    (hmask : e.mask = []) (hinc : twf 0 e.inc = true) (htag : e.tagWord = none) :
    ∃ t, exec (.entryRetire h id) s = .next t ∧
      t.dev.get Obj.ENTRIES_RETIRED h.val = (s.dev.get Obj.ENTRIES_RETIRED h.val + 1) % 2 ^ 64 ∧
      (∀ o ∈ (t.dev.hearth h.val).window, o.id = id → o.st = .retired) ∧ (∀ o ∈ (t.dev.hearth h.val).window, id ∉ o.mask) ∧
      (e.kind ≠ .grate → ∀ k, (t.dev.hearth h.val).counter k = if tget 0 e.inc k = 0 then (s.dev.hearth h.val).counter k
        else countBy ((s.dev.hearth h.val).counter k) (tget 0 e.inc k)) ∧
      s.OnlyHearth t h.val [Obj.ENTRIES_RETIRED.key h.val 0] := by
  have hid := Hearth.id_of_entryOf he
  subst hid
  have hcmd : s.dev.cmdRetire h.val e.id = s.dev.retire h.val e.id := by
    simp only [Dev.cmdRetire, he]
    exact if_pos ⟨hst, by simp [WEntry.free, hmask]⟩
  obtain ⟨hx, hcount, honly⟩ := Dev.retire_counted hgo he htag
  refine ⟨_, State.onDev_next (f := fun d => d.cmdRetire h.val e.id) hcmd, hcount, ?_⟩
  rw [hx]
  exact ⟨fun o ho => (Hearth.mem_retired _ _ ho).1, fun o ho => (Hearth.mem_retired _ _ ho).2,
    fun hk => Hearth.counter_retired _ _ hk hinc, State.onlyHearth_of_dev honly⟩

end

end Sys2Proof.Machine
end

section
/-! The end of a hearth's part of a step (R76, R101, R325) and what it and an abort note in the context slots (R167). -/

namespace Sys2Proof.Machine

/-! ### What context slots note of parts that end (R167, R325) -/

/-- `y` is `x` after hearths have ended their parts of the slot's step. -/
structure Ctx.Follows (x y : Ctx) : Prop where
  halted : y.halted = x.halted
  run : ∀ r, x.run = some r → ∃ q, y.run = some q ∧ q.aborted = r.aborted ∧ q.hearths = r.hearths ∧ r.ended ⊆ q.ended

theorem Ctx.Follows.refl (x : Ctx) : x.Follows x := ⟨rfl, fun r hr => ⟨r, hr, rfl, rfl, List.Subset.refl _⟩⟩

theorem Ctx.Follows.trans {x y z : Ctx} (f : x.Follows y) (g : y.Follows z) : x.Follows z where
  halted := g.halted.trans f.halted
  run r hr := by
    obtain ⟨q, hq, hqa, hqh, hqe⟩ := f.run r hr
    obtain ⟨p, hp, hpa, hph, hpe⟩ := g.run q hq
    exact ⟨p, hp, hpa.trans hqa, hph.trans hqh, List.Subset.trans hqe hpe⟩

/-- Of the context slots of `d`, `d'` differs in slot `c` alone, where hearths have ended their parts. -/
structure Dev.Notes (c : Nat) (d d' : Dev) : Prop where
  others : ∀ k, k ≠ c → d'.ctx k = d.ctx k
  slot : (d.ctx c).Follows (d'.ctx c)

section
variable {c : Nat} {a b d : Dev}

theorem Dev.Notes.of_ctxs (h : b.ctxs = a.ctxs) : a.Notes c b := by
  have hctx : ∀ k, b.ctx k = a.ctx k := fun k => by rw [Dev.ctx, Dev.ctx, h]
  exact ⟨fun k _ => hctx k, hctx c ▸ .refl _⟩

theorem Dev.Notes.trans (f : a.Notes c b) (g : b.Notes c d) : a.Notes c d :=
  ⟨fun k hk => (g.others k hk).trans (f.others k hk), f.slot.trans g.slot⟩

theorem Dev.Notes.setCtx {x : Ctx} (h : (d.ctx c).Follows x) : d.Notes c (d.setCtx c x) where
  others k hk := Dev.ctx_setCtx_ne _ hk _
  slot := by simpa using h

end

theorem Dev.abortReport_notes (d : Dev) (c : Nat) : d.Notes c (d.abortReport c) := by
  unfold Dev.abortReport
  split
  · exact .of_ctxs rfl
  · split
    · exact .of_ctxs rfl
    · have hset : d.Notes c (d.setCtx c { d.ctx c with abortDue := none }) := .setCtx ⟨rfl, (Ctx.Follows.refl _).run⟩
      exact hset.trans (.of_ctxs (Dev.ctxs_raise ..))

theorem Dev.abortEnd_notes (d : Dev) (c : Nat) : d.Notes c (d.abortEnd c) := by
  unfold Dev.abortEnd
  split
  · split
    · split
      · obtain ⟨flues, hflues⟩ := d.resetCtxFlues_shape c
        rw [hflues]
        refine .trans (.of_ctxs (b := { d with flues := flues }) rfl) (.trans (.setCtx ?_) (Dev.abortReport_notes ..))
        exact ⟨rfl, (Ctx.Follows.refl _).run⟩
      · exact .of_ctxs rfl
    · exact .of_ctxs rfl
  · exact .of_ctxs rfl

theorem Dev.notePart_notes (d : Dev) (h c : Nat) : d.Notes c (d.notePart h c) := by
  unfold Dev.notePart
  split
  · next r hr =>
    refine .setCtx ⟨rfl, fun r' hr' => ⟨_, rfl, ?_⟩⟩
    rw [hr, Option.some_inj] at hr'
    subst hr'
    exact ⟨rfl, rfl, List.subset_append_left ..⟩
  · exact .of_ctxs rfl

/-- The step of a slot lists the hearth that has ended its part (R325). -/
theorem Dev.notePart_lists {d : Dev} {h c : Nat} {x : CtxRun} (hx : (d.ctx c).run = some x) :
    ∃ y, ((d.notePart h c).ctx c).run = some y ∧ h ∈ y.ended := by
  refine ⟨{ x with ended := x.ended ++ [h] }, ?_, by simp⟩
  simp [Dev.notePart, hx]

theorem Dev.letGo_ctxs (d : Dev) (h c : Nat) : (d.letGo h c).ctxs = d.ctxs := by
  unfold Dev.letGo Dev.dropExchange
  split <;> rfl

theorem Dev.showIdle_ctxs (d : Dev) (h : Nat) : (d.showIdle h).ctxs = d.ctxs := by
  unfold Dev.showIdle Dev.stopFiring
  split <;> rfl

theorem Dev.endPart_notes (d : Dev) (h c : Nat) : d.Notes c (d.endPart h c) := by
  rw [Dev.endPart_eq]
  exact .trans (.of_ctxs ((Dev.showIdle_ctxs ..).trans (Dev.letGo_ctxs ..))) ((Dev.notePart_notes ..).trans (Dev.abortEnd_notes ..))

/-! ### The end of a part (R101, R325) -/

/-- Ending parts of steps changes no memory outside the hearths. -/
theorem Dev.Ends.memory {S : Nat → Prop} {d d' : Dev} (h : d.Ends S d') : d'.hbm = d.hbm ∧ d'.slow = d.slow := by
  obtain ⟨_, _, _, _, _, _, _, _, _, rfl⟩ := h.shape
  exact ⟨rfl, rfl⟩

/-- Once a hearth has ended its part of slot `c`'s step, the slot's step lists it. -/
theorem Dev.endPart_lists {d : Dev} {h c : Nat} {x : CtxRun} (hx : (d.ctx c).run = some x) :
    ∃ y, ((d.endPart h c).ctx c).run = some y ∧ h ∈ y.ended := by
  rw [Dev.endPart_eq]
  have hctx : ((d.letGo h c).showIdle h).ctx c = d.ctx c := by rw [Dev.ctx, Dev.showIdle_ctxs, Dev.letGo_ctxs, Dev.ctx]
  obtain ⟨y, hy, hmem⟩ := Dev.notePart_lists (h := h) (hctx.symm ▸ hx : (((d.letGo h c).showIdle h).ctx c).run = some x)
  obtain ⟨z, hz, -, -, hsub⟩ := (Dev.abortEnd_notes ..).slot.run y hy
  exact ⟨z, hz, hsub hmem⟩

theorem Dev.letGo_hearth (d : Dev) (h c : Nat) : (d.letGo h c).hearth h = ({ d.hearth h with exch := none } : Hearth).released c := by
  rw [Dev.letGo, Dev.modHearth, Dev.hearth_setHearth_self, Dev.dropExchange]
  split
  · next hexch => rw [← hexch]
  · rw [Dev.modHearth, Dev.hearth_setHearth_self]
    rfl

/-- The hearth that has ended its part. -/
theorem Dev.endPart_hearth (d : Dev) (h c : Nat) : (d.endPart h c).hearth h = ({ d.hearth h with exch := none } : Hearth).released c := by
  have hrest := (Dev.notePart_ends (fun _ => False) ((d.letGo h c).showIdle h) h c).trans (Dev.abortEnd_ends _ _ c)
  rw [Dev.endPart_eq, hrest.others h id, Dev.hearth, Dev.showIdle_hearths]
  exact d.letGo_hearth h c

/-- A FIRING hearth that has ended its part is IDLE and runs no slot's step (R353). -/
theorem Dev.endPart_shows {d : Dev} {h : Nat} (hf : d.hState h = hFiring) (c : Nat) :
    (d.endPart h c).get Obj.HEARTH_STATE h = 2 ∧ (d.endPart h c).get Obj.RUNNING_CTX h = 0xFF := by
  obtain ⟨d1, hd1⟩ : ∃ d1, d1 = d.letGo h c := ⟨_, rfl⟩
  have hod : d1.od = d.od := by
    rw [hd1, Dev.letGo, Dev.dropExchange]
    split <;> rfl
  have hfire : (d1.put Obj.RUNNING_CTX 0xFF h).hState h = hFiring := by
    rw [Dev.hState, Dev.get_put_ne _ _ (hearthKey_ne (by decide) (by decide) (.inr (.inl (by decide)))), Dev.get, hod]
    exact hf
  have hrest := (Dev.notePart_ends (fun _ => False) (d1.showIdle h) h c).trans (Dev.abortEnd_ends _ _ c)
  have hget : ∀ o : ObjDef, o.OfHearth → (d.endPart h c).get o h = (d1.showIdle h).get o h := fun o ho => by
    rw [Dev.endPart_eq, ← hd1]
    exact Dev.get_congr (hrest.objects _ (hearthKey_not_event ho h) fun _ hS => hS.elim)
  rw [hget _ (by decide), hget _ (by decide), Dev.showIdle, Dev.stopFiring, if_pos hfire, Dev.get_put_self,
    Dev.get_put_ne _ _ (hearthKey_ne (by decide) (by decide) (.inr (.inl (by decide)))), Dev.get_put_self]
  decide

/-! ### Scale slots at the end of a step (R76) -/

theorem ScaleSlot.stepEnd_stepEnd (s : ScaleSlot) : s.stepEnd.stepEnd = s.stepEnd := by
  unfold ScaleSlot.stepEnd
  split <;> simp_all

section
variable {x : Hearth}

theorem Hearth.slot_writeSlot (x : Hearth) (k : Nat) (hist : Bool) (f : ScaleSlot → ScaleSlot) (i : Nat) :
    (x.writeSlot k hist f).slot i = if i = k then f (x.slot i) else x.slot i := by
  refine (tget_tmod ..).trans ?_
  split
  · next h => rw [h]; rfl
  · rfl

theorem Hearth.slot_stepEnds (ks : List Nat) (x : Hearth) (i : Nat) :
    (ks.foldl (fun x k => x.writeSlot k true ScaleSlot.stepEnd) x).slot i = if i ∈ ks then (x.slot i).stepEnd else x.slot i := by
  induction ks generalizing x with
  | nil => rfl
  | cons k ks ih =>
    rw [List.foldl_cons, ih, Hearth.slot_writeSlot]
    by_cases hk : i = k <;> by_cases hm : i ∈ ks <;> simp [hk, hm, ScaleSlot.stepEnd_stepEnd]

theorem mem_of_tget_ne {α : Type} {d : α} {k : Nat} : ∀ {t : Tab α}, tget d t k ≠ d → (k, tget d t k) ∈ t
  | [], h => absurd rfl h
  | (k', v) :: t, h => by
    unfold tget at h ⊢
    split
    · next hk => simp [hk]
    · next hk =>
      rw [if_neg hk] at h
      exact List.mem_cons_of_mem _ (mem_of_tget_ne h)

/-- A slot not used in a step stays at its end. -/
theorem ScaleSlot.stepEnd_unused {s : ScaleSlot} (h : s.used = false) : s.stepEnd = s := by simp [ScaleSlot.stepEnd, h]

/-- At the end of a step every slot becomes what R76 makes of it. -/
theorem Hearth.slot_slotsEnd (x : Hearth) (i : Nat) : x.slotsEnd.slot i = (x.slot i).stepEnd := by
  refine (Hearth.slot_stepEnds ..).trans ?_
  split
  · rfl
  · next hm =>
    refine (ScaleSlot.stepEnd_unused ?_).symm
    by_contra hused
    rw [Bool.not_eq_false] at hused
    refine hm (List.mem_map.mpr ⟨(i, x.slot i), List.mem_filter.mpr ⟨mem_of_tget_ne ?_, hused⟩, rfl⟩)
    intro hfresh
    rw [Hearth.slot, hfresh] at hused
    exact absurd hused (by decide)

/-- The end of a step changes scale slots alone. -/
theorem Hearth.slotsEnd_shape (x : Hearth) : ∃ slots bad, x.slotsEnd = { x with slots := slots, slotBad := bad } :=
  List.foldlRecOn (motive := fun y : Hearth => ∃ slots bad, y = { x with slots := slots, slotBad := bad }) _ _ ⟨_, _, rfl⟩ fun y h k _ => by
    obtain ⟨slots, bad, rfl⟩ := h
    exact ⟨_, _, rfl⟩

end

/-! ### STEP_END (R76, R101, R106, R325) -/

/-- A hearth whose part of a step is ending: the scale slots' histories have shifted and the counters are clear. -/
def Hearth.stepEnded (x : Hearth) : Hearth := { x.slotsEnd with counters := [] }

/-- Reading the scale slots at the end of a step counts what the code finds, and the slots stay where it finds nothing new (R80). -/
theorem Dev.meetSlots_nil_onlyHearth (d : Dev) (h : Nat) (ks : List Nat) :
    d.OnlyHearth (d.meetSlots h ks []) h [Obj.SRAM_CORRECTED.key h 0, Obj.SRAM_UNCORRECTED.key h 0] := by
  have hcount : ∀ errs, d.OnlyHearth (d.countSram h id errs) h [Obj.SRAM_CORRECTED.key h 0, Obj.SRAM_UNCORRECTED.key h 0] := fun errs => by
    unfold Dev.countSram
    extract_lets u d1
    have hbump : d.OnlyHearth d1 h [Obj.SRAM_CORRECTED.key h 0, Obj.SRAM_UNCORRECTED.key h 0] := .trans (.bump (by simp)) (.bump (by simp))
    split
    · exact hbump
    · exact hbump.trans (Dev.raiseOnce_onlyHearth ..)
  exact hcount _

/-- The hearth and the objects that STEP_END leaves behind its last entry, before the part ends. -/
theorem Dev.cmdStepEnd_eq {d : Dev} {h : Nat} {e : WEntry} (hF : d.Fires h .stepEnd e) :
    ∃ (a : Dev) (w : List WEntry) (once : List Nat), d.cmdStepEnd h [] = (a.modHearth h Hearth.stepEnded).endPart h ((d.hearthCtx h).getD 0) ∧
      a.hearth h = { d.hearth h with window := w, once := once } ∧ a.hState h = d.hState h ∧
      a.hbm = d.hbm ∧ a.slow = d.slow ∧ a.ctxs = d.ctxs := by
  obtain ⟨held, ranges, hfire⟩ := Dev.fireIf_fires hF fun d _ =>
    let c := (d.hearthCtx h).getD 0
    let d := d.bump Obj.ENTRIES_RETIRED h
    let d := d.meetSlots h ((d.hearth h).usedSlots.flatMap wordsOfSlot) []
    (d.modHearth h fun x => { x.slotsEnd with counters := [] }).endPart h c
  obtain ⟨b, hb⟩ : ∃ b, b = (d.fired h e held ranges).bump Obj.ENTRIES_RETIRED h := ⟨_, rfl⟩
  obtain ⟨a, ha⟩ : ∃ a, a = b.meetSlots h ((b.hearth h).usedSlots.flatMap wordsOfSlot) [] := ⟨_, rfl⟩
  have hx : b.hearth h = { d.hearth h with window := (d.hearth h).firedWindow e ranges } := by rw [hb, Dev.hearth_bump, Dev.hearth_fired]
  have hctx : (d.fired h e held ranges).hearthCtx h = d.hearthCtx h := by rw [Dev.hearthCtx, Dev.hearth_fired, Dev.hearthCtx]
  have hunnoted : (a.hearth h).unnoted = (b.hearth h).unnoted := by
    rw [ha]
    exact (Dev.meetSlots_nil_works ..).hearth
  have honly : d.OnlyHearth a h ([Obj.ENTRIES_FIRED.key h 0, Obj.EGRESS_HOLD_CYCLES.key h 0] ++
      ([Obj.ENTRIES_RETIRED.key h 0] ++ [Obj.SRAM_CORRECTED.key h 0, Obj.SRAM_UNCORRECTED.key h 0])) := by
    have hfired := d.fired_onlyHearth h e held ranges
    have hbump : (d.fired h e held ranges).OnlyHearth b h [Obj.ENTRIES_RETIRED.key h 0] := hb ▸ .bump (by simp)
    have hmet : b.OnlyHearth a h [Obj.SRAM_CORRECTED.key h 0, Obj.SRAM_UNCORRECTED.key h 0] := ha ▸ Dev.meetSlots_nil_onlyHearth ..
    exact (hfired.mono (by simp)).trans ((hbump.mono (by simp)).trans (hmet.mono (by simp)))
  refine ⟨a, (d.hearth h).firedWindow e ranges, (a.hearth h).once, ?_, ?_, honly.get ?_ (hearthKey_not_event (by decide) _),
    honly.hbm, honly.slow, honly.ctxs⟩
  · rw [← hctx, ha, hb]
    exact hfire
  · rw [hx] at hunnoted
    exact congrArg (fun x : Hearth => { x with once := (a.hearth h).once }) hunnoted
  · simp only [List.cons_append, List.nil_append, List.mem_cons, List.not_mem_nil, or_false, not_or]
    refine ⟨?_, ?_, ?_, ?_, ?_⟩ <;> exact hearthKey_ne (by decide) (by decide) (.inr (.inl (by decide)))

/-- A firing hearth is in state FIRING, and its part owes no exchange (R324). -/
theorem Dev.mayFire_state {d : Dev} {h : Nat} {r : StepRun} (hr : (d.hearth h).run = some r) (hf : d.mayFire h = true) :
    d.hState h = hFiring ∧ r.needExchange = false := by
  simp only [Dev.mayFire, hr, Bool.and_eq_true, decide_eq_true_eq, Bool.not_eq_true'] at hf
  obtain ⟨⟨⟨hstate, -⟩, hneed⟩, -⟩ := hf
  exact ⟨hstate, hneed⟩

theorem State.stepEnds {s : State} {h : Fin 1024} {e : WEntry} {r : StepRun} (hr : (s.dev.hearth h.val).run = some r)
    (hF : s.dev.Fires h.val .stepEnd e) :
    ∃ t, exec (.stepEnd h []) s = .next t ∧ t.dev.get Obj.HEARTH_STATE h.val = 2 ∧ t.dev.get Obj.RUNNING_CTX h.val = 0xFF ∧
      (t.dev.hearth h.val).run = none ∧ (t.dev.hearth h.val).window = [] ∧ (t.dev.hearth h.val).lastCtx = some r.ctx ∧
      (∀ k, (t.dev.hearth h.val).counter k = 0) ∧
      (∀ i, ((s.dev.hearth h.val).slot i).used = true →
        ((t.dev.hearth h.val).slot i).hist = (((s.dev.hearth h.val).slot i).stepMax :: ((s.dev.hearth h.val).slot i).hist).take 16 ∧
        ((t.dev.hearth h.val).slot i).stepMax = 0 ∧ ((t.dev.hearth h.val).slot i).curValid = false ∧
        ((t.dev.hearth h.val).slot i).used = false ∧ ((t.dev.hearth h.val).slot i).ashSeen = false) ∧
      (∀ i, ((s.dev.hearth h.val).slot i).used = false → (t.dev.hearth h.val).slot i = (s.dev.hearth h.val).slot i) ∧
      (∀ x, (s.dev.ctx r.ctx).run = some x → ∃ y, (t.dev.ctx r.ctx).run = some y ∧ h.val ∈ y.ended) ∧
      (t.dev.hearth h.val).scr = (s.dev.hearth h.val).scr ∧ s.KeepsMemory t := by
  obtain ⟨hstate, hneed⟩ := Dev.mayFire_state hr hF.1
  obtain ⟨a, w, once, hcmd, hx, hastate, hhbm, hslow, hctxs⟩ := Dev.cmdStepEnd_eq hF
  have hc : (s.dev.hearthCtx h.val).getD 0 = r.ctx := by simp [Dev.hearthCtx, hr]
  obtain ⟨b, hb⟩ : ∃ b, b = a.modHearth h.val Hearth.stepEnded := ⟨_, rfl⟩
  rw [hc, ← hb] at hcmd
  have hbx : b.hearth h.val = (a.hearth h.val).stepEnded := by rw [hb, Dev.modHearth, Dev.hearth_setHearth_self]
  have hbstate : b.hState h.val = hFiring := by
    rw [← hstate, ← hastate, hb]
    rfl
  obtain ⟨hidle, hrunning⟩ := Dev.endPart_shows hbstate r.ctx
  have hy := Dev.endPart_hearth b h.val r.ctx
  obtain ⟨slots, bad, hslots⟩ := (a.hearth h.val).slotsEnd_shape
  have hslot : ∀ i, ((b.endPart h.val r.ctx).hearth h.val).slot i = ((s.dev.hearth h.val).slot i).stepEnd := fun i => by
    rw [hy]
    have hend : ((a.hearth h.val).slotsEnd).slot i = ((a.hearth h.val).slot i).stepEnd := Hearth.slot_slotsEnd ..
    rw [hx] at hend
    rw [hbx, hx]
    exact hend
  refine ⟨_, State.onDev_next (f := fun d => d.cmdStepEnd h.val []) hcmd, hidle, hrunning, Dev.endPart_run .., ?_, ?_, ?_, ?_, ?_, ?_, ?_, ?_⟩
  · rw [hy]
    rfl
  · rw [hy, hbx, Hearth.stepEnded, hslots, hx]
    simp [Hearth.released, Hearth.owesExchange, hr, hneed]
  · intro k
    rw [hy, hbx]
    rfl
  · intro i hused
    rw [hslot, ScaleSlot.stepEnd, if_pos hused]
    exact ⟨rfl, rfl, rfl, rfl, rfl⟩
  · intro i hused
    rw [hslot, ScaleSlot.stepEnd_unused hused]
  · intro x hrun
    refine Dev.endPart_lists (x := x) ?_
    have hbctxs : b.ctxs = s.dev.ctxs := (congrArg Dev.ctxs hb).trans hctxs
    rw [Dev.ctx, hbctxs]
    exact hrun
  · rw [hy, hbx, Hearth.stepEnded, hslots, hx]
    rfl
  · obtain ⟨hendHbm, hendSlow⟩ := (Dev.endPart_ends (S := fun _ => True) (d := b) (h := h.val) trivial r.ctx).memory
    exact ⟨hendHbm.trans ((congrArg Dev.hbm hb).trans hhbm), hendSlow.trans ((congrArg Dev.slow hb).trans hslow), rfl, rfl⟩

/-- Settles O7: a NOP or COUNTER entry that nothing keeps provisional does everything at once, one that depends on another stays in a
provisional slot, a STEP_END ends the hearth's part, and a retirement commits what an entry holds. -/
theorem entriesSignalRetireAndStepsEnd : Obligations.EntriesSignalRetireAndStepsEnd := by
  unfold Obligations.EntriesSignalRetireAndStepsEnd
  refine ⟨fun s h e hgo hinc htag => ⟨?_, ?_, ?_, ?_⟩, ?_, ?_⟩
  · exact fun hF hslot hsrc => State.nopRetires hF hgo hslot hsrc hinc htag
  · exact fun hF hslot hsrc => State.counterRetires hF hgo hslot hsrc hinc htag
  · exact fun hF hsrc => State.nopStaysProvisional hF hgo hsrc
  · exact fun hF hsrc => State.counterStaysProvisional hF hgo hsrc
  · exact fun s h e r hr hF => State.stepEnds hr hF
  · exact fun s h id e hgo he hst hmask hinc htag => State.entryRetires hgo he hst hmask hinc htag

end Sys2Proof.Machine
end

section
/-! The bellows' walk (R115, R116). -/

namespace Sys2Proof.Machine

section
variable {d : Dev} {h : Nat} {w w' : Walk} {raw : Nat}

/-! ### The bellows at an entry -/

/-- The bellows of hearth `h` may pass the entry at `w`, whose bytes are `raw`. -/
structure Dev.BellowsAt (d : Dev) (h : Nat) (w : Walk) (raw : Nat) : Prop where
  stand : w = (d.hearth h).bellowsAt
  entry : raw = d.tableEntry h w.pos
  blows : d.blows h = true
  readable : d.readable h w = true

theorem Dev.bellowsAt_of (hblow : d.mayBlow h = true) (hnear : (d.hearth h).bellowsAt.ordinal < (d.hearth h).walk.ordinal + 512)
    (hread : d.readable h (d.hearth h).bellowsAt = true) : d.BellowsAt h (d.hearth h).bellowsAt (d.tableEntry h (d.hearth h).bellowsAt.pos) :=
  ⟨rfl, rfl, by simp [Dev.blows, hblow, hnear], hread⟩

/-- An entry that is neither a LOOP nor a BRANCH nor a STREAM to be fetched is passed. -/
theorem Dev.cmdWalk_passes {k : EKind} (b : d.BellowsAt h w raw) (hkind : EKind.ofCode (Header.ofWord raw).kind = some k) (hloop : k ≠ .loop)
    (hbranch : k ≠ .branch) (hstream : k = .stream → d.fetches h raw = false) :
    d.cmdWalk h [] = d.moveBellows h (w.advance (w.pos + 1)) := by
  obtain ⟨hw, hraw, hblows, hread⟩ := b
  simp only [Dev.cmdWalk, Dev.entrySram_nil, ite_self, ← hw, ← hraw, hblows, hread, hkind, Bool.not_true, Bool.or_self,
    Bool.false_eq_true, if_false]
  split
  · next hk => exact absurd (Option.some_inj.mp hk) hloop
  · next hk => exact absurd (Option.some_inj.mp hk) hbranch
  · next hk =>
    rw [hstream (Option.some_inj.mp hk)]
    rfl
  · rfl

/-- A LOOP whose waits are met is resolved. -/
theorem Dev.cmdWalk_loop (b : d.BellowsAt h w raw) (hkind : EKind.ofCode (Header.ofWord raw).kind = some .loop)
    (hwaits : (d.hearth h).waitsCommitted (.ofWord raw) w.i w.t = true) :
    d.cmdWalk h [] = d.moveBellows h (w.loop (.ofWord raw) ((d.hearth h).passes (.ofWord raw))) := by
  obtain ⟨hw, hraw, hblows, hread⟩ := b
  simp only [Dev.cmdWalk, Dev.entrySram_nil, ite_self, ← hw, ← hraw, hblows, hread, hkind, hwaits, Bool.not_true, Bool.or_self,
    Bool.false_eq_true, if_false, if_true]

/-- The bellows remember a BRANCH they have passed: its ordinal, the way, and whether that was on LIKELY. -/
def Hearth.remember (b : Nat × Bool × Bool) (x : Hearth) : Hearth := { x with bellows := { x.bellows with branches := x.bellows.branches ++ [b] } }

/-- A BRANCH is passed the way its comparison says, or on LIKELY. -/
theorem Dev.cmdWalk_branch {met taken : Bool} (b : d.BellowsAt h w raw) (hkind : EKind.ofCode (Header.ofWord raw).kind = some .branch)
    (hwaits : (d.hearth h).waitsCommitted (.ofWord raw) w.i w.t = met)
    (htaken : taken = if met then (BranchBody.ofWord raw).holds ((d.hearth h).branchVal w (.ofWord raw)) else (BranchBody.ofWord raw).likely) :
    d.cmdWalk h [] = (d.moveBellows h (w.advance (if taken then (BranchBody.ofWord raw).target else w.pos + 1))).modHearth h
      (Hearth.remember (w.ordinal, taken, !met)) := by
  obtain ⟨hw, hraw, hblows, hread⟩ := b
  simp only [Dev.cmdWalk, Dev.entrySram_nil, ite_self, ← hw, ← hraw, hblows, hread, hkind, hwaits, ← htaken,
    Bool.not_true, Bool.or_self, Bool.false_eq_true, if_false]
  rfl

end

/-! ### BELLOWS_WALK -/

section
variable {s : State} {h : Fin 1024} {w w' : Walk}

/-- A walk that has moved the bellows alone. -/
theorem State.bellowsMoved (hcmd : s.dev.cmdWalk h.val [] = s.dev.moveBellows h.val w') :
    ∃ t, exec (.bellowsWalk h []) s = .next t ∧ (t.dev.hearth h.val).bellows.walk = w' ∧
      t = { s with dev := { s.dev with hearths := t.dev.hearths } } ∧ s.OnlyHearth t h.val [] := by
  refine ⟨_, State.onDev_next (f := fun d => d.cmdWalk h.val []) hcmd, ?_, rfl, State.onlyHearth_of_dev (.modHearth ..)⟩
  rw [Dev.moveBellows, Dev.modHearth, Dev.hearth_setHearth_self]

/-- A walk that has passed a BRANCH, which the bellows remember. -/
theorem State.bellowsPassedBranch {b : Nat × Bool × Bool}
    (hcmd : s.dev.cmdWalk h.val [] = (s.dev.moveBellows h.val w').modHearth h.val (Hearth.remember b)) :
    ∃ t, exec (.bellowsWalk h []) s = .next t ∧ b ∈ (t.dev.hearth h.val).bellows.branches ∧
      (t.dev.hearth h.val).bellows.walk = w' ∧ s.OnlyHearth t h.val [] := by
  have hx : ((s.dev.moveBellows h.val w').modHearth h.val (Hearth.remember b)).hearth h.val =
      Hearth.remember b ((s.dev.moveBellows h.val w').hearth h.val) := Dev.hearth_setHearth_self ..
  refine ⟨_, State.onDev_next (f := fun d => d.cmdWalk h.val []) hcmd, ?_, ?_, State.onlyHearth_of_dev (.trans (.modHearth ..) (.modHearth ..))⟩
  · rw [hx]
    simp [Hearth.remember]
  · rw [hx, Dev.moveBellows, Dev.modHearth, Dev.hearth_setHearth_self]
    rfl

end

end Sys2Proof.Machine
end

section
/-! Step aborts, firing stalls and draughts (R114, R155, R167 to R169). -/

namespace Sys2Proof.Machine

/-! ### What an abort does to context slots (R167) -/

section
variable {d : Dev} {h c : Nat}

/-- A hearth that runs a step once a part has been aborted ran a step of the same slot before. -/
theorem Dev.abortHearth_ctx {k : Nat} (hc : ∀ r, (d.hearth k).run = some r → r.ctx = c) :
    ∀ r, ((d.abortHearth h).hearth k).run = some r → r.ctx = c := by
  intro r hr
  by_cases hk : k = h
  · subst hk
    rw [Dev.abortHearth_eq] at hr
    obtain ⟨b, hb⟩ : ∃ b, b = (d.modHearth k Hearth.partAborted).put Obj.HALTED_STREAMS 0 k := ⟨_, rfl⟩
    have hx : b.hearth k = (d.hearth k).partAborted := by
      rw [hb]
      exact Dev.hearth_setHearth_self ..
    rw [← hb] at hr
    unfold Dev.abortSettle at hr
    extract_lets x at hr
    split at hr
    · split at hr
      · rw [Dev.endPart_run] at hr
        cases hr
      · rw [hx] at hr
        obtain ⟨r', hr', rfl⟩ := Option.map_eq_some_iff.mp hr
        exact hc r' hr'
    · next hnone =>
      rw [hnone] at hr
      cases hr
  · rw [(Dev.abortHearth_ends (S := (· = h)) rfl).others k hk] at hr
    exact hc r hr

theorem Dev.abortSettle_notes (hc : ∀ r, (d.hearth h).run = some r → r.ctx = c) : d.Notes c (d.abortSettle h) := by
  unfold Dev.abortSettle
  extract_lets x
  split
  · next r hr =>
    split
    · rw [hc r hr]
      have hmod : d.Notes c (d.modHearth h fun x => { x with counters := [], places := [], slots := x.slots }) := .of_ctxs rfl
      exact hmod.trans (Dev.endPart_notes ..)
    · exact .of_ctxs rfl
  · exact .of_ctxs rfl

theorem Dev.abortHearth_notes (hc : ∀ r, (d.hearth h).run = some r → r.ctx = c) : d.Notes c (d.abortHearth h) := by
  rw [Dev.abortHearth_eq]
  obtain ⟨b, hb⟩ : ∃ b, b = (d.modHearth h Hearth.partAborted).put Obj.HALTED_STREAMS 0 h := ⟨_, rfl⟩
  have hx : b.hearth h = (d.hearth h).partAborted := by
    rw [hb]
    exact Dev.hearth_setHearth_self ..
  have hmod : d.Notes c b := .of_ctxs (by rw [hb]; rfl)
  rw [← hb]
  refine hmod.trans (Dev.abortSettle_notes fun r hr => ?_)
  rw [hx] at hr
  obtain ⟨r', hr', rfl⟩ := Option.map_eq_some_iff.mp hr
  exact hc r' hr'

/-- Aborting the parts of hearths that run slot `c`'s step touches no other slot. -/
theorem Dev.abortHearths_notes (hs : List Nat) (hc : ∀ h ∈ hs, ∀ r, (d.hearth h).run = some r → r.ctx = c) :
    d.Notes c (hs.foldl (fun d h => d.abortHearth h) d) := by
  induction hs generalizing d with
  | nil => exact .of_ctxs rfl
  | cons h hs ih =>
    refine .trans (Dev.abortHearth_notes (hc h (by simp))) (ih fun k hk => Dev.abortHearth_ctx (hc k (by simp [hk])))

/-- A slot's step that has not been aborted and that a hearth has not ended. -/
def CtxRun.Goes (x : CtxRun) : Prop := x.aborted = none ∧ ∃ k ∈ x.hearths, k ∉ x.ended

/-- Slot `x` once its step `r` has been aborted; `idle` have ended their parts without having begun. -/
def Ctx.abort (x : Ctx) (r : CtxRun) (cause : Nat) (idle : List Nat) : Ctx :=
  { x with halted := true, run := some { r with aborted := some cause, ended := r.ended ++ idle } }

theorem CtxRun.goes_iff (x : CtxRun) : x.Goes ↔ ¬(x.aborted.isSome || x.hearths.all fun h => x.ended.contains h) = true := by
  simp [CtxRun.Goes]

/-- Where no step of the slot goes on an abort does nothing. -/
theorem Dev.abortStep_idle (hno : ∀ x, (d.ctx c).run = some x → ¬x.Goes) (cause : Nat) : d.abortStep c cause = d := by
  unfold Dev.abortStep
  extract_lets y
  split
  · rfl
  · next r hr => rw [if_pos (not_not.mp (mt r.goes_iff.mpr (hno r hr)))]

/-- Aborting a step that goes on marks it, and touches no other slot. -/
theorem Dev.abortStep_marks {x : CtxRun} (hx : (d.ctx c).run = some x) (hgo : x.Goes) (cause : Nat) :
    ∃ idle, (d.setCtx c ((d.ctx c).abort x cause idle)).Notes c (d.abortStep c cause) := by
  unfold Dev.abortStep
  extract_lets y
  split
  · next hnone => exact absurd (hx.symm.trans hnone) (Option.some_ne_none x)
  · next r hr =>
    obtain rfl : r = x := Option.some_inj.mp (hr.symm.trans hx)
    rw [if_neg (r.goes_iff.mp hgo)]
    extract_lets idle d1 d2
    refine ⟨idle, ?_⟩
    have hd1 : d1.Notes c d2 := Dev.abortHearths_notes _ fun h hh r hr => by
      have hrun : d1.hearthCtx h = some c := by simpa using (List.mem_filter.mp hh).2
      rw [Dev.hearthCtx, hr] at hrun
      exact Option.some_inj.mp hrun
    split
    · exact hd1.trans (Dev.abortEnd_notes ..)
    · exact hd1

/-- An abort touches no other slot. -/
theorem Dev.abortStep_others {k : Nat} (hk : k ≠ c) (cause : Nat) : (d.abortStep c cause).ctx k = d.ctx k := by
  by_cases hgo : ∃ x, (d.ctx c).run = some x ∧ x.Goes
  · obtain ⟨x, hx, hgo⟩ := hgo
    obtain ⟨idle, hnotes⟩ := Dev.abortStep_marks hx hgo cause
    exact (hnotes.others k hk).trans (Dev.ctx_setCtx_ne _ hk _)
  · rw [Dev.abortStep_idle fun x hx hx' => hgo ⟨x, hx, hx'⟩]

/-- The slot of an aborted step is halted, and its step carries the cause. -/
theorem Dev.abortStep_aborted {x : CtxRun} (hx : (d.ctx c).run = some x) (hgo : x.Goes) (cause : Nat) :
    ((d.abortStep c cause).ctx c).halted = true ∧
    ∃ y, ((d.abortStep c cause).ctx c).run = some y ∧ y.aborted = some cause ∧ y.hearths = x.hearths := by
  obtain ⟨idle, hnotes⟩ := Dev.abortStep_marks hx hgo cause
  obtain ⟨hhalted, hrun⟩ := hnotes.slot
  rw [Dev.ctx_setCtx_self] at hhalted hrun
  obtain ⟨y, hy, haborted, hhearths, -⟩ := hrun _ rfl
  exact ⟨hhalted, y, hy, haborted, hhearths⟩

/-- Slot `c` is halted by an abort of its step for `cause`. -/
def Dev.HaltedBy (d : Dev) (c cause : Nat) : Prop := (d.ctx c).halted = true ∧ ∃ y, (d.ctx c).run = some y ∧ y.aborted = some cause

/-- An aborted step stays as it is under every abort. -/
theorem Dev.HaltedBy.abortStep {cause : Nat} (h : d.HaltedBy c cause) (k cause' : Nat) : (d.abortStep k cause').HaltedBy c cause := by
  by_cases hk : c = k
  · subst hk
    obtain ⟨-, y, hy, hab⟩ := id h
    rw [Dev.abortStep_idle fun x hx hgo => ?_]
    · exact h
    · obtain rfl : x = y := Option.some_inj.mp (hx.symm.trans hy)
      rw [hgo.1] at hab
      cases hab
  · unfold Dev.HaltedBy
    rw [Dev.abortStep_others hk]
    exact h

theorem Dev.HaltedBy.abortSteps {cause : Nat} (h : d.HaltedBy c cause) (cs : List Nat) (cause' : Nat) :
    (cs.foldl (fun d c => d.abortStep c cause') d).HaltedBy c cause :=
  List.foldlRecOn (motive := fun d' : Dev => d'.HaltedBy c cause) _ _ h fun _ h' k _ => h'.abortStep k cause'

/-- Aborting the steps of several slots halts each that had one. -/
theorem Dev.abortSteps_halted {cs : List Nat} {x : CtxRun} (hc : c ∈ cs) (hx : (d.ctx c).run = some x) (hgo : x.Goes) (cause : Nat) :
    (cs.foldl (fun d c => d.abortStep c cause) d).HaltedBy c cause := by
  induction cs generalizing d with
  | nil => cases hc
  | cons k cs ih =>
    rw [List.foldl_cons]
    by_cases hk : c = k
    · subst hk
      obtain ⟨hhalted, y, hy, haborted, -⟩ := Dev.abortStep_aborted hx hgo cause
      exact Dev.HaltedBy.abortSteps ⟨hhalted, y, hy, haborted⟩ cs cause
    · exact ih ((List.mem_cons.mp hc).resolve_left hk) (by rw [Dev.abortStep_others hk, hx])

end

/-! ### The firing stall (R114, R155) -/

theorem Dev.Recorded.memory {d d' : Dev} (h : d.Recorded d') : d'.hbm = d.hbm ∧ d'.slow = d.slow := by
  obtain ⟨⟨_, _, _, _, _, _, rfl⟩, -⟩ := h
  exact ⟨rfl, rfl⟩

/-- An abort changes no memory outside the hearths. -/
theorem Dev.abortStep_memory (d : Dev) (c cause : Nat) : (d.abortStep c cause).hbm = d.hbm ∧ (d.abortStep c cause).slow = d.slow :=
  (d.abortStep_aborts c cause).memory

/-- A stall either does nothing or raises its event and aborts the hearth's step. -/
theorem Dev.stall_cases (d : Dev) (h : Nat) : d.stall h = d ∨ ∃ c idx hi, d.stall h =
    (d.raise Event.firingStall .hearth h (some c) idx hi).abortStep c 1 := by
  unfold Dev.stall
  extract_lets x
  split
  · exact .inl rfl
  · split
    · exact .inl rfl
    · exact .inr ⟨_, _, _, rfl⟩

theorem Dev.stall_aborts {d : Dev} {h : Nat} {r : StepRun} (hr : (d.hearth h).run = some r) (hab : r.aborting = false) (hlimit : r.stallLimit ≠ 0)
    (hw : (d.hearth h).window ≠ []) (hhalted : d.get Obj.HALTED_STREAMS h = 0) :
    ∃ idx hi, d.stall h = (d.raise Event.firingStall .hearth h (some r.ctx) idx hi).abortStep r.ctx 1 := by
  unfold Dev.stall
  extract_lets x
  have hgoes : (r.aborting || decide (r.stallLimit = 0) || x.window.isEmpty || decide (d.get Obj.HALTED_STREAMS h ≠ 0)) = false := by
    simp [x, hab, hlimit, hw, hhalted]
  split
  · next hnone => exact absurd (hr.symm.trans hnone) (Option.some_ne_none r)
  · next r' hr' =>
    obtain rfl : r' = r := Option.some_inj.mp (hr'.symm.trans hr)
    rw [hgoes, if_neg Bool.false_ne_true]
    exact ⟨_, _, rfl⟩

/-- While a transfer of the hearth is halted its stall count does not advance (R155). -/
theorem Dev.stall_halted {d : Dev} {h : Nat} (hhalted : d.get Obj.HALTED_STREAMS h ≠ 0) : d.stall h = d := by
  unfold Dev.stall
  extract_lets x
  split
  · rfl
  · exact if_pos (by simp [hhalted])

theorem Dev.stall_memory (d : Dev) (h : Nat) : (d.stall h).hbm = d.hbm ∧ (d.stall h).slow = d.slow := by
  obtain hsame | ⟨c, idx, hi, habort⟩ := d.stall_cases h
  · rw [hsame]
    exact ⟨rfl, rfl⟩
  · rw [habort]
    obtain ⟨hhbm, hslow⟩ := Dev.abortStep_memory (d.raise Event.firingStall .hearth h (some c) idx hi) c 1
    obtain ⟨hhbm', hslow'⟩ := (d.raise_recorded Event.firingStall .hearth h (some c) idx hi).memory
    exact ⟨hhbm.trans hhbm', hslow.trans hslow'⟩

/-- A stall leaves a step that has been aborted as it is. -/
theorem Dev.HaltedBy.stall {d : Dev} {c cause : Nat} (g : d.HaltedBy c cause) (h : Nat) : (d.stall h).HaltedBy c cause := by
  obtain hsame | ⟨k, idx, hi, habort⟩ := d.stall_cases h
  · rw [hsame]
    exact g
  · rw [habort]
    refine Dev.HaltedBy.abortStep ?_ k 1
    unfold Dev.HaltedBy
    rw [Dev.ctx_raise]
    exact g

section
variable {s : State} {h : Fin 1024}

theorem State.stallAborts {r : StepRun} {x : CtxRun} (hr : (s.dev.hearth h.val).run = some r) (hab : r.aborting = false) (hlimit : r.stallLimit ≠ 0)
    (hw : (s.dev.hearth h.val).window ≠ []) (hhalted : s.dev.get Obj.HALTED_STREAMS h.val = 0) (hx : (s.dev.ctx r.ctx).run = some x)
    (hgo : x.Goes) :
    ∃ t, exec (.firingStall h []) s = .next t ∧ (t.dev.ctx r.ctx).halted = true ∧
      (∃ y, (t.dev.ctx r.ctx).run = some y ∧ y.aborted = some 1 ∧ y.hearths = x.hearths) ∧ s.KeepsMemory t := by
  obtain ⟨idx, hi, hstall⟩ := Dev.stall_aborts hr hab hlimit hw hhalted
  have hx' : ((s.dev.raise Event.firingStall .hearth h.val (some r.ctx) idx hi).ctx r.ctx).run = some x := by rw [Dev.ctx_raise, hx]
  obtain ⟨hhalt, hrun⟩ := Dev.abortStep_aborted hx' hgo 1
  rw [← hstall] at hhalt hrun
  obtain ⟨hhbm, hslow⟩ := s.dev.stall_memory h.val
  exact ⟨_, State.onDev_next (f := fun d => d.cmdStall h.val []) rfl, hhalt, hrun, hhbm, hslow, rfl, rfl⟩

theorem State.stallWaits (hhalted : s.dev.get Obj.HALTED_STREAMS h.val ≠ 0) : exec (.firingStall h []) s = .next s :=
  State.onDev_next (f := fun d => d.cmdStall h.val []) (Dev.stall_halted hhalted)

end

end Sys2Proof.Machine
end

section
/-! The draught watchdog (R168, R169), and with it the firing stall that falls in the same tick (R114). -/

namespace Sys2Proof.Machine

/-! ### The record of a cycle (R169) -/

/-- Keys of what shows the last draught. -/
def draughtKeys : List Nat := [Obj.DRAUGHT_LENGTH.key 0 0, Obj.DRAUGHT_EVENTS.key 0 0] ++ (List.range 8).map (Obj.DRAUGHT_FLUE.key 0)

/-- What shows the last draught is nothing that an event changes, and nothing that the end of a part shows. -/
theorem draughtKey_kept {k : Nat} (hk : k ∈ draughtKeys) : k ∉ eventKeys ∧ ∀ h, k ∉ partKeys h := by
  have hlow : ∀ k ∈ draughtKeys, k ∉ eventKeys ∧ k < 0x10000 * 256 := by decide
  obtain ⟨hevent, hlt⟩ := hlow k hk
  refine ⟨hevent, fun h hm => ?_⟩
  simp only [partKeys, ObjDef.key, Obj.HALTED_STREAMS, Obj.RUNNING_CTX, Obj.HEARTH_STATE, Kind.stride, List.mem_cons,
    List.not_mem_nil, or_false] at hm
  omega

theorem flueCfgKey_not_draught (f : Nat) : Obj.FLUE_CFG.key f 0 ∉ draughtKeys ∧ Obj.FLUE_CFG.key f 0 ∉ eventKeys := by
  have hhigh : 0x10000 * 256 ≤ Obj.FLUE_CFG.key f 0 := by
    simp only [ObjDef.key, Obj.FLUE_CFG, Kind.stride]
    omega
  have hlow : ∀ k ∈ draughtKeys, k < 0x10000 * 256 := by decide
  exact ⟨fun hm => absurd (hlow _ hm) (by omega), fun hm => absurd (lt_of_mem_eventKeys hm) (by omega)⟩

/-- Writing the first `n` elements of an object. -/
theorem Dev.get_putElems (o : ObjDef) (i : Nat) (v : Nat → Nat) (d : Dev) {n j : Nat} (hj : j < n) :
    ((List.range n).foldl (fun d e => d.put o (v e) i e) d).get o i j = v j % 2 ^ o.bitsOf := by
  induction n with
  | zero => omega
  | succ n ih =>
    rw [List.range_succ, List.foldl_append, List.foldl_cons, List.foldl_nil]
    by_cases hn : j = n
    · rw [hn, Dev.get_put_self]
    · rw [Dev.get_put_ne _ _ (by simp only [ObjDef.key]; omega), ih (by omega)]

/-- A cycle as the watchdog shows it. -/
def Dev.showDraught (d : Dev) (cyc : List Nat) : Dev :=
  (List.range 8).foldl (fun d i => d.put Obj.DRAUGHT_FLUE (cyc.getD i 0) 0 i) ((d.put Obj.DRAUGHT_LENGTH cyc.length).bump Obj.DRAUGHT_EVENTS)

section
variable (d : Dev) (cyc : List Nat)

theorem Dev.showDraught_onlyOd : d.OnlyOd (d.showDraught cyc) draughtKeys := by
  have hcount : d.OnlyOd ((d.put Obj.DRAUGHT_LENGTH cyc.length).bump Obj.DRAUGHT_EVENTS) draughtKeys :=
    .trans (Dev.put_onlyOd (by decide)) (Dev.bump_onlyOd (by decide))
  have hflues : ∀ d : Dev, d.OnlyOd ((List.range 8).foldl (fun d i => d.put Obj.DRAUGHT_FLUE (cyc.getD i 0) 0 i) d)
      ((List.range 8).flatMap fun i => [Obj.DRAUGHT_FLUE.key 0 i]) := Dev.foldl_onlyOd (fun _ _ => Dev.put_onlyOd (by simp)) _
  exact hcount.trans ((hflues _).mono (by decide))

theorem Dev.showDraught_shows : (d.showDraught cyc).get Obj.DRAUGHT_EVENTS = (d.get Obj.DRAUGHT_EVENTS + 1) % 2 ^ 32 ∧
    (d.showDraught cyc).get Obj.DRAUGHT_LENGTH = cyc.length % 2 ^ 8 ∧
    ∀ i < 8, (d.showDraught cyc).get Obj.DRAUGHT_FLUE 0 i = cyc.getD i 0 % 2 ^ 16 := by
  have hflues : ∀ d : Dev, d.OnlyOd ((List.range 8).foldl (fun d i => d.put Obj.DRAUGHT_FLUE (cyc.getD i 0) 0 i) d)
      ((List.range 8).flatMap fun i => [Obj.DRAUGHT_FLUE.key 0 i]) := Dev.foldl_onlyOd (fun _ _ => Dev.put_onlyOd (by simp)) _
  refine ⟨?_, ?_, fun i hi => Dev.get_putElems _ _ _ _ hi⟩
  · rw [Dev.showDraught, (hflues _).get (by decide), Dev.get_bump_self _ _ _ _ _ one_ne_zero, Dev.get_put_ne _ _ (by decide)]
    rfl
  · rw [Dev.showDraught, (hflues _).get (by decide), Dev.get_bump_ne (by decide), Dev.get_put_self]
    rfl

/-- The device once a cycle is shown and its event raised. -/
def Dev.tellDraught : Dev := (d.showDraught cyc).raise Event.draught .global 0 none cyc.length (cyc.headD 0)

theorem Dev.tellDraught_recorded : (d.showDraught cyc).Recorded (d.tellDraught cyc) := Dev.raise_recorded ..

theorem Dev.tellDraught_ctx (c : Nat) : (d.tellDraught cyc).ctx c = d.ctx c := by
  obtain ⟨⟨od, hshape⟩, -⟩ := d.showDraught_onlyOd cyc
  rw [Dev.tellDraught, Dev.ctx_raise, hshape]
  rfl

theorem Dev.tellDraught_flueCfg (f : Nat) : (d.tellDraught cyc).flueCfg f = d.flueCfg f := by
  obtain ⟨hdraught, hevent⟩ := flueCfgKey_not_draught f
  rw [Dev.flueCfg, (d.tellDraught_recorded cyc).get hevent, (d.showDraught_onlyOd cyc).get hdraught, Dev.flueCfg]

/-- Reporting a cycle aborts the steps of the slots that own its flues. -/
theorem Dev.reportDraught_eq : d.reportDraught cyc =
    ((cyc.map fun f => (d.flueCfg f).ctx).dedup).foldl (fun d c => d.abortStep c 2) (d.tellDraught cyc) := by
  simp only [← d.tellDraught_flueCfg cyc]
  rfl

theorem Dev.reportDraught_memory : (d.reportDraught cyc).hbm = d.hbm ∧ (d.reportDraught cyc).slow = d.slow := by
  obtain ⟨⟨od, hshape⟩, -⟩ := d.showDraught_onlyOd cyc
  obtain ⟨hhbm, hslow⟩ := (d.tellDraught_recorded cyc).memory
  obtain ⟨hhbm', hslow'⟩ := (Dev.abortSteps_aborts (cyc.map fun f => (d.flueCfg f).ctx).dedup 2 (d.tellDraught cyc)).memory
  rw [hshape] at hhbm hslow
  rw [Dev.reportDraught_eq]
  exact ⟨hhbm'.trans hhbm, hslow'.trans hslow⟩

/-- What shows the draught stays while the steps abort. -/
theorem Dev.reportDraught_get {o : ObjDef} {i e : Nat} (hk : o.key i e ∈ draughtKeys) :
    (d.reportDraught cyc).get o i e = (d.showDraught cyc).get o i e := by
  obtain ⟨hevent, hpart⟩ := draughtKey_kept hk
  rw [Dev.reportDraught_eq]
  have haborts := Dev.abortSteps_aborts (cyc.map fun f => (d.flueCfg f).ctx).dedup 2 (d.tellDraught cyc)
  exact (Dev.get_congr (haborts.objects _ hevent fun h _ => hpart h)).trans ((d.tellDraught_recorded cyc).get hevent)

/-- Every slot that owns a flue of the cycle and whose step goes on is halted. -/
theorem Dev.reportDraught_halts {g : Nat} (hg : g ∈ cyc) {x : CtxRun} (hx : (d.ctx (d.flueCfg g).ctx).run = some x) (hgo : x.Goes) :
    (d.reportDraught cyc).HaltedBy (d.flueCfg g).ctx 2 := by
  rw [Dev.reportDraught_eq]
  refine Dev.abortSteps_halted (x := x) (List.mem_dedup.mpr (List.mem_map_of_mem hg)) ?_ hgo 2
  rw [Dev.tellDraught_ctx, hx]

end

/-! ### DRAUGHT_CHECK and FIRING_STALL (R114, R168, R169) -/

section
variable {s : State} {f : Fin 65536} {cyc : List Nat}

/-- The watchdog reports the cycle that it finds from a full flue. -/
theorem Dev.cmdDraught_reports {d : Dev} {f : Nat} (hlimit : d.get Obj.DRAUGHT_LIMIT ≠ 0) (hen : (d.flueCfg f).enable = true)
    (hproxy : (d.flueCfg f).proxy = false) (hfull : d.flueFull f = true) (hcyc : d.draughtFrom (d.setFlues.length + 1) [f] = some cyc) :
    d.cmdDraught f = d.reportDraught cyc := by
  simp [Dev.cmdDraught, hlimit, hen, hproxy, hfull, hcyc]

theorem State.draughtReported (hcmd : s.dev.cmdDraught f.val = s.dev.reportDraught cyc) :
    ∃ t, exec (.draughtCheck f) s = .next t ∧ t.dev.get Obj.DRAUGHT_EVENTS = (s.dev.get Obj.DRAUGHT_EVENTS + 1) % 2 ^ 32 ∧
      t.dev.get Obj.DRAUGHT_LENGTH = cyc.length % 2 ^ 8 ∧ (∀ i < 8, t.dev.get Obj.DRAUGHT_FLUE 0 i = cyc.getD i 0 % 2 ^ 16) ∧
      (∀ g ∈ cyc, ∀ x, (s.dev.ctx (s.dev.flueCfg g).ctx).run = some x → x.aborted = none → (∃ k ∈ x.hearths, k ∉ x.ended) →
        (t.dev.ctx (s.dev.flueCfg g).ctx).halted = true ∧
        ∃ y, (t.dev.ctx (s.dev.flueCfg g).ctx).run = some y ∧ y.aborted = some 2) ∧ s.KeepsMemory t := by
  obtain ⟨hevents, hlength, hflues⟩ := s.dev.showDraught_shows cyc
  obtain ⟨hhbm, hslow⟩ := s.dev.reportDraught_memory cyc
  refine ⟨_, State.onDev_next (f := fun d => d.cmdDraught f.val) hcmd, ?_, ?_, fun i hi => ?_, ?_, hhbm, hslow, rfl, rfl⟩
  · exact (s.dev.reportDraught_get cyc (by decide)).trans hevents
  · exact (s.dev.reportDraught_get cyc (by decide)).trans hlength
  · refine (s.dev.reportDraught_get cyc ?_).trans (hflues i hi)
    exact List.mem_append_right _ (List.mem_map_of_mem (List.mem_range.mpr hi))
  · exact fun g hg x hx hab hopen => s.dev.reportDraught_halts cyc hg hx ⟨hab, hopen⟩

/-- The watchdog comes first where a stall falls in the same tick, and the stall leaves the steps it has aborted. -/
theorem State.draughtThenStall {h : Fin 1024} (hcmd : s.dev.cmdDraught f.val = s.dev.reportDraught cyc) :
    ∃ t, exec (.firingStall h [f]) s = .next t ∧
      (∀ g ∈ cyc, ∀ x, (s.dev.ctx (s.dev.flueCfg g).ctx).run = some x → x.aborted = none → (∃ k ∈ x.hearths, k ∉ x.ended) →
        ∃ y, (t.dev.ctx (s.dev.flueCfg g).ctx).run = some y ∧ y.aborted = some 2) ∧ s.KeepsMemory t := by
  obtain ⟨hhbm, hslow⟩ := s.dev.reportDraught_memory cyc
  obtain ⟨hhbm', hslow'⟩ := (s.dev.reportDraught cyc).stall_memory h.val
  have hstall : s.dev.cmdStall h.val [f.val] = (s.dev.reportDraught cyc).stall h.val := by simp [Dev.cmdStall, hcmd]
  refine ⟨_, State.onDev_next (f := fun d => d.cmdStall h.val [f.val]) hstall, fun g hg x hx hab hopen => ?_,
    hhbm'.trans hhbm, hslow'.trans hslow, rfl, rfl⟩
  obtain ⟨-, y, hy, haborted⟩ := (s.dev.reportDraught_halts cyc hg hx ⟨hab, hopen⟩).stall h.val
  exact ⟨y, hy, haborted⟩

end

/-- Settles O8: the bellows pass each entry by its kind; an abort marks the slot's step and touches no other slot, and a step once aborted
stays so, whichever of the watchdog and the stall aborts it. -/
theorem bellowsWalkAndStallsAbort : Obligations.BellowsWalkAndStallsAbort := by
  unfold Obligations.BellowsWalkAndStallsAbort
  refine ⟨fun s h hblow hnear hread => ?_, ?_, ?_, ?_, ?_⟩
  · have hat := Dev.bellowsAt_of hblow hnear hread
    refine ⟨?_, ?_, ?_, ?_⟩
    · exact fun k hkind hloop hbranch hstream => State.bellowsMoved (Dev.cmdWalk_passes hat hkind hloop hbranch hstream)
    · exact fun hkind hwaits => State.bellowsMoved (Dev.cmdWalk_loop hat hkind hwaits)
    · exact fun hkind hwaits => State.bellowsPassedBranch (Dev.cmdWalk_branch hat hkind hwaits rfl)
    · exact fun hkind hwaits => State.bellowsPassedBranch (Dev.cmdWalk_branch hat hkind hwaits rfl)
  · exact fun s h r x hr hab hlimit hw hhalted hx hxab hopen => State.stallAborts hr hab hlimit hw hhalted hx ⟨hxab, hopen⟩
  · exact fun s h hhalted => State.stallWaits hhalted
  · exact fun s f cyc hlimit hen hproxy hfull hcyc => State.draughtReported (Dev.cmdDraught_reports hlimit hen hproxy hfull hcyc)
  · exact fun s h f cyc hlimit hen hproxy hfull hcyc => State.draughtThenStall (Dev.cmdDraught_reports hlimit hen hproxy hfull hcyc)

end Sys2Proof.Machine
end

section
/-! STREAM entries take places (R97, R137, R138, R147). -/

namespace Sys2Proof.Machine

section
variable {d a b : Dev} {h p : Nat} {e : WEntry}

/-! ### The place a transfer takes (R137) -/

@[simp] theorem Dev.fetchSram_nil (d : Dev) (h a n : Nat) : d.fetchSram h a n [] = d := rfl

theorem Dev.OnlyHearth.modNet (d : Dev) (f : Net → Net) (h : Nat) (ks : List Nat) : d.OnlyHearth (d.modNet f) h ks :=
  ⟨rfl, rfl, fun _ _ => rfl, .same _ _, rfl, rfl, rfl, rfl, rfl⟩

theorem Dev.hearth_setPlace (d : Dev) (h p : Nat) (t : Option Transfer) :
    (d.setPlace h p t).hearth h = { d.hearth h with places := tset none (d.hearth h).places p t } := Dev.hearth_setHearth_self ..

/-- A transfer is found in the place it has been put into. -/
@[simp] theorem Dev.place_setPlace (d : Dev) (h p : Nat) (t : Option Transfer) : ((d.setPlace h p t).hearth h).place p = t := by
  rw [Dev.hearth_setPlace]
  exact tget_tset_self ..

/-- `d'` is `d` but for hearth `h`, whose window is as it was. -/
structure Dev.KeepsWindow (h : Nat) (d d' : Dev) : Prop where
  only : d.OnlyHearth d' h []
  window : (d'.hearth h).window = (d.hearth h).window

theorem Dev.KeepsWindow.trans {c : Dev} (f : a.KeepsWindow h b) (g : b.KeepsWindow h c) : a.KeepsWindow h c :=
  ⟨f.only.trans g.only, g.window.trans f.window⟩

theorem Dev.KeepsWindow.setHearth {x : Hearth} (hx : x.window = (d.hearth h).window) : d.KeepsWindow h (d.setHearth h x) :=
  ⟨.setHearth .., by rw [Dev.hearth_setHearth_self, hx]⟩

theorem Dev.KeepsWindow.modNet (d : Dev) (f : Net → Net) (h : Nat) : d.KeepsWindow h (d.modNet f) := ⟨.modNet .., rfl⟩

/-- What the transfer of a STREAM entry captures as it fires (R97, R138). -/
structure Transfer.Captures (t : Transfer) (d : Dev) (h : Nat) (e : WEntry) : Prop where
  id : t.id = e.id
  ctx : t.ctx = (d.hearthCtx h).getD 0
  desc : t.desc = d.descWord h (StreamBody.ofWord e.raw).desc
  descIdx : t.descIdx = (StreamBody.ofWord e.raw).desc
  line0 : t.line0 = (StreamBody.ofWord e.raw).loc.line e.i e.t
  far : t.far = (StreamBody.ofWord e.raw).far (d.descriptor h (StreamBody.ofWord e.raw).desc) e.i e.t
  next : t.next = 0
  halted : t.halted = none
  flue : t.flue = none
  held : (d.descriptor h (StreamBody.ofWord e.raw).desc).mode ≠ 2 → t.held = false

/-- A transfer of another mode than 2 is not held as it fires (R147). -/
theorem Dev.heldAtFire_of_mode {t : Transfer} (hmode : t.d.mode ≠ 2) (d : Dev) (h : Nat) : d.heldAtFire h t = false := by
  simp [Dev.heldAtFire, hmode]

/-- A STREAM entry that fires takes the lowest free place. -/
theorem Dev.startStream_takes (hp : (d.hearth h).freePlace = some p) :
    ∃ t, ((d.startStream h e []).hearth h).place p = some t ∧ t.Captures d h e ∧ d.KeepsWindow h (d.startStream h e []) := by
  obtain ⟨y, hy⟩ : ∃ y, y = d.startStream h e [] := ⟨_, rfl⟩
  rw [← hy]
  unfold Dev.startStream at hy
  extract_lets x at hy
  split at hy
  · next hnone => exact absurd (hp.symm.trans hnone) (Option.some_ne_none p)
  · next body d1 x1 ds w line0 far fl mine flying t src d2 _ q hq =>
    obtain rfl : p = q := Option.some_inj.mp (hp.symm.trans hq)
    extract_lets d3 hold at hy
    have h2 : d.KeepsWindow h d2 := .setHearth rfl
    have h3 : d.KeepsWindow h d3 := by
      refine h2.trans ?_
      simp only [d3]
      clear_value d2 fl
      cases fl with
      | none => exact ⟨.refl .., rfl⟩
      | some a => exact .modNet ..
    have h4 : d.KeepsWindow h (if hold then d3 else d3.recordEpoch h t) := by
      split
      · exact h3
      · exact h3.trans (.setHearth rfl)
    rw [hy]
    refine ⟨_, Dev.place_setPlace .., ⟨rfl, rfl, rfl, rfl, rfl, rfl, rfl, rfl, rfl, fun hmode => ?_⟩, h4.trans (.setHearth rfl)⟩
    have hdesc : t.d = d.descriptor h (StreamBody.ofWord e.raw).desc := rfl
    rw [← hdesc] at hmode
    exact Dev.heldAtFire_of_mode hmode d3 h

/-- A firing leaves the descriptors where they are. -/
theorem Dev.descWord_fired (d : Dev) (h : Nat) (e : WEntry) (held : Bool) (ranges : List (Nat × Nat) × List (Nat × Nat)) (n : Nat) :
    (d.fired h e held ranges).descWord h n = d.descWord h n := by
  have hbase : (d.fired h e held ranges).get Obj.DESC_TABLE_BASE h = d.get Obj.DESC_TABLE_BASE h := by
    refine (d.fired_onlyHearth h e held ranges).get ?_ (hearthKey_not_event (by decide) _)
    simp only [List.mem_cons, List.not_mem_nil, or_false, not_or]
    exact ⟨hearthKey_ne (by decide) (by decide) (.inl (by decide)), hearthKey_ne (by decide) (by decide) (.inl (by decide))⟩
  rw [Dev.descWord, Dev.descWord, hbase, Dev.hearth_fired]
  rfl

theorem Dev.descriptor_eq (d : Dev) (h n : Nat) : d.descriptor h n = .ofWord (d.descWord h n) := rfl

end

/-! ### STREAM -/

theorem State.streamTakesPlace {s : State} {h : Fin 1024} {e : WEntry} {r : StepRun} {p : Nat} {b : StreamBody} {ds : Desc}
    (hb : b = StreamBody.ofWord e.raw) (hds : ds = s.dev.descriptor h.val b.desc) (hr : (s.dev.hearth h.val).run = some r)
    (hF : s.dev.Fires h.val .stream e) (hp : (s.dev.hearth h.val).freePlace = some p) :
    ∃ t x, exec (.stream h []) s = .next t ∧ (t.dev.hearth h.val).place p = some x ∧ x.id = e.id ∧ x.ctx = r.ctx ∧
      x.desc = s.dev.descWord h.val b.desc ∧ x.descIdx = b.desc ∧ x.line0 = b.loc.line e.i e.t ∧
      x.far = (ds.farBase + b.remOffset + 4096 * b.remStride * wrapVal (loopVal e.i e.t b.remSel) b.remWrap) % 2 ^ 64 ∧
      x.next = 0 ∧ x.halted = none ∧ x.flue = none ∧ (ds.mode ≠ 2 → x.held = false) ∧
      (∃ o ∈ (t.dev.hearth h.val).window, o.id = e.id ∧ o.st = .firing) ∧
      t.dev.get Obj.ENTRIES_FIRED h.val = (s.dev.get Obj.ENTRIES_FIRED h.val + 1) % 2 ^ 64 ∧
      s.OnlyHearth t h.val [Obj.ENTRIES_FIRED.key h.val 0, Obj.EGRESS_HOLD_CYCLES.key h.val 0] := by
  obtain ⟨held, ranges, hfire⟩ := Dev.fireIf_fires hF fun d e => d.startStream h.val e []
  obtain ⟨d, hd⟩ : ∃ d, d = s.dev.fired h.val e held ranges := ⟨_, rfl⟩
  obtain ⟨o, ho⟩ : ∃ o, o = (s.dev.hearth h.val).firedEntry e ranges := ⟨_, rfl⟩
  rw [← hd, ← ho] at hfire
  have hdx : d.hearth h.val = { s.dev.hearth h.val with window := (s.dev.hearth h.val).firedWindow e ranges } := by rw [hd, Dev.hearth_fired]
  have hraw : o.raw = e.raw := by rw [ho]; rfl
  have hword : ∀ n, d.descWord h.val n = s.dev.descWord h.val n := fun n => by rw [hd, Dev.descWord_fired]
  have hdesc : d.descriptor h.val b.desc = ds := by rw [Dev.descriptor_eq, hword, hds, Dev.descriptor_eq]
  have hctx : (d.hearthCtx h.val).getD 0 = r.ctx := by simp [Dev.hearthCtx, hdx, hr]
  have hfree : (d.hearth h.val).freePlace = some p := by rw [← hp, hdx]; rfl
  obtain ⟨x, hx, hcap, hkeeps⟩ := Dev.startStream_takes (e := o) hfree
  obtain ⟨hid, hxctx, hxdesc, hidx, hline0, hfar, hnext, hhalted, hflue, hheld⟩ := hcap
  rw [hraw, ← hb] at hxdesc hidx hline0 hfar hheld
  rw [hword] at hxdesc
  rw [hdesc] at hfar hheld
  have honly : s.dev.OnlyHearth (d.startStream h.val o []) h.val [Obj.ENTRIES_FIRED.key h.val 0, Obj.EGRESS_HOLD_CYCLES.key h.val 0] :=
    (hd ▸ s.dev.fired_onlyHearth h.val e held ranges).trans (hkeeps.only.mono (List.nil_subset _))
  have hcount : d.get Obj.ENTRIES_FIRED h.val = (s.dev.get Obj.ENTRIES_FIRED h.val + 1) % 2 ^ 64 := by
    obtain ⟨-, -, hcount, -⟩ := s.dev.fired_spec h.val e held ranges
    rw [hd, hcount]
  obtain ⟨-, hscan, -⟩ := hF
  have hmem := Hearth.mem_firedWindow (ranges := ranges) (Dev.scanFrom_fires hscan).1
  refine ⟨_, x, State.onDev_next (f := fun d => d.fireIf h.val (fun e => e.kind = .stream) fun d e => d.startStream h.val e []) hfire,
    hx, ?_, hxctx.trans hctx, hxdesc, hidx, ?_, ?_, hnext, hhalted, hflue, hheld, ⟨o, ?_, ?_, ?_⟩, ?_, State.onlyHearth_of_dev honly⟩
  · rw [hid, ho]
    rfl
  · rw [hline0, ho]
    rfl
  · rw [hfar, ho]
    rfl
  · rw [hkeeps.window, hdx, ho]
    exact hmem
  · rw [ho]
    rfl
  · rw [ho]
    rfl
  · exact (hkeeps.only.get (by simp) (hearthKey_not_event (by decide) _)).trans hcount

end Sys2Proof.Machine
end

section
/-! Lines of a transfer (R140, R141, R144, R149, R153, R154). -/

namespace Sys2Proof.Machine

/-! ### A line of the scratchpad (R61, R144) -/

theorem fit_length {α : Type} (d : α) (n : Nat) (l : List α) : (fit d n l).length = n := by simp [fit]

/-- A run of cells reads as it was written. -/
theorem readCells_writeCells (m : Tab Byte) (a : Nat) (bs : List Byte) : readCells 0 (writeCells 0 m a bs) a bs.length = bs := by
  refine List.ext_getElem (by simp [readCells]) fun i hi hi' => ?_
  simp only [readCells, List.getElem_map, List.getElem_range]
  rw [tget_writeCells, if_pos ⟨by omega, by omega⟩, Nat.add_sub_cancel_left, List.getD_eq_getElem _ _ hi']

/-- A line reads as it was written. -/
theorem Hearth.line_setLine (x : Hearth) (l : Nat) (v : Line) : (x.setLine l v).line l = ⟨fit 0 64 v.bytes, v.ash⟩ := by
  have hbytes := readCells_writeCells x.scr (64 * (l % 32768)) (fit 0 64 v.bytes)
  rw [fit_length] at hbytes
  simp only [Hearth.line, Hearth.setLine, hbytes, tget_tset_self]

theorem Hearth.line_of_unnoted {x y : Hearth} (g : x.unnoted = y.unnoted) (l : Nat) : x.line l = y.line l := congrArg (fun z => z.line l) g

section
variable {d d1 d2 : Dev} {h p n a : Nat} {t : Transfer} {v : Line}

/-- A line that an agent of the hearth writes reads as written, and is counted where it is ash (R65). -/
theorem Dev.ownLine_spec (d : Dev) (h l : Nat) (v : Line) : ((d.ownLine h l v).hearth h).line l = ⟨fit 0 64 v.bytes, v.ash⟩ ∧
    ∀ o : ObjDef, o.NotUnit → (d.ownLine h l v).get o h = d.get o h := by
  obtain ⟨b, hb⟩ : ∃ b, b = d.modHearth h fun x => x.setLine l v := ⟨_, rfl⟩
  have hwork : b.Works Hearth.unnoted h (d.ownLine h l v) := by
    simp only [Dev.ownLine, ← hb]
    split
    · exact Dev.countAshLine_works ..
    · exact .refl ..
  have hline : (b.hearth h).line l = ⟨fit 0 64 v.bytes, v.ash⟩ := by rw [hb, Dev.modHearth, Dev.hearth_setHearth_self, Hearth.line_setLine]
  refine ⟨(Hearth.line_of_unnoted hwork.hearth l).trans hline, fun o ho => (hwork.counters o ho).trans ?_⟩
  rw [hb]
  rfl

/-- A line that arrives (R144). -/
theorem Dev.lineIn_spec (d : Dev) (h : Nat) (t : Transfer) (n : Nat) (v : Line) :
    ((d.lineIn h t n v).hearth h).line (t.lineOf n) = ⟨fit 0 64 v.bytes, v.ash⟩ ∧
    (d.lineIn h t n v).get Obj.STREAM_BYTES_IN h = (d.get Obj.STREAM_BYTES_IN h + 64) % 2 ^ 64 ∧
    (d.lineIn h t n v).get Obj.STREAM_FAULT_LINES h = d.get Obj.STREAM_FAULT_LINES h := by
  obtain ⟨hline, hget⟩ := d.ownLine_spec h (t.lineOf n) v
  refine ⟨?_, ?_, ?_⟩
  · rw [Dev.lineIn, Dev.hearth_bump, hline]
  · rw [Dev.lineIn, Dev.get_bump_self _ _ _ _ _ (by decide), hget _ (by decide)]
    rfl
  · rw [Dev.lineIn, Dev.get_bump_ne (hearthKey_ne (by decide) (by decide) (.inr (.inl (by decide)))), hget _ (by decide)]

/-- What a passed line leaves: the transfer's next line, and everything but the places. -/
theorem Dev.passed_spec (d : Dev) (h p : Nat) (t : Transfer) (n : Nat) :
    (∃ y, ((d.passed h p t n).hearth h).place p = some y ∧ y.next = n + 1) ∧ ∀ l, ((d.passed h p t n).hearth h).line l = (d.hearth h).line l := by
  refine ⟨⟨_, Dev.place_setPlace .., rfl⟩, fun l => ?_⟩
  rw [Dev.passed, Dev.hearth_setPlace]
  rfl

/-! ### A line as its translation says (R140, R141) -/

section
variable {words : List SramOutcome} (hmoved : t.moved = false) (hahead : t.next ∉ t.ahead)
include hmoved hahead

/-- A line of an IN transfer from this device. -/
theorem Dev.moveLine_in (hfar : d.farLine h t t.next = (d1, .ok d1.selfId a)) (hdir : t.d.dir = 0) :
    d.moveLine h p t words = d1.moveIn h p t t.next a words := by
  simp [Dev.moveLine, hmoved, hahead, hfar, hdir]

/-- A line of an OUT or OUT_ADD transfer to this device. -/
theorem Dev.moveLine_out (hfar : d.farLine h t t.next = (d1, .ok d1.selfId a)) (hdir : t.d.dir ≠ 0) :
    d.moveLine h p t words = d1.moveOut h p t t.next a words := by
  simp [Dev.moveLine, hmoved, hahead, hfar, hdir]

/-- A line that does not translate. -/
theorem Dev.moveLine_unmapped (hfar : d.farLine h t t.next = (d1, .unmapped)) :
    d.moveLine h p t words = d1.badLine h p t t.next .unmapped := by
  simp [Dev.moveLine, hmoved, hahead, hfar]

end

/-- A charge of fabric bytes counts in a context slot's block, and the cluster's cache counts nothing (R151, R332). -/
theorem Dev.get_cacheKeep (d : Dev) (t : Transfer) (h dv a : Nat) (v : Line) (o : ObjDef) (i : Nat) :
    (d.cacheKeep h t dv a v).get o i = d.get o i := by
  unfold Dev.cacheKeep
  split <;> rfl

theorem Dev.get_chargeFabric (hh : h < 1024) {o : ObjDef} (ho : o.OfHearth) (d : Dev) (c n : Nat) : (d.chargeFabric c n).get o h = d.get o h := by
  refine Dev.get_bump_ne ?_
  have hlow := hearthKey_lt ho hh
  simp only [ObjDef.key, Obj.FABRIC_BYTES, Kind.stride] at hlow ⊢
  omega

/-- A line of this device that no cache holds arrives. -/
theorem Dev.moveIn_line {words : List SramOutcome} (hh : h < 1024) (hcache : d1.usesCache h t.d = false)
    (hread : d1.localRead a t.d.chain (some t.ctx) words h = (d2, .line v)) :
    ∃ b : Dev, d1.moveIn h p t n a words = (b.lineIn h t n v).passed h p t n ∧ b.get Obj.STREAM_BYTES_IN h = d2.get Obj.STREAM_BYTES_IN h := by
  simp only [Dev.moveIn, hcache, hread, Bool.false_eq_true, if_false]
  refine ⟨_, rfl, ?_⟩
  rw [Dev.get_cacheKeep]
  split
  · exact Dev.get_chargeFabric hh (by decide) ..
  · rfl

/-- A line that this device takes is counted and passed. -/
theorem Dev.moveOut_ok (hput : d1.putLine h t a ((d1.hearth h).line (t.lineOf n)) = (d2, .ok)) :
    ∃ u, d1.moveOut h p t n a [] = (d2.bump Obj.STREAM_BYTES_OUT h 64).passed h p u n := by
  have hsource : d1.sourceLine h t n [] = (d1, (d1.hearth h).line (t.lineOf n)) := rfl
  simp only [Dev.moveOut, hsource, hput]
  exact ⟨_, rfl⟩

/-! ### Faults (R153, R154) -/

/-- A page event leaves the hearths and the objects of a hearth (R332). -/
theorem Dev.pageEvent_spec (d : Dev) (h : Nat) (t : Transfer) (e : Ev) (page : Nat) :
    (d.pageEvent h t e page).hearth h = d.hearth h ∧
    ∀ o : ObjDef, ∀ i, o.key h i ∉ eventKeys → o.key h i < 0x30000 * 256 → (d.pageEvent h t e page).get o h i = d.get o h i := by
  refine ⟨?_, fun o i hevent hlow => ?_⟩
  · rw [Dev.pageEvent, Dev.hearth_raise, Dev.hearth_bump]
  · rw [Dev.pageEvent, Dev.get_raise _ _ _ _ _ _ _ hevent, Dev.get_bump_ne]
    simp only [ObjDef.key, Obj.PAGE_FAULTS, Kind.stride] at hlow ⊢
    omega

/-- A faulting IN line handled natively becomes zeros marked ash, and is counted. -/
theorem Dev.lineFault_in (hh : h < 1024) (hdir : t.d.dir = 0) (shift : Nat) :
    ((d.lineFault h t n shift).1.hearth h).line (t.lineOf n) = ⟨List.replicate 64 0, true⟩ ∧
    (d.lineFault h t n shift).1.get Obj.STREAM_FAULT_LINES h = (d.get Obj.STREAM_FAULT_LINES h + 1) % 2 ^ 64 := by
  obtain ⟨b, hb⟩ : ∃ b, b = (d.bump Obj.STREAM_FAULT_LINES h).lineIn h t n Line.zerosAsh := ⟨_, rfl⟩
  have hlost : d.lineLost h t n = b := by rw [hb, Dev.lineLost, if_pos hdir]
  obtain ⟨hline, -, hcount⟩ := (d.bump Obj.STREAM_FAULT_LINES h).lineIn_spec h t n Line.zerosAsh
  have hzeros : fit 0 64 Line.zerosAsh.bytes = List.replicate 64 0 := by decide
  rw [← hb] at hline hcount
  rw [hzeros] at hline
  rw [Dev.get_bump_self _ _ _ _ _ one_ne_zero] at hcount
  simp only [Dev.lineFault, hlost]
  split
  · exact ⟨hline, hcount⟩
  · obtain ⟨hx, hget⟩ := b.pageEvent_spec h t Event.pageFault (pageOf shift (t.d.farAddr t.far n))
    exact ⟨(congrArg (fun x : Hearth => x.line (t.lineOf n)) hx).trans hline,
      (hget _ _ (hearthKey_not_event (by decide) _) (hearthKey_lt (by decide) hh)).trans hcount⟩

/-- Without FAULT_HALT a line that does not translate is handled natively. -/
theorem Dev.badLine_native (hfault : t.d.faultHalt = false) :
    ∃ u, d.badLine h p t n .unmapped = (d.lineFault h t n 21).1.passed h p u n := by
  simp only [Dev.badLine, hfault, Bool.false_and, Bool.false_eq_true, if_false]
  exact ⟨_, rfl⟩

theorem Dev.badLine_halts (hfault : t.d.faultHalt = true) (hnative : t.nativeRest = false) (hab : d.abortingAt h = false) :
    d.badLine h p t n .unmapped = d.haltAt h p t n 21 := by
  simp [Dev.badLine, hfault, hnative, hab, Xl.shift]

/-- A transfer halts at its line, and the place shows it (R154). -/
theorem Dev.haltAt_spec (hh : h < 1024) (hp : p < 32) (d : Dev) (t : Transfer) (n shift : Nat) :
    ((d.haltAt h p t n shift).get Obj.HALTED_STREAMS h).testBit p = true ∧
    (d.haltAt h p t n shift).get Obj.HALT_ADDRESS h p = t.d.farAddr t.far n ∧
    ((d.haltAt h p t n shift).hearth h).place p = some { t with halted := some n } := by
  obtain ⟨va, hva⟩ : ∃ va, va = t.d.farAddr t.far n := ⟨_, rfl⟩
  obtain ⟨b, hb⟩ : ∃ b, b = (d.putBit Obj.HALTED_STREAMS p true h).put Obj.HALT_ADDRESS va h p := ⟨_, rfl⟩
  have hlow : Obj.HALT_ADDRESS.key h p < 0x30000 * 256 ∧ 0x10000 * 256 ≤ Obj.HALT_ADDRESS.key h p ∧
      Obj.HALTED_STREAMS.key h 0 ≠ Obj.HALT_ADDRESS.key h p := by
    simp only [ObjDef.key, Obj.HALT_ADDRESS, Obj.HALTED_STREAMS, Kind.stride]
    omega
  obtain ⟨haddr, hhigh, hne⟩ := hlow
  obtain ⟨-, hget⟩ := b.pageEvent_spec h t Event.streamHalt (pageOf shift va)
  have hhalt : d.haltAt h p t n shift = (b.pageEvent h t Event.streamHalt (pageOf shift va)).setPlace h p (some { t with halted := some n }) := by
    rw [hb, hva]
    rfl
  rw [hhalt]
  refine ⟨?_, ?_, Dev.place_setPlace ..⟩
  · have hbit := Dev.bit_get_putBit d Obj.HALTED_STREAMS p p h true hp
    rw [if_pos rfl] at hbit
    rw [← hbit, bit]
    refine congrArg (Nat.testBit · p) ((hget _ _ (hearthKey_not_event (by decide) _) (hearthKey_lt (by decide) hh)).trans ?_)
    rw [hb, Dev.get_put_ne _ _ hne]
  · refine (hget _ _ (fun hm => absurd (lt_of_mem_eventKeys hm) (by omega)) haddr).trans ?_
    rw [hb, Dev.get_put_self, hva]
    exact Nat.mod_eq_of_lt (Nat.mod_lt _ (by decide))

end

/-! ### STREAM_LINE -/

section
variable {s : State} {h : Fin 1024} {p : Fin 32} {w x : Transfer} {d0 d1 : Dev} {words : List SramOutcome}

/-- A transfer in its place that may move its next line. -/
structure State.LineMoves (s : State) (h : Fin 1024) (p : Fin 32) (w x : Transfer) (d0 : Dev) : Prop where
  place : (s.dev.hearth h.val).place p.val = some w
  flue : w.flue = none
  halted : w.halted = none
  held : w.held = false
  turn : (s.dev.hearth h.val).startWaits w = false
  started : x = { w with started := true }
  device : d0 = { s.dev with crc := [] }.setPlace h.val p.val (some x)

/-- A transfer whose turn it is moves its next line. -/
theorem State.streamLine_exec (g : s.LineMoves h p w x d0) :
    exec (.streamLine h p words []) s = .next { s with dev := { d0.moveLine h.val p.val x words with crc := [] } } := by
  obtain ⟨hplace, hflue, hhalted, hheld, hturn, hx, hd0⟩ := g
  have hcmd : ({ s.dev with crc := [] } : Dev).cmdLine h.val p.val words = d0.moveLine h.val p.val x words := by
    have hplace' : (({ s.dev with crc := [] } : Dev).hearth h.val).place p.val = some w := hplace
    have hturn' : (({ s.dev with crc := [] } : Dev).hearth h.val).startWaits w = false := hturn
    simp only [Dev.cmdLine, hplace', hflue, hhalted, hheld, hturn', hd0, hx, Option.isSome_none, Bool.or_self, Bool.false_eq_true, if_false]
  exact State.onDev_next (f := fun d => d.withCrc [] fun d => d.cmdLine h.val p.val words) (by rw [Dev.withCrc, hcmd])

/-- A transfer that fired behind one not yet started waits (R137). -/
theorem State.streamLine_waits {crc : List (Nat × Nat)} (hplace : (s.dev.hearth h.val).place p.val = some x) (hflue : x.flue = none)
    (hhalted : x.halted = none) (hheld : x.held = false) (hturn : (s.dev.hearth h.val).startWaits x = true) :
    exec (.streamLine h p words crc) s = .next { s with dev := { s.dev with crc := [] } } := by
  have hcmd : ({ s.dev with crc := crc } : Dev).cmdLine h.val p.val words = { s.dev with crc := crc } := by
    have hplace' : (({ s.dev with crc := crc } : Dev).hearth h.val).place p.val = some x := hplace
    have hturn' : (({ s.dev with crc := crc } : Dev).hearth h.val).startWaits x = true := hturn
    simp only [Dev.cmdLine, hplace', hflue, hhalted, hheld, hturn', Option.isSome_none, Bool.or_self, Bool.false_eq_true, if_false, if_true]
  exact State.onDev_next (f := fun d => d.withCrc crc fun d => d.cmdLine h.val p.val words) (by rw [Dev.withCrc, hcmd])

section
variable (g : s.LineMoves h p w x d0) (hmoved : x.moved = false) (hahead : x.next ∉ x.ahead)
include g hmoved hahead

theorem State.lineComesIn {a : Nat} {d2 : Dev} {v : Line} (hfar : d0.farLine h.val x x.next = (d1, .ok d1.selfId a)) (hdir : x.d.dir = 0)
    (hcache : d1.usesCache h.val x.d = false) (hread : d1.localRead a x.d.chain (some x.ctx) words h.val = (d2, .line v)) :
    ∃ t, exec (.streamLine h p words []) s = .next t ∧
      (t.dev.hearth h.val).line (x.lineOf x.next) = ⟨fit 0 64 v.bytes, v.ash⟩ ∧
      (∃ y, (t.dev.hearth h.val).place p.val = some y ∧ y.next = x.next + 1) ∧
      t.dev.get Obj.STREAM_BYTES_IN h.val = (d2.get Obj.STREAM_BYTES_IN h.val + 64) % 2 ^ 64 ∧ t.vault = s.vault ∧ t.pending = s.pending := by
  obtain ⟨b, hin, hcount⟩ := Dev.moveIn_line (p := p.val) (n := x.next) h.isLt hcache hread
  obtain ⟨hline, hbytes, -⟩ := b.lineIn_spec h.val x x.next v
  obtain ⟨hplace, hlines⟩ := (b.lineIn h.val x x.next v).passed_spec h.val p.val x x.next
  have hmove := Dev.moveLine_in (p := p.val) (words := words) hmoved hahead hfar hdir
  rw [hin] at hmove
  have hexec := State.streamLine_exec g (words := words)
  rw [hmove] at hexec
  refine ⟨_, hexec, (hlines _).trans hline, hplace, ?_, rfl, rfl⟩
  rw [← hcount]
  exact hbytes

theorem State.lineGoesOut {a : Nat} {d2 : Dev} (hfar : d0.farLine h.val x x.next = (d1, .ok d1.selfId a)) (hdir : x.d.dir ≠ 0)
    (hput : d1.putLine h.val x a ((d1.hearth h.val).line (x.lineOf x.next)) = (d2, .ok)) :
    ∃ t, exec (.streamLine h p [] []) s = .next t ∧
      (∃ y, (t.dev.hearth h.val).place p.val = some y ∧ y.next = x.next + 1) ∧
      t.dev.get Obj.STREAM_BYTES_OUT h.val = (d2.get Obj.STREAM_BYTES_OUT h.val + 64) % 2 ^ 64 ∧ t.dev.hbm = d2.hbm ∧ t.dev.slow = d2.slow ∧
      t.vault = s.vault ∧ t.pending = s.pending := by
  obtain ⟨u, hout⟩ := Dev.moveOut_ok (p := p.val) hput
  have hmove := Dev.moveLine_out (p := p.val) (words := []) hmoved hahead hfar hdir
  rw [hout] at hmove
  obtain ⟨hhbm, hslow⟩ := d2.hbm_bump Obj.STREAM_BYTES_OUT h.val 64 0
  have hcount := Dev.get_bump_self d2 Obj.STREAM_BYTES_OUT h.val 0 64 (by decide)
  have hexec := State.streamLine_exec g (words := [])
  rw [hmove] at hexec
  exact ⟨_, hexec, (Dev.passed_spec _ _ _ u _).1, hcount, hhbm, hslow, rfl, rfl⟩

theorem State.lineIsLost (hfar : d0.farLine h.val x x.next = (d1, .unmapped)) (hdir : x.d.dir = 0) (hfault : x.d.faultHalt = false) :
    ∃ t, exec (.streamLine h p words []) s = .next t ∧
      (t.dev.hearth h.val).line (x.lineOf x.next) = ⟨List.replicate 64 0, true⟩ ∧
      (∃ y, (t.dev.hearth h.val).place p.val = some y ∧ y.next = x.next + 1) ∧
      t.dev.get Obj.STREAM_FAULT_LINES h.val = (d1.get Obj.STREAM_FAULT_LINES h.val + 1) % 2 ^ 64 := by
  obtain ⟨u, hbad⟩ := Dev.badLine_native (d := d1) (h := h.val) (p := p.val) (n := x.next) hfault
  have hmove := Dev.moveLine_unmapped (p := p.val) (words := words) hmoved hahead hfar
  rw [hbad] at hmove
  obtain ⟨hline, hcount⟩ := Dev.lineFault_in (d := d1) (n := x.next) h.isLt hdir 21
  obtain ⟨hplace, hlines⟩ := (d1.lineFault h.val x x.next 21).1.passed_spec h.val p.val u x.next
  have hexec := State.streamLine_exec g (words := words)
  rw [hmove] at hexec
  exact ⟨_, hexec, (hlines _).trans hline, hplace, hcount⟩

theorem State.lineHalts (hfar : d0.farLine h.val x x.next = (d1, .unmapped)) (hfault : x.d.faultHalt = true) (hnative : x.nativeRest = false)
    (hab : d1.abortingAt h.val = false) :
    ∃ t, exec (.streamLine h p words []) s = .next t ∧ (t.dev.get Obj.HALTED_STREAMS h.val).testBit p.val = true ∧
      t.dev.get Obj.HALT_ADDRESS h.val p.val = x.d.farAddr x.far x.next ∧
      (t.dev.hearth h.val).place p.val = some { x with halted := some x.next } := by
  have hmove := Dev.moveLine_unmapped (p := p.val) (words := words) hmoved hahead hfar
  rw [Dev.badLine_halts hfault hnative hab] at hmove
  obtain ⟨hbit, haddr, hplace⟩ := Dev.haltAt_spec h.isLt p.isLt d1 x x.next 21
  have hexec := State.streamLine_exec g (words := words)
  rw [hmove] at hexec
  exact ⟨_, hexec, hbit, haddr, hplace⟩

end

end

/-- Settles O12: a STREAM entry puts its captured values into the lowest free place, and each line goes the way its translation says. -/
theorem streamsTakePlacesAndMoveLines : Obligations.StreamsTakePlacesAndMoveLines := by
  unfold Obligations.StreamsTakePlacesAndMoveLines
  refine ⟨?_, fun s h p w x d0 d1 hplace hflue hhalted hheld hturn hmoved hahead hx hd0 => ?_, ?_⟩
  · exact fun s h e r p b ds hb hds hr hF hp => State.streamTakesPlace hb hds hr hF hp
  · have g : s.LineMoves h p w x d0 := ⟨hplace, hflue, hhalted, hheld, hturn, hx, hd0⟩
    have hxmoved : x.moved = false := by rw [hx]; exact hmoved
    have hxahead : x.next ∉ x.ahead := by rw [hx]; exact hahead
    refine ⟨?_, ?_, ?_, ?_⟩
    · exact fun a words d2 v hfar hdir hcache hread => State.lineComesIn g hxmoved hxahead hfar hdir hcache hread
    · exact fun a d2 hfar hdir hput => State.lineGoesOut g hxmoved hxahead hfar hdir hput
    · exact fun words hfar hdir hfault => State.lineIsLost g hxmoved hxahead hfar hdir hfault
    · exact fun words hfar hfault hnative hab => State.lineHalts g hxmoved hxahead hfar hfault hnative hab
  · exact fun s h p x words crc hplace hflue hhalted hheld hturn => ⟨_, State.streamLine_waits hplace hflue hhalted hheld hturn, rfl⟩

end Sys2Proof.Machine
end

section
/-! An event notice of another device may bring a second record into the ring. The record the notice is for goes to this device's own
subscriber (R369); where that has no route the notice is counted, and the unroutable event (R288), raised at the first in 50,000 ticks, is
a record as well. -/

namespace Sys2Proof.Machine

/-- A device in service, of ID 1, with a session at port 0, that tells device 2 of its events, to which it has no route, and whose
unroutable event is enabled. -/
def unheardDev : Dev :=
  (((((Dev.fresh.put Obj.BOOT_STATE 2).put Obj.DEVICE_ID_ACTIVE (2 ^ 31 + 1)).put Obj.PORT_STATE 4).put Obj.EVENT_SUBSCRIBER
    (2 ^ 31 + 2)).put Obj.FABRIC_EVENT_ENABLE 1).setPort 0 { Port.fresh with keySlots := [(0, some ⟨0, some 0, 0⟩)] }

def unheardState : State := { State.reset with dev := unheardDev }

/-- The notice of an event of device 3. -/
def noticeFrame : Frame :=
  { Frame.plain 9 2 1 3 0 0 0 with payload := odHeader 6 0 0 0 0 0 32 ++ leBytes 32 0, ash := [false] }

theorem unheardState_takes : unheardState.dev.FrameFor 0 9 noticeFrame :=
  ⟨⟨⟨by decide +kernel, ⟨_, rfl, rfl⟩, by decide +kernel, by decide +kernel⟩, by decide +kernel⟩, by decide +kernel, by decide +kernel⟩

theorem noticeFrame_op : bits (leNat (noticeFrame.payload.take 32)) 255 248 = 6 := by decide +kernel

/-- After the notice the ring holds its record and the unroutable event's. -/
theorem unheardState_rings :
    ((unheardState.dev.receive 0 (rxOf (frameOf 9 noticeFrame) []) []).events.ring.map fun r => r.code) =
      [Event.remote.code, Event.unroutable.code] := by
  decide +kernel

/-- Refutes O29: the notice of an event of another device brings two records into the ring where this device's own notice of it has no
route and the unroutable event is enabled. -/
theorem not_answersNoticesAndSlotWritesArrive : ¬ Obligations.AnswersNoticesAndSlotWritesArrive := by
  unfold Obligations.AnswersNoticesAndSlotWritesArrive
  intro h
  obtain ⟨-, -, -, -, -, -, -, hodResp⟩ := h unheardState 0 noticeFrame
  obtain ⟨-, hnotice⟩ := hodResp _ unheardState_takes rfl
  obtain ⟨t, ht, hring, -⟩ := hnotice noticeFrame_op rfl (by decide +kernel) (by decide +kernel)
  obtain rfl : { unheardState with dev := unheardState.dev.receive 0 (rxOf (frameOf 9 noticeFrame) []) [] } = t := by injection ht
  have hcodes := congrArg List.length ((congrArg (List.map fun r => r.code) hring).symm.trans unheardState_rings)
  simp [show unheardState.dev.events.ring = [] from rfl] at hcodes

end Sys2Proof.Machine
end

section
/-! Flues (R157 to R166): what their events and notices leave as it was, what FILL and DRAIN do, and the settings and doorbells. -/

namespace Sys2Proof.Machine

/-! ### What the events and notices of a flue leave as it was -/

/-- `d'` is `d` but for counters of hearths, objects of neither hearths nor flues, reports of step aborts, and what frames and events
change: nothing of a flue, of a memory, or of what else a hearth holds. -/
structure Dev.Notifies (d d' : Dev) : Prop where
  flue : ∀ g, d'.flue g = d.flue g
  reports : ∀ c, (d.ctx c).abortDue = none → (d'.ctx c).abortDue = none
  hbm : d'.hbm = d.hbm
  slow : d'.slow = d.slow
  objects : ∀ k, 0x20000 * 256 ≤ k → k < 0x30000 * 256 ∨ 0x40000 * 256 ≤ k → tget 0 d'.od k = tget 0 d.od k
  hearths : ∀ h, ∃ cs, d'.hearth h = { d.hearth h with counters := cs }

section
variable {a b d : Dev}

theorem Dev.Notifies.refl (d : Dev) : d.Notifies d := ⟨fun _ => rfl, fun _ hc => hc, rfl, rfl, fun _ _ _ => rfl, fun _ => ⟨_, rfl⟩⟩

theorem Dev.Notifies.trans (g : a.Notifies b) (h : b.Notifies d) : a.Notifies d where
  flue k := (h.flue k).trans (g.flue k)
  reports c hc := h.reports c (g.reports c hc)
  hbm := h.hbm.trans g.hbm
  slow := h.slow.trans g.slow
  objects k hk hb := (h.objects k hk hb).trans (g.objects k hk hb)
  hearths k := by
    obtain ⟨cs, hcs⟩ := g.hearths k
    obtain ⟨ds, hds⟩ := h.hearths k
    exact ⟨ds, by rw [hds, hcs]⟩

theorem Dev.Recorded.notifies (g : a.Recorded b) : a.Notifies b := by
  obtain ⟨⟨_, _, _, _, _, _, rfl⟩, hk⟩ := g
  exact ⟨fun _ => rfl, fun _ hc => hc, rfl, rfl, fun k hn _ => hk k fun hm => absurd (lt_of_mem_eventKeys hm) (by omega), fun _ => ⟨_, rfl⟩⟩

theorem Dev.OnlyOd.notifies {ks : List Nat} (g : a.OnlyOd b ks) (hks : ∀ k ∈ ks, k < 0x20000 * 256) : a.Notifies b := by
  obtain ⟨⟨od, rfl⟩, hs⟩ := g
  exact ⟨fun _ => rfl, fun _ hc => hc, rfl, rfl, fun k hk _ => hs k fun hm => absurd (hks k hm) (by omega), fun _ => ⟨_, rfl⟩⟩

/-- An object of a flue reads as before. -/
theorem Dev.Notifies.get (g : a.Notifies b) {o : ObjDef} (ho : 0x40000 ≤ o.base) (i e : Nat) : b.get o i e = a.get o i e := by
  simp only [Dev.get, g.objects (o.key i e) (by unfold ObjDef.key; omega) (.inr (by unfold ObjDef.key; omega))]

theorem Dev.Notifies.flueCfg (g : a.Notifies b) (f : Nat) : b.flueCfg f = a.flueCfg f := by
  simp only [Dev.flueCfg, g.get (o := Obj.FLUE_CFG) (by decide)]

theorem Dev.Notifies.line (g : a.Notifies b) (h l : Nat) : (b.hearth h).line l = (a.hearth h).line l := by
  obtain ⟨cs, hcs⟩ := g.hearths h
  rw [hcs]
  rfl

theorem Dev.Notifies.place (g : a.Notifies b) (h p : Nat) : (b.hearth h).place p = (a.hearth h).place p := by
  obtain ⟨cs, hcs⟩ := g.hearths h
  rw [hcs]
  rfl

theorem clockKey_lt {h : Nat} (hh : h < 1024) : clockKey h < 0x20000 * 256 := by
  simp only [clockKey, ObjDef.key, Obj.CLOCK_STATE, Kind.stride]
  omega

theorem Dev.toEdge_notifies {h : Nat} (hh : h < 1024) (r : EdgeReq) : d.Notifies (d.toEdge h r) := by
  obtain ⟨⟨od, edge, he⟩, hsame, -⟩ := d.toEdge_spec h r
  refine ⟨fun _ => by rw [he]; rfl, fun c hc => by rw [he]; exact hc, by rw [he], by rw [he], fun k hk _ => hsame k ?_, fun _ => ⟨_, by rw [he]; rfl⟩⟩
  have := clockKey_lt hh
  simp only [List.mem_singleton]
  omega

theorem Dev.counterNow_notifies (h c : Nat) : d.Notifies (d.counterNow h c) := by
  unfold Dev.counterNow Dev.absorbNotice
  split
  · refine ⟨fun _ => rfl, fun _ hc => hc, rfl, rfl, fun _ _ _ => rfl, fun k => ?_⟩
    by_cases hk : k = h
    · subst hk
      exact ⟨_, Dev.hearth_setHearth_self ..⟩
    · exact ⟨_, Dev.hearth_setHearth_ne d hk _⟩
  · split
    · exact (Dev.bump_onlyOd List.mem_cons_self).notifies (ks := [Obj.RESET_ABSORBED.key 0 0]) (by decide)
    · exact .refl d

theorem Dev.noticeCounter_notifies {h : Nat} (hh : h < 1024) (c : Nat) : d.Notifies (d.noticeCounter h c) := by
  unfold Dev.noticeCounter
  split
  · exact d.toEdge_notifies hh _
  · exact d.counterNow_notifies h c

theorem FlueCfg.home_lt {f : Nat} (hf : f < 65536) (w : Nat) : (FlueCfg.ofWord w).home f < 1024 := by
  simp only [FlueCfg.home, FlueCfg.ofWord, bits_eq]
  omega

theorem Dev.fillNoticeOf_notifies {f : Nat} (hf : f < 65536) (w : Nat) : d.Notifies (d.fillNoticeOf f (.ofWord w)) := by
  unfold Dev.fillNoticeOf
  split
  · exact d.noticeCounter_notifies (FlueCfg.home_lt hf w) _
  · exact .refl d

theorem Dev.fillNotice_notifies {f : Nat} (hf : f < 65536) : d.Notifies (d.fillNotice f) := d.fillNoticeOf_notifies hf _

theorem Dev.drainNoticeOf_notifies (c : FlueCfg) (p : Nat) : d.Notifies (d.drainNoticeOf c p) := by
  unfold Dev.drainNoticeOf
  extract_lets dst h
  have hh : h < 1024 := by
    simp only [h, bits_eq]
    omega
  split
  · exact .refl d
  · split
    · exact d.noticeCounter_notifies hh _
    · exact (d.sendAnswer_recorded _).notifies

theorem Dev.drainNotice_notifies (f : Nat) : d.Notifies (d.drainNotice f) := d.drainNoticeOf_notifies _ _

theorem Dev.flueEvent_notifies (f : Nat) (e : Ev) : d.Notifies (d.flueEvent f e) := (d.raise_recorded ..).notifies

/-- Without a step abort to report nothing is reported (R167). -/
theorem Dev.abortReport_none {c : Nat} (h : (d.ctx c).abortDue = none) : d.abortReport c = d := by
  rw [Dev.abortReport, h]

/-- The report of an abort is an event, after which none is due for the slot (R167). -/
theorem Dev.abortReport_notifies (c : Nat) : d.Notifies (d.abortReport c) := by
  unfold Dev.abortReport
  split
  · exact .refl d
  · split
    · exact .refl d
    · have hset : d.Notifies (d.setCtx c { d.ctx c with abortDue := none }) := by
        refine ⟨fun _ => rfl, fun k hk => ?_, rfl, rfl, fun _ _ _ => rfl, fun _ => ⟨_, rfl⟩⟩
        by_cases hkc : k = c
        · subst hkc
          exact congrArg Ctx.abortDue (Dev.ctx_setCtx_self ..)
        · rwa [Dev.ctx_setCtx_ne _ hkc]
      exact hset.trans (Dev.raise_recorded ..).notifies

/-- A flue that owes no reset is settled. -/
theorem Dev.flueSettle_notifies {f : Nat} (hdue : (d.flue f).due = false) : d.Notifies (d.flueSettle f) := by
  have hmod : d.Notifies (d.modFlue f Flue.settle) := by
    refine ⟨fun g => ?_, fun _ hc => hc, rfl, rfl, fun _ _ _ => rfl, fun _ => ⟨_, rfl⟩⟩
    by_cases hg : g = f
    · subst hg
      exact (Dev.flue_setFlue_self ..).trans (if_neg (by simp [hdue]))
    · exact Dev.flue_setFlue_ne d hg _
  exact hmod.trans (Dev.abortReport_notifies _)

end

/-! ### What an operation on a flue leaves as it was -/

/-- `d'` is `d` but for flue `f`, its counters, and what `Notifies` leaves open: its setting and its producer stand. -/
structure Dev.OnlyFlue (d d' : Dev) (f : Nat) : Prop where
  others : ∀ g, g ≠ f → d'.flue g = d.flue g
  reports : ∀ c, (d.ctx c).abortDue = none → (d'.ctx c).abortDue = none
  hbm : d'.hbm = d.hbm
  slow : d'.slow = d.slow
  cfg : d'.get Obj.FLUE_CFG f = d.get Obj.FLUE_CFG f
  peer : d'.get Obj.FLUE_PEER f = d.get Obj.FLUE_PEER f
  hearths : ∀ h, ∃ cs, d'.hearth h = { d.hearth h with counters := cs }

section
variable {a b d : Dev} {f : Nat}

theorem Dev.Notifies.onlyFlue (g : a.Notifies b) (f : Nat) : a.OnlyFlue b f :=
  ⟨fun k _ => g.flue k, g.reports, g.hbm, g.slow, g.get (by decide) f 0, g.get (by decide) f 0, g.hearths⟩

theorem Dev.OnlyFlue.trans (g : a.OnlyFlue b f) (h : b.OnlyFlue d f) : a.OnlyFlue d f where
  others k hk := (h.others k hk).trans (g.others k hk)
  reports c hc := h.reports c (g.reports c hc)
  hbm := h.hbm.trans g.hbm
  slow := h.slow.trans g.slow
  cfg := h.cfg.trans g.cfg
  peer := h.peer.trans g.peer
  hearths k := by
    obtain ⟨cs, hcs⟩ := g.hearths k
    obtain ⟨ds, hds⟩ := h.hearths k
    exact ⟨ds, by rw [hds, hcs]⟩

theorem Dev.OnlyFlue.flueCfg (g : a.OnlyFlue b f) : b.flueCfg f = a.flueCfg f := by simp only [Dev.flueCfg, g.cfg]

theorem Dev.OnlyFlue.line (g : a.OnlyFlue b f) (h l : Nat) : (b.hearth h).line l = (a.hearth h).line l := by
  obtain ⟨cs, hcs⟩ := g.hearths h
  rw [hcs]
  rfl

theorem Dev.OnlyFlue.place (g : a.OnlyFlue b f) (h p : Nat) : (b.hearth h).place p = (a.hearth h).place p := by
  obtain ⟨cs, hcs⟩ := g.hearths h
  rw [hcs]
  rfl

theorem Dev.OnlyFlue.noAbort (g : a.OnlyFlue b f) (h : (a.ctx (a.flueCfg f).ctx).abortDue = none) :
    (b.ctx (b.flueCfg f).ctx).abortDue = none := by
  rw [g.flueCfg]
  exact g.reports _ h

@[simp] theorem Dev.flue_modFlue (d : Dev) (f : Nat) (g : Flue → Flue) : (d.modFlue f g).flue f = g (d.flue f) := Dev.flue_setFlue_self ..

theorem Dev.modFlue_onlyFlue (d : Dev) (f : Nat) (g : Flue → Flue) : d.OnlyFlue (d.modFlue f g) f :=
  ⟨fun _ hk => Dev.flue_setFlue_ne d hk _, fun _ hc => hc, rfl, rfl, rfl, rfl, fun _ => ⟨_, rfl⟩⟩

/-- Objects of a flue that count. -/
def flueCounters : List ObjDef := [Obj.FLUE_ABSORBED, Obj.FLUE_BREACHES, Obj.FLUE_UNDERRUNS]

theorem flueKey_ne {o p : ObjDef} (h : o.base = p.base) (hk : o.kind = p.kind) (hlo : o.lo ≠ p.lo) (i : Nat) : o.key i 0 ≠ p.key i 0 := by
  simp only [ObjDef.key, h, hk]
  omega

theorem Dev.bump_onlyFlue {o : ObjDef} (ho : o ∈ flueCounters) (n : Nat) : d.OnlyFlue (d.bump o f n) f := by
  have hod := Dev.bump_onlyOd (d := d) (n := n) (List.mem_singleton_self (o.key f 0))
  have hne : ∀ p ∈ [Obj.FLUE_CFG, Obj.FLUE_PEER], p.key f 0 ≠ o.key f 0 := by
    intro p hp
    have hdist : ∀ o ∈ flueCounters, ∀ p ∈ [Obj.FLUE_CFG, Obj.FLUE_PEER], p.base = o.base ∧ p.kind = o.kind ∧ p.lo ≠ o.lo := by decide
    obtain ⟨hbase, hkind, hlo⟩ := hdist o ho p hp
    exact flueKey_ne hbase hkind hlo f
  have hcfg : (d.bump o f n).get Obj.FLUE_CFG f = d.get Obj.FLUE_CFG f := hod.get (by simpa using hne _ (by simp))
  have hpeer : (d.bump o f n).get Obj.FLUE_PEER f = d.get Obj.FLUE_PEER f := hod.get (by simpa using hne _ (by simp))
  obtain ⟨⟨od, he⟩, -⟩ := hod
  exact ⟨fun _ _ => by rw [he]; rfl, fun c hc => by rw [he]; exact hc, by rw [he], by rw [he], hcfg, hpeer, fun _ => ⟨_, by rw [he]; rfl⟩⟩

@[simp] theorem Dev.flue_bump (d : Dev) (o : ObjDef) (i n e g : Nat) : (d.bump o i n e).flue g = d.flue g := by
  unfold Dev.bump
  split <;> rfl

end

/-! ### A request at its slot (R162) -/

section
variable {d : Dev} {f w : Nat}

/-- Number of the slot that request `w` of a flue meets. -/
def Dev.slotAt (d : Dev) (f w : Nat) : Nat := w % (d.flueCfg f).slots

theorem Dev.flueWriteAt_accepted (hst : ((d.flue f).slot (d.slotAt f w)).st = .empty) (hp : ((d.flue f).slot (d.slotAt f w)).pending = false)
    (hlap : lapBit w (d.flueCfg f).slots ≠ ((d.flue f).slot (d.slotAt f w)).doneLap) :
    d.flueWriteAt f w = (d.modFlue f fun x => x.setSlot (d.slotAt f w) { (d.flue f).slot (d.slotAt f w) with pending := true },
      .accepted (d.slotAt f w)) := by
  unfold Dev.slotAt at *
  rw [Dev.flueWriteAt, if_pos ⟨hst, by simpa using hp⟩, if_pos hlap]

theorem Dev.flueWriteAt_dropped (hst : ((d.flue f).slot (d.slotAt f w)).st ≠ .empty) :
    d.flueWriteAt f w = ((((d.modFlue f fun x => x.setSlot (d.slotAt f w) { (d.flue f).slot (d.slotAt f w) with ash := true }).bump
      Obj.FLUE_BREACHES f).flueEvent f Event.scheduleBreach).fillNotice f, .dropped) := by
  unfold Dev.slotAt at *
  rw [Dev.flueWriteAt, if_neg fun h => hst h.1]

/-- Whatever a write request meets, it changes the flue's slots alone. -/
theorem Dev.flueWriteAt_spec (hf : f < 65536) (w : Nat) :
    d.OnlyFlue (d.flueWriteAt f w).1 f ∧ ∃ slots, (d.flueWriteAt f w).1.flue f = { d.flue f with slots := slots } := by
  simp only [Dev.flueWriteAt]
  split
  · split
    · dsimp only
      exact ⟨d.modFlue_onlyFlue f _, _, d.flue_modFlue f _⟩
    · have hn := (d.bump Obj.FLUE_ABSORBED f).fillNotice_notifies hf
      exact ⟨(Dev.bump_onlyFlue (by decide) 1).trans (hn.onlyFlue f), _, by rw [hn.flue, Dev.flue_bump]⟩
  · have hn := fun e : Dev => (e.flueEvent_notifies f Event.scheduleBreach).trans (Dev.fillNotice_notifies hf)
    exact ⟨((d.modFlue_onlyFlue f _).trans (Dev.bump_onlyFlue (by decide) 1)).trans ((hn _).onlyFlue f), _,
      ((hn _).flue f).trans ((Dev.flue_bump ..).trans (Dev.flue_modFlue ..))⟩

/-- A local write takes the flue's PUT, whatever comes of it (R160). -/
theorem Dev.flueWrite_spec (hf : f < 65536) :
    d.OnlyFlue (d.flueWrite f).1 f ∧
      ∃ slots, (d.flueWrite f).1.flue f = { d.flue f with put := (d.flue f).put + 1, slots := slots } := by
  obtain ⟨honly, slots, hslots⟩ :=
    (d.modFlue f fun x => { x with put := (d.flue f).put + 1 }).flueWriteAt_spec hf (d.flue f).put
  exact ⟨(d.modFlue_onlyFlue f _).trans honly, slots, by rw [Dev.flueWrite, hslots, Dev.flue_modFlue]⟩

/-- A read takes the flue's GET, whatever it meets (R160). -/
theorem Dev.flueRead_spec (d : Dev) (f : Nat) :
    d.OnlyFlue (d.flueRead f).1 f ∧ ∃ slots, (d.flueRead f).1.flue f = { d.flue f with get := (d.flue f).get + 1, slots := slots } := by
  simp only [Dev.flueRead]
  split
  · dsimp only
    exact ⟨(d.modFlue_onlyFlue f _).trans (Dev.modFlue_onlyFlue _ f _), _, by rw [Dev.flue_modFlue, Dev.flue_modFlue, Flue.setSlot]⟩
  · have hn := fun e : Dev => e.flueEvent_notifies f Event.slotUnderrun
    refine ⟨(((d.modFlue_onlyFlue f _).trans (Dev.modFlue_onlyFlue _ f _)).trans (Dev.bump_onlyFlue (by decide) 1)).trans
      ((hn _).onlyFlue f), _, ((hn _).flue f).trans ((Dev.flue_bump ..).trans ((Dev.flue_modFlue ..).trans
        (congrArg (Flue.setSlot · _ _) (Dev.flue_modFlue ..))))⟩

/-! ### The ends of copies -/

/-- The end of a write's copy, where the flue owes no reset: a slot that is still the write's is filled (R162, R163). -/
theorem Dev.flueFilled_spec (hf : f < 65536) (hdue : (d.flue f).due = false) (i : Nat) (stale : Bool) (cw : Nat) :
    d.OnlyFlue (d.flueFilled f i stale (.ofWord cw)) f ∧
      (d.flueFilled f i stale (.ofWord cw)).flue f =
        if stale then d.flue f else (d.flue f).setSlot i { (d.flue f).slot i with st := .filled, pending := false } := by
  have hstep : ∀ e : Dev, d.OnlyFlue e f → (e.flue f).due = false →
      d.OnlyFlue ((e.fillNoticeOf f (.ofWord cw)).flueSettle f) f ∧ ((e.fillNoticeOf f (.ofWord cw)).flueSettle f).flue f = e.flue f := by
    intro e he hdue
    have hn := e.fillNoticeOf_notifies hf cw
    have hs := Dev.flueSettle_notifies (f := f) (by rw [hn.flue, hdue])
    exact ⟨(he.trans (hn.onlyFlue f)).trans (hs.onlyFlue f), by rw [hs.flue, hn.flue]⟩
  cases stale with
  | true => exact hstep d ((Dev.Notifies.refl d).onlyFlue f) hdue
  | false =>
    obtain ⟨honly, hflue⟩ := hstep _ (d.modFlue_onlyFlue f fun x => x.setSlot i { x.slot i with st := .filled, pending := false })
      (by rw [Dev.flue_modFlue]; exact hdue)
    exact ⟨honly, hflue.trans (Dev.flue_modFlue ..)⟩

/-- The end of a read's copy, where the flue owes no reset: a slot that is still being drained is empty (R162, R163). -/
theorem Dev.flueDrained_spec (hdue : (d.flue f).due = false) (i : Nat) (stale : Bool) (c : FlueCfg)
    (peer : Nat) :
    d.OnlyFlue (d.flueDrained f i stale c peer) f ∧
      (d.flueDrained f i stale c peer).flue f =
        if stale || ((d.flue f).slot i).st ≠ .draining then d.flue f
        else (d.flue f).setSlot i { (d.flue f).slot i with st := .empty, ash := false } := by
  have hstep : ∀ e : Dev, d.OnlyFlue e f → (e.flue f).due = false →
      d.OnlyFlue ((e.drainNoticeOf c peer).flueSettle f) f ∧ ((e.drainNoticeOf c peer).flueSettle f).flue f = e.flue f := by
    intro e he hdue
    have hn := e.drainNoticeOf_notifies c peer
    have hs := Dev.flueSettle_notifies (f := f) (by rw [hn.flue, hdue])
    exact ⟨(he.trans (hn.onlyFlue f)).trans (hs.onlyFlue f), by rw [hs.flue, hn.flue]⟩
  simp only [Dev.flueDrained]
  split
  · exact hstep d ((Dev.Notifies.refl d).onlyFlue f) hdue
  · obtain ⟨honly, hflue⟩ := hstep _ (d.modFlue_onlyFlue f fun x => x.setSlot i { (d.flue f).slot i with st := .empty, ash := false })
      (by rw [Dev.flue_modFlue]; exact hdue)
    exact ⟨honly, hflue.trans (Dev.flue_modFlue ..)⟩

/-! ### FILL, DRAIN and RESET (R161, R166) -/

/-- The flue owes no reset, and no abort of its slot waits to be reported. -/
def Dev.FlueQuiet (d : Dev) (f : Nat) : Prop := (d.flue f).due = false ∧ (d.ctx (d.flueCfg f).ctx).abortDue = none

/-- One FILL advances PUT by one (R166). -/
theorem Dev.flueFillOnce_spec (hf : f < 65536) (hq : d.FlueQuiet f) :
    d.OnlyFlue (d.flueFillOnce f) f ∧ (d.flueFillOnce f).FlueQuiet f ∧ ((d.flueFillOnce f).flue f).put = (d.flue f).put + 1 := by
  obtain ⟨hdue, hab⟩ := hq
  obtain ⟨honly, slots, hslots⟩ := d.flueWrite_spec hf
  have hab' := honly.noAbort hab
  unfold Dev.flueFillOnce
  split
  · next e i he =>
    rw [he] at honly hslots hab'
    obtain ⟨hfilled, hflue⟩ := Dev.flueFilled_spec hf (by rw [hslots]; exact hdue) i false (e.get Obj.FLUE_CFG f)
    have hput : ((e.flueFilled f i false (e.flueCfg f)).flue f).put = (d.flue f).put + 1 := by
      rw [show e.flueCfg f = .ofWord (e.get Obj.FLUE_CFG f) from rfl, hflue, hslots]
      rfl
    have hdue' : ((e.flueFilled f i false (e.flueCfg f)).flue f).due = false := by
      rw [show e.flueCfg f = .ofWord (e.get Obj.FLUE_CFG f) from rfl, hflue, hslots]
      exact hdue
    exact ⟨honly.trans hfilled, ⟨hdue', (honly.trans hfilled).noAbort hab⟩, hput⟩
  · next e o _ he =>
    rw [he] at honly hslots hab'
    exact ⟨honly, ⟨by rw [hslots]; exact hdue, hab'⟩, by rw [hslots]⟩

/-- One DRAIN advances GET by one (R166). -/
theorem Dev.flueDrainOnce_spec (hq : d.FlueQuiet f) :
    d.OnlyFlue (d.flueDrainOnce f) f ∧ (d.flueDrainOnce f).FlueQuiet f ∧ ((d.flueDrainOnce f).flue f).get = (d.flue f).get + 1 := by
  obtain ⟨hdue, hab⟩ := hq
  obtain ⟨honly, slots, hslots⟩ := d.flueRead_spec f
  have hab' := honly.noAbort hab
  simp only [Dev.flueDrainOnce]
  generalize (d.flueRead f).1 = e at *
  have hdue' : (e.flue f).due = false := by rw [hslots]; exact hdue
  split
  · obtain ⟨hdrained, hflue⟩ := Dev.flueDrained_spec hdue' (d.flueRead f).2.1 false (e.flueCfg f) (e.get Obj.FLUE_PEER f)
    refine ⟨honly.trans hdrained, ⟨?_, (honly.trans hdrained).noAbort hab⟩, ?_⟩
    · rw [hflue, hslots]
      split <;> exact hdue
    · rw [hflue, hslots]
      split <;> rfl
  · have hn := e.drainNotice_notifies f
    exact ⟨honly.trans (hn.onlyFlue f), ⟨by rw [hn.flue, hdue'], (hn.onlyFlue f).noAbort hab'⟩, by rw [hn.flue, hslots]⟩

/-- What one step counts up by one, `n` steps count up by `n`. -/
theorem Dev.times_counts {once : Dev → Dev} {count : Flue → Nat}
    (hstep : ∀ e : Dev, e.FlueQuiet f → e.OnlyFlue (once e) f ∧ (once e).FlueQuiet f ∧ count ((once e).flue f) = count (e.flue f) + 1)
    (hq : d.FlueQuiet f) (n : Nat) :
    d.OnlyFlue (d.times n once) f ∧ (d.times n once).FlueQuiet f ∧ count ((d.times n once).flue f) = count (d.flue f) + n := by
  induction n with
  | zero => exact ⟨(Dev.Notifies.refl d).onlyFlue f, hq, rfl⟩
  | succ n ih =>
    obtain ⟨honly, hquiet, hcount⟩ := ih
    obtain ⟨sonly, squiet, scount⟩ := hstep _ hquiet
    have hsucc : d.times (n + 1) once = once (d.times n once) := by
      rw [Dev.times, List.range_succ, List.foldl_append]
      rfl
    rw [hsucc]
    exact ⟨honly.trans sonly, squiet, by omega⟩

/-- The word of a doorbell names its operation and its count (R166). -/
theorem flueBell_fields {op n : Nat} (hop : op < 16) (hn : n < 256) :
    bits (op * 2 ^ 60 + n * 2 ^ 52) 63 60 = op ∧ bits (op * 2 ^ 60 + n * 2 ^ 52) 59 52 = n := by
  simp only [bits_eq]
  omega

/-- The setting a write leaves fits its object (R158). -/
theorem flueCfgBits_lt {v : Nat} : flueCfgBits v < 2 ^ 64 := by
  unfold flueCfgBits
  simp only [bits_eq]
  split <;> omega

theorem Dev.inFlueRegion_of_serves {o : ObjDef} (hs : d.RegionServes (f / 4096) o f 0) (v : Nat) (g : Dev → Dev) :
    d.inFlueRegion f o v g = g d := by
  rw [Dev.inFlueRegion, Dev.gated_of_serves hs.1, Dev.inRegion_of_serves hs]

/-- The router accepts a request that wins its cycle (R162, R335). -/
theorem Dev.askFlue_won {who : Nat} {rivals : List (Fin 1046)} (hw : d.WinsFlue f who rivals) :
    ∃ arb, d.askFlue f who (rivals.map Fin.val) = ({ d with arb := arb }, true) :=
  ⟨tset 0 d.arb (arbFlue f) ((who + 1) % requesters), by rw [Dev.askFlue, Dev.grantTo, hw]; simp only [decide_true]⟩

theorem Dev.askFlue_lost {who w : Nat} {rivals : List Nat} (hw : rotPick requesters (tget 0 d.arb (arbFlue f)) (who :: rivals) = some w)
    (hne : w ≠ who) : ∃ arb, d.askFlue f who rivals = ({ d with arb := arb }, false) :=
  ⟨tset 0 d.arb (arbFlue f) ((w + 1) % requesters), by rw [Dev.askFlue, Dev.grantTo, hw]; simp only [hne, decide_false]⟩

/-- A doorbell that is served asks for its turn. -/
theorem Dev.cmdFlueBell_served {op n v : Nat} {u : Turn} (hs : d.RegionServes (f / 4096) Obj.FLUE_DOORBELL f 0)
    (hv : op * 2 ^ 60 + n * 2 ^ 52 = v) :
    d.cmdFlueBell f op n u = if (d.askFlue f u.who.val (u.rivals.map Fin.val)).2 then
      ((d.askFlue f u.who.val (u.rivals.map Fin.val)).1.flueDoorbell f v).1.answer
        ((d.askFlue f u.who.val (u.rivals.map Fin.val)).1.flueDoorbell f v).2
      else (d.askFlue f u.who.val (u.rivals.map Fin.val)).1 := by
  rw [Dev.cmdFlueBell, hv, Dev.inFlueRegion_of_serves hs]

theorem Dev.cmdFlueBell_won {op n v : Nat} {u : Turn} (hs : d.RegionServes (f / 4096) Obj.FLUE_DOORBELL f 0)
    (hv : op * 2 ^ 60 + n * 2 ^ 52 = v) (hw : d.WinsFlue f u.who.val u.rivals) :
    ∃ arb, d.cmdFlueBell f op n u =
      (({ d with arb := arb }).flueDoorbell f v).1.answer (({ d with arb := arb }).flueDoorbell f v).2 := by
  obtain ⟨arb, harb⟩ := Dev.askFlue_won hw
  exact ⟨arb, by rw [Dev.cmdFlueBell_served hs hv, harb, if_pos rfl]⟩

theorem Dev.cmdFlueBell_lost {op n w : Nat} {u : Turn} (hs : d.RegionServes (f / 4096) Obj.FLUE_DOORBELL f 0)
    (hw : rotPick requesters (tget 0 d.arb (arbFlue f)) (u.who.val :: u.rivals.map Fin.val) = some w) (hne : w ≠ u.who.val) :
    ∃ arb, d.cmdFlueBell f op n u = { d with arb := arb } := by
  obtain ⟨arb, harb⟩ := Dev.askFlue_lost hw hne
  exact ⟨arb, by rw [Dev.cmdFlueBell_served hs rfl, harb, if_neg Bool.false_ne_true]⟩

/-- FILL or DRAIN of an enabled flue that is no proxy and whose home is open (R166). -/
theorem Dev.flueBell_goes (hen : (d.flueCfg f).enable = true) (hpr : (d.flueCfg f).proxy = false) (ho : d.hearthOpen (d.flueHome f) = true)
    (n : Nat) (once : Dev → Dev) : d.flueBell f n once = (d.times n once, 0) := by
  simp [Dev.flueBell, hen, hpr, ho]

end

/-! ### The commands -/

/-- A write to FLUE_CFG of a flue that is not busy (R158, R161). -/
theorem State.flueCfgWritten {s : State} {f : Fin 65536} (hs : s.dev.RegionServes (f.val / 4096) Obj.FLUE_CFG f.val 0)
    (hab : (s.dev.ctx (s.dev.flueCfg f.val).ctx).abortDue = none) (hb : s.dev.flueBusy f.val = false) (v : Nat) :
    exec (.flueCfgWrite f v) s =
      .next { s with dev := ((s.dev.modFlue f.val Flue.reset).put Obj.FLUE_CFG (flueCfgBits v) f.val).answer 0 } := by
  refine State.onDev_next (f := fun d => d.inFlueRegion f.val Obj.FLUE_CFG v fun d =>
    (d.writeFlueCfg f.val v).1.answer (d.writeFlueCfg f.val v).2) ?_
  have hab' : (((s.dev.modFlue f.val Flue.reset).put Obj.FLUE_CFG (flueCfgBits v) f.val).ctx (s.dev.flueCfg f.val).ctx).abortDue = none := hab
  rw [Dev.inFlueRegion_of_serves hs, Dev.writeFlueCfg, if_neg (by simp [hb])]
  exact congrArg (fun e : Dev => e.answer 0) (Dev.abortReport_none hab')

/-- A write to FLUE_CFG of a busy flue (R171). -/
theorem State.flueCfgRefused {s : State} {f : Fin 65536} (hs : s.dev.RegionServes (f.val / 4096) Obj.FLUE_CFG f.val 0)
    (hb : s.dev.flueBusy f.val = true) (v : Nat) : exec (.flueCfgWrite f v) s = .next { s with dev := s.dev.answer 3 } := by
  refine State.onDev_next (f := fun d => d.inFlueRegion f.val Obj.FLUE_CFG v fun d =>
    (d.writeFlueCfg f.val v).1.answer (d.writeFlueCfg f.val v).2) ?_
  rw [Dev.inFlueRegion_of_serves hs, Dev.writeFlueCfg, if_pos hb]

/-- RESET of a doorbell that has its turn (R161). -/
theorem State.flueReset_done {s : State} {f : Fin 65536} {u : Turn} (hs : s.dev.RegionServes (f.val / 4096) Obj.FLUE_DOORBELL f.val 0)
    (hab : (s.dev.ctx (s.dev.flueCfg f.val).ctx).abortDue = none) (hw : s.dev.WinsFlue f.val u.who.val u.rivals) :
    ∃ arb, exec (.flueReset f u) s = .next { s with dev := (({ s.dev with arb := arb }).modFlue f.val Flue.reset).answer 0 } := by
  obtain ⟨arb, harb⟩ := Dev.cmdFlueBell_won (op := 3) (n := 0) hs rfl hw
  refine ⟨arb, State.onDev_next (f := fun d => d.cmdFlueBell f.val 3 0 u) (harb.trans ?_)⟩
  have hab' : ((({ s.dev with arb := arb }).modFlue f.val Flue.reset).ctx (s.dev.flueCfg f.val).ctx).abortDue = none := hab
  rw [Dev.flueDoorbell, (flueBell_fields (op := 3) (n := 0) (by decide) (by decide)).1]
  exact congrArg (fun e : Dev => e.answer 0) (Dev.abortReport_none hab')

/-- FILL of a doorbell that has its turn (R166). -/
theorem State.flueFill_done {s : State} {f : Fin 65536} {u : Turn} (hs : s.dev.RegionServes (f.val / 4096) Obj.FLUE_DOORBELL f.val 0)
    (hw : s.dev.WinsFlue f.val u.who.val u.rivals) (hen : (s.dev.flueCfg f.val).enable = true)
    (hpr : (s.dev.flueCfg f.val).proxy = false) (ho : s.dev.hearthOpen (s.dev.flueHome f.val) = true) (n : Fin 256) :
    ∃ arb, exec (.flueFill f n u) s =
      .next { s with dev := (({ s.dev with arb := arb }).times (n.val + 1) fun d => d.flueFillOnce f.val).answer 0 } := by
  obtain ⟨arb, harb⟩ := Dev.cmdFlueBell_won (op := 1) (n := n.val) hs rfl hw
  refine ⟨arb, State.onDev_next (f := fun d => d.cmdFlueBell f.val 1 n.val u) (harb.trans ?_)⟩
  obtain ⟨hop, hn⟩ := flueBell_fields (op := 1) (n := n.val) (by decide) n.isLt
  rw [Dev.flueDoorbell, hop, hn]
  exact congrArg (fun r : Dev × Nat => r.1.answer r.2) (Dev.flueBell_goes (d := { s.dev with arb := arb }) hen hpr ho (n.val + 1) _)

/-- DRAIN of a doorbell that has its turn (R166). -/
theorem State.flueDrain_done {s : State} {f : Fin 65536} {u : Turn} (hs : s.dev.RegionServes (f.val / 4096) Obj.FLUE_DOORBELL f.val 0)
    (hw : s.dev.WinsFlue f.val u.who.val u.rivals) (hen : (s.dev.flueCfg f.val).enable = true)
    (hpr : (s.dev.flueCfg f.val).proxy = false) (ho : s.dev.hearthOpen (s.dev.flueHome f.val) = true) (n : Fin 256) :
    ∃ arb, exec (.flueDrain f n u) s =
      .next { s with dev := (({ s.dev with arb := arb }).times (n.val + 1) fun d => d.flueDrainOnce f.val).answer 0 } := by
  obtain ⟨arb, harb⟩ := Dev.cmdFlueBell_won (op := 2) (n := n.val) hs rfl hw
  refine ⟨arb, State.onDev_next (f := fun d => d.cmdFlueBell f.val 2 n.val u) (harb.trans ?_)⟩
  obtain ⟨hop, hn⟩ := flueBell_fields (op := 2) (n := n.val) (by decide) n.isLt
  rw [Dev.flueDoorbell, hop, hn]
  exact congrArg (fun r : Dev × Nat => r.1.answer r.2) (Dev.flueBell_goes (d := { s.dev with arb := arb }) hen hpr ho (n.val + 1) _)

/-- Settles O16. -/
theorem flueCfgAndDoorbellsSetTheFlue : Obligations.FlueCfgAndDoorbellsSetTheFlue := by
  refine ⟨fun s f hs hab => ⟨fun v _ hb => ?_, fun v hb => ?_⟩, fun s f u hs hab hw => ⟨?_, fun n hen hpr ho hdue => ⟨?_, ?_⟩⟩,
    fun s f u w hs hw hne => ?_⟩
  · refine ⟨_, State.flueCfgWritten hs hab hb v, ?_⟩
    have hflue : (s.dev.modFlue f.val Flue.reset).flue f.val = (s.dev.flue f.val).reset := Dev.flue_modFlue ..
    refine ⟨?_, congrArg Flue.put hflue, congrArg Flue.get hflue, fun i => congrArg (Flue.slot · i) hflue, rfl,
      (s.dev.modFlue_onlyFlue f.val _).others, rfl, ?_⟩
    · exact (Dev.get_put_self ..).trans (Nat.mod_eq_of_lt flueCfgBits_lt)
    · exact (Dev.put_onlyOd (d := s.dev.modFlue f.val Flue.reset) List.mem_cons_self).2
  · exact ⟨_, State.flueCfgRefused hs hb v, rfl, State.onlyObjects_answer (.same ..) 3 0 []⟩
  · obtain ⟨arb, hexec⟩ := State.flueReset_done hs hab hw
    have hflue : (({ s.dev with arb := arb }).modFlue f.val Flue.reset).flue f.val = (s.dev.flue f.val).reset := Dev.flue_modFlue ..
    exact ⟨_, hexec, congrArg Flue.put hflue, congrArg Flue.get hflue, fun i => congrArg (Flue.slot · i) hflue, rfl,
      (Dev.modFlue_onlyFlue { s.dev with arb := arb } f.val _).others, rfl⟩
  · obtain ⟨arb, hexec⟩ := State.flueFill_done hs hw hen hpr ho n
    obtain ⟨honly, -, hput⟩ := Dev.times_counts (d := { s.dev with arb := arb }) (count := Flue.put)
      (fun e => Dev.flueFillOnce_spec f.isLt) ⟨hdue, hab⟩ (n.val + 1)
    exact ⟨_, hexec, hput, rfl, honly.others, honly.hbm, honly.slow, rfl, rfl⟩
  · obtain ⟨arb, hexec⟩ := State.flueDrain_done hs hw hen hpr ho n
    obtain ⟨honly, -, hget⟩ := Dev.times_counts (d := { s.dev with arb := arb }) (count := Flue.get)
      (fun e => Dev.flueDrainOnce_spec) ⟨hdue, hab⟩ (n.val + 1)
    exact ⟨_, hexec, hget, rfl, honly.others, honly.hbm, honly.slow, rfl, rfl⟩
  · obtain ⟨arb, harb⟩ := Dev.cmdFlueBell_lost (op := 3) (n := 0) hs hw hne
    exact ⟨_, State.onDev_next (f := fun d => d.cmdFlueBell f.val 3 0 u) harb, rfl⟩

end Sys2Proof.Machine
end

section
/-! FLUE entries and the ends of slot copies (R160 to R163). -/

namespace Sys2Proof.Machine

/-! ### Runs of lines -/

/-- Lines of different numbers are different lines. -/
theorem Hearth.line_setLine_ne (x : Hearth) {l j : Nat} (h : j % 32768 ≠ l % 32768) (v : Line) : (x.setLine l v).line j = x.line j := by
  have hbytes : readCells 0 (x.setLine l v).scr (64 * (j % 32768)) 64 = readCells 0 x.scr (64 * (j % 32768)) 64 := by
    unfold readCells
    refine List.map_congr_left fun i hi => ?_
    rw [List.mem_range] at hi
    rw [Hearth.setLine, tget_writeCells, if_neg (by rw [fit_length]; omega)]
  rw [Hearth.line, hbytes, Hearth.setLine, tget_tset_ne _ h]
  rfl

/-- `put` writes one line of hearth `h`. -/
def PutsLine (h : Nat) (put : Dev → Nat → Line → Dev) : Prop :=
  ∀ (d : Dev) (l : Nat) (v : Line), ((put d l v).hearth h).line l = ⟨fit 0 64 v.bytes, v.ash⟩ ∧
    ∀ j, j % 32768 ≠ l % 32768 → ((put d l v).hearth h).line j = (d.hearth h).line j

theorem putsLine_setLine (h : Nat) : PutsLine h fun d l v => d.modHearth h fun x => x.setLine l v := fun _ l v =>
  ⟨(congrArg (Hearth.line · l) (Dev.hearth_setHearth_self ..)).trans (Hearth.line_setLine ..),
    fun j hj => (congrArg (Hearth.line · j) (Dev.hearth_setHearth_self ..)).trans (Hearth.line_setLine_ne _ hj v)⟩

theorem Dev.line_countAshLine (d : Dev) (h n l : Nat) : ((d.countAshLine h n).hearth h).line l = (d.hearth h).line l :=
  Hearth.line_of_unnoted (d.countAshLine_works h n).hearth l

theorem putsLine_ownLine (h : Nat) : PutsLine h fun d l v => d.ownLine h l v := by
  refine fun d l v => ⟨(d.ownLine_spec h l v).1, fun j hj => ?_⟩
  have hset := (putsLine_setLine h d l v).2 j hj
  beta_reduce
  rw [Dev.ownLine]
  split
  · exact (Dev.line_countAshLine ..).trans hset
  · exact hset

/-- A run of up to 32,768 lines reads as it was written. -/
theorem Dev.line_foldl_range {h : Nat} {put : Dev → Nat → Line → Dev} (hput : PutsLine h put) (g : Nat → Line) (l : Nat) (d : Dev) {n k : Nat}
    (hn : n ≤ 32768) (hk : k < n) :
    (((List.range n).foldl (fun d k => put d (l + k) (g k)) d).hearth h).line (l + k) = ⟨fit 0 64 (g k).bytes, (g k).ash⟩ := by
  induction n with
  | zero => omega
  | succ n ih =>
    rw [List.range_succ, List.foldl_append]
    obtain ⟨hself, hother⟩ := hput ((List.range n).foldl (fun d k => put d (l + k) (g k)) d) (l + n) (g n)
    rcases Nat.lt_succ_iff_lt_or_eq.mp hk with hlt | rfl
    · exact (hother _ (by omega)).trans (ih (by omega) hlt)
    · exact hself

theorem foldl_zipIdx {α β : Type} (u : β → α × Nat → β) (x : α) (l : List α) (b : β) :
    l.zipIdx.foldl u b = (List.range l.length).foldl (fun b k => u b (l.getD k x, k)) b := by
  have hmap : l.zipIdx = (List.range l.length).map fun k => (l.getD k x, k) :=
    List.ext_getElem (by simp) fun i hi _ => by simp at hi; simp [hi]
  rw [hmap, List.foldl_map]

theorem Dev.line_foldl_zipIdx {h : Nat} {put : Dev → Nat → Line → Dev} (hput : PutsLine h put) {data : List Line} (hn : data.length ≤ 32768)
    (l : Nat) (d : Dev) {k : Nat} {v : Line} (hk : data[k]? = some v) :
    ((data.zipIdx.foldl (fun d v => put d (l + v.2) v.1) d).hearth h).line (l + k) = ⟨fit 0 64 v.bytes, v.ash⟩ := by
  obtain ⟨hlt, hv⟩ := List.getElem?_eq_some_iff.mp hk
  rw [foldl_zipIdx _ Line.zerosAsh, Dev.line_foldl_range hput (fun k => data.getD k Line.zerosAsh) l d hn hlt, List.getD_eq_getElem _ _ hlt, hv]

/-! ### What a FLUE entry's hearth does of its own -/

/-- Objects of a hearth that count while its FLUE entries fire and their lines move. -/
def flueWork : List ObjDef :=
  unitCounters ++ [Obj.ENTRIES_FIRED, Obj.EGRESS_HOLD_CYCLES, Obj.STREAM_BYTES_IN, Obj.STREAM_BYTES_OUT]

/-- `d'` is `d` but for what such work changes: the hearth's places and its part of the step stand. -/
structure Dev.FlueWorks (h : Nat) (d d' : Dev) : Prop where
  only : d.OnlyHearth d' h (flueWork.map (·.key h 0))
  places : (d'.hearth h).places = (d.hearth h).places
  run : (d'.hearth h).run = (d.hearth h).run

section
variable {h : Nat} {a b d d' : Dev}

theorem Dev.FlueWorks.trans (g : a.FlueWorks h b) (k : b.FlueWorks h d) : a.FlueWorks h d :=
  ⟨g.only.trans k.only, k.places.trans g.places, k.run.trans g.run⟩

theorem Dev.FlueWorks.refl (h : Nat) (d : Dev) : d.FlueWorks h d := ⟨.refl .., rfl, rfl⟩

theorem Dev.FlueWorks.of_control (g : a.OnlyHearth b h (flueWork.map (·.key h 0))) (k : (b.hearth h).control = (a.hearth h).control) :
    a.FlueWorks h b := ⟨g, congrArg (fun x => x.places) k, congrArg (fun x => x.run) k⟩

theorem Dev.FlueWorks.bump {o : ObjDef} (ho : o ∈ flueWork) (n : Nat) : d.FlueWorks h (d.bump o h n) :=
  .of_control (.bump (List.mem_map.mpr ⟨o, ho, rfl⟩)) (congrArg Hearth.control (Dev.hearth_bump ..))

theorem Dev.FlueWorks.foldl {ι : Type} {l : List ι} {u : Dev → ι → Dev} (hu : ∀ (a : Dev) i, a.FlueWorks h (u a i)) (d : Dev) :
    d.FlueWorks h (l.foldl u d) := by
  induction l generalizing d with
  | nil => exact .refl ..
  | cons i l ih => exact (hu d i).trans (ih _)

theorem Dev.FlueWorks.modHearth (d : Dev) {u : Hearth → Hearth} (hp : (u (d.hearth h)).places = (d.hearth h).places)
    (hr : (u (d.hearth h)).run = (d.hearth h).run) : d.FlueWorks h (d.modHearth h u) :=
  ⟨.modHearth .., by rw [Dev.modHearth, Dev.hearth_setHearth_self, hp], by rw [Dev.modHearth, Dev.hearth_setHearth_self, hr]⟩

theorem Dev.raiseOnce_flueWorks (d : Dev) (h key : Nat) (e : Ev) (det : Nat) : d.FlueWorks h (d.raiseOnce h key e det) :=
  .of_control (d.raiseOnce_onlyHearth h key e det _) (d.raiseOnce_works h key e det).control.hearth

theorem Dev.ownLine_flueWorks (d : Dev) (h l : Nat) (v : Line) : d.FlueWorks h (d.ownLine h l v) := by
  have hset : d.FlueWorks h (d.modHearth h fun x => x.setLine l v) := .modHearth d rfl rfl
  unfold Dev.ownLine Dev.countAshLine
  split
  · split
    · exact hset
    · exact (hset.trans (.bump (by decide) 1)).trans (Dev.raiseOnce_flueWorks ..)
  · exact hset

theorem Dev.flueDeliver_flueWorks (d : Dev) (h l : Nat) (ls : List Line) : d.FlueWorks h (d.flueDeliver h l ls) :=
  .trans (.foldl (fun a (v : Line × Nat) => a.ownLine_flueWorks h (l + v.2) v.1) d) (.bump (o := Obj.STREAM_BYTES_IN) (by decide) _)

theorem Dev.meetSram_flueWorks (d : Dev) (h : Nat) (errs : List (Nat × SramOutcome)) : d.FlueWorks h (d.meetSram h errs) := by
  have hcount : d.FlueWorks h (d.countSram h (· / 8) errs) := by
    unfold Dev.countSram
    extract_lets u e
    have he : d.FlueWorks h e := .trans (.bump (by decide) _) (.bump (by decide) _)
    split
    · exact he
    · exact he.trans (Dev.raiseOnce_flueWorks ..)
  refine hcount.trans (.foldl (fun a e => ?_) _)
  have hset : a.FlueWorks h (a.modHearth h fun x => x.setPart (8 * e.1 % scrBytes)
      ((List.range 8).map fun i => BitVec.ofNat 8 (Config.free 22 (a.free + i))) true) := .modHearth a rfl rfl
  exact ⟨⟨hset.only.hbm, hset.only.slow, hset.only.hearths, hset.only.objects, hset.only.flues, hset.only.stks, hset.only.stokers,
    hset.only.ports, hset.only.ctxs⟩, hset.places, hset.run⟩

theorem Dev.fired_flueWorks (d : Dev) (h : Nat) (e : WEntry) (held : Bool) (ranges : List (Nat × Nat) × List (Nat × Nat)) :
    d.FlueWorks h (d.fired h e held ranges) :=
  ⟨(d.fired_onlyHearth h e held ranges).mono (List.cons_subset.mpr ⟨List.mem_map.mpr ⟨Obj.ENTRIES_FIRED, by decide, rfl⟩,
      List.cons_subset.mpr ⟨List.mem_map.mpr ⟨Obj.EGRESS_HOLD_CYCLES, by decide, rfl⟩, List.nil_subset _⟩⟩),
    by rw [Dev.hearth_fired], by rw [Dev.hearth_fired]⟩

theorem flueWork_ofHearth : ∀ o ∈ flueWork, o.OfHearth ∧ (o.base ≠ Obj.HEARTH_STATE.base ∨ o.lo ≠ Obj.HEARTH_STATE.lo) := by decide

/-- Which hearths are open does not depend on such work. -/
theorem Dev.FlueWorks.hearthOpen (g : d.FlueWorks h d') (k : Nat) : d'.hearthOpen k = d.hearthOpen k := by
  have hstate : d'.hState k = d.hState k := by
    refine g.only.get ?_ (hearthKey_not_event (by decide) k)
    rw [List.mem_map]
    rintro ⟨o, ho, hkey⟩
    obtain ⟨hof, hne⟩ := flueWork_ofHearth o ho
    exact hearthKey_ne hof (by decide) (hne.imp_right .inl) hkey
  simp only [Dev.hearthOpen, hstate]

/-- An object of a flue reads as before. -/
theorem Dev.FlueWorks.get (g : d.FlueWorks h d') (hh : h < 1024) {o : ObjDef} (ho : 0x40000 ≤ o.base) (i : Nat) : d'.get o i = d.get o i := by
  have hkey : 0x40000 * 256 ≤ o.key i 0 := by unfold ObjDef.key; omega
  refine g.only.get ?_ fun hm => ?_
  · rw [List.mem_map]
    rintro ⟨p, hp, hk⟩
    have := hearthKey_lt (flueWork_ofHearth p hp).1 hh
    omega
  · have := lt_of_mem_eventKeys hm
    omega

theorem Dev.FlueWorks.flue (g : d.FlueWorks h d') (f : Nat) : d'.flue f = d.flue f := congrArg (tget Flue.fresh · f) g.only.flues

theorem Dev.FlueWorks.place (g : d.FlueWorks h d') (p : Nat) : (d'.hearth h).place p = (d.hearth h).place p :=
  congrArg (tget none · p) g.places

theorem Dev.FlueWorks.freePlace (g : d.FlueWorks h d') : (d'.hearth h).freePlace = (d.hearth h).freePlace := by
  simp only [Hearth.freePlace, g.place]

theorem Dev.FlueWorks.hearthCtx (g : d.FlueWorks h d') : d'.hearthCtx h = d.hearthCtx h := by rw [Dev.hearthCtx, g.run, Dev.hearthCtx]

theorem Dev.FlueWorks.flueCfg (g : d.FlueWorks h d') (hh : h < 1024) (f : Nat) : d'.flueCfg f = d.flueCfg f := by
  simp only [Dev.flueCfg, g.get hh (o := Obj.FLUE_CFG) (by decide)]

theorem Dev.FlueWorks.flueHome (g : d.FlueWorks h d') (hh : h < 1024) (f : Nat) : d'.flueHome f = d.flueHome f := by
  simp only [Dev.flueHome, g.flueCfg hh]

end

/-! ### A FLUE entry's turn at the router (R162, R335) -/

section
variable {d : Dev} {h fop f : Nat} {e : WEntry} {rivals : List (Fin 1046)}

/-- The scan does not look at the pointers of the arbiters. -/
theorem Dev.scanFrom_arb (d : Dev) (arb : Tab Nat) (h : Nat) (w : List WEntry) (older held : Bool) :
    ({ d with arb := arb } : Dev).scanFrom h w older held = d.scanFrom h w older held := by
  induction w generalizing older held with
  | nil => rfl
  | cons e w ih =>
    have hone : ({ d with arb := arb } : Dev).scanOne h e older = d.scanOne h e older := rfl
    simp only [Dev.scanFrom, hone, ih]

theorem Dev.Fires.arb {k : EKind} (hF : d.Fires h k e) (arb : Tab Nat) : ({ d with arb := arb } : Dev).Fires h k e := by
  obtain ⟨hmay, hscan, hkind, hdesc, htouch⟩ := hF
  exact ⟨hmay, (congrArg Prod.fst (Dev.scanFrom_arb ..)).trans hscan, hkind, hdesc, htouch⟩

/-- A command that wants what the scan picks fires it, whatever else it would want. -/
theorem Dev.fireIf_congr {want want' : WEntry → Bool} (hscan : (d.scanFrom h (d.hearth h).window false false).1 = some e)
    (hwant : want e = want' e) (fire : Dev → WEntry → Dev) : d.fireIf h want fire = d.fireIf h want' fire := by
  obtain ⟨held, hpair⟩ : ∃ held, d.scanFrom h (d.hearth h).window false false = (some e, held) := ⟨_, Prod.ext hscan rfl⟩
  simp only [Dev.fireIf, hpair, hwant]

/-- A command that does not want what the scan picks leaves it, and counts what egress holds (R108). -/
theorem Dev.fireIf_unwanted {want : WEntry → Bool} (hmay : d.mayFire h = true)
    (hscan : (d.scanFrom h (d.hearth h).window false false).1 = some e) (hwant : want e = false) (fire : Dev → WEntry → Dev) :
    ∃ held, d.fireIf h want fire = if held = true then d.bump Obj.EGRESS_HOLD_CYCLES h else d := by
  obtain ⟨held, hpair⟩ : ∃ held, d.scanFrom h (d.hearth h).window false false = (some e, held) := ⟨_, Prod.ext hscan rfl⟩
  refine ⟨held, ?_⟩
  simp only [Dev.fireIf, hmay, hpair, hwant, Bool.not_true, Bool.false_eq_true, if_false, Bool.not_false, if_true]

theorem Dev.flueNext_eq (hF : d.Fires h .flue e) (hop : (FlueBody.ofWord e.raw).fop = fop) : d.flueNext h fop = some e := by
  obtain ⟨hmay, hscan, hkind, -, -⟩ := hF
  simp [Dev.flueNext, hmay, hscan, Option.filter, hkind, hop]

/-- A FLUE entry that the scan picks and the router accepts fires. -/
theorem Dev.fireFlue_won (hF : d.Fires h .flue e) (hop : (FlueBody.ofWord e.raw).fop = fop)
    (hf : f = (FlueBody.ofWord e.raw).number e.i e.t) (hawake : f / 4096 = h / 64 ∨ d.flueSleeps f = false) (hw : d.WinsFlue f h rivals)
    (fire : Dev → WEntry → Dev) :
    ∃ d' e', d.FlueWorks h d' ∧ e'.id = e.id ∧ FlueBody.ofWord e'.raw = FlueBody.ofWord e.raw ∧ e'.i = e.i ∧ e'.t = e.t ∧
      d.fireFlue h fop (rivals.map Fin.val) fire = fire d' e' := by
  obtain ⟨arb, harb⟩ := Dev.askFlue_won hw
  have hnowait : ¬ ((f / 4096 ≠ h / 64) && d.flueSleeps f) = true := by
    rcases hawake with he | hs
    · simp [he]
    · simp [hs]
  obtain ⟨held, ranges, hfire⟩ := Dev.fireIf_fires (hF.arb arb) fire
  have hturn : d.fireFlue h fop (rivals.map Fin.val) fire =
      ({ d with arb := arb } : Dev).fireIf h (fun e => true && e.kind = EKind.flue && (FlueBody.ofWord e.raw).fop = fop) fire := by
    simp only [Dev.fireFlue, Dev.flueNext_eq hF hop, ← hf]
    rw [if_neg hnowait, harb]
  have hsame := Dev.fireIf_congr (d := { d with arb := arb }) (want := fun e => true && e.kind = EKind.flue && (FlueBody.ofWord e.raw).fop = fop)
    (want' := fun e => e.kind = EKind.flue) (hF.arb arb).2.1 (by simp [hop]) fire
  have hfired := Dev.fired_flueWorks { d with arb := arb } h e held ranges
  refine ⟨_, (({ d with arb := arb } : Dev).hearth h).firedEntry e ranges,
    ⟨⟨hfired.only.hbm, hfired.only.slow, hfired.only.hearths, hfired.only.objects, hfired.only.flues, hfired.only.stks,
    hfired.only.stokers, hfired.only.ports, hfired.only.ctxs⟩, hfired.places, hfired.run⟩, rfl, rfl, rfl, rfl, hturn.trans (hsame.trans hfire)⟩

/-- A FLUE entry that loses its cycle to a rival does not fire. -/
theorem Dev.fireFlue_lost {w : Nat} (hF : d.Fires h .flue e) (hop : (FlueBody.ofWord e.raw).fop = fop)
    (hf : f = (FlueBody.ofWord e.raw).number e.i e.t) (hawake : f / 4096 = h / 64 ∨ d.flueSleeps f = false)
    (hw : rotPick requesters (tget 0 d.arb (arbFlue f)) (h :: rivals.map Fin.val) = some w) (hne : w ≠ h) (fire : Dev → WEntry → Dev) :
    ∃ arb held, d.fireFlue h fop (rivals.map Fin.val) fire =
      if held = true then ({ d with arb := arb } : Dev).bump Obj.EGRESS_HOLD_CYCLES h else { d with arb := arb } := by
  obtain ⟨arb, harb⟩ := Dev.askFlue_lost hw hne
  have hnowait : ¬ ((f / 4096 ≠ h / 64) && d.flueSleeps f) = true := by
    rcases hawake with he | hs
    · simp [he]
    · simp [hs]
  obtain ⟨hmay, hscan, -⟩ := hF.arb arb
  obtain ⟨held, hheld⟩ := Dev.fireIf_unwanted (d := { d with arb := arb })
    (want := fun e => false && e.kind = EKind.flue && (FlueBody.ofWord e.raw).fop = fop) hmay hscan rfl fire
  refine ⟨arb, held, ?_⟩
  simp only [Dev.fireFlue, Dev.flueNext_eq hF hop, ← hf]
  rw [if_neg hnowait, harb]
  exact hheld

end

/-! ### Requests at the home router (R160, R162) -/

section
variable {d d' : Dev} {h p f : Nat} {t : Transfer} {e : WEntry}

/-- A local write to a slot that is empty, not pending and on the lap expected is accepted. -/
theorem Dev.flueWrite_accepted {w i : Nat} (hw : (d.flue f).put = w) (hi : d.slotAt f w = i) (hst : ((d.flue f).slot i).st = .empty)
    (hp : ((d.flue f).slot i).pending = false) (hlap : lapBit w (d.flueCfg f).slots ≠ ((d.flue f).slot i).doneLap) :
    d.flueWrite f = ((d.modFlue f fun x => { x with put := w + 1 }).modFlue f fun x =>
      x.setSlot i { (d.flue f).slot i with pending := true }, .accepted i) := by
  subst hw hi
  have hslot : ((d.modFlue f fun x => { x with put := (d.flue f).put + 1 }).flue f).slot (d.slotAt f (d.flue f).put) =
      (d.flue f).slot (d.slotAt f (d.flue f).put) := by rw [Dev.flue_modFlue]; rfl
  rw [← hslot] at hst hp hlap ⊢
  exact Dev.flueWriteAt_accepted hst hp hlap

/-- A local write to a slot that is not empty marks it ash, and a breach is counted (R162). -/
theorem Dev.flueWrite_dropped {w i : Nat} (hw : (d.flue f).put = w) (hi : d.slotAt f w = i) (hst : ((d.flue f).slot i).st ≠ .empty) :
    d.flueWrite f = (((((d.modFlue f fun x => { x with put := w + 1 }).modFlue f fun x =>
      x.setSlot i { (d.flue f).slot i with ash := true }).bump Obj.FLUE_BREACHES f).flueEvent f Event.scheduleBreach).fillNotice f, .dropped) := by
  subst hw hi
  have hslot : ((d.modFlue f fun x => { x with put := (d.flue f).put + 1 }).flue f).slot (d.slotAt f (d.flue f).put) =
      (d.flue f).slot (d.slotAt f (d.flue f).put) := by rw [Dev.flue_modFlue]; rfl
  rw [← hslot] at hst ⊢
  exact Dev.flueWriteAt_dropped hst

theorem Dev.flueRead_filled {r i : Nat} (hr : (d.flue f).get = r) (hi : d.slotAt f r = i) (hst : ((d.flue f).slot i).st = .filled) :
    d.flueRead f = ((d.modFlue f fun x => { x with get := r + 1 }).modFlue f fun x =>
      x.setSlot i { (d.flue f).slot i with st := .draining, doneLap := lapBit r (d.flueCfg f).slots }, i, true, ((d.flue f).slot i).ash) := by
  subst hr hi
  unfold Dev.slotAt at *
  rw [Dev.flueRead, if_pos hst]

theorem Dev.flueRead_underrun {r i : Nat} (hr : (d.flue f).get = r) (hi : d.slotAt f r = i) (hst : ((d.flue f).slot i).st ≠ .filled) :
    d.flueRead f = ((((d.modFlue f fun x => { x with get := r + 1 }).modFlue f fun x =>
      x.setSlot i { (d.flue f).slot i with doneLap := lapBit r (d.flueCfg f).slots }).bump Obj.FLUE_UNDERRUNS f).flueEvent f
        Event.slotUnderrun, i, false, true) := by
  subst hr hi
  unfold Dev.slotAt at *
  rw [Dev.flueRead, if_neg hst]

/-- A write that the router does not call misused, to a flue that is no proxy, goes to the home router with the lines of its hearth. -/
theorem Dev.startFlueWrite_local (hp : (d.hearth h).freePlace = some p)
    (hf : f = (FlueBody.ofWord e.raw).number e.i e.t) (hmis : (d.flueCfg f).misused ((d.hearthCtx h).getD 0) = false)
    (hpr : (d.flueCfg f).proxy = false) (sram : List (Nat × SramOutcome)) :
    ∃ d' t ls, d.FlueWorks h d' ∧ t.id = e.id ∧ t.flue = some ⟨f, true⟩ ∧ t.done = false ∧
      d.startFlueWrite h e sram = d'.localFlueWrite h p f t ls := by
  have hread : d.FlueWorks h (d.readSram h e sram) := Dev.meetSram_flueWorks ..
  have hfire : d.FlueWorks h ((d.readSram h e sram).countFire h) := hread.trans (.modHearth _ rfl rfl)
  have hctx : ((d.readSram h e sram).flueTransfer h e (FlueBody.ofWord e.raw) f true).ctx = (d.hearthCtx h).getD 0 := by
    rw [← hread.hearthCtx]
    rfl
  refine ⟨_, (d.readSram h e sram).flueTransfer h e (FlueBody.ofWord e.raw) f true,
    (((d.readSram h e sram).countFire h).hearth h).lines ((FlueBody.ofWord e.raw).loc.line e.i e.t) (d.flueCfg f).lines,
    hfire.trans (.bump (o := Obj.STREAM_BYTES_OUT) (by decide) (64 * (d.flueCfg f).lines)), rfl, rfl, rfl, ?_⟩
  simp only [Dev.startFlueWrite, hp, ← hf, hctx, hmis, hpr, Bool.false_eq_true, if_false]
  rfl

/-- What is left of a read once it has taken the flue's GET: the lines of its buffer are met by what the code finds in them, and their copy
begins. -/
def beginRead (h p f n : Nat) (t : Transfer) (sram : List (Nat × SramOutcome)) (r : Dev × Nat × Bool × Bool) : Dev :=
  let buf := r.1.flueBuf f r.2.1
  let d := r.1.meetSram h (sram.filter fun w => decide (8 * buf ≤ w.1) && decide (w.1 < 8 * (buf + n)))
  let ls := ((d.hearth h).lines buf n).map fun l => ({ l with ash := l.ash || r.2.2.2 } : Line)
  (d.modFlue f fun x => { x with
    copies := x.copies ++ [⟨r.2.1, false, !r.2.2.1, h, p, t.line0, ls, d.get Obj.FLUE_CFG f, d.get Obj.FLUE_PEER f⟩] }).setPlace h p (some t)

theorem beginRead_spec (h p f n : Nat) (t : Transfer) (sram : List (Nat × SramOutcome)) (r : Dev × Nat × Bool × Bool) :
    ∃ d y, r.1.FlueWorks h d ∧ y.slot = r.2.1 ∧ y.write = false ∧ y.stale = (!r.2.2.1) ∧ y.hearth = h ∧ y.place = p ∧
      beginRead h p f n t sram r = (d.modFlue f fun x => { x with copies := x.copies ++ [y] }).setPlace h p (some t) :=
  ⟨_, _, Dev.meetSram_flueWorks .., rfl, rfl, rfl, rfl, rfl, rfl⟩

/-- A read at the flue's home, of a flue that is no proxy, that the router does not call misused takes the flue's GET. -/
theorem Dev.startFlueRead_home (hp : (d.hearth h).freePlace = some p) (hf : f = (FlueBody.ofWord e.raw).number e.i e.t)
    (hmis : (d.flueCfg f).misused ((d.hearthCtx h).getD 0) = false) (hpr : (d.flueCfg f).proxy = false) (hhome : h = d.flueHome f)
    (sram : List (Nat × SramOutcome)) :
    d.startFlueRead h e sram = beginRead h p f (d.flueCfg f).lines (d.flueTransfer h e (FlueBody.ofWord e.raw) f false) sram
      ((d.countFire h).flueRead f) := by
  have hctx : (d.flueTransfer h e (FlueBody.ofWord e.raw) f false).ctx = (d.hearthCtx h).getD 0 := rfl
  have hgo : (((d.flueCfg f).misused ((d.hearthCtx h).getD 0) || (d.flueCfg f).proxy) || h ≠ (d.countFire h).flueHome f) = false := by
    have hhome' : h = (d.countFire h).flueHome f := hhome
    simp [hmis, hpr, ← hhome']
  simp only [Dev.startFlueRead, hp, ← hf, hctx]
  rw [if_neg (Bool.eq_false_iff.mp hgo)]
  rfl

/-! ### The ends of slot copies (R162, R163) -/

theorem Dev.line_setPlace (d : Dev) (h p : Nat) (t : Option Transfer) (j l : Nat) : ((d.setPlace h p t).hearth j).line l = (d.hearth j).line l := by
  by_cases hj : j = h
  · subst hj
    rw [Dev.hearth_setPlace]
    rfl
  · rw [Dev.setPlace, Dev.modHearth, Dev.hearth_setHearth_ne _ hj]

/-- The operation of a FLUE entry that has ended marks its place, and that alone. -/
theorem Dev.flueDone_spec (d : Dev) (h p f : Nat) (w : Bool) :
    (d.flueDone h p f w).flues = d.flues ∧ (d.flueDone h p f w).hbm = d.hbm ∧ (d.flueDone h p f w).slow = d.slow ∧
      (∀ j l, ((d.flueDone h p f w).hearth j).line l = (d.hearth j).line l) ∧
      ∀ x, (d.hearth h).place p = some x → x.flue = some ⟨f, w⟩ → ((d.flueDone h p f w).hearth h).place p = some { x with done := true } := by
  unfold Dev.flueDone
  split
  · next t ht =>
    split
    · next hflue =>
      refine ⟨rfl, rfl, rfl, fun j l => Dev.line_setPlace .., fun x hx _ => ?_⟩
      obtain rfl : t = x := Option.some.inj (ht.symm.trans hx)
      exact Dev.place_setPlace ..
    · next hflue =>
      refine ⟨rfl, rfl, rfl, fun _ _ => rfl, fun x hx hxf => ?_⟩
      obtain rfl : t = x := Option.some.inj (ht.symm.trans hx)
      exact absurd hxf hflue
  · next hnone => exact ⟨rfl, rfl, rfl, fun _ _ => rfl, fun x hx _ => absurd (hnone.symm.trans hx) (by simp)⟩

theorem Flue.slot_setSlot (x : Flue) (i : Nat) (v : FSlot) : (x.setSlot i v).slot i = v := tget_tset_self ..

theorem Dev.takeCopy_some {slot : Nat} {write : Bool} {c : FCopy}
    (hc : (d.flue f).copies.find? (fun c => c.slot = slot && c.write = write) = some c) :
    d.takeCopy f slot write = some (d.modFlue f fun x => { x with copies := x.copies.erase c }, c) := by
  rw [Dev.takeCopy, hc]
  rfl

/-- While no reset of its home has drained, a write's copy lands as it stands (R413). -/
theorem Dev.foldl_copyLine (hd : d.hearthDrained h = false) (l : Nat) (data : List (Line × Nat)) :
    data.foldl (fun d v => d.copyLine h (l + v.2) v.1) d = data.foldl (fun d v => d.modHearth h fun x => x.setLine (l + v.2) v.1) d := by
  induction data generalizing d with
  | nil => rfl
  | cons v data ih =>
    have hone : d.copyLine h (l + v.2) v.1 = d.modHearth h fun x => x.setLine (l + v.2) v.1 := if_neg (by simp [hd])
    rw [List.foldl_cons, List.foldl_cons, hone]
    exact ih hd

theorem Dev.FlueWorks.place_any (g : d.FlueWorks h d') (j p : Nat) : (d'.hearth j).place p = (d.hearth j).place p := by
  by_cases hj : j = h
  · subst hj
    exact g.place p
  · rw [g.only.hearths j hj]

/-- A write's copy ends (R162, R163). -/
theorem Dev.cmdWriteCopyEnd_spec {i : Nat} {c : FCopy} (hf : f < 65536) (hdue : (d.flue f).due = false)
    (hc : (d.flue f).copies.find? (fun c => c.slot = i && c.write = true) = some c) (hstale : c.stale = false)
    (hlen : c.data.length ≤ 32768) (hd : d.hearthDrained ((FlueCfg.ofWord c.cfg).home f) = false) :
    (((d.cmdWriteCopyEnd f i).flue f).slot i).st = .filled ∧ (((d.cmdWriteCopyEnd f i).flue f).slot i).pending = false ∧
      ((d.cmdWriteCopyEnd f i).flue f).put = (d.flue f).put ∧
      (∀ k v, c.data[k]? = some v → ((d.cmdWriteCopyEnd f i).hearth ((FlueCfg.ofWord c.cfg).home f)).line (c.line + k) = ⟨fit 0 64 v.bytes, v.ash⟩) ∧
      (∀ x, (d.hearth c.hearth).place c.place = some x → x.flue = some ⟨f, true⟩ →
        ((d.cmdWriteCopyEnd f i).hearth c.hearth).place c.place = some { x with done := true }) ∧
      (∀ g, g ≠ f → (d.cmdWriteCopyEnd f i).flue g = d.flue g) ∧
      (d.cmdWriteCopyEnd f i).hbm = d.hbm ∧ (d.cmdWriteCopyEnd f i).slow = d.slow := by
  generalize hhome : (FlueCfg.ofWord c.cfg).home f = home at *
  generalize htaken : (d.modFlue f fun x => { x with copies := x.copies.erase c }) = d1
  generalize hrun : c.data.zipIdx.foldl (fun d v => d.modHearth home fun x => x.setLine (c.line + v.2) v.1) d1 = d2
  have hcmd : d.cmdWriteCopyEnd f i = (d2.flueFilled f i false (.ofWord c.cfg)).flueDone c.hearth c.place f true := by
    have hd1 : d1.hearthDrained home = false := by rw [← htaken]; exact hd
    simp only [Dev.cmdWriteCopyEnd, Dev.takeCopy_some hc, htaken, hhome, hstale, Dev.foldl_copyLine hd1, hrun]
  have htake : d.OnlyFlue d1 f := htaken ▸ d.modFlue_onlyFlue f _
  have hland : d1.FlueWorks home d2 := hrun ▸ .foldl (fun a (v : Line × Nat) => .modHearth a rfl rfl) d1
  have hline := fun k v (hk : c.data[k]? = some v) => Dev.line_foldl_zipIdx (putsLine_setLine home) hlen c.line d1 hk
  rw [hrun] at hline
  have hflue2 : d2.flue f = { d.flue f with copies := (d.flue f).copies.erase c } := by
    rw [hland.flue, ← htaken, Dev.flue_modFlue]
  obtain ⟨hfill, hfilled⟩ := Dev.flueFilled_spec hf (by rw [hflue2]; exact hdue) i false c.cfg
  obtain ⟨hflues, hhbm, hslow, hlines, hplace⟩ := (d2.flueFilled f i false (.ofWord c.cfg)).flueDone_spec c.hearth c.place f true
  have hflue : ∀ g, ((d2.flueFilled f i false (.ofWord c.cfg)).flueDone c.hearth c.place f true).flue g =
      (d2.flueFilled f i false (.ofWord c.cfg)).flue g := fun g => congrArg (tget Flue.fresh · g) hflues
  rw [hcmd, hflue, hfilled, if_neg Bool.false_ne_true, Flue.slot_setSlot]
  refine ⟨rfl, rfl, by rw [hflue2]; rfl, fun k v hk => ?_, fun x hx hxf => ?_, fun g hg => ?_, ?_, ?_⟩
  · rw [hlines, hfill.line]
    exact hline k v hk
  · refine hplace x ?_ hxf
    rw [hfill.place, hland.place_any, htake.place]
    exact hx
  · rw [hflue, hfill.others g hg, hland.flue, htake.others g hg]
  · rw [hhbm, hfill.hbm, hland.only.hbm, htake.hbm]
  · rw [hslow, hfill.slow, hland.only.slow, htake.slow]

/-- A read's copy ends (R162, R163). -/
theorem Dev.cmdReadCopyEnd_spec {i : Nat} {c : FCopy} (hdue : (d.flue f).due = false)
    (hc : (d.flue f).copies.find? (fun c => c.slot = i && c.write = false) = some c) (hstale : c.stale = false) (hplace : c.place < 32)
    (hst : ((d.flue f).slot i).st = .draining) (hlen : c.data.length ≤ 32768) :
    (((d.cmdReadCopyEnd f i).flue f).slot i).st = .empty ∧ (((d.cmdReadCopyEnd f i).flue f).slot i).ash = false ∧
      (∀ k v, c.data[k]? = some v → ((d.cmdReadCopyEnd f i).hearth c.hearth).line (c.line + k) = ⟨fit 0 64 v.bytes, v.ash⟩) ∧
      (∀ g, g ≠ f → (d.cmdReadCopyEnd f i).flue g = d.flue g) ∧
      (d.cmdReadCopyEnd f i).hbm = d.hbm ∧ (d.cmdReadCopyEnd f i).slow = d.slow := by
  generalize htaken : (d.modFlue f fun x => { x with copies := x.copies.erase c }) = d1
  generalize hrun : d1.flueDeliver c.hearth c.line c.data = d2
  have hcmd : d.cmdReadCopyEnd f i = (d2.flueDrained f i false (.ofWord c.cfg) c.peer).flueDone c.hearth c.place f false := by
    simp only [Dev.cmdReadCopyEnd, Dev.takeCopy_some hc, htaken, hstale, if_pos hplace, hrun]
  have htake : d.OnlyFlue d1 f := htaken ▸ d.modFlue_onlyFlue f _
  have hland : d1.FlueWorks c.hearth d2 := hrun ▸ d1.flueDeliver_flueWorks ..
  have hline : ∀ k v, c.data[k]? = some v → (d2.hearth c.hearth).line (c.line + k) = ⟨fit 0 64 v.bytes, v.ash⟩ := by
    intro k v hk
    rw [← hrun, Dev.flueDeliver, Dev.hearth_bump]
    exact Dev.line_foldl_zipIdx (putsLine_ownLine c.hearth) hlen c.line d1 hk
  have hflue2 : d2.flue f = { d.flue f with copies := (d.flue f).copies.erase c } := by
    rw [hland.flue, ← htaken, Dev.flue_modFlue]
  obtain ⟨hdrain, hdrained⟩ := Dev.flueDrained_spec (by rw [hflue2]; exact hdue) i false (.ofWord c.cfg) c.peer
  obtain ⟨hflues, hhbm, hslow, hlines, -⟩ := (d2.flueDrained f i false (.ofWord c.cfg) c.peer).flueDone_spec c.hearth c.place f false
  have hflue : ∀ g, ((d2.flueDrained f i false (.ofWord c.cfg) c.peer).flueDone c.hearth c.place f false).flue g =
      (d2.flueDrained f i false (.ofWord c.cfg) c.peer).flue g := fun g => congrArg (tget Flue.fresh · g) hflues
  have hst2 : ((d2.flue f).slot i).st = .draining := by rw [hflue2]; exact hst
  rw [hcmd, hflue, hdrained, if_neg (by simp [hst2]), Flue.slot_setSlot]
  refine ⟨rfl, rfl, fun k v hk => ?_, fun g hg => ?_, ?_, ?_⟩
  · rw [hlines, hdrain.line]
    exact hline k v hk
  · rw [hflue, hdrain.others g hg, hland.flue, htake.others g hg]
  · rw [hhbm, hdrain.hbm, hland.only.hbm, htake.hbm]
  · rw [hslow, hdrain.slow, hland.only.slow, htake.slow]

end

/-! ### The commands -/

section
variable {s : State} {h : Fin 1024} {e : WEntry} {r : StepRun} {p f : Nat} {rivals : List (Fin 1046)}

/-- What a FLUE entry meets that fires at the router: a free place, a setting of its slot that is no proxy, its turn (R160, R162). -/
structure State.FlueTurn (s : State) (h : Fin 1024) (e : WEntry) (p f : Nat) (rivals : List (Fin 1046)) : Prop where
  number : f = (FlueBody.ofWord e.raw).number e.i e.t
  fires : s.dev.Fires h.val .flue e
  place : (s.dev.hearth h.val).freePlace = some p
  used : (s.dev.flueCfg f).misused ((s.dev.hearthCtx h.val).getD 0) = false
  direct : (s.dev.flueCfg f).proxy = false
  awake : f / 4096 = h.val / 64 ∨ s.dev.flueSleeps f = false
  wins : s.dev.WinsFlue f h.val rivals

/-- A FLUE entry that writes takes its lines to the home router. -/
theorem State.FlueTurn.writes (g : s.FlueTurn h e p f rivals) (hop : (FlueBody.ofWord e.raw).fop = 1) (sram : List (Nat × SramOutcome)) :
    ∃ d t ls, s.dev.FlueWorks h.val d ∧ t.id = e.id ∧ t.flue = some ⟨f, true⟩ ∧ t.done = false ∧
      exec (.flueEntryWrite h sram rivals) s = .next { s with dev := d.localFlueWrite h.val p f t ls } := by
  obtain ⟨d, e', hwork, hid, hraw, hi, ht, hfire⟩ :=
    Dev.fireFlue_won g.fires hop g.number g.awake g.wins fun d e => d.startFlueWrite h.val e sram
  obtain ⟨d', t, ls, hwork', htid, hflue, hdone, hstart⟩ := Dev.startFlueWrite_local (d := d) (e := e') (f := f) (hwork.freePlace.trans g.place)
    (by rw [hraw, hi, ht]; exact g.number) (by rw [hwork.flueCfg h.isLt, hwork.hearthCtx]; exact g.used)
    (by rw [hwork.flueCfg h.isLt]; exact g.direct) sram
  exact ⟨d', t, ls, hwork.trans hwork', htid.trans hid, hflue, hdone,
    State.onDev_next (f := fun d => d.fireFlue h.val 1 (rivals.map Fin.val) fun d e => d.startFlueWrite h.val e sram) (hfire.trans hstart)⟩

/-- A FLUE entry that reads at the flue's home takes the flue's GET. -/
theorem State.FlueTurn.reads (g : s.FlueTurn h e p f rivals) (hop : (FlueBody.ofWord e.raw).fop = 0) (hhome : h.val = s.dev.flueHome f)
    (sram : List (Nat × SramOutcome)) :
    ∃ d n t, s.dev.FlueWorks h.val d ∧
      exec (.flueEntryRead h sram rivals) s = .next { s with dev := beginRead h.val p f n t sram (d.flueRead f) } := by
  obtain ⟨d, e', hwork, hid, hraw, hi, ht, hfire⟩ :=
    Dev.fireFlue_won g.fires hop g.number g.awake g.wins fun d e => d.startFlueRead h.val e sram
  have hstart := Dev.startFlueRead_home (d := d) (e := e') (f := f) (hwork.freePlace.trans g.place)
    (by rw [hraw, hi, ht]; exact g.number) (by rw [hwork.flueCfg h.isLt, hwork.hearthCtx]; exact g.used)
    (by rw [hwork.flueCfg h.isLt]; exact g.direct) (by rw [hwork.flueHome h.isLt]; exact hhome) sram
  exact ⟨d.countFire h.val, _, _, hwork.trans (.modHearth _ rfl rfl),
    State.onDev_next (f := fun d => d.fireFlue h.val 0 (rivals.map Fin.val) fun d e => d.startFlueRead h.val e sram) (hfire.trans hstart)⟩

variable {d : Dev} {t : Transfer} {ls : List Line} {w i : Nat}

/-- A write that the home router accepts: its slot is pending, and its copy begins (R162). -/
theorem Dev.localFlueWrite_accepted {hv : Nat} (ho : d.hearthOpen (d.flueHome f) = true) (hw : (d.flue f).put = w) (hi : d.slotAt f w = i)
    (hst : ((d.flue f).slot i).st = .empty) (hp : ((d.flue f).slot i).pending = false)
    (hlap : lapBit w (d.flueCfg f).slots ≠ ((d.flue f).slot i).doneLap) :
    ∃ y, y.slot = i ∧ y.write = true ∧ y.hearth = hv ∧ y.place = p ∧ d.localFlueWrite hv p f t ls =
      (((d.modFlue f fun x => { x with put := w + 1 }).modFlue f fun x => x.setSlot i { (d.flue f).slot i with pending := true }).modFlue f
        fun x => { x with copies := x.copies ++ [y] }).setPlace hv p (some t) := by
  refine ⟨⟨i, true, false, hv, p, Dev.flueBuf ((d.modFlue f fun x => { x with put := w + 1 }).modFlue f fun x =>
    x.setSlot i { (d.flue f).slot i with pending := true }) f i, ls, d.get Obj.FLUE_CFG f, d.get Obj.FLUE_PEER f⟩, rfl, rfl, rfl, rfl, ?_⟩
  simp only [Dev.localFlueWrite, ho, Dev.flueWrite_accepted hw hi hst hp hlap, Bool.not_true, Bool.false_eq_true, if_false]
  rfl

/-- A write that the home router drops: its slot is ash, a breach is counted, and the entry's operation has ended (R162). -/
theorem Dev.localFlueWrite_dropped {hv : Nat} (ho : d.hearthOpen (d.flueHome f) = true) (hw : (d.flue f).put = w) (hi : d.slotAt f w = i)
    (hst : ((d.flue f).slot i).st ≠ .empty) :
    d.localFlueWrite hv p f t ls =
      (((((d.modFlue f fun x => { x with put := w + 1 }).modFlue f fun x => x.setSlot i { (d.flue f).slot i with ash := true }).bump
        Obj.FLUE_BREACHES f).flueEvent f Event.scheduleBreach).fillNotice f).setPlace hv p (some { t with done := true }) := by
  simp only [Dev.localFlueWrite, ho, Dev.flueWrite_dropped hw hi hst, Bool.not_true, Bool.false_eq_true, if_false]

end

/-- An accepted write of a FLUE entry (R160, R162). -/
theorem State.flueWrite_accepted {s : State} {h : Fin 1024} {e : WEntry} {p f i : Nat} {rivals : List (Fin 1046)}
    (g : s.FlueTurn h e p f rivals) (hop : (FlueBody.ofWord e.raw).fop = 1) (ho : s.dev.hearthOpen (s.dev.flueHome f) = true)
    (hi : s.dev.slotAt f (s.dev.flue f).put = i) (hst : ((s.dev.flue f).slot i).st = .empty) (hp : ((s.dev.flue f).slot i).pending = false)
    (hlap : lapBit (s.dev.flue f).put (s.dev.flueCfg f).slots ≠ ((s.dev.flue f).slot i).doneLap) (sram : List (Nat × SramOutcome)) :
    ∃ t, exec (.flueEntryWrite h sram rivals) s = .next t ∧ (t.dev.flue f).put = (s.dev.flue f).put + 1 ∧
      ((t.dev.flue f).slot i).pending = true ∧
      (∃ y ∈ (t.dev.flue f).copies, y.slot = i ∧ y.write = true ∧ y.hearth = h.val ∧ y.place = p) ∧
      (∃ x, (t.dev.hearth h.val).place p = some x ∧ x.id = e.id ∧ x.flue = some ⟨f, true⟩ ∧ x.done = false) ∧
      (∀ k, k ≠ f → t.dev.flue k = s.dev.flue k) ∧ s.KeepsMemory t := by
  obtain ⟨d, x, ls, hwork, hid, hflue, hdone, hexec⟩ := g.writes hop sram
  have hcfg := hwork.flueCfg h.isLt f
  have hsame := hwork.flue f
  obtain ⟨y, hslot, hwrite, hhearth, hplace, hlocal⟩ := Dev.localFlueWrite_accepted (d := d) (f := f) (p := p) (t := x) (ls := ls) (hv := h.val)
    (w := (s.dev.flue f).put) (i := i) (by rw [hwork.hearthOpen, hwork.flueHome h.isLt]; exact ho) (by rw [hsame])
    (by rw [Dev.slotAt, hcfg]; exact hi) (by rw [hsame]; exact hst) (by rw [hsame]; exact hp) (by rw [hcfg, hsame]; exact hlap)
  generalize he : ((d.modFlue f fun x => { x with put := (s.dev.flue f).put + 1 }).modFlue f
    fun x => x.setSlot i { (d.flue f).slot i with pending := true }).modFlue f (fun x => { x with copies := x.copies ++ [y] }) = e2 at hlocal
  have honly : d.OnlyFlue e2 f :=
    he ▸ ((d.modFlue_onlyFlue f _).trans (Dev.modFlue_onlyFlue _ f _)).trans (Dev.modFlue_onlyFlue _ f _)
  have hf2 : e2.flue f = { d.flue f with
      put := (s.dev.flue f).put + 1, slots := tset FSlot.fresh (d.flue f).slots i { (d.flue f).slot i with pending := true },
      copies := (d.flue f).copies ++ [y] } := by
    rw [← he, Dev.flue_modFlue, Dev.flue_modFlue, Dev.flue_modFlue]
    rfl
  rw [hlocal] at hexec
  refine ⟨_, hexec, congrArg Flue.put hf2, ?_, ⟨y, ?_, hslot, hwrite, hhearth, hplace⟩, ⟨x, Dev.place_setPlace .., hid, hflue, hdone⟩,
    fun k hk => (honly.others k hk).trans (hwork.flue k), honly.hbm.trans hwork.only.hbm, honly.slow.trans hwork.only.slow, rfl, rfl⟩
  · exact congrArg FSlot.pending ((congrArg (Flue.slot · i) hf2).trans (tget_tset_self ..))
  · exact (congrArg Flue.copies hf2) ▸ List.mem_append_right _ (List.mem_singleton_self y)

section
variable {s : State} {h : Fin 1024} {e : WEntry} {p f i : Nat} {rivals : List (Fin 1046)}

/-- A dropped write of a FLUE entry (R160, R162). -/
theorem State.flueWrite_dropped (hf : f < 65536) (g : s.FlueTurn h e p f rivals) (hop : (FlueBody.ofWord e.raw).fop = 1)
    (ho : s.dev.hearthOpen (s.dev.flueHome f) = true) (hi : s.dev.slotAt f (s.dev.flue f).put = i)
    (hst : ((s.dev.flue f).slot i).st ≠ .empty) (sram : List (Nat × SramOutcome)) :
    ∃ t, exec (.flueEntryWrite h sram rivals) s = .next t ∧ (t.dev.flue f).put = (s.dev.flue f).put + 1 ∧
      ((t.dev.flue f).slot i).ash = true ∧ t.dev.get Obj.FLUE_BREACHES f = (s.dev.get Obj.FLUE_BREACHES f + 1) % 2 ^ 32 ∧
      (∃ x, (t.dev.hearth h.val).place p = some x ∧ x.id = e.id ∧ x.done = true) ∧ s.KeepsMemory t := by
  obtain ⟨d, x, ls, hwork, hid, -, -, hexec⟩ := g.writes hop sram
  have hsame := hwork.flue f
  have hlocal := Dev.localFlueWrite_dropped (d := d) (f := f) (p := p) (t := x) (ls := ls) (hv := h.val) (w := (s.dev.flue f).put) (i := i)
    (by rw [hwork.hearthOpen, hwork.flueHome h.isLt]; exact ho) (by rw [hsame]) (by rw [Dev.slotAt, hwork.flueCfg h.isLt]; exact hi)
    (by rw [hsame]; exact hst)
  generalize he : ((d.modFlue f fun x => { x with put := (s.dev.flue f).put + 1 }).modFlue f
    fun x => x.setSlot i { (d.flue f).slot i with ash := true }) = e2 at hlocal
  have honly : d.OnlyFlue e2 f := he ▸ (d.modFlue_onlyFlue f _).trans (Dev.modFlue_onlyFlue _ f _)
  have hf2 : e2.flue f = { d.flue f with
      put := (s.dev.flue f).put + 1, slots := tset FSlot.fresh (d.flue f).slots i { (d.flue f).slot i with ash := true } } := by
    rw [← he, Dev.flue_modFlue, Dev.flue_modFlue]
    rfl
  have hn := ((e2.bump Obj.FLUE_BREACHES f).flueEvent_notifies f Event.scheduleBreach).trans (Dev.fillNotice_notifies hf)
  have hf3 := (hn.flue f).trans ((Dev.flue_bump ..).trans hf2)
  have hbreaches : (((e2.bump Obj.FLUE_BREACHES f).flueEvent f Event.scheduleBreach).fillNotice f).get Obj.FLUE_BREACHES f =
      (s.dev.get Obj.FLUE_BREACHES f + 1) % 2 ^ 32 := by
    have hget : e2.get Obj.FLUE_BREACHES f = s.dev.get Obj.FLUE_BREACHES f := by rw [← he]; exact hwork.get h.isLt (by decide) f
    rw [hn.get (by decide), Dev.get_bump_self _ _ _ _ _ one_ne_zero, hget]
    rfl
  have hbump := Dev.bump_onlyFlue (d := e2) (f := f) (o := Obj.FLUE_BREACHES) (by decide) 1
  rw [hlocal] at hexec
  exact ⟨_, hexec, congrArg Flue.put hf3, congrArg FSlot.ash ((congrArg (Flue.slot · i) hf3).trans (tget_tset_self ..)), hbreaches,
    ⟨_, Dev.place_setPlace .., hid, rfl⟩, hn.hbm.trans (hbump.hbm.trans (honly.hbm.trans hwork.only.hbm)),
    hn.slow.trans (hbump.slow.trans (honly.slow.trans hwork.only.slow)), rfl, rfl⟩

/-- A read of a filled slot of a FLUE entry (R160, R162). -/
theorem State.flueRead_filled (g : s.FlueTurn h e p f rivals) (hop : (FlueBody.ofWord e.raw).fop = 0) (hhome : h.val = s.dev.flueHome f)
    (hi : s.dev.slotAt f (s.dev.flue f).get = i) (hst : ((s.dev.flue f).slot i).st = .filled) (sram : List (Nat × SramOutcome)) :
    ∃ t, exec (.flueEntryRead h sram rivals) s = .next t ∧ (t.dev.flue f).get = (s.dev.flue f).get + 1 ∧
      ((t.dev.flue f).slot i).st = .draining ∧ ((t.dev.flue f).slot i).doneLap = lapBit (s.dev.flue f).get (s.dev.flueCfg f).slots ∧
      (∃ y ∈ (t.dev.flue f).copies, y.slot = i ∧ y.write = false ∧ y.hearth = h.val ∧ y.place = p ∧ y.stale = false) ∧
      s.KeepsMemory t := by
  obtain ⟨d, n, x, hwork, hexec⟩ := g.reads hop hhome sram
  have hsame := hwork.flue f
  have hread := Dev.flueRead_filled (d := d) (f := f) (r := (s.dev.flue f).get) (i := i) (by rw [hsame])
    (by rw [Dev.slotAt, hwork.flueCfg h.isLt]; exact hi) (by rw [hsame]; exact hst)
  rw [hwork.flueCfg h.isLt] at hread
  obtain ⟨e2, y, hmeet, hslot, hwrite, hstale, hhearth, hplace, hbegin⟩ := beginRead_spec h.val p f n x sram (d.flueRead f)
  obtain ⟨honly, -⟩ := d.flueRead_spec f
  have hf2 : (e2.modFlue f fun x => { x with copies := x.copies ++ [y] }).flue f = { d.flue f with
      get := (s.dev.flue f).get + 1, copies := (d.flue f).copies ++ [y],
      slots := tset FSlot.fresh (d.flue f).slots i { (d.flue f).slot i with
        st := .draining, doneLap := lapBit (s.dev.flue f).get (s.dev.flueCfg f).slots } } := by
    rw [Dev.flue_modFlue, hmeet.flue, hread, Dev.flue_modFlue, Dev.flue_modFlue]
    rfl
  have hslot2 : ((e2.modFlue f fun x => { x with copies := x.copies ++ [y] }).flue f).slot i =
      { (d.flue f).slot i with st := .draining, doneLap := lapBit (s.dev.flue f).get (s.dev.flueCfg f).slots } := by
    rw [hf2, Flue.slot, tget_tset_self]
  rw [hread] at hslot hstale
  rw [hbegin] at hexec
  refine ⟨_, hexec, congrArg Flue.get hf2, congrArg FSlot.st hslot2, congrArg FSlot.doneLap hslot2,
    ⟨y, ?_, hslot, hwrite, hhearth, hplace, hstale⟩, hmeet.only.hbm.trans (honly.hbm.trans hwork.only.hbm),
    hmeet.only.slow.trans (honly.slow.trans hwork.only.slow), rfl, rfl⟩
  exact (congrArg Flue.copies hf2) ▸ List.mem_append_right _ (List.mem_singleton_self y)

/-- A read of a slot not filled of a FLUE entry: an underrun (R160, R162). -/
theorem State.flueRead_underrun (g : s.FlueTurn h e p f rivals) (hop : (FlueBody.ofWord e.raw).fop = 0) (hhome : h.val = s.dev.flueHome f)
    (hi : s.dev.slotAt f (s.dev.flue f).get = i) (hst : ((s.dev.flue f).slot i).st ≠ .filled) (sram : List (Nat × SramOutcome)) :
    ∃ t, exec (.flueEntryRead h sram rivals) s = .next t ∧ (t.dev.flue f).get = (s.dev.flue f).get + 1 ∧
      t.dev.get Obj.FLUE_UNDERRUNS f = (s.dev.get Obj.FLUE_UNDERRUNS f + 1) % 2 ^ 32 ∧ s.KeepsMemory t := by
  obtain ⟨d, n, x, hwork, hexec⟩ := g.reads hop hhome sram
  have hsame := hwork.flue f
  have hread := Dev.flueRead_underrun (d := d) (f := f) (r := (s.dev.flue f).get) (i := i) (by rw [hsame])
    (by rw [Dev.slotAt, hwork.flueCfg h.isLt]; exact hi) (by rw [hsame]; exact hst)
  obtain ⟨e2, y, hmeet, -, -, -, -, -, hbegin⟩ := beginRead_spec h.val p f n x sram (d.flueRead f)
  obtain ⟨honly, slots, hslots⟩ := d.flueRead_spec f
  have hget : ((e2.modFlue f fun x => { x with copies := x.copies ++ [y] }).flue f).get = (s.dev.flue f).get + 1 := by
    rw [Dev.flue_modFlue, hmeet.flue, hslots, hsame]
  have hunder : e2.get Obj.FLUE_UNDERRUNS f = (s.dev.get Obj.FLUE_UNDERRUNS f + 1) % 2 ^ 32 := by
    rw [hmeet.get h.isLt (by decide), hread, (Dev.flueEvent_notifies ..).get (by decide), Dev.get_bump_self _ _ _ _ _ one_ne_zero,
      ← hwork.get h.isLt (o := Obj.FLUE_UNDERRUNS) (by decide) f]
    rfl
  rw [hbegin] at hexec
  exact ⟨_, hexec, hget, hunder, hmeet.only.hbm.trans (honly.hbm.trans hwork.only.hbm),
    hmeet.only.slow.trans (honly.slow.trans hwork.only.slow), rfl, rfl⟩

/-- A FLUE entry that loses its cycle waits (R335). -/
theorem State.flueEntry_lost {w : Nat} (hF : s.dev.Fires h.val .flue e) (hop : (FlueBody.ofWord e.raw).fop = 1)
    (hf : f = (FlueBody.ofWord e.raw).number e.i e.t) (hawake : f / 4096 = h.val / 64 ∨ s.dev.flueSleeps f = false)
    (hw : rotPick requesters (tget 0 s.dev.arb (arbFlue f)) (h.val :: rivals.map Fin.val) = some w) (hne : w ≠ h.val)
    (sram : List (Nat × SramOutcome)) :
    ∃ t, exec (.flueEntryWrite h sram rivals) s = .next t ∧ t.dev.hearths = s.dev.hearths ∧ t.dev.flues = s.dev.flues ∧
      t = { s with dev := { s.dev with od := t.dev.od, arb := t.dev.arb } } ∧
      s.dev.SameObjects t.dev [Obj.EGRESS_HOLD_CYCLES.key h.val 0] := by
  obtain ⟨arb, held, hlost⟩ := Dev.fireFlue_lost hF hop hf hawake hw hne fun d e => d.startFlueWrite h.val e sram
  refine ⟨_, State.onDev_next (f := fun d => d.fireFlue h.val 1 (rivals.map Fin.val) fun d e => d.startFlueWrite h.val e sram) hlost, ?_⟩
  cases held with
  | false => exact ⟨rfl, rfl, rfl, .same _ _⟩
  | true =>
    obtain ⟨⟨od, hod⟩, hsame⟩ := Dev.bump_onlyOd (d := { s.dev with arb := arb }) (n := 1)
      (List.mem_singleton_self (Obj.EGRESS_HOLD_CYCLES.key h.val 0))
    rw [if_pos rfl]
    exact ⟨by rw [hod], by rw [hod], by rw [hod], hsame⟩

end

/-- Settles O15. -/
theorem flueEntriesAndSlotCopiesRun : Obligations.FlueEntriesAndSlotCopiesRun := by
  refine ⟨fun s h e r p f c sram rivals hf hc hrun hF hp hmis hpr hawake hw => ?_,
    fun s h e f w sram rivals hf hF hop hawake hw hne => State.flueEntry_lost hF hop hf hawake hw hne sram, fun s f i c hdue => ⟨?_, ?_⟩⟩
  · subst hc
    have hctx : (s.dev.hearthCtx h.val).getD 0 = r.ctx := by rw [Dev.hearthCtx, hrun]; rfl
    have hturn : s.FlueTurn h e p f rivals := ⟨hf, hF, hp, by rw [hctx]; exact hmis, hpr, hawake, hw⟩
    have hlt : f < 65536 := by rw [hf, FlueBody.number]; omega
    exact ⟨fun hop ho hst hpend hlap => State.flueWrite_accepted hturn hop ho rfl hst hpend hlap sram,
      fun hop ho hst => State.flueWrite_dropped hlt hturn hop ho rfl hst sram,
      fun hop hhome hst => State.flueRead_filled hturn hop hhome rfl hst sram,
      fun hop hhome hst => State.flueRead_underrun hturn hop hhome rfl hst sram⟩
  · intro hc hstale hlen hd
    obtain ⟨hst, hpend, hput, hline, hplace, hothers, hhbm, hslow⟩ := Dev.cmdWriteCopyEnd_spec f.isLt hdue hc hstale hlen hd
    exact ⟨_, rfl, hst, hpend, hput, hline, hplace, hothers, hhbm, hslow, rfl, rfl⟩
  · intro hc hstale hplace hst hlen
    obtain ⟨hempty, hash, hline, hothers, hhbm, hslow⟩ := Dev.cmdReadCopyEnd_spec hdue hc hstale hplace hst hlen
    exact ⟨_, rfl, hempty, hash, hline, hothers, hhbm, hslow, rfl, rfl⟩

end Sys2Proof.Machine
end

section
/-! Frames that ask for service (R134, R213, R276, R278, R282, R292, R293): what an arrival changes, what an answer needs, and what
serving a frame does. -/

namespace Sys2Proof.Machine

/-! ### What the route of an answer needs -/

/-- In `d'` an answer goes where it would go in `d`, and queues behind the same frames. -/
structure Dev.Converses (d d' : Dev) : Prop where
  net : d'.net = d.net
  credits : ∀ p vl, d'.creditsOf p vl = d.creditsOf p vl
  dom : d'.dom = d.dom
  id : d'.get Obj.DEVICE_ID_ACTIVE = d.get Obj.DEVICE_ID_ACTIVE
  states : ∀ p < 16, d'.get Obj.PORT_STATE p = d.get Obj.PORT_STATE p
  subscriber : d'.get Obj.EVENT_SUBSCRIBER = d.get Obj.EVENT_SUBSCRIBER

section
variable {a b d : Dev}

theorem Dev.Converses.refl (d : Dev) : d.Converses d := ⟨rfl, fun _ _ => rfl, rfl, rfl, fun _ _ => rfl, rfl⟩

theorem Dev.Converses.trans (g : a.Converses b) (h : b.Converses d) : a.Converses d :=
  ⟨h.net.trans g.net, fun p vl => (h.credits p vl).trans (g.credits p vl), h.dom.trans g.dom, h.id.trans g.id,
    fun p hp => (h.states p hp).trans (g.states p hp), h.subscriber.trans g.subscriber⟩

/-- Objects that decide where an answer goes: this device's ID, its subscriber and the states of its ports. -/
def routeKeys : List Nat :=
  Obj.DEVICE_ID_ACTIVE.key 0 0 :: Obj.EVENT_SUBSCRIBER.key 0 0 :: (List.range 16).map (Obj.PORT_STATE.key · 0)

theorem Dev.Converses.of_od (hnet : b.net = a.net) (hports : b.ports = a.ports) (hdom : b.dom = a.dom)
    (hod : ∀ k ∈ routeKeys, tget 0 b.od k = tget 0 a.od k) : a.Converses b where
  net := hnet
  credits p vl := by simp only [Dev.creditsOf, Dev.port, hports]
  dom := hdom
  id := by simp only [Dev.get, hod (Obj.DEVICE_ID_ACTIVE.key 0 0) (by simp [routeKeys])]
  states p hp := by
    simp only [Dev.get, hod (Obj.PORT_STATE.key p 0) (List.mem_cons_of_mem _ (List.mem_cons_of_mem _
      (List.mem_map.mpr ⟨p, List.mem_range.mpr hp, rfl⟩)))]
  subscriber := by simp only [Dev.get, hod (Obj.EVENT_SUBSCRIBER.key 0 0) (by simp [routeKeys])]

theorem Dev.OnlyOd.converses {ks : List Nat} (g : a.OnlyOd b ks) (hks : ∀ k ∈ ks, k ∉ routeKeys) : a.Converses b := by
  obtain ⟨⟨od, rfl⟩, hs⟩ := g
  exact .of_od rfl rfl rfl fun k hk => hs k fun hm => hks k hm hk

theorem routeKeys_lt : ∀ k ∈ routeKeys, k < 0x14000 * 256 := by decide

theorem routeKeys_not_stack : ∀ k ∈ routeKeys, k < 0x12000 * 256 ∨ 0x13000 * 256 ≤ k := by decide

theorem routeKeys_not_event : ∀ k ∈ routeKeys, k ∉ eventKeys := by decide

theorem Dev.Converses.ownId (g : a.Converses b) : b.ownId = a.ownId := by simp only [Dev.ownId, g.id]

theorem Dev.Converses.selfId (g : a.Converses b) : b.selfId = a.selfId := by simp only [Dev.selfId, g.id]

theorem Dev.Converses.noSubscriber (g : a.Converses b) (h : a.NoSubscriber) : b.NoSubscriber := by
  rw [Dev.NoSubscriber, g.subscriber]
  exact h

theorem Dev.Converses.crossPort (g : a.Converses b) (mask vl : Nat) : b.crossPort mask vl = a.crossPort mask vl := by
  have hup : ((List.range 16).filter fun p => bit mask p).filter (fun p => b.portUp p) =
      ((List.range 16).filter fun p => bit mask p).filter fun p => a.portUp p := by
    refine List.filter_congr fun p hp => ?_
    have hp16 := List.mem_range.mp (List.mem_filter.mp hp).1
    simp only [Dev.portUp, g.states p hp16]
  simp only [Dev.crossPort, hup, g.credits, g.net]

theorem Dev.Converses.route (g : a.Converses b) (dst vl : Nat) : b.route dst vl = a.route dst vl := by
  have hbyte : ∀ (o : ObjDef) k, b.domByte o k = a.domByte o k := fun o k => by simp only [Dev.domByte, g.dom]
  simp only [Dev.route, g.ownId, g.net, g.crossPort, hbyte, Dev.domRead]

/-- A route by a port names one of the sixteen. -/
theorem Dev.route_port_lt {dst vl q : Nat} (h : d.route dst vl = .port q) : q < 16 := by
  simp only [Dev.route] at h
  split at h
  · cases h
  · next own _ =>
    split_ifs at h with _ _ _ hq
    · exact (Route.port.inj h) ▸ hq
    · split at h
      · next hcross =>
        unfold Dev.crossPort rotPick at hcross
        have hmem := List.mem_of_find?_eq_some hcross
        rw [List.mem_map] at hmem
        obtain ⟨i, -, hi⟩ := hmem
        exact (Route.port.inj h) ▸ hi ▸ Nat.mod_lt _ (by decide)
      · cases h

theorem Dev.Converses.answersVia (g : a.Converses b) {dst vl q : Nat} (h : a.AnswersVia dst vl q) : b.AnswersVia dst vl q :=
  ⟨(g.route dst vl).trans h.1, by rw [g.states q (Dev.route_port_lt h.1)]; exact h.2⟩

/-- An answer that has a route is queued, and nothing else changes. -/
theorem Dev.sendAnswer_via {f : Frame} {q : Nat} (h : d.AnswersVia f.dstId f.vl.val q) :
    ∃ net, d.sendAnswer f = { d with net := net } ∧ net.queue = d.net.queue ++ [(q, f)] := by
  obtain ⟨hroute, hstate⟩ := h
  unfold Dev.sendAnswer Dev.trySend
  rw [hroute]
  simp only [hstate, if_false]
  split
  · exact ⟨_, rfl, rfl⟩
  · exact ⟨_, rfl, rfl⟩

/-! ### Events without a subscriber (R369) -/

theorem Dev.net_hostVector (d : Dev) (g : Nat) : (d.hostVector g).net = d.net := by
  simp only [Dev.hostVector]
  split <;> rfl

theorem Dev.net_inBand (d : Dev) (g : Nat) : (d.inBand g).net = d.net := by
  simp only [Dev.inBand]
  split <;> rfl

theorem Dev.net_bump (d : Dev) (o : ObjDef) (i n e : Nat) : (d.bump o i n e).net = d.net := by
  unfold Dev.bump
  split <;> rfl

theorem Dev.net_pushOne (d : Dev) (r : EventRec) : (d.pushOne r).1.net = d.net := by
  have happend : (d.appendRing r).net = d.net := by rw [Dev.appendRing, Dev.net_put, Dev.net_put]
  simp only [Dev.pushOne]
  rw [Dev.net_inBand, Dev.net_hostVector]
  split
  · rw [Dev.net_bump, happend]
  · exact happend

theorem Dev.net_push (d : Dev) (r : EventRec) : (d.push r).1.net = d.net := by
  have hone := d.net_pushOne r
  unfold Dev.push
  generalize d.pushOne r = one at hone ⊢
  obtain ⟨e, r'⟩ := one
  have htwo := e.disarm.net_pushOne (e.plainRec Event.eventOverwrite 0 0)
  dsimp only
  generalize e.disarm.pushOne (e.plainRec Event.eventOverwrite 0 0) = two at htwo ⊢
  split
  · exact htwo.trans hone
  · exact hone

theorem Dev.eventNotice_unsubscribed (h : d.NoSubscriber) (r : EventRec) : d.eventNotice r = d := by
  have hbit : bit (d.get Obj.EVENT_SUBSCRIBER) 31 = false := h
  simp only [Dev.eventNotice, hbit, Bool.not_false, Bool.true_or, if_true]
  split <;> rfl

theorem Dev.foldl_eventNotice_unsubscribed (h : d.NoSubscriber) (l : List EventRec) : l.foldl Dev.eventNotice d = d := by
  induction l with
  | nil => rfl
  | cons r l ih => rw [List.foldl_cons, Dev.eventNotice_unsubscribed h, ih]

/-- An event of a device that tells no other of its events leaves its frames as they were. -/
theorem Dev.raise_converses (h : d.NoSubscriber) (e : Ev) (k : Kind) (i : Nat) (c : Option Nat) (det hi : Nat) :
    d.Converses (d.raise e k i c det hi) := by
  have hrec := d.raise_recorded e k i c det hi
  have hnet : (d.raise e k i c det hi).net = d.net := by
    unfold Dev.raise Dev.record
    split
    · split
      · split <;> rfl
      · generalize hr : (⟨e.code, blockOf k i, c, 0, hi, d.tick, det⟩ : EventRec) = r
        have hpush : d.Recorded (d.push r).1 := Dev.push_recorded ..
        have hquiet : (d.push r).1.NoSubscriber := by rw [Dev.NoSubscriber, hpush.get (by decide)]; exact h
        exact (congrArg Dev.net (Dev.foldl_eventNotice_unsubscribed hquiet (d.push r).2)).trans (Dev.net_push ..)
    · rfl
  obtain ⟨⟨od, ev, host, i3c, pilot, net, heq⟩, hk⟩ := hrec
  exact .of_od hnet (by rw [heq]) (by rw [heq]) fun k hm => hk k (routeKeys_not_event k hm)

end

/-! ### A frame arrives (R276, R278, R279, R297) -/

section
variable {d : Dev} {p : Nat} {f : Frame}

/-- A frame of this device's own has been taken from the link and counted. -/
def Dev.arrived (d : Dev) (p : Nat) (f : Frame) : Dev := (d.linkIn p f).1.countRx p f

theorem Dev.linkIn_takes (h : d.Takes p f) :
    ∃ x, d.linkIn p f = (d.setPort p x, true) ∧ x.rx = (d.port p).rx ∧ x.credits = (d.port p).credits := by
  obtain ⟨hup, ⟨k, hk, hrx⟩, hseq, hroom⟩ := h
  have hkey : k.rx.isNone = false := by rw [← Option.not_isSome, hrx]; rfl
  have hopen : ¬ (!d.portUp p || k.rx.isNone || decide (vlCredits f.vl.val < (d.port p).held f.vl.val + Frame.cost f)) = true := by
    simp [hup, hkey, hroom]
  refine ⟨{ d.port p with
    seqRx := f.linkSeq + 1, replayFrom := none, keyRx := f.keyIdx.val,
    keySlots := if f.keyIdx.val = (d.port p).keyRx then (d.port p).keySlots
      else tmod none (d.port p).keySlots (d.port p).keyRx fun o => o.map fun y => { y with rx := none } }, ?_, rfl, rfl⟩
  simp only [Dev.linkIn, hk]
  rw [if_neg hopen, if_neg (by simp [hseq])]

/-- What counting a frame changes. -/
theorem Dev.countRx_spec (d : Dev) (p : Nat) (f : Frame) :
    (∃ od attrib, d.countRx p f = { d with od := od, attrib := attrib }) ∧
      d.SameObjects (d.countRx p f) [Obj.FRAMES_RX.key p 0, Obj.PAYLOAD_BYTES_RX.key p 0] ∧
      (d.countRx p f).get Obj.FRAMES_RX p = (d.get Obj.FRAMES_RX p + 1) % 2 ^ Obj.FRAMES_RX.bitsOf := by
  have hnote : ∀ (e : Dev) own, ∃ attrib, e.notePort p f own = { e with attrib := attrib } := by
    intro e own
    unfold Dev.notePort
    split <;> exact ⟨_, rfl⟩
  obtain ⟨attrib, hattrib⟩ := hnote ((d.bump Obj.FRAMES_RX p).bump Obj.PAYLOAD_BYTES_RX p f.payload.length)
    (f.ftype = 5 && d.ownId = some f.dstId)
  have hcount : d.OnlyOd ((d.bump Obj.FRAMES_RX p).bump Obj.PAYLOAD_BYTES_RX p f.payload.length)
      [Obj.FRAMES_RX.key p 0, Obj.PAYLOAD_BYTES_RX.key p 0] := .trans (Dev.bump_onlyOd (by simp)) (Dev.bump_onlyOd (by simp))
  obtain ⟨⟨od, hod⟩, hsame⟩ := hcount
  rw [Dev.countRx, hattrib]
  refine ⟨⟨od, attrib, by rw [hod]⟩, hsame, ?_⟩
  have hne : Obj.FRAMES_RX.key p 0 ≠ Obj.PAYLOAD_BYTES_RX.key p 0 := by
    simp only [ObjDef.key, Obj.FRAMES_RX, Obj.PAYLOAD_BYTES_RX]
    omega
  exact (Dev.get_bump_ne hne).trans (Dev.get_bump_self _ _ _ _ _ one_ne_zero)

/-- What an arrival changes: the port's link state, and its counts. -/
structure Dev.Arrives (d d' : Dev) (p : Nat) : Prop where
  shape : ∃ od attrib ports crc, d' = { d with od := od, attrib := attrib, ports := ports, crc := crc }
  others : ∀ k, k ≠ p → d'.port k = d.port k
  rx : (d'.port p).rx = (d.port p).rx
  objects : d.SameObjects d' [Obj.FRAMES_RX.key p 0, Obj.PAYLOAD_BYTES_RX.key p 0]
  counted : d'.get Obj.FRAMES_RX p = (d.get Obj.FRAMES_RX p + 1) % 2 ^ Obj.FRAMES_RX.bitsOf
  converses : d.Converses d'

theorem rxKeys_not_route {p : Nat} (hp : p < 16) :
    ∀ k ∈ [Obj.FRAMES_RX.key p 0, Obj.PAYLOAD_BYTES_RX.key p 0], k ∉ routeKeys := by
  revert p
  decide

theorem Dev.arrived_arrives (hp : p < 16) (h : d.Takes p f) : d.Arrives (d.arrived p f) p := by
  obtain ⟨x, hlink, hrx, hcredits⟩ := Dev.linkIn_takes h
  rw [Dev.arrived, hlink]
  obtain ⟨⟨od, attrib, hshape⟩, hsame, hcounted⟩ := (d.setPort p x).countRx_spec p f
  have hset : d.Converses (d.setPort p x) := by
    refine ⟨rfl, fun k vl => ?_, rfl, rfl, fun _ _ => rfl, rfl⟩
    by_cases hk : k = p
    · subst hk
      simp only [Dev.creditsOf, Dev.port_setPort_self, hcredits]
    · simp only [Dev.creditsOf, Dev.port_setPort_ne d hk]
  have hcount : (d.setPort p x).Converses ((d.setPort p x).countRx p f) :=
    .of_od (by rw [hshape]) (by rw [hshape]) (by rw [hshape]) fun k hk => hsame k fun hm => rxKeys_not_route hp k hm hk
  refine ⟨⟨od, attrib, tset Port.fresh d.ports p x, d.crc, by rw [hshape]; rfl⟩, fun k hk => ?_, ?_, hsame, hcounted, hset.trans hcount⟩
  · rw [hshape]
    exact Dev.port_setPort_ne d hk x
  · rw [hshape]
    exact (congrArg Port.rx (Dev.port_setPort_self ..)).trans hrx

theorem Dev.arrive_own (hp : p < 16) (ht : d.Takes p f) (hlane : Frame.laneOk f = true) (hown : d.ownId = some f.dstId) :
    d.arrive p f = (d.arrived p f, true) := by
  have hid := (Dev.arrived_arrives hp ht).converses.ownId.trans hown
  unfold Dev.arrived at *
  obtain ⟨x, hlink, -⟩ := Dev.linkIn_takes ht
  rw [hlink] at hid ⊢
  rw [Dev.arrive, hlink]
  simp only [hlane, hid, Option.isNone_some, Bool.not_true, Bool.false_and, Bool.false_eq_true, if_false, ne_eq, not_true,
    decide_false, Bool.and_false]

/-- What the arrival leaves of hearths, flues and memories. -/
theorem Dev.Arrives.units {d' : Dev} (g : d.Arrives d' p) :
    d'.hearths = d.hearths ∧ d'.flues = d.flues ∧ d'.hbm = d.hbm ∧ d'.slow = d.slow ∧ d'.stks = d.stks := by
  obtain ⟨⟨_, _, _, _, rfl⟩, -⟩ := g
  exact ⟨rfl, rfl, rfl, rfl, rfl⟩

/-- An object outside the ports' blocks reads as before. -/
theorem Dev.Arrives.get {d' : Dev} (g : d.Arrives d' p) (hp : p < 16) {o : ObjDef} {i e : Nat}
    (hk : o.key i e < 0x13000 * 256 ∨ 0x14000 * 256 ≤ o.key i e) : d'.get o i e = d.get o i e := by
  refine g.objects.get ?_
  simp only [ObjDef.key, Obj.FRAMES_RX, Obj.PAYLOAD_BYTES_RX, Kind.stride, List.mem_cons, List.not_mem_nil, or_false, not_or] at hk ⊢
  omega

theorem hearthKey_ge {o : ObjDef} (ho : o.kind = .hearth) (hb : 0x20000 ≤ o.base) (i e : Nat) : 0x20000 * 256 ≤ o.key i e := by
  simp only [ObjDef.key, ho, Kind.stride]
  omega

section
variable {d' : Dev} (g : d.Arrives d' p) (hp : p < 16)
include g hp

theorem Dev.Arrives.hearthOpen (h : Nat) : d'.hearthOpen h = d.hearthOpen h := by
  have hk := hearthKey_ge (o := Obj.HEARTH_STATE) rfl (by decide) h 0
  have hstate : d'.hState h = d.hState h := g.get hp (.inr (by omega))
  simp only [Dev.hearthOpen, hstate]

theorem Dev.Arrives.clockOn {r : Nat} (hr : r < 16) : d'.clockOn r = d.clockOn r := by
  have hget : d'.get Obj.CLOCK_STATE r = d.get Obj.CLOCK_STATE r := g.get hp (.inl (by
    simp only [ObjDef.key, Obj.CLOCK_STATE, Kind.stride]
    omega))
  simp only [Dev.clockOn, hget]

theorem Dev.Arrives.remoteOk (h l1 l2 : Nat) : d'.remoteOk h l1 l2 = d.remoteOk h l1 l2 := by
  have hregion : d'.regionAt h l1 = d.regionAt h l1 := Dev.regionAt_congr (fun n _ => g.get hp (.inr (by
    have hk := hearthKey_ge (o := Obj.REGION) rfl (by decide) h n
    omega))) l1
  rw [Dev.remoteOk, hregion, Dev.remoteOk]

theorem Dev.Arrives.area (a : Nat) : d'.area a = d.area a := by
  have hget : d'.get Obj.HBM_SEG_MODE (bits a 40 37) = d.get Obj.HBM_SEG_MODE (bits a 40 37) := g.get hp (.inl (by
    have hb : bits a 40 37 < 16 := by rw [bits_eq]; omega
    simp only [ObjDef.key, Obj.HBM_SEG_MODE, Kind.stride]
    omega))
  have hpa : d'.decodePA a = d.decodePA a := by simp only [Dev.decodePA, hget]
  simp only [Dev.area, hpa]

end

/-! ### A frame is served, or waits (R278, R292) -/

/-- The device that a frame taken from the link finds. -/
def Dev.readied (d : Dev) (p : Nat) (r : RxFrame) : Dev := { d.arrived p r.frame with crc := r.crc }

theorem Dev.readied_arrives {r : RxFrame} (hp : p < 16) (h : d.Takes p r.frame) : d.Arrives (d.readied p r) p := by
  obtain ⟨⟨od, attrib, ports, crc, hshape⟩, hothers, hrx, hobjects, hcounted, hconv⟩ := Dev.arrived_arrives hp h
  exact ⟨⟨od, attrib, ports, r.crc, by rw [Dev.readied, hshape]⟩, hothers, hrx, hobjects, hcounted,
    hconv.trans (.of_od rfl rfl rfl fun _ _ => rfl)⟩

/-- A frame for this device that nothing of its VL waits before is served. -/
theorem Dev.receive_served {r : RxFrame} (hp : p < 16) (hd : d.Delivers p r.frame) (hlane : Frame.laneOk r.frame = true)
    (hown : d.ownId = some r.frame.dstId) (rivals : List Nat) :
    d.receive p r rivals = match (d.readied p r).serveFrame p r rivals with
      | (e, some r') => ({ e with crc := [] } : Dev).modPort p fun x => { x with rx := x.rx ++ [r'] }
      | (e, none) => ({ e with crc := [] } : Dev).giveBack p r.frame := by
  obtain ⟨htakes, hidle⟩ := hd
  have hrx := (Dev.arrived_arrives hp htakes).rx
  rw [Dev.receive, Dev.arrive_own hp htakes hlane hown]
  simp only [Dev.serveNext, hrx, hidle, Bool.false_eq_true, if_false, Dev.readied]
  generalize Dev.serveFrame _ p r rivals = served
  obtain ⟨e, left⟩ := served
  cases left <;> rfl

/-- A frame behind one of its VL waits. -/
theorem Dev.receive_behind {r : RxFrame} (hp : p < 16) (ht : d.Takes p r.frame) (hlane : Frame.laneOk r.frame = true)
    (hown : d.ownId = some r.frame.dstId) (hbusy : ((d.port p).rx.any fun q => q.frame.vl = r.frame.vl) = true) (rivals : List Nat) :
    d.receive p r rivals = (d.arrived p r.frame).modPort p fun x => { x with rx := x.rx ++ [r] } := by
  have hrx := (Dev.arrived_arrives hp ht).rx
  rw [Dev.receive, Dev.arrive_own hp ht hlane hown]
  simp only [Dev.serveNext, hrx, hbusy, if_true]

end

section
variable {s : State} {p : Fin 16} {f : Frame} {ty q : Nat} {c : Instr} {r : RxFrame} {rivals : List Nat} {e : Dev}

/-- Command `c` is the arrival of `r`, which is a frame of type `ty` for this device, at port `p`. -/
structure State.Brought (s : State) (p : Fin 16) (f : Frame) (ty : Nat) (c : Instr) (r : RxFrame) (rivals : List Nat) : Prop where
  exec : exec c s = .next { s with dev := s.dev.receive p.val r rivals }
  frame : r.frame = frameOf ty f
  isFor : s.dev.FrameFor p.val ty f

/-- The device that the frame finds. -/
theorem State.Brought.arrives (g : s.Brought p f ty c r rivals) : s.dev.Arrives (s.dev.readied p.val r) p.val :=
  Dev.readied_arrives p.isLt (by rw [g.frame]; exact g.isFor.1.1)

/-- `t` is `s` with device `e`, but for ports, frames to send and the failed transfers of the command. -/
def State.Stands (s t : State) (e : Dev) : Prop := ∃ ports net, t = { s with dev := { e with ports := ports, net := net, crc := [] } }

/-- A frame that is served and answered. -/
theorem State.Brought.answered (g : s.Brought p f ty c r rivals) {a : Frame}
    (hs : (s.dev.readied p.val r).serveFrame p.val r rivals = (e.sendAnswer a, none)) (hconv : s.dev.Converses e)
    (hvia : s.dev.AnswersVia a.dstId a.vl.val q) :
    ∃ t, Machine.exec c s = .next t ∧ t.dev.net.queue = s.dev.net.queue ++ [(q, a)] ∧ s.Stands t e := by
  obtain ⟨hdel, hlane, hown⟩ := g.isFor
  obtain ⟨net, hsend, hqueue⟩ := Dev.sendAnswer_via (hconv.answersVia hvia)
  have hrec := Dev.receive_served p.isLt (d := s.dev) (r := r) (by rw [g.frame]; exact hdel) (by rw [g.frame]; exact hlane)
    (by rw [g.frame]; exact hown) rivals
  have hexec := g.exec
  rw [hrec, hs, hsend] at hexec
  exact ⟨_, hexec, by rw [← hconv.net]; exact hqueue, _, net, rfl⟩

theorem fin_ofNat_val {n : Nat} [NeZero n] (i : Fin n) : Fin.ofNat n i.val = i := Fin.ext (Nat.mod_eq_of_lt i.isLt)

/-- A frame that is served and acknowledged (R293). -/
theorem State.Brought.acked (g : s.Brought p f ty c r rivals) {status : Nat} (hst : status < 4)
    (hs : (s.dev.readied p.val r).serveFrame p.val r rivals = (e.sendAnswer (e.ackOf r.frame status), none)) (hconv : s.dev.Converses e)
    (hvia : s.dev.AnswersVia f.srcId f.vl.val q) :
    ∃ t, Machine.exec c s = .next t ∧ s.Answered t f 0xB status q [] [] ∧ s.Stands t e := by
  have hvl : (e.ackOf (frameOf ty f) status).vl = f.vl := fin_ofNat_val f.vl
  rw [g.frame] at hs
  obtain ⟨t, ht, hqueue, hstands⟩ := g.answered hs hconv (by rw [hvl]; exact hvia)
  exact ⟨t, ht, ⟨_, hqueue, rfl, rfl, hconv.selfId, rfl, fin_ofNat_val f.linesM1, rfl, rfl, Nat.mod_eq_of_lt hst, rfl, rfl⟩, hstands⟩

/-- A frame that has to wait stays in the receive buffer. -/
theorem State.Brought.held (g : s.Brought p f ty c r rivals) {od arb : Tab Nat}
    (hs : (s.dev.readied p.val r).serveFrame p.val r rivals = ({ s.dev.readied p.val r with od := od, arb := arb }, some r))
    (hod : tget 0 od (Obj.FRAMES_RX.key p.val 0) = tget 0 (s.dev.readied p.val r).od (Obj.FRAMES_RX.key p.val 0)) :
    ∃ t, Machine.exec c s = .next t ∧ s.FrameWaits t p.val r := by
  obtain ⟨hdel, hlane, hown⟩ := g.isFor
  have harr := g.arrives
  have hrec := Dev.receive_served p.isLt (d := s.dev) (r := r) (by rw [g.frame]; exact hdel) (by rw [g.frame]; exact hlane)
    (by rw [g.frame]; exact hown) rivals
  have hexec := g.exec
  rw [hrec, hs] at hexec
  generalize s.dev.readied p.val r = d at *
  obtain ⟨hhearths, hflues, hhbm, hslow, -⟩ := harr.units
  refine ⟨_, hexec, ?_, fun k hk => ?_, ?_, harr.converses.net, hhearths, hflues, hhbm, hslow, rfl, rfl⟩
  · exact (congrArg Port.rx (Dev.port_setPort_self ..)).trans (congrArg (· ++ [r]) harr.rx)
  · exact (Dev.port_setPort_ne _ hk _).trans (harr.others k hk)
  · refine Eq.trans ?_ harr.counted
    simp only [Dev.get, Dev.modPort, Dev.od_setPort, hod]

/-- A frame waits behind one of its VL. -/
theorem State.heldBehind (hexec : exec c s = .next { s with dev := s.dev.receive p.val r rivals }) (ht : s.dev.Takes p.val r.frame)
    (hlane : Frame.laneOk r.frame = true) (hown : s.dev.ownId = some r.frame.dstId)
    (hbusy : ((s.dev.port p.val).rx.any fun q => q.frame.vl = r.frame.vl) = true) :
    ∃ t, exec c s = .next t ∧ s.FrameWaits t p.val r := by
  have harr := Dev.arrived_arrives p.isLt ht
  rw [Dev.receive_behind p.isLt ht hlane hown hbusy] at hexec
  generalize s.dev.arrived p.val r.frame = d at *
  obtain ⟨hhearths, hflues, hhbm, hslow, -⟩ := harr.units
  refine ⟨_, hexec, ?_, fun k hk => ?_, ?_, harr.converses.net, hhearths, hflues, hhbm, hslow, rfl, rfl⟩
  · exact (congrArg Port.rx (Dev.port_setPort_self ..)).trans (congrArg (· ++ [r]) harr.rx)
  · exact (Dev.port_setPort_ne _ hk _).trans (harr.others k hk)
  · exact harr.counted

end

end Sys2Proof.Machine
end

section
/-! Frames that ask for service at a scratchpad (R134, R276, R282). -/

namespace Sys2Proof.Machine

section
variable {d e : Dev} {p h off : Nat} {r : RxFrame}

theorem Dev.area_scr_lt {a : Nat} (ha : d.area a = .scr h off) : h < 1024 := by
  unfold Dev.area at ha
  split_ifs at ha
  injection ha with hh
  rw [← hh, bits_eq]
  omega

theorem Dev.decodePA_lt (d : Dev) (a : Nat) : (d.decodePA a).1 < 32 := by
  have hg : bits a 40 37 < 16 := by rw [bits_eq]; omega
  have hone : Nat.xor (bits a 8 8) (bits a 23 23) < 2 := Nat.xor_lt_two_pow (n := 1) (by rw [bits_eq]; omega) (by rw [bits_eq]; omega)
  have hb : bits a 30 30 < 2 := by rw [bits_eq]; omega
  unfold Dev.decodePA
  extract_lets g j
  split <;> dsimp only <;> omega

theorem Dev.area_hbm_lt {a st sec : Nat} (ha : d.area a = .hbm st sec) : st < 32 := by
  unfold Dev.area at ha
  split_ifs at ha
  injection ha with hst
  exact hst ▸ d.decodePA_lt a

/-! ### Frames of one line -/

/-- A frame of one line that is not yet served is served whole, or waits. -/
theorem Dev.eachLine_one (hl : r.frame.linesM1 = 0) (hn : r.next = 0) (hst : r.status = 0) (g : Dev → Nat → Line → Dev × Acc) :
    d.eachLine r g = match g d r.frame.addr (Frame.lineAt r.frame 0) with
      | (e, .wait) => (e, r, false)
      | (e, a) => (e, { r with next := 1, status := a.code }, true) := by
  have hone : Frame.nLines r.frame - r.next = 1 := by rw [Frame.nLines, hl, hn]; rfl
  rw [Dev.eachLine, hone]
  simp only [List.range_one, List.foldl_cons, List.foldl_nil, Bool.not_true, Bool.false_eq_true, if_false, hn, Nat.mul_zero,
    Nat.add_zero, Nat.zero_add]
  split <;> simp_all

theorem Dev.eachLine_acked (hl : r.frame.linesM1 = 0) (hn : r.next = 0) (hst : r.status = 0) {g : Dev → Nat → Line → Dev × Acc} {a : Acc}
    (hg : g d r.frame.addr (Frame.lineAt r.frame 0) = (e, a)) (ha : a ≠ .wait) :
    (d.eachLine r g).1.ackServed (d.eachLine r g).2.1 (d.eachLine r g).2.2 = (e.sendAnswer (e.ackOf r.frame a.code), none) := by
  rw [Dev.eachLine_one hl hn hst, hg]
  cases a <;> first | exact absurd rfl ha | rfl

theorem Dev.eachLine_waits (hl : r.frame.linesM1 = 0) (hn : r.next = 0) (hst : r.status = 0) {g : Dev → Nat → Line → Dev × Acc}
    (hg : g d r.frame.addr (Frame.lineAt r.frame 0) = (e, .wait)) :
    (d.eachLine r g).1.ackServed (d.eachLine r g).2.1 (d.eachLine r g).2.2 = (e, some r) := by
  rw [Dev.eachLine_one hl hn hst, hg]
  rfl

/-- The answer to a READ_REQ of one line (R276, R282). -/
def Dev.readAnswer (d : Dev) (f : Frame) (st : Nat) (v : Line) : Frame :=
  { Frame.plain 5 0 f.srcId d.selfId f.addr 0 f.xferTag with
    srcCtx := f.srcCtx, attr := Fin.ofNat 4 st, payload := if st = 0 then v.bytes else [], ash := if st = 0 then [v.ash] else [] }

theorem Dev.readResps_one (d : Dev) (f : Frame) (st : Nat) (v : Line) : d.readResps f [(st, v)] = [d.readAnswer f st v] := by
  simp [Dev.readResps, statusRuns, Dev.readAnswer]

/-- What a read of a local address answers: its status and line. -/
def LGot.answer : LGot → Nat × Line
  | .line v => (0, v)
  | .absent => (2, Line.zerosAsh)
  | _ => (3, Line.zerosAsh)

theorem Dev.readLines_one (hl : r.frame.linesM1 = 0) (hgot : r.got = []) :
    d.readLines p r = match d.localRead r.frame.addr 0 none (r.words 0) (whoPort p) with
      | (e, .wait) => (e, r, false)
      | (e, x) => (e, { r with got := [x.answer] }, true) := by
  have hone : Frame.nLines r.frame - r.got.length = 1 := by rw [Frame.nLines, hl, hgot]; rfl
  rw [Dev.readLines, hone]
  simp only [List.range_one, List.foldl_cons, List.foldl_nil, Bool.not_true, Bool.false_eq_true, if_false, hgot, List.length_nil,
    Nat.mul_zero, Nat.add_zero, List.nil_append]
  generalize d.localRead r.frame.addr 0 none (r.words 0) (whoPort p) = x
  obtain ⟨e, x⟩ := x
  cases x <;> rfl

theorem Dev.serveRead_answered (hl : r.frame.linesM1 = 0) (hgot : r.got = []) {x : LGot}
    (hread : d.localRead r.frame.addr 0 none (r.words 0) (whoPort p) = (e, x)) (hx : x ≠ .wait) :
    d.serveRead p r = (e.sendAnswer (e.readAnswer r.frame x.answer.1 x.answer.2), none) := by
  have hresps : e.readResps r.frame [x.answer] = [e.readAnswer r.frame x.answer.1 x.answer.2] := Dev.readResps_one ..
  have hlines : d.readLines p r = (e, { r with got := [x.answer] }, true) := by
    rw [Dev.readLines_one hl hgot, hread]
    cases x <;> first | exact absurd rfl hx | rfl
  rw [Dev.serveRead, hlines]
  simp only [if_true, hresps, List.foldl_cons, List.foldl_nil]

theorem Dev.serveRead_waits (hl : r.frame.linesM1 = 0) (hgot : r.got = [])
    (hread : d.localRead r.frame.addr 0 none (r.words 0) (whoPort p) = (e, .wait)) : d.serveRead p r = (e, some r) := by
  rw [Dev.serveRead, Dev.readLines_one hl hgot, hread]
  rfl

end

section
variable {s : State} {p : Fin 16} {f : Frame} {q : Nat} {c : Instr} {r : RxFrame} {rivals : List Nat} {e : Dev}

/-- A READ_REQ of one line that is served and answered (R276, R282). -/
theorem State.Brought.readAnswered (g : s.Brought p f 4 c r rivals) (hl : f.linesM1 = 0) (hgot : r.got = []) {x : LGot} (hx : x ≠ .wait)
    (hread : (s.dev.readied p.val r).localRead f.addr 0 none (r.words 0) (whoPort p.val) = (e, x)) (hconv : s.dev.Converses e)
    (hvia : s.dev.AnswersVia f.srcId f.vl.val q) :
    ∃ t, Machine.exec c s = .next t ∧
      s.Answered t f 5 x.answer.1 q (if x.answer.1 = 0 then x.answer.2.bytes else []) (if x.answer.1 = 0 then [x.answer.2.ash] else []) ∧
      s.Stands t e := by
  have hframe := g.frame
  have hvl : f.vl = 0 := by
    have hlane : decide (f.vl = 0) = true := g.isFor.2.1
    exact of_decide_eq_true hlane
  have hs : (s.dev.readied p.val r).serveFrame p.val r rivals =
      (e.sendAnswer (e.readAnswer (frameOf 4 f) x.answer.1 x.answer.2), none) := by
    have hserve := Dev.serveRead_answered (d := s.dev.readied p.val r) (p := p.val) (r := r) (by rw [hframe]; exact hl) hgot
      (by rw [hframe]; exact hread) hx
    rw [hframe] at hserve
    have hty : r.frame.ftype.val = 4 := by rw [hframe]; rfl
    simp only [Dev.serveFrame, hty, hserve]
  have hstatus : x.answer.1 < 4 := by
    cases x <;> simp [LGot.answer]
  obtain ⟨t, ht, hqueue, hstands⟩ := g.answered (a := e.readAnswer (frameOf 4 f) x.answer.1 x.answer.2) hs hconv (by rw [hvl] at hvia; exact hvia)
  exact ⟨t, ht, ⟨_, hqueue, rfl, rfl, hconv.selfId, rfl, hl.symm, rfl, rfl, Nat.mod_eq_of_lt hstatus, rfl, rfl⟩, hstands⟩

/-- The clock of a region that a frame waits for starts, which the counts of frames do not show. -/
theorem Dev.wakeRegion_rx (d : Dev) (g p : Nat) :
    ∃ od, d.wakeRegion g = { d with od := od } ∧ tget 0 od (Obj.FRAMES_RX.key p 0) = tget 0 d.od (Obj.FRAMES_RX.key p 0) := by
  obtain ⟨⟨od, hod⟩, hsame⟩ := d.wakeRegion_spec g
  refine ⟨od, hod, ?_⟩
  rw [hod] at hsame
  refine hsame _ ?_
  simp only [ObjDef.key, Obj.FRAMES_RX, Obj.CLOCK_STATE, Kind.stride, List.mem_singleton]
  omega

end

end Sys2Proof.Machine
end

section
/-! What a read, a write or an addition of a sector changes (R174, R186, R193, R194). -/

namespace Sys2Proof.Machine

/-- A key of an object of a stack other than its ECC_MODE and FOLD_ADD_SECTORS. -/
def stackNoise (k : Nat) : Prop := 0x12000 * 256 ≤ k ∧ k < 0x13000 * 256 ∧ k % 0x8000 ≠ 3 ∧ k % 0x8000 ≠ 0x804

theorem stackNoise_key {o : ObjDef} {st e : Nat} (ho : o.kind = .stack ∧ 0x12000 ≤ o.base ∧ o.base < 0x12004 ∧ o.base ≠ 0x12000 ∧ o.lo ≤ 64)
    (hst : st < 32) (he : e < 64) : stackNoise (o.key st e) := by
  obtain ⟨hkind, hlow, hhigh, hne, hlo⟩ := ho
  simp only [stackNoise, ObjDef.key, hkind, Kind.stride]
  omega

theorem stackNoise_not_route {k : Nat} (h : stackNoise k) : k ∉ routeKeys := by
  obtain ⟨hlow, hhigh, -, -⟩ := h
  intro hm
  have := routeKeys_not_stack k hm
  omega

theorem ecc_not_stackNoise (st : Nat) : ¬ stackNoise (Obj.ECC_MODE.key st 0) := by
  simp only [stackNoise, ObjDef.key, Obj.ECC_MODE, Kind.stride]
  omega

theorem fold_not_stackNoise (st : Nat) : ¬ stackNoise (Obj.FOLD_ADD_SECTORS.key st 0) := by
  simp only [stackNoise, ObjDef.key, Obj.FOLD_ADD_SECTORS, Kind.stride]
  omega

theorem stackKey_not_event {o : ObjDef} (ho : o.kind = .stack ∧ 0x12000 ≤ o.base) (st e : Nat) : o.key st e ∉ eventKeys := by
  intro hm
  have hlt := lt_of_mem_eventKeys hm
  obtain ⟨hkind, hbase⟩ := ho
  simp only [ObjDef.key, hkind, Kind.stride] at hlt
  omega

theorem chanOfSec_lt (sec : Nat) : chanOfSec sec < 32 :=
  Nat.xor_lt_two_pow (n := 5) (by rw [bits_eq]; omega) (by rw [bits_eq]; omega)

theorem pchOfSec_lt (sec : Nat) : pchOfSec sec < 64 := by
  have hc := chanOfSec_lt sec
  have hb : bits (64 * sec) 13 13 < 2 := by rw [bits_eq]; omega
  rw [pchOfSec]
  omega

/-- What serving a request at a stack can change: the stacks, but for their windows and for a pseudo-channel failing; their counts; and of
what they store, the sectors whose keys are in `ks`. -/
structure Dev.Stirs (a b : Dev) (ks : List Nat) : Prop where
  units : b.hearths = a.hearths ∧ b.slow = a.slow ∧ b.net = a.net ∧ b.ports = a.ports ∧ b.dom = a.dom
  bmax : ∀ k, (b.stack k).bmax = (a.stack k).bmax
  live : ∀ k p, a.pch k p ≠ .failed → b.pch k p ≠ .failed
  stored : ∀ k ∉ ks, tget Sector.ashSector b.hbm k = tget Sector.ashSector a.hbm k
  objects : ∀ k, ¬ stackNoise k → k ∉ eventKeys → tget 0 b.od k = tget 0 a.od k

section
variable {a b c d : Dev} {ks : List Nat} {st sec : Nat}

theorem Dev.Stirs.refl (d : Dev) (ks : List Nat) : d.Stirs d ks :=
  ⟨⟨rfl, rfl, rfl, rfl, rfl⟩, fun _ => rfl, fun _ _ h => h, fun _ _ => rfl, fun _ _ _ => rfl⟩

theorem Dev.Stirs.trans (g : a.Stirs b ks) (h : b.Stirs c ks) : a.Stirs c ks := by
  obtain ⟨⟨h1, h2, h3, h4, h5⟩, hbmax, hlive, hstored, hobjects⟩ := g
  obtain ⟨⟨k1, k2, k3, k4, k5⟩, kbmax, klive, kstored, kobjects⟩ := h
  exact ⟨⟨k1.trans h1, k2.trans h2, k3.trans h3, k4.trans h4, k5.trans h5⟩, fun k => (kbmax k).trans (hbmax k),
    fun k p hp => klive k p (hlive k p hp), fun k hk => (kstored k hk).trans (hstored k hk),
    fun k hn he => (kobjects k hn he).trans (hobjects k hn he)⟩

theorem Dev.Stirs.widen (g : a.Stirs b []) (ks : List Nat) : a.Stirs b ks :=
  ⟨g.units, g.bmax, g.live, fun k _ => g.stored k (List.not_mem_nil), g.objects⟩

theorem Dev.Stirs.get (g : a.Stirs b ks) {o : ObjDef} {i e : Nat} (hn : ¬ stackNoise (o.key i e)) (he : o.key i e ∉ eventKeys) :
    b.get o i e = a.get o i e := by simp only [Dev.get, g.objects _ hn he]

theorem Dev.Stirs.converses (g : a.Stirs b ks) : a.Converses b := by
  obtain ⟨-, -, hnet, hports, hdom⟩ := g.units
  exact .of_od hnet hports hdom fun k hk => g.objects k (fun hn => stackNoise_not_route hn hk) (routeKeys_not_event k hk)

theorem Dev.Stirs.sector (g : a.Stirs b []) (st sec : Nat) : b.sector st sec = a.sector st sec := g.stored _ List.not_mem_nil

theorem Dev.Stirs.noWindow (g : a.Stirs b ks) (h : a.NoWindow st) : b.NoWindow st := fun w hw => by rw [g.bmax]; exact h w hw

theorem Dev.Stirs.secServed (g : a.Stirs b ks) (h : a.secFailed st sec = false) : b.secFailed st sec = false :=
  decide_eq_false (g.live _ _ (of_decide_eq_false h))

/-- A sector that is not in a failed pseudo-channel reads as it did. -/
theorem Dev.Stirs.peek (g : a.Stirs b []) (h : a.secFailed st sec = false) : b.peek st sec = a.peek st sec := by
  have hecc : b.get Obj.ECC_MODE st = a.get Obj.ECC_MODE st := g.get (ecc_not_stackNoise st) (stackKey_not_event (by decide) st 0)
  simp only [Dev.peek, Dev.verdict, g.secServed h, h, g.sector, hecc]

theorem Dev.Stirs.of_onlyOd {l : List Nat} (g : a.OnlyOd b l) (hl : ∀ k ∈ l, stackNoise k) : a.Stirs b ks := by
  obtain ⟨⟨od, rfl⟩, hs⟩ := g
  exact ⟨⟨rfl, rfl, rfl, rfl, rfl⟩, fun _ => rfl, fun _ _ h => h, fun _ _ => rfl, fun k hn _ => hs k fun hm => hn (hl k hm)⟩

theorem Dev.Stirs.put {o : ObjDef} {e : Nat} (v : Nat) (hk : stackNoise (o.key st e)) : d.Stirs (d.put o v st e) ks :=
  .of_onlyOd (l := [o.key st e]) (Dev.put_onlyOd (by simp)) (by simpa using hk)

theorem Dev.Stirs.bump {o : ObjDef} {e : Nat} (n : Nat) (hk : stackNoise (o.key st e)) : d.Stirs (d.bump o st n e) ks :=
  .of_onlyOd (l := [o.key st e]) (Dev.bump_onlyOd (by simp)) (by simpa using hk)

theorem Dev.stack_setStack (d : Dev) (st k : Nat) (x : Stack) : (d.setStack st x).stack k = if k = st then x else d.stack k := by
  split
  next h => rw [h, Dev.stack_setStack_self]
  next h => exact d.stack_setStack_ne h x

/-- A change of a stack that leaves its windows and fails no pseudo-channel. -/
theorem Dev.Stirs.setStack {x : Stack} (hbmax : x.bmax = (d.stack st).bmax)
    (hlive : ∀ p, d.pch st p ≠ .failed → tget Pch.off x.pch p ≠ .failed) : d.Stirs (d.setStack st x) ks where
  units := ⟨rfl, rfl, rfl, rfl, rfl⟩
  bmax k := by rw [Dev.stack_setStack]; split <;> simp_all
  live k p h := by
    simp only [Dev.pch, Dev.stack_setStack] at h ⊢
    split
    next hk => exact hlive p (hk ▸ h)
    next => exact h
  stored _ _ := rfl
  objects _ _ _ := rfl

/-- A change of a stack that leaves its windows and its pseudo-channels. -/
theorem Dev.Stirs.modStack {f : Stack → Stack} (hbmax : (f (d.stack st)).bmax = (d.stack st).bmax) (hpch : (f (d.stack st)).pch = (d.stack st).pch) :
    d.Stirs (d.modStack st f) ks := .setStack hbmax fun p h => by rw [hpch]; exact h

theorem Dev.Stirs.raise (h : d.NoSubscriber) (e : Ev) (k : Kind) (i : Nat) (s : Option Nat) (det hi : Nat) :
    d.Stirs (d.raise e k i s det hi) ks := by
  have hrec := d.raise_recorded e k i s det hi
  have hnet := (Dev.raise_converses h e k i s det hi).net
  obtain ⟨⟨od, ev, host, i3c, pilot, net, heq⟩, hk⟩ := hrec
  rw [heq] at hnet hk ⊢
  exact ⟨⟨rfl, rfl, hnet, rfl, rfl⟩, fun _ => rfl, fun _ _ h => h, fun _ _ => rfl, fun k _ he => hk k he⟩

theorem Dev.Stirs.noSubscriber (g : a.Stirs b ks) (h : a.NoSubscriber) : b.NoSubscriber := g.converses.noSubscriber h

/-- A sector of `ks` is stored. -/
theorem Dev.Stirs.setSector (x : Sector) (hk : hbmKey st sec ∈ ks) : d.Stirs (d.setSector st sec x) ks where
  units := ⟨rfl, rfl, rfl, rfl, rfl⟩
  bmax _ := rfl
  live _ _ h := h
  stored k hn := tget_tset_ne _ (by rintro rfl; exact hn hk) ..
  objects _ _ _ := rfl

/-! ### Pseudo-channels and retraining (R174, R182, R186) -/

theorem Dev.setPch_stirs (hst : st < 32) {p : Nat} (hp : p < 64) {v : Pch} (hv : v ≠ .failed) : d.Stirs (d.setPch st p v) ks := by
  refine Dev.Stirs.trans (.setStack ?_ fun q hq => ?_) (.put _ (stackNoise_key (by decide) hst (by omega)))
  · rfl
  · dsimp only
    rw [tget_tset]
    split
    · exact hv
    · exact hq

theorem Dev.wakePch_stirs (hst : st < 32) (sec : Nat) : d.Stirs (d.wakePch st sec) ks := by
  unfold Dev.wakePch
  dsimp only
  split
  · exact Dev.setPch_stirs hst (pchOfSec_lt sec) (by decide)
  · exact Dev.setPch_stirs hst (pchOfSec_lt sec) (by decide)
  · exact .refl ..

theorem Dev.askRetrain_stirs (hst : st < 32) (hs : d.NoSubscriber) {ch : Nat} (hch : ch < 32) : d.Stirs (d.askRetrain st ch) ks := by
  unfold Dev.askRetrain
  dsimp only
  split
  · exact .refl ..
  · split
    · have htrain : d.Stirs (d.setChan st ch .retrain) ks :=
        .trans (Dev.setPch_stirs hst (by omega) (by decide)) (Dev.setPch_stirs hst (by omega) (by decide))
      unfold Dev.beginRetrain
      extract_lets d1 d2
      have hcount : d.Stirs (d2.bump Obj.RETRAINS st) ks := by
        refine htrain.trans (.trans ?_ (.bump 1 (stackNoise_key (by decide) hst (by decide))))
        exact .modStack rfl rfl
      exact hcount.trans (.raise (hcount.noSubscriber hs) ..)
    · exact .modStack rfl rfl

theorem Dev.crcMismatch_stirs (hst : st < 32) (hs : d.NoSubscriber) (sec n : Nat) : d.Stirs (d.crcMismatch st sec n) ks := by
  unfold Dev.crcMismatch
  split
  · exact .refl ..
  · extract_lets d1 ch ts hit d2
    have h2 : d.Stirs d2 ks :=
      .trans (.bump (min n 4) (stackNoise_key (o := Obj.CRC_REPLAYS) (by decide) hst (by decide))) (.modStack rfl rfl)
    split
    · exact h2.trans (Dev.askRetrain_stirs hst (h2.noSubscriber hs) (chanOfSec_lt sec))
    · exact h2

/-! ### Reading a sector (R193) -/

theorem Dev.countCorrected_stirs (hst : st < 32) (hs : d.NoSubscriber) : d.Stirs (d.countCorrected st) ks := by
  unfold Dev.countCorrected
  extract_lets d1 n t
  have h1 : d.Stirs d1 ks := .bump 1 (stackNoise_key (by decide) hst (by decide))
  split
  · have h2 : d.Stirs (d1.modStack st fun x => { x with correctedSince := 0 }) ks := h1.trans (.modStack rfl rfl)
    exact h2.trans (.raise (h2.noSubscriber hs) ..)
  · exact h1.trans (.modStack rfl rfl)

theorem Dev.logBad_stirs (hst : st < 32) (hs : d.NoSubscriber) (sec : Nat) (src : ReadSource) : d.Stirs (d.logBad st sec src) ks := by
  unfold Dev.logBad
  extract_lets d1 old d2 d3
  have h2 : d.Stirs d2 ks := .trans (.bump 1 (stackNoise_key (by decide) hst (by decide))) (.put _ (stackNoise_key (by decide) hst (by decide)))
  have hold : ∀ x ∈ old.zipIdx, x.2 < 7 := fun x hx => by
    have := List.snd_lt_of_mem_zipIdx hx
    simpa [old] using this
  have h3 : d.Stirs d3 ks := by
    refine List.foldlRecOn (motive := fun b => d.Stirs b ks) old.zipIdx _ h2 fun b hb x hx => hb.trans (.put _ (stackNoise_key (by decide) hst ?_))
    have := hold x hx
    omega
  exact h3.trans (.raise (h3.noSubscriber hs) ..)

theorem Dev.readSec_stirs (hst : st < 32) (hs : d.NoSubscriber) (sec : Nat) (src : ReadSource) :
    d.Stirs (d.readSec st sec src).1 [hbmKey st sec] ∧ (d.readSec st sec src).2 = d.peek st sec := by
  have hkey : hbmKey st sec ∈ [hbmKey st sec] := by simp
  unfold Dev.readSec
  extract_lets l x
  split
  · exact ⟨.refl .., rfl⟩
  · split
    · exact ⟨.refl .., rfl⟩
    · have h1 : d.Stirs (d.bump Obj.ASH_SECTORS_READ st) [hbmKey st sec] := .bump 1 (stackNoise_key (by decide) hst (by decide))
      split
      · exact ⟨(h1.trans (Dev.countCorrected_stirs hst (h1.noSubscriber hs))).trans (.setSector _ hkey), rfl⟩
      · exact ⟨h1, rfl⟩
    · exact ⟨(Dev.countCorrected_stirs hst hs).trans (.setSector _ hkey), rfl⟩
    · exact ⟨Dev.logBad_stirs hst hs sec src, rfl⟩

/-! ### Writing a sector (R194) -/

/-- What a sector holds that a line is written to. -/
def Line.stored (v : Line) : Sector := if v.ash then Sector.ashSector else ⟨fit 0 64 v.bytes, false, []⟩

theorem Dev.storeSec_stirs (hf : d.secFailed st sec = false) (v : Line) :
    d.Stirs (d.storeSec st sec v) [hbmKey st sec] ∧ (d.storeSec st sec v).sector st sec = v.stored := by
  have h1 : d.Stirs (d.setSector st sec v.stored) [hbmKey st sec] := .setSector _ (by simp)
  have hself : (d.setSector st sec v.stored).sector st sec = v.stored := tget_tset_self ..
  unfold Dev.storeSec
  rw [if_neg (by simp [hf])]
  extract_lets d1 x rs vs
  split
  · exact ⟨h1, hself⟩
  · exact ⟨h1.trans (.setStack rfl fun _ hp => hp), hself⟩

/-- A write under no armed window stores its line, and nothing else. -/
theorem Dev.writeSec_stirs (hf : d.secFailed st sec = false) (hw : d.NoWindow st) (v : Line) :
    d.Stirs (d.writeSec st sec v) [hbmKey st sec] ∧ (d.writeSec st sec v).sector st sec = v.stored := by
  obtain ⟨hstirs, hsector⟩ := Dev.storeSec_stirs hf v
  have hwrite : d.writeSec st sec v = d.storeSec st sec v := by
    unfold Dev.writeSec Dev.writeFuel
    dsimp only
    rw [if_neg (by simp [hstirs.secServed hf])]
    refine List.foldlRecOn (motive := fun b => b = d.storeSec st sec v) (List.range 8) _ rfl fun b hb w hmem => ?_
    rw [hb, hstirs.noWindow hw w (List.mem_range.mp hmem)]
  rw [hwrite]
  exact ⟨hstirs, hsector⟩

/-! ### Requests that are served (R174, R213, R282) -/

theorem Dev.gate_serve (h : d.gate st sec = .serve) : d.secFailed st sec = false := by
  have hchan : d.chanGate st sec = .serve := by
    unfold Dev.gate at h
    split at h
    · cases h
    · split at h
      · cases h
      · split at h
        · exact h
        · cases h
  refine decide_eq_false fun hf => ?_
  simp [Dev.chanGate, hf] at hchan

theorem Dev.hbmPut_served (hst : st < 32) (hs : d.NoSubscriber) (hg : d.gate st sec = .serve) (hw : d.NoWindow st) (v : Line) :
    ∃ e, d.hbmPut st sec v [] none = (e, .ok) ∧ d.Stirs e [hbmKey st sec] ∧
      e.sector st sec = (if 5 ≤ d.crcFails st sec then Line.zerosAsh else v).stored := by
  have hwake : d.Stirs (d.wakePch st sec) [hbmKey st sec] := Dev.wakePch_stirs hst sec
  have hwrite := fun v => Dev.writeSec_stirs (hwake.secServed (Dev.gate_serve hg)) (hwake.noWindow hw) v
  simp only [Dev.hbmPut, Dev.hbmPutAs, hg, Dev.chargeHbm, List.isEmpty_nil, if_true]
  rw [← apply_ite (Dev.writeSec (d.wakePch st sec) st sec)]
  generalize (if 5 ≤ d.crcFails st sec then Line.zerosAsh else v) = x
  obtain ⟨hstirs, hsector⟩ := hwrite x
  have hall := hwake.trans hstirs
  have hcrc := Dev.crcMismatch_stirs (ks := []) hst (hall.noSubscriber hs) sec (d.crcFails st sec)
  exact ⟨_, rfl, hall.trans (hcrc.widen _), (hcrc.sector st sec).trans hsector⟩

theorem Dev.bumpFold_converses (hst : st < 32) : d.Converses (d.bump Obj.FOLD_ADD_SECTORS st) :=
  Dev.OnlyOd.converses (ks := [Obj.FOLD_ADD_SECTORS.key st 0]) (Dev.bump_onlyOd (by simp)) fun k hk hm => by
    have := routeKeys_not_stack k hm
    rw [List.mem_singleton.mp hk] at this
    simp only [ObjDef.key, Obj.FOLD_ADD_SECTORS, Kind.stride] at this
    omega

theorem Dev.foldAdd_served (hst : st < 32) (hs : d.NoSubscriber) (hg : d.gate st sec = .serve) (hw : d.NoWindow st)
    (hn : d.crcFails st sec < 5) (bf16 : Bool) (v : Line) :
    ∃ b e, d.foldAdd st sec bf16 v none = (e, .ok) ∧ d.Stirs b [hbmKey st sec] ∧ (b.bump Obj.FOLD_ADD_SECTORS st).Stirs e [] ∧
      e.sector st sec = (foldLine bf16 (d.peek st sec) v).stored := by
  have hserved := Dev.gate_serve hg
  have hwake : d.Stirs (d.wakePch st sec) [] := Dev.wakePch_stirs hst sec
  have hread := Dev.readSec_stirs hst (hwake.noSubscriber hs) sec .hob
  simp only [Dev.foldAdd, Dev.foldAddAs, hg, Dev.chargeHbm, Nat.not_le.mpr hn, if_false]
  generalize (d.wakePch st sec).readSec st sec .hob = r at hread ⊢
  obtain ⟨d1, old⟩ := r
  obtain ⟨hstirs, hold⟩ := hread
  have hclock : d.Stirs (d1.modStack st fun x => { x with hobClock := true }) [hbmKey st sec] :=
    ((hwake.widen _).trans hstirs).trans (.modStack rfl rfl)
  obtain ⟨hput, hsector⟩ := Dev.writeSec_stirs (hclock.secServed hserved) (hclock.noWindow hw) (foldLine bf16 old v)
  have hall := hclock.trans hput
  have hcrc := Dev.crcMismatch_stirs (ks := []) hst ((Dev.bumpFold_converses hst).noSubscriber (hall.noSubscriber hs)) sec (d.crcFails st sec)
  refine ⟨_, _, rfl, hall, hcrc, ?_⟩
  rw [hcrc.sector, Dev.sector, (Dev.hbm_bump ..).1, ← hwake.peek hserved, ← hold]
  exact hsector

theorem Dev.stackRead_served (hst : st < 32) (hs : d.NoSubscriber) (hg : d.gate st sec = .serve) (hn : d.crcFails st sec < 5) :
    ∃ e, d.stackRead st (.data sec) 0 none .demand = (e, .line (d.peek st sec)) ∧ d.Stirs e [hbmKey st sec] := by
  have hwake : d.Stirs (d.wakePch st sec) [] := Dev.wakePch_stirs hst sec
  have hread := Dev.readSec_stirs hst (hwake.noSubscriber hs) sec .demand
  simp only [Dev.stackRead, Dev.srcSec, hg, Dev.stackReadAs, Dev.chargeHbm, Dev.chainEntries, Nat.not_le.mpr hn, if_false, if_true,
    List.isEmpty_nil, and_self, Dev.hobRead, Dev.srcOk, Bool.not_true, Bool.false_eq_true]
  generalize (d.wakePch st sec).readSec st sec .demand = r at hread ⊢
  obtain ⟨d1, l⟩ := r
  obtain ⟨hstirs, hl⟩ := hread
  have hall := (hwake.widen _).trans hstirs
  have hcrc := Dev.crcMismatch_stirs (ks := [hbmKey st sec]) hst (hall.noSubscriber hs) sec (d.crcFails st sec)
  exact ⟨_, by rw [show l = d.peek st sec from hl.trans (hwake.peek (Dev.gate_serve hg))], hall.trans hcrc⟩

end

end Sys2Proof.Machine
end

section
/-! Remote accesses to a scratchpad (R134, R275, R276, R282). -/

namespace Sys2Proof.Machine

/-! ### What a write from outside stores -/

section
variable {d e : Dev} {h : Nat}

/-- Changes of one hearth in a row change that hearth alone. -/
theorem Dev.foldl_modHearth {α : Type} (f : α → Hearth → Hearth) (l : List α) (d : Dev) (h : Nat) :
    ∃ hs, l.foldl (fun d k => d.modHearth h (f k)) d = { d with hearths := hs } ∧ ∀ j, j ≠ h → tget Hearth.fresh hs j = d.hearth j := by
  induction l generalizing d with
  | nil => exact ⟨d.hearths, rfl, fun _ _ => rfl⟩
  | cons k l ih =>
    obtain ⟨hs, hfold, hothers⟩ := ih (d.modHearth h (f k))
    exact ⟨hs, hfold, fun j hj => (hothers j hj).trans (Dev.hearth_setHearth_ne d hj _)⟩

/-- A line outside a run that is written stands. -/
theorem Dev.line_foldl_range_outside {put : Dev → Nat → Line → Dev} (hput : PutsLine h put) (g : Nat → Line) (l : Nat) (d : Dev) {n j : Nat}
    (hj : ∀ k < n, j % 32768 ≠ (l + k) % 32768) :
    (((List.range n).foldl (fun d k => put d (l + k) (g k)) d).hearth h).line j = (d.hearth h).line j := by
  refine List.foldlRecOn (motive := fun b : Dev => (b.hearth h).line j = (d.hearth h).line j) (List.range n) _ rfl fun b hb k hk => ?_
  exact ((hput b (l + k) (g k)).2 j (hj k (List.mem_range.mp hk))).trans hb

theorem Hearth.byte_setPart_one (x : Hearth) (a : Nat) (b : Byte) (ash : Bool) (k : Nat) :
    (x.setPart a [b] ash).byte k = if k % scrBytes = a % scrBytes then b else x.byte k := by
  simp only [Hearth.byte, Hearth.setPart, List.zipIdx_singleton, List.foldl_cons, List.foldl_nil, Nat.add_zero, tget_tset]

/-- Bytes written one by one, `g j` at `off + j`. -/
theorem Hearth.byte_foldl_setPart (g : Nat → Byte) (ash : Bool) {off k : Nat} (hk : k < scrBytes) (js : List Nat) (hjs : ∀ j ∈ js, off + j < scrBytes)
    (x : Hearth) : (js.foldl (fun x j => x.setPart (off + j) [g j] ash) x).byte k = if off ≤ k ∧ k - off ∈ js then g (k - off) else x.byte k := by
  induction js generalizing x with
  | nil => simp
  | cons j js ih =>
    have hj := hjs j List.mem_cons_self
    rw [List.foldl_cons, ih (fun i hi => hjs i (List.mem_cons_of_mem j hi)), Hearth.byte_setPart_one, Nat.mod_eq_of_lt hk, Nat.mod_eq_of_lt hj]
    by_cases hat : k = off + j
    · subst hat
      simp
    · have hne : off ≤ k → k - off ≠ j := by omega
      by_cases hle : off ≤ k
      · simp [hat, hle, hne hle]
      · simp [hat, hle]

/-- A byte of the one line of a frame. -/
theorem Frame.lineAt_getD (f : Frame) {j : Nat} (hj : j < 64) : (Frame.lineAt f 0).bytes.getD j 0 = f.payload.getD j 0 := by
  have htake : (f.payload.take 64).getD j 0 = f.payload.getD j 0 := by
    simp only [List.getD_eq_getElem?_getD, List.getElem?_take, hj, if_true]
  simp [Frame.lineAt, fit, hj, List.getD_eq_getElem?_getD] at htake ⊢

theorem Frame.fit_lineAt (f : Frame) (k : Nat) : fit 0 64 (Frame.lineAt f k).bytes = (Frame.lineAt f k).bytes :=
  fit_of_eq_length 0 (fit_length 0 64 _).symm

theorem Dev.raiseOnce_converses (hs : d.NoSubscriber) (h key : Nat) (ev : Ev) (det : Nat) : d.Converses (d.raiseOnce h key ev det) := by
  unfold Dev.raiseOnce
  split
  · exact .refl d
  · have hnote : d.Converses (d.modHearth h fun x => { x with once := key :: x.once }) := .of_od rfl rfl rfl fun _ _ => rfl
    exact hnote.trans (Dev.raise_converses (hnote.noSubscriber hs) ..)

/-- A remote write that is refused is counted, and nothing is stored (R134). -/
theorem Dev.remoteRefuse_spec (hs : d.NoSubscriber) (h : Nat) :
    d.Converses (d.remoteRefuse h) ∧ d.OnlyHearth (d.remoteRefuse h) h [Obj.REMOTE_WRITES_REFUSED.key h 0] ∧
      (∀ l, ((d.remoteRefuse h).hearth h).line l = (d.hearth h).line l) ∧
      (d.remoteRefuse h).get Obj.REMOTE_WRITES_REFUSED h = (d.get Obj.REMOTE_WRITES_REFUSED h + 1) % 2 ^ Obj.REMOTE_WRITES_REFUSED.bitsOf := by
  have hcount : d.OnlyOd (d.bump Obj.REMOTE_WRITES_REFUSED h) [Obj.REMOTE_WRITES_REFUSED.key h 0] := Dev.bump_onlyOd (by simp)
  have hconv : d.Converses (d.bump Obj.REMOTE_WRITES_REFUSED h) := hcount.converses fun k hk hm => by
    have hlt := routeKeys_lt k hm
    have hge := hearthKey_ge (o := Obj.REMOTE_WRITES_REFUSED) rfl (by decide) h 0
    rw [List.mem_singleton.mp hk] at hlt
    omega
  have honce := (d.bump Obj.REMOTE_WRITES_REFUSED h).raiseOnce_onlyHearth h Once.refused.num Event.remoteRefused 0
  refine ⟨hconv.trans (Dev.raiseOnce_converses (hconv.noSubscriber hs) ..), (Dev.OnlyHearth.of_onlyOd hcount).trans (honce _), fun l => ?_,
    (honce []).get_bumped (by decide) (by simp) one_ne_zero⟩
  obtain ⟨once, hhearth⟩ := (d.bump Obj.REMOTE_WRITES_REFUSED h).hearth_raiseOnce h Once.refused.num Event.remoteRefused 0
  rw [Dev.remoteRefuse, hhearth, Dev.hearth_bump]
  rfl

theorem Dev.meetSram_clean (d : Dev) (h : Nat) : d.meetSram h [] = d := rfl

theorem RxFrame.words_clean {r : RxFrame} (hr : r.errs = []) (k off : Nat) :
    (((r.words k).zipIdx).filter fun w => w.1 ≠ .clean && decide (w.2 < 8)).map (fun w => (off / 8 + w.2, w.1)) = [] := by
  simp only [RxFrame.words, hr, List.find?_nil, Option.map_none, Option.getD_none]
  rfl

end

/-! ### Frames that are served at a scratchpad -/

section
variable {s : State} {p : Fin 16} {f : Frame} {q h off ty : Nat} {c : Instr} {r : RxFrame} {rivals : List Nat}

theorem State.Stands.keepsMemory {t : State} {e : Dev} (g : s.Stands t e) (hhbm : e.hbm = s.dev.hbm) (hslow : e.slow = s.dev.slow) :
    s.KeepsMemory t := by
  obtain ⟨ports, net, rfl⟩ := g
  exact ⟨hhbm, hslow, rfl, rfl⟩

/-- A frame that the arrival alone has changed anything for keeps what is stored. -/
theorem State.Brought.kept (g : s.Brought p f ty c r rivals) {t : State} (ht : s.Stands t (s.dev.readied p.val r)) :
    t.dev.hearths = s.dev.hearths ∧ s.KeepsMemory t := by
  obtain ⟨hhearths, -, hhbm, hslow, -⟩ := g.arrives.units
  refine ⟨?_, ht.keepsMemory hhbm hslow⟩
  obtain ⟨ports, net, rfl⟩ := ht
  exact hhearths

/-- A frame that is acknowledged and does no more. -/
theorem State.Brought.turnedAway (g : s.Brought p f ty c r rivals) {status : Nat} (hst : status < 4)
    (hs : (s.dev.readied p.val r).serveFrame p.val r rivals =
      ((s.dev.readied p.val r).sendAnswer ((s.dev.readied p.val r).ackOf r.frame status), none)) (hvia : s.dev.AnswersVia f.srcId f.vl.val q) :
    ∃ t, Machine.exec c s = .next t ∧ s.Answered t f 0xB status q [] [] ∧ t.dev.hearths = s.dev.hearths ∧ s.KeepsMemory t := by
  obtain ⟨t, ht, hanswered, hstands⟩ := g.acked hst hs g.arrives.converses hvia
  obtain ⟨hhearths, hkeeps⟩ := g.kept hstands
  exact ⟨t, ht, hanswered, hhearths, hkeeps⟩

/-- A frame that waits for a region's clock, which it starts (R374). -/
theorem State.Brought.asleep (g : s.Brought p f ty c r rivals) {region : Nat}
    (hs : (s.dev.readied p.val r).serveFrame p.val r rivals = ((s.dev.readied p.val r).wakeRegion region, some r)) :
    ∃ t, Machine.exec c s = .next t ∧ s.FrameWaits t p.val r := by
  obtain ⟨od, hwake, hrx⟩ := (s.dev.readied p.val r).wakeRegion_rx region p.val
  exact g.held (arb := (s.dev.readied p.val r).arb) (by rw [hs, hwake]) hrx

section
variable (g : s.Brought p f 1 c r rivals) (ha : s.dev.area f.addr = .scr h off)
include g ha

theorem State.Brought.serveWrite_scr : (s.dev.readied p.val r).serveFrame p.val r rivals =
    if s.dev.hearthOpen h && !s.dev.clockOn (h / 64) then ((s.dev.readied p.val r).wakeRegion (h / 64), some r)
    else ((s.dev.readied p.val r).scrFrame h (off / 64) r.frame).1.ackServed
      { r with status := ((s.dev.readied p.val r).scrFrame h (off / 64) r.frame).2 } true := by
  have harr := g.arrives
  have hh := Dev.area_scr_lt ha
  have harea : (s.dev.readied p.val r).area r.frame.addr = .scr h off := by rw [harr.area p.isLt, g.frame]; exact ha
  have hty : r.frame.ftype.val = 1 := by rw [g.frame]; rfl
  simp only [Dev.serveFrame, hty, Dev.serveWrite, harea, harr.hearthOpen p.isLt, harr.clockOn p.isLt (r := h / 64) (by omega)]

theorem State.Brought.writeAdmitted (hopen : s.dev.hearthOpen h = true) (hclock : s.dev.clockOn (h / 64) = true)
    (hok : s.dev.remoteOk h (off / 64) (off / 64 + f.linesM1.val) = true) (hend : off / 64 + f.linesM1.val < 32768)
    (hvia : s.dev.AnswersVia f.srcId f.vl.val q) :
    ∃ t, Machine.exec c s = .next t ∧ (∀ k ≤ f.linesM1.val, (t.dev.hearth h).line (off / 64 + k) = Frame.lineAt f k) ∧
      (∀ l < 32768, l < off / 64 ∨ off / 64 + f.linesM1.val < l → (t.dev.hearth h).line l = (s.dev.hearth h).line l) ∧
      (∀ j, j ≠ h → t.dev.hearth j = s.dev.hearth j) ∧ s.Answered t f 0xB 0 q [] [] ∧ s.Counted t Obj.FRAMES_RX p.val 1 ∧ s.KeepsMemory t := by
  have harr := g.arrives
  obtain ⟨hhearths, -, hhbm, hslow, -⟩ := harr.units
  have hserve := g.serveWrite_scr ha
  obtain ⟨hs, hfold, hothers⟩ := Dev.foldl_modHearth (fun k x => x.setLine (off / 64 + k) (Frame.lineAt f k)) (List.range (f.linesM1.val + 1))
    (s.dev.readied p.val r) h
  have hscr : (s.dev.readied p.val r).scrFrame h (off / 64) r.frame = ({ s.dev.readied p.val r with hearths := hs }, 0) := by
    have hok' : (s.dev.readied p.val r).remoteOk h (off / 64) (off / 64 + r.frame.linesM1.val) = true := by
      rw [harr.remoteOk p.isLt, g.frame]; exact hok
    simp only [Dev.scrFrame, harr.hearthOpen p.isLt, hopen, hok', Bool.not_true, Bool.false_eq_true, if_false]
    rw [g.frame]
    exact congrArg (·, 0) hfold
  have hin := fun k (hk : k < f.linesM1.val + 1) =>
    Dev.line_foldl_range (putsLine_setLine h) (Frame.lineAt f) (off / 64) (s.dev.readied p.val r) (by omega) hk
  have hout := fun j (hj : ∀ k < f.linesM1.val + 1, j % 32768 ≠ (off / 64 + k) % 32768) =>
    Dev.line_foldl_range_outside (putsLine_setLine h) (Frame.lineAt f) (off / 64) (s.dev.readied p.val r) hj
  simp only [hfold] at hin hout
  simp only [hopen, hclock, hscr, Bool.not_true, Bool.and_false, Bool.false_eq_true, if_false] at hserve
  obtain ⟨t, ht, hanswered, hstands⟩ := g.acked (status := 0) (by decide) hserve (harr.converses.trans (.of_od rfl rfl rfl fun _ _ => rfl)) hvia
  refine ⟨t, ht, ?_, ?_, ?_, hanswered, ?_, hstands.keepsMemory hhbm hslow⟩
  all_goals obtain ⟨ports, net, rfl⟩ := hstands
  · intro k hk
    refine (hin k (by omega)).trans ?_
    rw [Frame.fit_lineAt]
  · intro l hl hside
    refine (hout l fun k hk => by omega).trans ?_
    simp only [Dev.hearth, hhearths]
  · intro j hj
    exact (hothers j hj).trans (by simp only [Dev.hearth, hhearths])
  · exact harr.counted

theorem State.Brought.writeRefused (hns : s.dev.NoSubscriber) (hopen : s.dev.hearthOpen h = true) (hclock : s.dev.clockOn (h / 64) = true)
    (hok : s.dev.remoteOk h (off / 64) (off / 64 + f.linesM1.val) = false) (hvia : s.dev.AnswersVia f.srcId f.vl.val q) :
    ∃ t, Machine.exec c s = .next t ∧ (∀ l, (t.dev.hearth h).line l = (s.dev.hearth h).line l) ∧ s.Answered t f 0xB 1 q [] [] ∧
      s.Counted t Obj.REMOTE_WRITES_REFUSED h 1 ∧ s.KeepsMemory t := by
  have harr := g.arrives
  obtain ⟨hhearths, -, hhbm, hslow, -⟩ := harr.units
  have hserve := g.serveWrite_scr ha
  have hscr : (s.dev.readied p.val r).scrFrame h (off / 64) r.frame = ((s.dev.readied p.val r).remoteRefuse h, 1) := by
    have hok' : (s.dev.readied p.val r).remoteOk h (off / 64) (off / 64 + r.frame.linesM1.val) = false := by
      rw [harr.remoteOk p.isLt, g.frame]; exact hok
    simp only [Dev.scrFrame, harr.hearthOpen p.isLt, hopen, hok', Bool.not_true, Bool.not_false, Bool.false_eq_true, if_false, if_true]
  obtain ⟨hconv, honly, hlines, hcounted⟩ := Dev.remoteRefuse_spec (harr.converses.noSubscriber hns) h
  simp only [hopen, hclock, hscr, Bool.not_true, Bool.and_false, Bool.false_eq_true, if_false] at hserve
  obtain ⟨t, ht, hanswered, hstands⟩ := g.acked (status := 1) (by decide) hserve (harr.converses.trans hconv) hvia
  refine ⟨t, ht, ?_, hanswered, ?_, hstands.keepsMemory (honly.hbm.trans hhbm) (honly.slow.trans hslow)⟩
  all_goals obtain ⟨ports, net, rfl⟩ := hstands
  · exact fun l => (hlines l).trans (by simp only [Dev.hearth, hhearths])
  · have hkey := hearthKey_ge (o := Obj.REMOTE_WRITES_REFUSED) rfl (by decide) h 0
    exact hcounted.trans (by rw [harr.get p.isLt (.inr (by omega))])

theorem State.Brought.writeAsleep (hopen : s.dev.hearthOpen h = true) (hclock : s.dev.clockOn (h / 64) = false) :
    ∃ t, Machine.exec c s = .next t ∧ s.FrameWaits t p.val r := by
  refine g.asleep (region := h / 64) ?_
  rw [g.serveWrite_scr ha, hopen, hclock]
  rfl

theorem State.Brought.writeAbsent (hopen : s.dev.hearthOpen h = false) (hvia : s.dev.AnswersVia f.srcId f.vl.val q) :
    ∃ t, Machine.exec c s = .next t ∧ t.dev.hearths = s.dev.hearths ∧ s.Answered t f 0xB 2 q [] [] ∧ s.KeepsMemory t := by
  have hserve := g.serveWrite_scr ha
  have hscr : (s.dev.readied p.val r).scrFrame h (off / 64) r.frame = (s.dev.readied p.val r, 2) := by
    simp only [Dev.scrFrame, g.arrives.hearthOpen p.isLt, hopen, Bool.not_false, if_true]
  simp only [hopen, hscr, Bool.false_and, Bool.false_eq_true, if_false] at hserve
  obtain ⟨t, ht, hanswered, hhearths, hkeeps⟩ := g.turnedAway (status := 2) (by decide) hserve hvia
  exact ⟨t, ht, hhearths, hanswered, hkeeps⟩

end

/-! ### WRITE_PARTIAL -/

section
variable (g : s.Brought p f 2 c r rivals)
include g

theorem State.Brought.partialInvalid (hl : f.linesM1 ≠ 0) (hvia : s.dev.AnswersVia f.srcId f.vl.val q) :
    ∃ t, Machine.exec c s = .next t ∧ t.dev.hearths = s.dev.hearths ∧ s.Answered t f 0xB 3 q [] [] ∧ s.KeepsMemory t := by
  have hlines : r.frame.linesM1 ≠ 0 := by rw [g.frame]; exact hl
  have hty : r.frame.ftype.val = 2 := by rw [g.frame]; rfl
  obtain ⟨t, ht, hanswered, hhearths, hkeeps⟩ := g.turnedAway (status := 3) (by decide)
    (by simp only [Dev.serveFrame, hty, Dev.servePartial, if_pos hlines, Dev.ackServed, if_true]) hvia
  exact ⟨t, ht, hhearths, hanswered, hkeeps⟩

/-- The bytes that EXT selects are written, and no others (R275, R282). -/
theorem State.Brought.partialAdmitted (hfresh : r.next = 0 ∧ r.status = 0) (ha : s.dev.area f.addr = .scr h off) (hl : f.linesM1 = 0)
    (hopen : s.dev.hearthOpen h = true) (hclock : s.dev.clockOn (h / 64) = true) (hok : s.dev.remoteOk h (off / 64) (off / 64) = true)
    (hend : off + 64 ≤ 2097152) (hvia : s.dev.AnswersVia f.srcId f.vl.val q) :
    ∃ t, Machine.exec c s = .next t ∧
      (∀ j < 64, (t.dev.hearth h).byte (off + j) = if bit f.ext j then f.payload.getD j 0 else (s.dev.hearth h).byte (off + j)) ∧
      (∀ a < 2097152, a < off ∨ off + 64 ≤ a → (t.dev.hearth h).byte a = (s.dev.hearth h).byte a) ∧
      (∀ j, j ≠ h → t.dev.hearth j = s.dev.hearth j) ∧ s.Answered t f 0xB 0 q [] [] ∧ s.KeepsMemory t := by
  have harr := g.arrives
  obtain ⟨hhearths, -, hhbm, hslow, -⟩ := harr.units
  obtain ⟨d, hd⟩ : ∃ d, d = s.dev.readied p.val r := ⟨_, rfl⟩
  have hh := Dev.area_scr_lt ha
  have hty : r.frame.ftype.val = 2 := by rw [g.frame]; rfl
  have hlines : r.frame.linesM1 = 0 := by rw [g.frame]; exact hl
  obtain ⟨js, hjs⟩ : ∃ js, js = (List.range 64).filter fun j => ((List.range 64).map fun b => bit r.frame.ext b).getD j false := ⟨_, rfl⟩
  have hmem : ∀ j, j ∈ js ↔ j < 64 ∧ bit f.ext j = true := by
    intro j
    rw [hjs, List.mem_filter, List.mem_range, g.frame]
    refine and_congr_right fun hj => ?_
    simp [List.getD_eq_getElem?_getD, hj, frameOf]
  obtain ⟨v, hv⟩ : ∃ v, v = Frame.lineAt r.frame 0 := ⟨_, rfl⟩
  obtain ⟨write, hwrite⟩ : ∃ w : Hearth → Hearth, w = fun x => js.foldl (fun x j => x.setPart (off + j) [v.bytes.getD j 0] v.ash) x := ⟨_, rfl⟩
  have hput : d.localWrite r.frame.addr v ((List.range 64).map fun b => bit r.frame.ext b) none (whoPort p.val) = (d.modHearth h write, .ok) := by
    have harea : d.area r.frame.addr = .scr h off := by rw [hd, harr.area p.isLt, g.frame]; exact ha
    have hopen' : d.hearthOpen h = true := by rw [hd, harr.hearthOpen p.isLt]; exact hopen
    have hclock' : d.clockOn (h / 64) = true := by rw [hd, harr.clockOn p.isLt (by omega)]; exact hclock
    have hok' : d.remoteOk h (off / 64) (off / 64) = true := by rw [hd, harr.remoteOk p.isLt]; exact hok
    have hmask : ((List.range 64).map fun b => bit r.frame.ext b).isEmpty = false := rfl
    simp only [Dev.localWrite, harea, Dev.scrWrite, hopen', hclock', hmask, Dev.scrMasked, hok', Bool.not_true, Bool.and_false, Bool.false_eq_true,
      if_false, Answer.toAcc, ← hjs, ← hwrite]
  have hserve := Dev.eachLine_acked (d := d) (r := r) hlines hfresh.1 hfresh.2
    (g := fun d a v => d.localWrite a v ((List.range 64).map fun b => bit r.frame.ext b) none (whoPort p.val)) (hv ▸ hput) (by decide)
  have hframe : d.serveFrame p.val r rivals = ((d.modHearth h write).sendAnswer ((d.modHearth h write).ackOf r.frame 0), none) := by
    simp only [Dev.serveFrame, hty, Dev.servePartial, hlines, ne_eq, not_true, if_false]
    exact hserve
  have hconv : s.dev.Converses (d.modHearth h write) := hd ▸ harr.converses.trans (.of_od rfl rfl rfl fun _ _ => rfl)
  obtain ⟨t, ht, hanswered, hstands⟩ := g.acked (status := 0) (by decide) (by rw [← hd]; exact hframe) hconv hvia
  have hsame : ∀ j, d.hearth j = s.dev.hearth j := fun j => by rw [hd]; simp only [Dev.hearth, hhearths]
  have hbyte : ∀ k < 2097152, ((d.modHearth h write).hearth h).byte k =
      if off ≤ k ∧ k - off ∈ js then v.bytes.getD (k - off) 0 else (s.dev.hearth h).byte k := by
    intro k hk
    rw [Dev.modHearth, Dev.hearth_setHearth_self, hwrite, hsame]
    refine Hearth.byte_foldl_setPart (fun j => v.bytes.getD j 0) v.ash hk js (fun j hj => ?_) _
    have hj64 := ((hmem j).mp hj).1
    rw [scrBytes]
    omega
  refine ⟨t, ht, ?_, ?_, ?_, hanswered, hstands.keepsMemory (hd ▸ hhbm) (hd ▸ hslow)⟩
  all_goals obtain ⟨ports, net, rfl⟩ := hstands
  · intro j hj
    have hat := hbyte (off + j) (by omega)
    rw [Nat.add_sub_cancel_left] at hat
    refine hat.trans ?_
    by_cases hbit : bit f.ext j = true
    · rw [if_pos ⟨by omega, (hmem j).mpr ⟨hj, hbit⟩⟩, if_pos hbit, hv, g.frame]
      exact Frame.lineAt_getD (frameOf 2 f) hj
    · rw [if_neg (fun hx => hbit ((hmem j).mp hx.2).2), if_neg hbit]
  · intro a hlt hside
    refine (hbyte a hlt).trans (if_neg fun hx => ?_)
    have hj := ((hmem _).mp hx.2).1
    omega
  · intro j hj
    exact (Dev.hearth_setHearth_ne d hj _).trans (hsame j)

end

/-! ### READ_REQ -/

section
variable (g : s.Brought p f 4 c r rivals) (hl : f.linesM1 = 0) (hgot : r.got = []) (ha : s.dev.area f.addr = .scr h off)
include g ha

theorem State.Brought.scrRead_eq (who : Nat) : (s.dev.readied p.val r).localRead f.addr 0 none (r.words 0) who =
    if s.dev.hearthOpen h = false then (s.dev.readied p.val r, .absent)
    else if s.dev.clockOn (h / 64) = false then ((s.dev.readied p.val r).wakeRegion (h / 64), .wait)
    else (s.dev.readied p.val r).localRead f.addr 0 none (r.words 0) who := by
  have harr := g.arrives
  have hh := Dev.area_scr_lt ha
  have harea : (s.dev.readied p.val r).area f.addr = .scr h off := by rw [harr.area p.isLt]; exact ha
  simp only [Dev.localRead, harea, Dev.scrRead, harr.hearthOpen p.isLt, harr.clockOn p.isLt (r := h / 64) (by omega)]
  cases s.dev.hearthOpen h <;> cases s.dev.clockOn (h / 64) <;> rfl

include hl hgot

theorem State.Brought.readAbsent (hopen : s.dev.hearthOpen h = false) (hvia : s.dev.AnswersVia f.srcId f.vl.val q) :
    ∃ t, Machine.exec c s = .next t ∧ s.Answered t f 5 2 q [] [] ∧ t.dev.hearths = s.dev.hearths ∧ s.KeepsMemory t := by
  have hread := g.scrRead_eq ha (whoPort p.val)
  rw [if_pos hopen] at hread
  obtain ⟨t, ht, hanswered, hstands⟩ := g.readAnswered hl hgot (by decide) hread g.arrives.converses hvia
  obtain ⟨hhearths, hkeeps⟩ := g.kept hstands
  exact ⟨t, ht, hanswered, hhearths, hkeeps⟩

theorem State.Brought.readAsleep (hopen : s.dev.hearthOpen h = true) (hclock : s.dev.clockOn (h / 64) = false) :
    ∃ t, Machine.exec c s = .next t ∧ s.FrameWaits t p.val r := by
  have hread := g.scrRead_eq ha (whoPort p.val)
  rw [if_neg (by simp [hopen]), if_pos hclock] at hread
  have hty : r.frame.ftype.val = 4 := by rw [g.frame]; rfl
  refine g.asleep (region := h / 64) ?_
  simp only [Dev.serveFrame, hty]
  exact Dev.serveRead_waits (by rw [g.frame]; exact hl) hgot (by rw [g.frame]; exact hread)

theorem State.Brought.readLine (hclean : r.errs = []) (hopen : s.dev.hearthOpen h = true) (hclock : s.dev.clockOn (h / 64) = true)
    (hheld : s.dev.heldRead h off 64 = false) (hvia : s.dev.AnswersVia f.srcId f.vl.val q) :
    ∃ t, Machine.exec c s = .next t ∧
      s.Answered t f 5 0 q ((s.dev.hearth h).line (off / 64)).bytes [((s.dev.hearth h).line (off / 64)).ash] ∧
      t.dev.hearths = s.dev.hearths ∧ s.KeepsMemory t := by
  have harr := g.arrives
  obtain ⟨hhearths, -⟩ := harr.units
  have hh := Dev.area_scr_lt ha
  have hread : (s.dev.readied p.val r).localRead f.addr 0 none (r.words 0) (whoPort p.val) =
      (s.dev.readied p.val r, .line ((s.dev.hearth h).line (off / 64))) := by
    have harea : (s.dev.readied p.val r).area f.addr = .scr h off := by rw [harr.area p.isLt]; exact ha
    have hheld' : (s.dev.readied p.val r).heldRead h off 64 = false := by
      rw [Dev.heldRead, Dev.hearth, hhearths]; exact hheld
    simp only [Dev.localRead, harea, Dev.scrRead, harr.hearthOpen p.isLt, harr.clockOn p.isLt (r := h / 64) (by omega), hopen, hclock, hheld',
      Bool.not_true, Bool.false_eq_true, if_false, RxFrame.words_clean hclean 0 off, Dev.meetSram_clean]
    rw [Dev.hearth, hhearths]
    rfl
  obtain ⟨t, ht, hanswered, hstands⟩ := g.readAnswered hl hgot (by exact LGot.noConfusion) hread harr.converses hvia
  obtain ⟨hkept, hkeeps⟩ := g.kept hstands
  exact ⟨t, ht, hanswered, hkept, hkeeps⟩

end

end

end Sys2Proof.Machine
end

section
/-! Frames that ask for service at a stack (R174, R213, R282), and what frames that ask for service do. -/

namespace Sys2Proof.Machine

/-! ### The stack that a frame asks -/

/-- `e` is the device that a request of a frame finds at a stack: it meets the request as `d` would, with the failed transfers `crc`. -/
structure Dev.Asked (d e : Dev) (crc : List (Nat × Nat)) : Prop where
  gate : ∀ st < 32, ∀ sec, e.gate st sec = d.gate st sec
  peek : ∀ st < 32, ∀ sec, e.peek st sec = d.peek st sec
  stks : e.stks = d.stks
  crc : e.crc = crc
  hearths : e.hearths = d.hearths
  slow : e.slow = d.slow
  hbm : e.hbm = d.hbm
  folds : ∀ st < 32, e.get Obj.FOLD_ADD_SECTORS st = d.get Obj.FOLD_ADD_SECTORS st
  converses : d.Converses e

section
variable {s : State} {p : Fin 16} {f : Frame} {ty q st sec : Nat} {c : Instr} {r : RxFrame} {rivals : List Nat}

/-- The device that a frame's request finds at a stack. -/
def Dev.askedBy (d : Dev) (p : Nat) (r : RxFrame) (st : Nat) : Dev := (d.readied p r).askStack st (whoPort p)

theorem Dev.askedBy_eq (d : Dev) (p : Nat) (r : RxFrame) (st : Nat) : ∃ w, d.askedBy p r st = { d.readied p r with arb := w } := by
  obtain ⟨w, hw, -⟩ := (d.readied p r).grantTo_spec (arbStack st) requesters (whoPort p) []
  exact ⟨w, hw⟩

theorem Dev.Arrives.asked {d d' : Dev} {p : Nat} (g : d.Arrives d' p) (hp : p < 16) (w : Tab Nat) : d.Asked { d' with arb := w } d'.crc := by
  obtain ⟨hhearths, -, hhbm, hslow, hstks⟩ := g.units
  have hget : ∀ o : ObjDef, o.kind = .stack ∧ o.base < 0x12080 ∧ o.lo ≤ 255 → ∀ k < 32, d'.get o k = d.get o k := by
    rintro o ⟨hkind, hbase, hlo⟩ k hk
    refine g.get hp (.inl ?_)
    simp only [ObjDef.key, hkind, Kind.stride]
    omega
  have hstack : ∀ k, d'.stack k = d.stack k := fun k => by rw [Dev.stack, hstks, Dev.stack]
  refine ⟨fun k hk sec => ?_, fun k hk sec => ?_, hstks, rfl, hhearths, hslow, hhbm, fun k hk => hget _ (by decide) k hk,
    g.converses.trans (.of_od rfl rfl rfl fun _ _ => rfl)⟩
  · show d'.gate k sec = d.gate k sec
    simp only [Dev.gate, Dev.chanGate, Dev.pch, hstack, hget Obj.STACK_STATE (by decide) k hk, g.clockOn hp (r := k / 2) (by omega)]
  · show d'.peek k sec = d.peek k sec
    have hsector : d'.sector k sec = d.sector k sec := by rw [Dev.sector, hhbm, Dev.sector]
    have hverdict : d'.verdict k sec = d.verdict k sec := by simp only [Dev.verdict, hsector, hget Obj.ECC_MODE (by decide) k hk]
    have hfailed : d'.secFailed k sec = d.secFailed k sec := 
      congrArg (fun x : Stack => decide (tget Pch.off x.pch (pchOfSec sec) = .failed)) (hstack k)
    simp only [Dev.peek, hsector, hverdict, hfailed]

theorem State.Brought.asked (g : s.Brought p f ty c r rivals) (st : Nat) : s.dev.Asked (s.dev.askedBy p.val r st) r.crc := by
  obtain ⟨w, hw⟩ := s.dev.askedBy_eq p.val r st
  rw [hw]
  exact g.arrives.asked p.isLt w

section
variable {d e : Dev} {crc : List (Nat × Nat)}

theorem Dev.Asked.noWindow (g : d.Asked e crc) (h : d.NoWindow st) : e.NoWindow st := fun w hw => by
  rw [Dev.stack, g.stks]; exact h w hw

theorem Dev.Asked.crcFails (g : d.Asked e crc) (st sec : Nat) : e.crcFails st sec = tget 0 crc (hbmKey st sec) := by rw [Dev.crcFails, g.crc]

end

/-- A frame that a stack has served and that is answered: no sector but its own has changed. -/
theorem State.Stands.onlySector {t : State} {e : Dev} {crc : List (Nat × Nat)} {a : Dev} (g : s.Stands t e) (ha : s.dev.Asked a crc)
    (hstirs : a.Stirs e [hbmKey st sec]) :
    t.dev.sector st sec = e.sector st sec ∧ s.dev.OnlySector t.dev st sec ∧ t.dev.hearths = s.dev.hearths ∧ t.dev.slow = s.dev.slow := by
  obtain ⟨ports, net, rfl⟩ := g
  obtain ⟨hhearths, hslow, -⟩ := hstirs.units
  exact ⟨rfl, fun k hk => (hstirs.stored k (by simpa using hk)).trans (congrArg (tget _ · k) ha.hbm), hhearths.trans ha.hearths, hslow.trans ha.slow⟩

/-- A frame that waits for the clock of a stack's region. -/
theorem State.Brought.asleepAtStack (g : s.Brought p f ty c r rivals) {region : Nat}
    (hs : (s.dev.readied p.val r).serveFrame p.val r rivals = ((s.dev.askedBy p.val r st).wakeRegion region, some r)) :
    ∃ t, Machine.exec c s = .next t ∧ s.FrameWaits t p.val r := by
  obtain ⟨w, hw⟩ := s.dev.askedBy_eq p.val r st
  obtain ⟨od, hwake, hrx⟩ := (s.dev.askedBy p.val r st).wakeRegion_rx region p.val
  rw [hw] at hrx
  exact g.held (arb := w) (by rw [hs, hwake, hw]) hrx

/-! ### WRITE -/

section
variable (g : s.Brought p f 1 c r rivals) (hfresh : r.next = 0 ∧ r.status = 0) (ha : s.dev.area f.addr = .hbm st sec) (hl : f.linesM1 = 0)
include g hfresh ha hl

theorem State.Brought.serveWrite_hbm {e : Dev} {x : Acc}
    (hput : (s.dev.askedBy p.val r st).hbmPut st sec (Frame.lineAt f 0) [] none = (e, x)) :
    (s.dev.readied p.val r).serveFrame p.val r rivals =
      if x = .wait then (e, some r) else (e.sendAnswer (e.ackOf r.frame x.code), none) := by
  have harea : (s.dev.readied p.val r).area r.frame.addr = .hbm st sec := by rw [g.arrives.area p.isLt, g.frame]; exact ha
  have hty : r.frame.ftype.val = 1 := by rw [g.frame]; rfl
  have hlines : r.frame.linesM1 = 0 := by rw [g.frame]; exact hl
  have hwrite : (s.dev.readied p.val r).localWrite r.frame.addr (Frame.lineAt r.frame 0) [] none (whoPort p.val) = (e, x) := by
    rw [Dev.localWrite, harea, g.frame]
    exact hput
  simp only [Dev.serveFrame, hty, Dev.serveWrite, harea]
  by_cases hx : x = .wait
  · rw [if_pos hx]
    exact Dev.eachLine_waits hlines hfresh.1 hfresh.2 (g := fun d a v => d.localWrite a v [] none (whoPort p.val)) (hx ▸ hwrite)
  · rw [if_neg hx]
    exact Dev.eachLine_acked hlines hfresh.1 hfresh.2 (g := fun d a v => d.localWrite a v [] none (whoPort p.val)) hwrite hx

theorem State.Brought.writeStored (hns : s.dev.NoSubscriber) (hgate : s.dev.gate st sec = .serve) (hw : s.dev.NoWindow st)
    (hvia : s.dev.AnswersVia f.srcId f.vl.val q) :
    ∃ t, Machine.exec c s = .next t ∧
      t.dev.sector st sec = (if 5 ≤ tget 0 r.crc (hbmKey st sec) then Line.zerosAsh else Frame.lineAt f 0).stored ∧
      s.dev.OnlySector t.dev st sec ∧ s.Answered t f 0xB 0 q [] [] ∧ t.dev.hearths = s.dev.hearths ∧ t.dev.slow = s.dev.slow := by
  have hasked := g.asked st
  have hst := Dev.area_hbm_lt ha
  obtain ⟨e, hput, hstirs, hsector⟩ := Dev.hbmPut_served hst (hasked.converses.noSubscriber hns) ((hasked.gate st hst sec).trans hgate)
    (hasked.noWindow hw) (Frame.lineAt f 0)
  have hserve := g.serveWrite_hbm hfresh ha hl hput
  rw [if_neg (by decide)] at hserve
  obtain ⟨t, ht, hanswered, hstands⟩ := g.acked (status := 0) (by decide) hserve (hasked.converses.trans hstirs.converses) hvia
  obtain ⟨hstored, honly, hhearths, hslow⟩ := hstands.onlySector hasked hstirs
  exact ⟨t, ht, by rw [hstored, hsector, hasked.crcFails], honly, hanswered, hhearths, hslow⟩

theorem State.Brought.writeAsleepAtStack (hgate : s.dev.gate st sec = .stopped) : ∃ t, Machine.exec c s = .next t ∧ s.FrameWaits t p.val r := by
  have hst := Dev.area_hbm_lt ha
  have hput : (s.dev.askedBy p.val r st).hbmPut st sec (Frame.lineAt f 0) [] none = ((s.dev.askedBy p.val r st).wakeRegion (st / 2), .wait) := by
    rw [Dev.hbmPut, (g.asked st).gate st hst sec, hgate]
    rfl
  have hserve := g.serveWrite_hbm hfresh ha hl hput
  rw [if_pos rfl] at hserve
  exact g.asleepAtStack hserve

theorem State.Brought.writeAbsentAtStack (hgate : s.dev.gate st sec = .absent) (hvia : s.dev.AnswersVia f.srcId f.vl.val q) :
    ∃ t, Machine.exec c s = .next t ∧ s.Answered t f 0xB 2 q [] [] ∧ t.dev.hearths = s.dev.hearths ∧ s.KeepsMemory t := by
  have hasked := g.asked st
  have hst := Dev.area_hbm_lt ha
  have hput : (s.dev.askedBy p.val r st).hbmPut st sec (Frame.lineAt f 0) [] none = (s.dev.askedBy p.val r st, .absent) := by
    rw [Dev.hbmPut, hasked.gate st hst sec, hgate]
    rfl
  have hserve := g.serveWrite_hbm hfresh ha hl hput
  rw [if_neg (by decide)] at hserve
  obtain ⟨t, ht, hanswered, hstands⟩ := g.acked (status := 2) (by decide) hserve hasked.converses hvia
  refine ⟨t, ht, hanswered, ?_, hstands.keepsMemory hasked.hbm hasked.slow⟩
  generalize s.dev.askedBy p.val r st = e at hasked hstands
  obtain ⟨ports, net, rfl⟩ := hstands
  exact hasked.hearths

end

/-! ### ADD -/

section
variable (g : s.Brought p f 3 c r rivals) (hfresh : r.next = 0 ∧ r.status = 0) (hl : f.linesM1 = 0) (hvia : s.dev.AnswersVia f.srcId f.vl.val q)
include g hfresh hl

theorem State.Brought.serveAdd_eq {e : Dev} {x : Acc} (hx : x ≠ .wait)
    (hadd : (s.dev.readied p.val r).localAdd f.addr (f.attr = 1) (Frame.lineAt f 0) none (whoPort p.val) = (e, x)) :
    (s.dev.readied p.val r).serveFrame p.val r rivals = (e.sendAnswer (e.ackOf r.frame x.code), none) := by
  have hty : r.frame.ftype.val = 3 := by rw [g.frame]; rfl
  have hlines : r.frame.linesM1 = 0 := by rw [g.frame]; exact hl
  have hadd' : (s.dev.readied p.val r).localAdd r.frame.addr (r.frame.attr = 1) (Frame.lineAt r.frame 0) none (whoPort p.val) = (e, x) := by
    rw [← hadd, g.frame]
    rfl
  simp only [Dev.serveFrame, hty, Dev.serveAdd]
  exact Dev.eachLine_acked hlines hfresh.1 hfresh.2 (g := fun d a v => d.localAdd a (r.frame.attr = 1) v none (whoPort p.val)) hadd' hx

include hvia

theorem State.Brought.addStored (hns : s.dev.NoSubscriber) (ha : s.dev.area f.addr = .hbm st sec) (hgate : s.dev.gate st sec = .serve)
    (hw : s.dev.NoWindow st) (hn : tget 0 r.crc (hbmKey st sec) < 5) :
    ∃ t, Machine.exec c s = .next t ∧
      t.dev.sector st sec = (foldLine (f.attr = 1) (s.dev.peek st sec) (Frame.lineAt f 0)).stored ∧
      s.Counted t Obj.FOLD_ADD_SECTORS st 1 ∧ s.dev.OnlySector t.dev st sec ∧ s.Answered t f 0xB 0 q [] [] ∧ t.dev.slow = s.dev.slow := by
  have hasked := g.asked st
  have hst := Dev.area_hbm_lt ha
  obtain ⟨b, e, hadd, hb, he, hsector⟩ := Dev.foldAdd_served hst (hasked.converses.noSubscriber hns) ((hasked.gate st hst sec).trans hgate)
    (hasked.noWindow hw) (by rw [hasked.crcFails]; exact hn) (f.attr = 1) (Frame.lineAt f 0)
  have hserve := g.serveAdd_eq (e := e) (x := .ok) hfresh hl (by decide) (by
    rw [Dev.localAdd, g.arrives.area p.isLt, ha]
    exact hadd)
  have hconv := (hasked.converses.trans hb.converses).trans ((Dev.bumpFold_converses hst).trans he.converses)
  obtain ⟨t, ht, hanswered, hstands⟩ := g.acked (status := 0) (by decide) hserve hconv hvia
  have hevent := stackKey_not_event (o := Obj.FOLD_ADD_SECTORS) (by decide) st 0
  have hcounted : e.get Obj.FOLD_ADD_SECTORS st = (s.dev.get Obj.FOLD_ADD_SECTORS st + 1) % 2 ^ Obj.FOLD_ADD_SECTORS.bitsOf := by
    rw [he.get (fold_not_stackNoise st) hevent, Dev.get_bump_self _ _ _ _ _ one_ne_zero, hb.get (fold_not_stackNoise st) hevent,
      hasked.folds st hst]
  obtain ⟨hbhbm, hbslow⟩ := b.hbm_bump Obj.FOLD_ADD_SECTORS st 1 0
  obtain ⟨ports, net, rfl⟩ := hstands
  refine ⟨_, ht, hsector.trans (by rw [hasked.peek st hst]), hcounted, fun k hk => ?_, hanswered, ?_⟩
  · rw [← hasked.hbm, ← hb.stored k (by simpa using hk), ← hbhbm]
    exact he.stored k List.not_mem_nil
  · exact he.units.2.1.trans (hbslow.trans (hb.units.2.1.trans hasked.slow))

theorem State.Brought.addRefused {w l : Nat} (ha : s.dev.area f.addr = .aper st w l) :
    ∃ t, Machine.exec c s = .next t ∧ s.Answered t f 0xB 1 q [] [] ∧ t.dev.hearths = s.dev.hearths ∧ s.KeepsMemory t :=
  g.turnedAway (status := 1) (by decide) (g.serveAdd_eq hfresh hl (x := .refused) (by decide) (by
    rw [Dev.localAdd, g.arrives.area p.isLt, ha])) hvia

theorem State.Brought.addInvalid {h off : Nat} (ha : s.dev.area f.addr = .scr h off) :
    ∃ t, Machine.exec c s = .next t ∧ s.Answered t f 0xB 3 q [] [] ∧ t.dev.hearths = s.dev.hearths ∧ s.KeepsMemory t :=
  g.turnedAway (status := 3) (by decide) (g.serveAdd_eq hfresh hl (x := .invalid) (by decide) (by
    rw [Dev.localAdd, g.arrives.area p.isLt, ha])) hvia

end

/-! ### READ_REQ -/

theorem State.Brought.readSector (g : s.Brought p f 4 c r rivals) (hgot : r.got = []) (hl : f.linesM1 = 0)
    (hvia : s.dev.AnswersVia f.srcId f.vl.val q) (hns : s.dev.NoSubscriber) (ha : s.dev.area f.addr = .hbm st sec)
    (hgate : s.dev.gate st sec = .serve) (hn : tget 0 r.crc (hbmKey st sec) < 5) :
    ∃ t, Machine.exec c s = .next t ∧ s.Answered t f 5 0 q (s.dev.peek st sec).bytes [(s.dev.peek st sec).ash] ∧
      s.dev.OnlySector t.dev st sec ∧ t.dev.hearths = s.dev.hearths ∧ t.dev.slow = s.dev.slow := by
  have hasked := g.asked st
  have hst := Dev.area_hbm_lt ha
  obtain ⟨e, hstack, hstirs⟩ := Dev.stackRead_served hst (hasked.converses.noSubscriber hns) ((hasked.gate st hst sec).trans hgate)
    (by rw [hasked.crcFails]; exact hn)
  have hread : (s.dev.readied p.val r).localRead f.addr 0 none (r.words 0) (whoPort p.val) = (e, .line (s.dev.peek st sec)) := by
    rw [← hasked.peek st hst, Dev.localRead, g.arrives.area p.isLt, ha]
    rw [Dev.askedBy] at hstack ⊢
    dsimp only
    rw [hstack]
    rfl
  obtain ⟨t, ht, hanswered, hstands⟩ := g.readAnswered hl hgot (by exact LGot.noConfusion) hread (hasked.converses.trans hstirs.converses) hvia
  obtain ⟨-, honly, hhearths, hslow⟩ := hstands.onlySector hasked hstirs
  exact ⟨t, ht, hanswered, honly, hhearths, hslow⟩

end

theorem Frame.stored_lineAt (f : Frame) :
    (Frame.lineAt f 0).stored = if f.ash.getD 0 false then Sector.ashSector else ⟨(Frame.lineAt f 0).bytes, false, []⟩ := by
  rw [Line.stored, Frame.fit_lineAt]
  rfl

/-- Settles O28: a frame that no other of its VL waits before is served on the device that its arrival leaves, whose hearths, stacks and
clocks are as they were; what it stores follows from the rule of the unit it addresses, and its answer goes out by the route that answers
had before it. -/
theorem requestFramesAreServedAndAnswered : Obligations.RequestFramesAreServedAndAnswered := by
  unfold Obligations.RequestFramesAreServedAndAnswered
  intro s p f q crc hns hvia
  have hwrite : s.dev.FrameFor p.val 1 f → s.Brought p f 1 (.write p f crc) (rxOf (frameOf 1 f) crc) [] := fun h => ⟨rfl, rfl, h⟩
  have hpart : s.dev.FrameFor p.val 2 f → s.Brought p f 2 (.writePartial p f crc) (rxOf (frameOf 2 f) crc) [] := fun h => ⟨rfl, rfl, h⟩
  have hadd : s.dev.FrameFor p.val 3 f → s.Brought p f 3 (.add p f crc) (rxOf (frameOf 3 f) crc) [] := fun h => ⟨rfl, rfl, h⟩
  have hread : s.dev.FrameFor p.val 4 f → ∀ errs, s.Brought p f 4 (.readReq p f errs crc) { rxOf (frameOf 4 f) crc with errs := errs } [] :=
    fun h _ => ⟨rfl, rfl, h⟩
  refine ⟨fun h off hfor ha => ⟨?_, ?_, ?_, ?_⟩, fun st sec hfor ha hl => ⟨?_, ?_, ?_, ?_⟩, fun h off hfor ha => ⟨?_, ?_⟩,
    fun hfor hl => ⟨?_, ?_, ?_⟩, fun hfor hl => ⟨?_, ?_, ?_, ?_⟩, fun ty c hc ht hlane hown hbusy => ?_⟩
  · exact fun hopen hclock hok hend => (hwrite hfor).writeAdmitted ha hopen hclock hok hend hvia
  · exact fun hopen hclock => (hwrite hfor).writeAsleep ha hopen hclock
  · exact fun hopen hclock hok => (hwrite hfor).writeRefused ha hns hopen hclock hok hvia
  · exact fun hopen => (hwrite hfor).writeAbsent ha hopen hvia
  · intro hgate hw hn
    obtain ⟨t, ht, hsector, hrest⟩ := (hwrite hfor).writeStored ⟨rfl, rfl⟩ ha hl hns hgate hw hvia
    exact ⟨t, ht, (hsector.trans (congrArg Line.stored (if_neg (Nat.not_le.mpr hn)))).trans (Frame.stored_lineAt f), hrest⟩
  · intro hgate hw hn
    obtain ⟨t, ht, hsector, hrest⟩ := (hwrite hfor).writeStored ⟨rfl, rfl⟩ ha hl hns hgate hw hvia
    exact ⟨t, ht, hsector.trans (congrArg Line.stored (if_pos hn)), hrest⟩
  · exact fun hgate => (hwrite hfor).writeAsleepAtStack ⟨rfl, rfl⟩ ha hl hgate
  · exact fun hgate => (hwrite hfor).writeAbsentAtStack ⟨rfl, rfl⟩ ha hl hgate hvia
  · exact fun hl hopen hclock hok hend => (hpart hfor).partialAdmitted ⟨rfl, rfl⟩ ha hl hopen hclock hok hend hvia
  · exact fun hl => (hpart hfor).partialInvalid hl hvia
  · exact fun st sec ha hgate hw hn => (hadd hfor).addStored ⟨rfl, rfl⟩ hl hvia hns ha hgate hw hn
  · exact fun st w l ha => (hadd hfor).addRefused ⟨rfl, rfl⟩ hl hvia ha
  · exact fun h off ha => (hadd hfor).addInvalid ⟨rfl, rfl⟩ hl hvia ha
  · exact fun h off ha hopen hclock hheld => (hread hfor []).readLine hl rfl ha rfl hopen hclock hheld hvia
  · exact fun st sec ha hgate hn => (hread hfor []).readSector rfl hl hvia hns ha hgate hn
  · exact fun h off errs ha hopen => (hread hfor errs).readAbsent hl rfl ha hopen hvia
  · exact fun h off errs ha hopen hclock => (hread hfor errs).readAsleep hl rfl ha hopen hclock
  · have hexec : Machine.exec c s = .next { s with dev := s.dev.receive p.val (rxOf (frameOf ty f) crc) [] } := by
      simp only [List.mem_cons, Prod.mk.injEq, List.not_mem_nil, or_false] at hc
      rcases hc with ⟨rfl, rfl⟩ | ⟨rfl, rfl⟩ | ⟨rfl, rfl⟩ | ⟨rfl, rfl⟩ <;> rfl
    exact State.heldBehind hexec ht hlane hown hbusy

end Sys2Proof.Machine
end

section
/-! What reading a far line leaves of the hearths: translating an address (R318 to R321), and reading a stack, a slow tier, a scratchpad
or host memory (R193, R207 to R211, R240, R282, R310). -/

namespace Sys2Proof.Machine

/-- A key of no object of a hearth. -/
def OffHearth (k : Nat) : Prop := k < 0x20000 * 256 ∨ 0x30000 * 256 ≤ k

theorem offHearth_high {o : ObjDef} (ho : 0x30000 ≤ o.base) (i e : Nat) : OffHearth (o.key i e) := by
  refine .inr ?_
  simp only [ObjDef.key]
  omega

theorem offHearth_stack {o : ObjDef} {st e : Nat} (ho : o.kind = .stack ∧ o.base < 0x12080 ∧ o.lo ≤ 128) (hst : st < 32) (he : e < 64) :
    OffHearth (o.key st e) := by
  obtain ⟨hkind, hbase, hlo⟩ := ho
  refine .inl ?_
  simp only [ObjDef.key, hkind, Kind.stride]
  omega

theorem offHearth_region {o : ObjDef} {g : Nat} (ho : o.kind = .region ∧ o.base < 0x11100 ∧ o.lo ≤ 128) (hg : g < 16) : OffHearth (o.key g 0) := by
  obtain ⟨hkind, hbase, hlo⟩ := ho
  refine .inl ?_
  simp only [ObjDef.key, hkind, Kind.stride]
  omega

/-- `b` holds the hearths of `a`, and what shows of them. -/
def Dev.Apart (a b : Dev) : Prop := b.hearths = a.hearths ∧ ∀ k, ¬ OffHearth k → tget 0 b.od k = tget 0 a.od k

section
variable {a b c d d' : Dev} {st : Nat}

theorem Dev.Apart.refl (d : Dev) : d.Apart d := ⟨rfl, fun _ _ => rfl⟩

theorem Dev.Apart.trans (g : a.Apart b) (h : b.Apart c) : a.Apart c := ⟨h.1.trans g.1, fun k hk => (h.2 k hk).trans (g.2 k hk)⟩

/-- A change of neither the hearths nor the objects. -/
theorem Dev.Apart.of_same (hhearths : b.hearths = a.hearths) (hod : b.od = a.od) : a.Apart b := ⟨hhearths, fun k _ => by rw [hod]⟩

theorem Dev.Apart.hearth (g : a.Apart b) (h : Nat) : b.hearth h = a.hearth h := by rw [Dev.hearth, g.1, Dev.hearth]

theorem Dev.Apart.of_onlyOd {ks : List Nat} (g : a.OnlyOd b ks) (hks : ∀ k ∈ ks, OffHearth k) : a.Apart b := by
  obtain ⟨⟨od, rfl⟩, hs⟩ := g
  exact ⟨rfl, fun k hk => hs k fun hm => hk (hks k hm)⟩

theorem Dev.Apart.put {o : ObjDef} {v i e : Nat} (hk : OffHearth (o.key i e)) : d.Apart (d.put o v i e) :=
  .of_onlyOd (ks := [o.key i e]) (Dev.put_onlyOd (by simp)) (by simpa using hk)

theorem Dev.Apart.bump {o : ObjDef} {n i e : Nat} (hk : OffHearth (o.key i e)) : d.Apart (d.bump o i n e) :=
  .of_onlyOd (ks := [o.key i e]) (Dev.bump_onlyOd (by simp)) (by simpa using hk)

theorem Dev.Apart.foldl {α : Type} {f : Dev → α → Dev} {l : List α} (h : d.Apart d') (hf : ∀ b : Dev, ∀ x ∈ l, b.Apart (f b x)) :
    d.Apart (l.foldl f d') :=
  List.foldlRecOn (motive := fun b : Dev => d.Apart b) l f h fun b hb x hx => hb.trans (hf b x hx)

theorem Dev.Recorded.apart (g : a.Recorded b) : a.Apart b := by
  obtain ⟨⟨_, _, _, _, _, _, rfl⟩, hk⟩ := g
  refine ⟨rfl, fun k hn => hk k fun hm => hn (.inl ?_)⟩
  have := lt_of_mem_eventKeys hm
  omega

theorem Dev.Apart.raise (e : Ev) (k : Kind) (i : Nat) (s : Option Nat) (det hi : Nat) : d.Apart (d.raise e k i s det hi) :=
  (d.raise_recorded ..).apart

theorem Dev.Apart.modStack (f : Stack → Stack) : d.Apart (d.modStack st f) := .of_same rfl rfl

theorem Dev.Apart.setSector (sec : Nat) (x : Sector) : d.Apart (d.setSector st sec x) := .of_same rfl rfl

theorem Dev.wakeRegion_apart {g : Nat} (hg : g < 16) : d.Apart (d.wakeRegion g) :=
  .of_onlyOd (d.wakeRegion_spec g) (by simpa using offHearth_region (by decide) hg)

theorem Dev.grantTo_apart (res n me : Nat) (rivals : List Nat) : d.Apart (d.grantTo res n me rivals).1 := by
  obtain ⟨w, hw, -⟩ := d.grantTo_spec res n me rivals
  rw [hw]
  exact .of_same rfl rfl

theorem Dev.askStack_apart (k who : Nat) : d.Apart (d.askStack k who) := by
  unfold Dev.askStack
  exact Dev.grantTo_apart ..

theorem Dev.askSlow_apart (t who : Nat) : d.Apart (d.askSlow t who) := by
  unfold Dev.askSlow
  exact Dev.grantTo_apart ..

/-! ### A sector (R174, R182, R186, R193) -/

theorem Dev.setPch_apart (hst : st < 32) {p : Nat} (hp : p < 64) (v : Pch) : d.Apart (d.setPch st p v) :=
  .trans (.of_same rfl rfl) (.put (offHearth_stack (by decide) hst (by omega)))

theorem Dev.wakePch_apart (hst : st < 32) (sec : Nat) : d.Apart (d.wakePch st sec) := by
  unfold Dev.wakePch
  dsimp only
  split
  · exact Dev.setPch_apart hst (pchOfSec_lt sec) _
  · exact Dev.setPch_apart hst (pchOfSec_lt sec) _
  · exact .refl d

theorem Dev.askRetrain_apart (hst : st < 32) {ch : Nat} (hch : ch < 32) : d.Apart (d.askRetrain st ch) := by
  unfold Dev.askRetrain
  dsimp only
  split
  · exact .refl d
  · split
    · have htrain : d.Apart (d.setChan st ch .retrain) := .trans (Dev.setPch_apart hst (by omega) _) (Dev.setPch_apart hst (by omega) _)
      exact ((htrain.trans (.modStack _)).trans (.bump (offHearth_stack (by decide) hst (by decide)))).trans (.raise ..)
    · exact .modStack _

theorem Dev.crcMismatch_apart (hst : st < 32) (sec n : Nat) : d.Apart (d.crcMismatch st sec n) := by
  unfold Dev.crcMismatch
  split
  · exact .refl d
  · extract_lets d1 ch ts hit d2
    have h2 : d.Apart d2 := .trans (.bump (offHearth_stack (o := Obj.CRC_REPLAYS) (by decide) hst (by decide))) (.modStack _)
    split
    · exact h2.trans (Dev.askRetrain_apart hst (chanOfSec_lt sec))
    · exact h2

theorem Dev.chargeHbm_apart (s : Option Nat) (n : Nat) : d.Apart (d.chargeHbm s st n) := by
  cases s with
  | none => exact .refl d
  | some s => exact (Dev.Apart.bump (offHearth_high (by decide) _ _)).trans (.of_same rfl rfl)

theorem Dev.countCorrected_apart (hst : st < 32) : d.Apart (d.countCorrected st) := by
  unfold Dev.countCorrected
  extract_lets d1 n t
  have h1 : d.Apart d1 := .bump (offHearth_stack (by decide) hst (by decide))
  split
  · exact (h1.trans (.modStack _)).trans (.raise ..)
  · exact h1.trans (.modStack _)

theorem Dev.logBad_apart (hst : st < 32) (sec : Nat) (src : ReadSource) : d.Apart (d.logBad st sec src) := by
  unfold Dev.logBad
  extract_lets d1 old d2 d3
  have h2 : d.Apart d2 := .trans (.bump (offHearth_stack (by decide) hst (by decide))) (.put (offHearth_stack (by decide) hst (by decide)))
  have hold : ∀ x ∈ old.zipIdx, x.2 < 7 := fun x hx => by
    have hlt := List.snd_lt_of_mem_zipIdx hx
    simpa [old] using hlt
  clear_value d2 old
  have h3 : d.Apart d3 := h2.foldl fun b x hx => .put (offHearth_stack (by decide) hst (by
    have := hold x hx
    omega))
  exact h3.trans (.raise ..)

theorem Dev.failedRead_apart (hst : st < 32) (sec : Nat) (src : ReadSource) : d.Apart (d.failedRead st sec src).1 := Dev.logBad_apart hst sec src

theorem Dev.readSec_apart (hst : st < 32) (sec : Nat) (src : ReadSource) : d.Apart (d.readSec st sec src).1 := by
  unfold Dev.readSec
  extract_lets l x
  split
  · exact .refl d
  · split
    · exact .refl d
    · have h1 : d.Apart (d.bump Obj.ASH_SECTORS_READ st) := .bump (offHearth_stack (by decide) hst (by decide))
      split
      · exact (h1.trans (Dev.countCorrected_apart hst)).trans (.setSector ..)
      · exact h1
    · exact (Dev.countCorrected_apart hst).trans (.setSector ..)
    · exact Dev.logBad_apart hst sec src

theorem Dev.touch_apart (hst : st < 32) (secs : List Nat) (src : ReadSource) : d.Apart (d.touch st secs src) :=
  (Dev.Apart.refl d).foldl fun _ sec _ => Dev.readSec_apart hst sec src

theorem Dev.hbmGet_apart (hst : st < 32) (sec : Nat) (src : ReadSource) (s : Option Nat) : d.Apart (d.hbmGet st sec src s).1 := by
  unfold Dev.hbmGet Dev.hbmGetAs
  split
  · exact .refl d
  · exact .refl d
  · exact Dev.wakeRegion_apart (by omega)
  · exact Dev.chargeHbm_apart ..
  · extract_lets n d1
    have h1 : d.Apart d1 := (Dev.wakePch_apart hst sec).trans (Dev.chargeHbm_apart ..)
    refine (h1.trans ?_).trans (Dev.crcMismatch_apart hst sec n)
    split
    · exact Dev.failedRead_apart hst sec src
    · exact Dev.readSec_apart hst sec src

/-! ### A read through a chain (R202, R207 to R211) -/

theorem Dev.hobMisuse_apart (hst : st < 32) : d.Apart (d.hobMisuse st) := .bump (offHearth_stack (by decide) hst (by decide))

theorem Dev.readSrcs_apart (hst : st < 32) (bf16 : Bool) (rs : ReadSource) (srcs : List ChainSrc) : d.Apart (d.readSrcs st bf16 rs srcs).1 :=
  .trans (.bump (offHearth_stack (by decide) hst (by decide))) (Dev.touch_apart hst _ rs)

theorem Dev.rowLoad_apart (hst : st < 32) (bf16 : Bool) (rs : ReadSource) (srcs : List ChainSrc) : d.Apart (d.rowLoad st bf16 rs srcs).1 := by
  unfold Dev.rowLoad
  dsimp only
  split
  · exact .modStack _
  · exact ((Dev.readSrcs_apart hst bf16 rs srcs).trans (.bump (offHearth_stack (by decide) hst (by decide)))).trans (.modStack _)

theorem Dev.vecLoad_apart (hst : st < 32) (arg n : Nat) : d.Apart (d.vecLoad st arg n).1 := by
  unfold Dev.vecLoad
  dsimp only
  split
  · exact .modStack _
  · exact (Dev.touch_apart hst _ _).trans (.modStack _)

theorem Dev.chainApply_apart (hst : st < 32) (bf16 : Bool) (row col : Nat) (srcs : List ChainSrc) (xs : List (Nat × Bool)) (o : ChainOp) :
    d.Apart (d.chainApply st bf16 row col srcs xs o).1 := by
  unfold Dev.chainApply
  split
  · exact .refl d
  · exact .refl d
  · exact Dev.vecLoad_apart hst _ _
  · exact Dev.vecLoad_apart hst _ _
  · exact Dev.readSrcs_apart hst bf16 ..
  · exact .refl d

theorem Dev.chainOps_apart (hst : st < 32) (bf16 : Bool) (row col : Nat) (srcs : List ChainSrc) (ops : List ChainOp) (xs : List (Nat × Bool)) :
    d.Apart (d.chainOps st bf16 row col srcs ops xs).1 :=
  List.foldlRecOn (motive := fun r : Dev × List (Nat × Bool) => d.Apart r.1) ops _ (.refl d) fun _ hr o _ =>
    hr.trans (Dev.chainApply_apart hst bf16 row col srcs _ o)

theorem Dev.chainRun_apart (hst : st < 32) (ch : Chain) (bf16 : Bool) (src : ChainSrc) (rs : ReadSource) {r : Dev × Line}
    (hr : d.chainRun st ch bf16 src rs = some r) : d.Apart r.1 := by
  unfold Dev.chainRun at hr
  split at hr
  · cases hr
  · extract_lets n pre at hr
    split at hr
    · cases hr
    · rw [Option.some.injEq] at hr
      subst hr
      refine Dev.Apart.trans ?_ (.bump (offHearth_stack (by decide) hst (by decide)))
      refine Dev.Apart.trans ?_ (Dev.chainOps_apart hst ..)
      refine Dev.Apart.trans ?_ (Dev.chainOps_apart hst ..)
      split
      · exact Dev.readSrcs_apart hst ..
      · exact Dev.rowLoad_apart hst ..

theorem Dev.chainMisuse_apart (hst : st < 32) (s : Option Nat) : d.Apart (d.chainMisuse st s) := by
  have hcount : d.Apart (d.hobMisuse st) := Dev.hobMisuse_apart hst
  cases s with
  | none => exact hcount
  | some s =>
    unfold Dev.chainMisuse
    dsimp only
    split
    · exact hcount
    · exact (hcount.trans (.modStack _)).trans (.raise ..)

theorem Dev.hobRead_apart (hst : st < 32) (src : ChainSrc) (es : List Nat) (s : Option Nat) (rs : ReadSource) :
    d.Apart (d.hobRead st src es s rs).1 := by
  unfold Dev.hobRead
  extract_lets isAper inBf
  split
  · exact Dev.hobMisuse_apart hst
  · split
    · split
      · exact Dev.readSec_apart hst _ rs
      · exact Dev.touch_apart hst _ rs
    · split
      · exact Dev.chainMisuse_apart hst s
      next ch _ =>
        cases hrun : d.chainRun st ch (if isAper = true then inBf else ch.bf16) src rs with
        | none => exact Dev.chainMisuse_apart hst s
        | some r => exact Dev.chainRun_apart hst _ _ _ _ hrun

theorem Dev.failedOrRead_apart (hst : st < 32) (n sec : Nat) (src : ChainSrc) (es : List Nat) (s : Option Nat) (rs : ReadSource) :
    d.Apart (if 5 ≤ n then d.failedRead st sec rs else d.hobRead st src es s rs).1 := by
  split
  · exact Dev.failedRead_apart hst sec rs
  · exact Dev.hobRead_apart hst ..

theorem Dev.stackReadAs_apart (hst : st < 32) (g : Gate) (src : ChainSrc) (es : List Nat) (s : Option Nat) (rs : ReadSource) :
    d.Apart (d.stackReadAs g st src es s rs).1 := by
  unfold Dev.stackReadAs
  dsimp only
  split
  · exact .refl d
  · exact .refl d
  · exact Dev.wakeRegion_apart (by omega)
  · exact Dev.chargeHbm_apart ..
  · have h1 : d.Apart ((d.wakePch st (d.srcSec st src)).chargeHbm s st 64) := (Dev.wakePch_apart hst _).trans (Dev.chargeHbm_apart ..)
    refine Dev.Apart.trans ?_ (Dev.crcMismatch_apart hst _ _)
    refine Dev.Apart.trans (b := if es.isEmpty = true ∧ src = .data (d.srcSec st src) then
      (d.wakePch st (d.srcSec st src)).chargeHbm s st 64 else
      ((d.wakePch st (d.srcSec st src)).chargeHbm s st 64).modStack st fun x => { x with hobClock := true }) ?_ ?_
    · split
      · exact h1
      · exact h1.trans (.modStack _)
    · exact Dev.failedOrRead_apart hst ..

theorem Dev.stackRead_apart (hst : st < 32) (src : ChainSrc) (k : Nat) (s : Option Nat) (rs : ReadSource) :
    d.Apart (d.stackRead st src k s rs).1 := Dev.stackReadAs_apart hst ..

/-! ### Translation (R318 to R321) -/

theorem Dev.walk_apart (cl s va : Nat) (need : Need) (shifts : List Nat) : ∀ (d : Dev) (base : Nat), d.Apart (d.walk cl s va need shifts base).1 := by
  induction shifts with
  | nil => exact fun d _ => .refl d
  | cons shift rest ih =>
    intro d base
    unfold Dev.walk
    split
    · exact .refl d
    · extract_lets pa
      have hget : d.Apart (d.hbmGet (d.decodePA pa).1 (d.decodePA pa).2 .demand (some s)).1 := Dev.hbmGet_apart (d.decodePA_lt pa) ..
      dsimp only
      generalize d.hbmGet (d.decodePA pa).1 (d.decodePA pa).2 .demand (some s) = r at hget ⊢
      obtain ⟨d1, g⟩ := r
      cases g with
      | wait => exact hget
      | absent => exact hget
      | line v =>
        dsimp only
        split
        · exact hget.trans (.raise ..)
        · split
          · exact hget
          · split
            · split
              · exact hget
              · split
                · exact hget.trans (.of_same rfl rfl)
                · exact hget
            · split
              · exact hget
              · exact hget.trans (ih d1 _)

theorem Dev.translate_apart (cl s va : Nat) (need : Need) : d.Apart (d.translate cl s va need).1 := by
  unfold Dev.translate
  split
  · exact .refl d
  · split
    · exact .refl d
    · exact Dev.walk_apart ..

theorem Dev.farLine_apart (h : Nat) (t : Transfer) (n : Nat) : d.Apart (d.farLine h t n).1 := by
  have hwalk := d.translate_apart (h / 8) t.ctx (t.d.farAddr t.far n) t.d.need
  unfold Dev.farLine
  generalize d.translate (h / 8) t.ctx (t.d.farAddr t.far n) t.d.need = r at hwalk ⊢
  obtain ⟨d1, x⟩ := r
  cases x with
  | ok dv a =>
    dsimp only
    split
    · exact hwalk
    · exact hwalk
  | unmapped => exact hwalk
  | forbidden shift => exact hwalk
  | absent => exact hwalk
  | wait => exact hwalk

/-! ### The local map (R281, R282) -/

theorem Dev.chargeSlow_apart (s : Option Nat) (n : Nat) : d.Apart (d.chargeSlow s n) := by
  cases s with
  | none => exact .refl d
  | some s => exact .bump (offHearth_high (by decide) _ _)

theorem Dev.countSlow_apart (t : Nat) (x : SramOutcome) : d.Apart (d.countSlow t x) := by
  cases x with
  | clean => exact .refl d
  | corrected => exact .bump (offHearth_high (by decide) _ _)
  | uncorrectable => exact (Dev.Apart.bump (offHearth_high (by decide) _ _)).trans (.raise ..)

theorem Dev.slowGet_apart (t line : Nat) (s : Option Nat) (words : List SramOutcome) : d.Apart (d.slowGet t line s words).1 := by
  unfold Dev.slowGet
  split
  · exact .refl d
  · exact .refl d
  · exact .refl d
  · exact .refl d
  · extract_lets l found d1 bad anyBad bs d2
    have h1 : d.Apart d1 := (Dev.Apart.refl d).foldl fun b w _ => Dev.countSlow_apart t (found w)
    have h2 : d.Apart d2 := by
      unfold d2
      split
      · exact h1.trans (.of_same rfl rfl)
      · exact h1
    exact (h2.trans (.bump (offHearth_high (by decide) _ _))).trans (Dev.chargeSlow_apart ..)

theorem Dev.hostLine_apart (words : List SramOutcome) : d.Apart (d.hostLine words).1 := by
  unfold Dev.hostLine
  split
  · exact .refl d
  · split
    · exact .refl d
    · exact .of_same rfl rfl

/-- A read of a scratchpad whose words are all clean. -/
theorem Dev.scrRead_apart {h : Nat} (hh : h < 1024) (off : Nat) : d.Apart (d.scrRead h off []).1 := by
  unfold Dev.scrRead
  split
  · exact .refl d
  · split
    · exact Dev.wakeRegion_apart (by omega)
    · split
      · exact .refl d
      · exact .refl d

theorem Dev.area_aper_lt {x w l : Nat} (ha : d.area x = .aper st w l) : st < 32 := by
  unfold Dev.area at ha
  split_ifs at ha
  injection ha with hst
  rw [← hst, bits_eq]
  omega

/-- A read that meets no SRAM error leaves the hearths. -/
theorem Dev.localRead_apart (x k : Nat) (s : Option Nat) (who : Nat) : d.Apart (d.localRead x k s [] who).1 := by
  unfold Dev.localRead
  split
  next st sec ha =>
    have hread := (d.askStack_apart st who).trans (Dev.stackRead_apart (Dev.area_hbm_lt ha) (.data sec) k s .demand)
    generalize (d.askStack st who).stackRead st (.data sec) k s .demand = r at hread ⊢
    exact hread
  next st w l ha =>
    have hread := (d.askStack_apart st who).trans (Dev.stackRead_apart (Dev.area_aper_lt ha) (.aper w l) k s .demand)
    generalize (d.askStack st who).stackRead st (.aper w l) k s .demand = r at hread ⊢
    exact hread
  next t l _ =>
    have hread := (d.askSlow_apart t who).trans (Dev.slowGet_apart t l s [])
    generalize (d.askSlow t who).slowGet t l s [] = r at hread ⊢
    exact hread
  next ha => exact Dev.scrRead_apart (Dev.area_scr_lt ha) _
  · exact Dev.hostLine_apart _
  · exact .refl d
  · exact .refl d

end

end Sys2Proof.Machine
end

section
/-! Writes on this device halt no transfer (R154): stores (R194, R205 to R212), doorbells (R166, R215, R249, R323, R379), and what an abort
ends (R167). -/

namespace Sys2Proof.Machine

/-- Every transfer that is halted in `b` is halted in `a`. -/
structure Dev.HaltsLess (a b : Dev) : Prop where
  halted : ∀ h < 1024, ∀ p, (b.get Obj.HALTED_STREAMS h).testBit p = true → (a.get Obj.HALTED_STREAMS h).testBit p = true

section
variable {a b c d d' : Dev} {st : Nat}

theorem Dev.HaltsLess.refl (d : Dev) : d.HaltsLess d := ⟨fun _ _ _ hp => hp⟩

theorem Dev.HaltsLess.trans (g : a.HaltsLess b) (h : b.HaltsLess c) : a.HaltsLess c :=
  ⟨fun i hi p hp => g.halted i hi p (h.halted i hi p hp)⟩

theorem Dev.HaltsLess.of_get (hget : ∀ h < 1024, b.get Obj.HALTED_STREAMS h = a.get Obj.HALTED_STREAMS h) : a.HaltsLess b :=
  ⟨fun h hh p hp => by rwa [hget h hh] at hp⟩

theorem Dev.HaltsLess.of_od (hod : b.od = a.od) : a.HaltsLess b := .of_get fun h _ => by rw [Dev.get, hod, Dev.get]

theorem Dev.HaltsLess.foldl {α : Type} {f : Dev → α → Dev} {l : List α} (h : d.HaltsLess d') (hf : ∀ b : Dev, ∀ x ∈ l, b.HaltsLess (f b x)) :
    d.HaltsLess (l.foldl f d') :=
  List.foldlRecOn (motive := fun b : Dev => d.HaltsLess b) l f h fun b hb x hx => hb.trans (hf b x hx)

theorem haltKey_bounds {h : Nat} (hh : h < 1024) :
    0x20000 * 256 ≤ Obj.HALTED_STREAMS.key h 0 ∧ Obj.HALTED_STREAMS.key h 0 < 0x30000 * 256 := by
  simp only [ObjDef.key, Obj.HALTED_STREAMS, Kind.stride]
  omega

theorem Dev.Apart.haltsLess (g : a.Apart b) : a.HaltsLess b :=
  .of_get fun h hh => by
    have hkey := haltKey_bounds hh
    simp only [Dev.get, g.2 (Obj.HALTED_STREAMS.key h 0) (by unfold OffHearth; omega)]

theorem Dev.Notifies.haltsLess (g : a.Notifies b) : a.HaltsLess b :=
  .of_get fun h hh => by
    have hkey := haltKey_bounds hh
    simp only [Dev.get, g.objects (Obj.HALTED_STREAMS.key h 0) hkey.1 (.inl hkey.2)]

/-- An object of a hearth's block other than HALTED_STREAMS. -/
abbrev ObjDef.HaltsNone (o : ObjDef) : Prop :=
  o.OfHearth ∧ (Obj.HALTED_STREAMS.base ≠ o.base ∨ Obj.HALTED_STREAMS.lo ≠ o.lo)

theorem Dev.HaltsLess.of_onlyOd {o : ObjDef} {i : Nat} (ho : o.HaltsNone) (g : a.OnlyOd b [o.key i 0]) : a.HaltsLess b :=
  .of_get fun h _ => g.get (by simpa using hearthKey_ne (by decide) ho.1 (ho.2.imp_right .inl))

theorem Dev.HaltsLess.bump {o : ObjDef} {i n : Nat} (ho : o.HaltsNone) : d.HaltsLess (d.bump o i n) := .of_onlyOd ho (Dev.bump_onlyOd List.mem_cons_self)

theorem Dev.HaltsLess.put {o : ObjDef} {i v : Nat} (ho : o.HaltsNone) : d.HaltsLess (d.put o v i) := .of_onlyOd ho (Dev.put_onlyOd List.mem_cons_self)

theorem Dev.HaltsLess.modHearth (h : Nat) (f : Hearth → Hearth) : d.HaltsLess (d.modHearth h f) := .of_od rfl

theorem Dev.HaltsLess.modStack (f : Stack → Stack) : d.HaltsLess (d.modStack st f) := .of_od rfl

/-- Objects that count or show something of a hearth, HALTED_STREAMS not among them. -/
theorem Dev.OnlyHearth.haltsLess {h : Nat} {os : List ObjDef} (g : a.OnlyHearth b h (os.map (·.key h 0))) (hos : ∀ o ∈ os, o.HaltsNone) :
    a.HaltsLess b :=
  .of_get fun i _ => g.get (fun hm => by
    obtain ⟨o, ho, he⟩ := List.mem_map.mp hm
    exact hearthKey_ne (i := i) (j := h) (by decide) (hos o ho).1 ((hos o ho).2.imp_right .inl) he.symm) (hearthKey_not_event (by decide) i)

theorem Dev.raiseOnce_haltsLess (h key : Nat) (e : Ev) (det : Nat) : d.HaltsLess (d.raiseOnce h key e det) :=
  (d.raiseOnce_onlyHearth h key e det (([] : List ObjDef).map (·.key h 0))).haltsLess (by simp)

/-! ### Notices (R135, R163, R215) -/

theorem Dev.toEdge_haltsLess {h : Nat} (hh : h < 1024) (r : EdgeReq) : d.HaltsLess (d.toEdge h r) := (d.toEdge_notifies hh r).haltsLess

theorem Dev.absorbNotice_haltsLess (h : Nat) : d.HaltsLess (d.absorbNotice h) := by
  unfold Dev.absorbNotice
  split
  · exact (Dev.Apart.bump (.inl (by decide))).haltsLess
  · exact .refl d

theorem Dev.arrivalNow_haltsLess (h line : Nat) : d.HaltsLess (d.arrivalNow h line) := by
  unfold Dev.arrivalNow
  split
  · extract_lets d1
    have h1 : d.HaltsLess d1 := .bump (by decide)
    split
    · split
      · exact h1.trans (.modHearth ..)
      · exact h1
    · exact h1
  · exact d.absorbNotice_haltsLess h

theorem Dev.arrival_haltsLess {h : Nat} (hh : h < 1024) (line : Nat) : d.HaltsLess (d.arrival h line) := by
  unfold Dev.arrival
  split
  · exact d.toEdge_haltsLess hh _
  · exact d.arrivalNow_haltsLess h line

theorem Dev.hobNotice_haltsLess (v : Nat) : d.HaltsLess (d.hobNotice v) := by
  unfold Dev.hobNotice
  split
  · exact d.arrival_haltsLess (Nat.mod_lt _ (by decide)) _
  · exact .refl d

/-! ### Writes of a base die (R194, R205, R206, R212) -/

theorem Dev.storeSec_haltsLess (hst : st < 32) (sec : Nat) (v : Line) : d.HaltsLess (d.storeSec st sec v) := by
  unfold Dev.storeSec
  split
  · exact (Dev.Apart.bump (offHearth_stack (by decide) hst (by decide))).haltsLess
  · extract_lets d1 x rs vs
    split
    · exact .of_od rfl
    · exact .of_od rfl

theorem Dev.mergeUsed_haltsLess (x n sec : Nat) : d.HaltsLess (d.mergeUsed st x n sec) := by
  unfold Dev.mergeUsed
  split
  · exact .refl d
  · exact .of_od rfl

theorem Dev.writeFuel_haltsLess (hst : st < 32) (n : Nat) : ∀ (d : Dev) (pa : Nat) (sec : Option Nat) (v : Line),
    d.HaltsLess (Dev.writeFuel n d st pa sec v) := by
  have hstore : ∀ (d : Dev) (sec : Option Nat) v, d.HaltsLess (match (generalizing := false) sec with | some s => d.storeSec st s v | none => d) := by
    intro d sec v
    cases sec with
    | none => exact .refl d
    | some s => exact Dev.storeSec_haltsLess hst s v
  induction n with
  | zero => exact fun d _ sec v => hstore d sec v
  | succ n ih =>
    intro d pa sec v
    unfold Dev.writeFuel
    extract_lets d1
    have h1 : d.HaltsLess d1 := hstore d sec v
    split
    · exact h1
    · refine h1.foldl fun b w _ => ?_
      split
      · exact .refl b
      · extract_lets c b'
        split
        · refine Dev.HaltsLess.trans ?_ (Dev.hobNotice_haltsLess _)
          exact (Dev.HaltsLess.modStack _).foldl fun e i _ => (Dev.mergeUsed_haltsLess ..).trans (ih ..)
        · exact .modStack _

theorem Dev.writeSec_haltsLess (hst : st < 32) (sec : Nat) (v : Line) : d.HaltsLess (d.writeSec st sec v) := Dev.writeFuel_haltsLess hst ..

theorem Dev.writeStack_haltsLess (hst : st < 32) (x : Nat) (bs : List Byte) : d.HaltsLess (d.writeStack st x bs) :=
  (Dev.HaltsLess.refl d).foldl fun _ _ _ => (Dev.mergeUsed_haltsLess ..).trans (Dev.writeSec_haltsLess hst ..)

theorem Dev.compress_haltsLess (hst : st < 32) (w b : Nat) (p : PartBlock) : d.HaltsLess (d.compress st w b p) := by
  unfold Dev.compress
  extract_lets c d1
  have h1 : d.HaltsLess d1 := .modStack _
  obtain ⟨bs, s⟩ := compressBlock c.code (blockVals c p)
  have hcount : ∀ (e : Dev) (o : ObjDef), o.kind = .stack ∧ o.base < 0x12080 ∧ o.lo ≤ 128 → e.HaltsLess (e.bump o st) := fun e o ho =>
    (Dev.Apart.bump (offHearth_stack ho hst (by decide))).haltsLess
  have h2 : d.HaltsLess (((d1.writeStack st (c.data + 256 * b) bs).writeStack st (c.scale + b) [BitVec.ofNat 8 s]).bump Obj.CKPT_BLOCKS_WRITTEN st) :=
    ((h1.trans (Dev.writeStack_haltsLess hst ..)).trans (Dev.writeStack_haltsLess hst ..)).trans (hcount _ _ (by decide))
  dsimp only
  split
  · exact h2.trans (hcount _ _ (by decide))
  · exact h2

theorem Dev.aperPut_haltsLess (hst : st < 32) (w line : Nat) (v : Line) : d.HaltsLess (d.aperPut st w line v).1 := by
  unfold Dev.aperPut
  extract_lets c b old
  split
  · exact (Dev.hobMisuse_apart hst).haltsLess
  · split
    · exact .refl d
    · have h1 : d.HaltsLess (Dev.writeFuel 9 d st (aperPA st w line) none v) := Dev.writeFuel_haltsLess hst ..
      split
      · exact h1.trans (Dev.compress_haltsLess hst w b _)
      · dsimp only
        exact h1.trans (.modStack _)

/-- An aperture line that has to wait has changed nothing (R206). -/
theorem Dev.aperPut_waits {w line : Nat} {v : Line} {e : Dev} (hw : d.aperPut st w line v = (e, .wait)) : e = d := by
  unfold Dev.aperPut at hw
  dsimp only at hw
  split at hw
  · cases hw
  · split at hw
    · exact (congrArg Prod.fst hw).symm
    · split at hw
      · exact nomatch (Prod.mk.inj hw).2
      · exact nomatch (Prod.mk.inj hw).2

theorem Dev.replyAcc_haltsLess (r : Acc) : d.HaltsLess (d.replyAcc r) := by
  cases r <;> exact .of_od rfl

theorem Dev.retryParts_haltsLess (hst : st < 32) : d.HaltsLess (d.retryParts st) := by
  refine (Dev.HaltsLess.refl d).foldl fun b q _ => ?_
  split
  · exact .refl b
  · split
    · exact .refl b
    next w line _ _ =>
      have hput : b.HaltsLess (b.aperPut st w line ⟨q.data, q.ash⟩).1 := Dev.aperPut_haltsLess hst ..
      generalize b.aperPut st w line ⟨q.data, q.ash⟩ = r at hput ⊢
      obtain ⟨d', r⟩ := r
      dsimp only
      split
      · exact .refl b
      · exact (hput.trans (.modStack _)).trans (Dev.replyAcc_haltsLess _)

theorem Dev.flushWindow_haltsLess (hst : st < 32) (w : Nat) : d.HaltsLess (d.flushWindow st w) := by
  refine (Dev.HaltsLess.refl d).foldl fun b k _ => ?_
  unfold Dev.flushBlock
  split
  · exact .refl b
  · exact (Dev.compress_haltsLess hst ..).trans (Dev.retryParts_haltsLess hst)

theorem Dev.closeBmax_haltsLess (hst : st < 32) (w : Nat) : d.HaltsLess (d.closeBmax st w) := by
  unfold Dev.closeBmax
  split
  · exact .refl d
  · exact ((Dev.HaltsLess.modStack _).trans (Dev.writeStack_haltsLess hst ..)).trans (Dev.hobNotice_haltsLess _)

/-! ### Doorbells (R166, R215, R249, R323, R379) -/

theorem Dev.hobBell_haltsLess (hst : st < 32) (v : Nat) : d.HaltsLess (d.hobBell st v).1 := by
  have hring : d.HaltsLess (d.ringHob st v) := by
    unfold Dev.ringHob
    extract_lets empty q d1
    have h1 : d.HaltsLess d1 := .modStack _
    split
    · refine h1.trans ?_
      unfold Dev.beginBell
      split
      · dsimp only
        split
        · exact .modStack _
        · exact .refl _
      · exact Dev.closeBmax_haltsLess hst _
      · exact Dev.flushWindow_haltsLess hst _
      · exact .refl _
    · exact h1
  unfold Dev.hobBell
  dsimp only
  split
  · exact .refl d
  · split
    · exact .refl d
    · split
      · split
        · exact hring
        · exact .refl d
      · split
        · exact hring
        · exact .refl d
      · exact hring
      · exact hring
      · exact .refl d

theorem Dev.putGroup_apart (n : Nat) (v : Bool) (g : Nat) : d.Apart (d.putBit Obj.GROUP_STATUS n v g) := .put (offHearth_high (by decide) _ _)

theorem Dev.stokerBell_apart (t v : Nat) : d.Apart (d.stokerBell t v).1 := by
  unfold Dev.stokerBell
  extract_lets op last s d1 d2
  split
  · exact .refl d
  · split
    · exact .refl d
    · split
      · exact .refl d
      · have h2 : d.Apart d2 := (Dev.Apart.of_same rfl rfl).foldl fun b g _ => Dev.putGroup_apart 3 true g
        refine h2.trans ?_
        unfold Dev.stokerTake
        dsimp only
        split
        · exact .refl d2
        · split
          · exact .refl d2
          · refine (Dev.Apart.of_same rfl rfl).foldl fun b g _ => ?_
            split
            · exact .refl b
            · exact Dev.putGroup_apart 3 false g

theorem Dev.retarget_apart {g : Nat} (hg : g < 16) : d.Apart (d.retarget g) := by
  unfold Dev.retarget
  dsimp only
  split
  · have hheld : ∀ e : Dev, e.Apart (e.holdClock g) := by
      intro e
      unfold Dev.holdClock
      split
      · exact .refl e
      · exact .of_same rfl rfl
    refine Dev.Apart.trans ?_ (hheld _)
    exact (Dev.Apart.trans (.put (offHearth_region (by decide) hg)) (.bump (offHearth_region (by decide) hg))).trans (.of_same rfl rfl)
  · exact .refl d

theorem Dev.phaseBell_apart (v : Nat) : d.Apart (d.phaseBell v).1 := by
  unfold Dev.phaseBell
  dsimp only
  split
  · exact .refl d
  · refine (Dev.Apart.refl d).foldl fun b g hg => ?_
    have hg16 := List.mem_range.mp hg
    split
    · exact (Dev.Apart.put (offHearth_region (by decide) hg16)).trans (Dev.retarget_apart hg16)
    · exact .refl b

theorem Dev.refreshCtx_apart (k : Nat) : d.Apart (d.refreshCtx k) := by
  unfold Dev.refreshCtx
  extract_lets x s d1
  have h1 : d.Apart d1 := by
    unfold d1
    split
    · exact .of_same rfl rfl
    · exact .refl d
  exact h1.trans (.put (offHearth_high (by decide) _ _))

theorem Dev.abortEnd_haltsLess (k : Nat) : d.HaltsLess (d.abortEnd k) := by
  unfold Dev.abortEnd
  split
  · split
    · split
      · have hreset : d.HaltsLess (d.resetCtxFlues k) := (Dev.HaltsLess.refl d).foldl fun _ _ _ => .of_od rfl
        refine (hreset.trans ?_).trans (Dev.abortReport_notifies _).haltsLess
        exact .of_od rfl
      · exact .refl d
    · exact .refl d
  · exact .refl d

theorem Dev.endPart_haltsLess (h k : Nat) : d.HaltsLess (d.endPart h k) := by
  unfold Dev.endPart
  extract_lets d1 d2 d3 d4 x d5
  have h1 : d.HaltsLess d1 := by
    unfold d1 Dev.dropExchange
    split
    · exact .refl d
    · exact .of_od rfl
  have h3 : d.HaltsLess d3 := (h1.trans (.modHearth ..)).trans (.put (by decide))
  have h4 : d.HaltsLess d4 := by
    unfold d4
    split
    · exact h3.trans (.put (by decide))
    · exact h3
  have h5 : d.HaltsLess d5 := by
    unfold d5
    split
    · exact h4.trans (.of_od rfl)
    · exact h4
  exact h5.trans (Dev.abortEnd_haltsLess k)

theorem Dev.abortSettle_haltsLess (h : Nat) : d.HaltsLess (d.abortSettle h) := by
  unfold Dev.abortSettle
  dsimp only
  split
  · split
    · exact (Dev.HaltsLess.modHearth ..).trans (Dev.endPart_haltsLess ..)
    · exact .refl d
  · exact .refl d

theorem Dev.haltsLess_clear (h : Nat) : d.HaltsLess (d.put Obj.HALTED_STREAMS 0 h) := by
  refine ⟨fun i hi p hp => ?_⟩
  by_cases hih : i = h
  · subst hih
    rw [Dev.get_put_self] at hp
    simp at hp
  · rwa [Dev.get_put_ne _ _ (hearthKey_ne (by decide) (by decide) (.inr (.inr hih)))] at hp

theorem Dev.abortHearth_haltsLess (h : Nat) : d.HaltsLess (d.abortHearth h) :=
  ((Dev.HaltsLess.modHearth ..).trans (Dev.haltsLess_clear h)).trans (Dev.abortSettle_haltsLess h)

theorem Dev.abortStep_haltsLess (k cause : Nat) : d.HaltsLess (d.abortStep k cause) := by
  unfold Dev.abortStep
  extract_lets x
  split
  · exact .refl d
  · split
    · exact .refl d
    · extract_lets idle d1 d2
      have h1 : d.HaltsLess d1 := .of_od rfl
      have h2 : d.HaltsLess d2 := h1.foldl fun _ h _ => Dev.abortHearth_haltsLess h
      split
      · exact h2.trans (Dev.abortEnd_haltsLess k)
      · exact h2

theorem Dev.stepBell_haltsLess (k v : Nat) : d.HaltsLess (d.stepBell k v).1 := by
  have hctx : ∀ (o : ObjDef) w, 0x30000 ≤ o.base → d.Apart ((d.put o w k).refreshCtx k) := fun o w ho =>
    (Dev.Apart.put (offHearth_high ho _ _)).trans (Dev.refreshCtx_apart k)
  have hset : ∀ x, d.Apart (d.setCtx k x) := fun _ => .of_same rfl rfl
  unfold Dev.stepBell
  split
  · unfold Dev.ctxLaunch
    split
    · exact .refl d
    · split
      · exact .refl d
      · exact (hctx _ _ (by decide)).haltsLess
  · exact (Dev.abortStep_haltsLess k 3).trans (Dev.refreshCtx_apart k).haltsLess
  · exact (hctx _ _ (by decide)).haltsLess
  · unfold Dev.ctxResume
    split
    · exact ((hset _).trans (Dev.refreshCtx_apart k)).haltsLess
    · exact .refl d
  · exact .refl d

theorem Dev.modFlue_haltsLess (f : Nat) (g : Flue → Flue) : d.HaltsLess (d.modFlue f g) := .of_od rfl

theorem Dev.flueSettle_haltsLess (f : Nat) : d.HaltsLess (d.flueSettle f) :=
  (Dev.modFlue_haltsLess f Flue.settle).trans (Dev.abortReport_notifies _).haltsLess

theorem Dev.bumpFlue_haltsLess {o : ObjDef} (ho : 0x40000 ≤ o.base) (f : Nat) : d.HaltsLess (d.bump o f) :=
  (Dev.Apart.bump (offHearth_high (by omega) _ _)).haltsLess

section
variable {f : Nat} (hf : f < 65536)
include hf

theorem Dev.flueWrite_haltsLess : d.HaltsLess (d.flueWrite f).1 := by
  unfold Dev.flueWrite
  extract_lets w
  refine Dev.HaltsLess.trans (Dev.modFlue_haltsLess f fun x => { x with put := w + 1 }) ?_
  generalize d.modFlue f _ = d1
  unfold Dev.flueWriteAt
  extract_lets n i s d2
  split
  · split
    · dsimp only
      exact Dev.modFlue_haltsLess f _
    · exact (Dev.bumpFlue_haltsLess (by decide) f).trans (Dev.fillNotice_notifies hf).haltsLess
  · have h2 : d1.HaltsLess d2 := (Dev.modFlue_haltsLess f _).trans (Dev.bumpFlue_haltsLess (by decide) f)
    exact (h2.trans (d2.flueEvent_notifies f _).haltsLess).trans (Dev.fillNotice_notifies hf).haltsLess

theorem Dev.flueFilled_haltsLess (i : Nat) (stale : Bool) (w : Nat) : d.HaltsLess (d.flueFilled f i stale (.ofWord w)) := by
  unfold Dev.flueFilled
  extract_lets d1
  have h1 : d.HaltsLess d1 := by
    unfold d1
    split
    · exact .refl d
    · exact Dev.modFlue_haltsLess f _
  exact (h1.trans (d1.fillNoticeOf_notifies hf w).haltsLess).trans (Dev.flueSettle_haltsLess f)

theorem Dev.flueFillOnce_haltsLess : d.HaltsLess (d.flueFillOnce f) := by
  have hwrite : d.HaltsLess (d.flueWrite f).1 := Dev.flueWrite_haltsLess hf
  unfold Dev.flueFillOnce
  generalize d.flueWrite f = r at hwrite ⊢
  obtain ⟨d1, out⟩ := r
  cases out with
  | accepted i => exact hwrite.trans (Dev.flueFilled_haltsLess hf i false (d1.get Obj.FLUE_CFG f))
  | absorbed => exact hwrite
  | dropped => exact hwrite

omit hf in
theorem Dev.flueRead_haltsLess (f : Nat) : d.HaltsLess (d.flueRead f).1 := by
  unfold Dev.flueRead
  extract_lets n r i s d1 d2
  have h1 : d.HaltsLess d1 := Dev.modFlue_haltsLess f _
  split
  · dsimp only
    exact h1.trans (Dev.modFlue_haltsLess f _)
  · have h2 : d1.HaltsLess d2 := (Dev.modFlue_haltsLess f _).trans (Dev.bumpFlue_haltsLess (by decide) f)
    exact (h1.trans h2).trans (d2.flueEvent_notifies f _).haltsLess

omit hf in
theorem Dev.flueDrained_haltsLess (f i : Nat) (stale : Bool) (c : FlueCfg) (peer : Nat) : d.HaltsLess (d.flueDrained f i stale c peer) := by
  unfold Dev.flueDrained
  extract_lets s d1
  have h1 : d.HaltsLess d1 := by
    unfold d1
    split
    · exact .refl d
    · exact Dev.modFlue_haltsLess f _
  exact (h1.trans (d1.drainNoticeOf_notifies c peer).haltsLess).trans (Dev.flueSettle_haltsLess f)

omit hf in
theorem Dev.flueDrainOnce_haltsLess (f : Nat) : d.HaltsLess (d.flueDrainOnce f) := by
  have hread : d.HaltsLess (d.flueRead f).1 := Dev.flueRead_haltsLess f
  unfold Dev.flueDrainOnce
  generalize d.flueRead f = r at hread ⊢
  obtain ⟨d1, i, own, ash⟩ := r
  dsimp only
  split
  · exact hread.trans (Dev.flueDrained_haltsLess ..)
  · exact hread.trans (Dev.drainNotice_notifies f).haltsLess

theorem Dev.flueDoorbell_haltsLess (v : Nat) : d.HaltsLess (d.flueDoorbell f v).1 := by
  have hbell : ∀ count (once : Dev → Dev), (∀ e : Dev, e.HaltsLess (once e)) → d.HaltsLess (d.flueBell f count once).1 := by
    intro count once honce
    unfold Dev.flueBell
    dsimp only
    split
    · exact .refl d
    · split
      · exact .refl d
      · exact (Dev.HaltsLess.refl d).foldl fun e _ _ => honce e
  unfold Dev.flueDoorbell
  split
  · exact hbell _ _ fun e => e.flueFillOnce_haltsLess hf
  · exact hbell _ _ fun e => e.flueDrainOnce_haltsLess f
  · exact (Dev.modFlue_haltsLess f _).trans (Dev.abortReport_notifies _).haltsLess
  · exact .refl d

end

theorem Dev.ringDoorbell_haltsLess {index sub v who : Nat} {r : Dev × Nat} (hr : d.ringDoorbell index sub v who = some r) :
    d.HaltsLess r.1 := by
  unfold Dev.ringDoorbell at hr
  split_ifs at hr with h1 h2 h3 h4 hrest h5
  · cases hr
    have hask : d.Apart (d.askFlue (index - 0x40000) who []).1 := by
      unfold Dev.askFlue
      exact Dev.grantTo_apart ..
    exact hask.haltsLess.trans (Dev.flueDoorbell_haltsLess (by omega) v)
  · cases hr
    exact Dev.hobBell_haltsLess (by omega) v
  · cases hr
    exact (Dev.stokerBell_apart ..).haltsLess
  · cases hr
    exact .refl d
  · cases hr
    exact (Dev.phaseBell_apart v).haltsLess
  · cases hr
    exact Dev.stepBell_haltsLess ..

end

end Sys2Proof.Machine
end

section
/-! A line of a transfer that moves halts no transfer, and leaves its own in its place (R141, R144, R153, R277, R282, R294). -/

namespace Sys2Proof.Machine

/-! ### Stores and additions at a local address (R281 to R283) -/

/-- `r` is what a write makes of `d`: it halts no transfer, and one that has to wait leaves the hearths. -/
structure Dev.Puts (d : Dev) (r : Dev × Acc) : Prop where
  halts : d.HaltsLess r.1
  waits : r.2 = .wait → d.Apart r.1

section
variable {d e : Dev} {st sec : Nat} {r : Dev × Acc}

theorem Dev.Puts.of_apart (g : d.Apart r.1) : d.Puts r := ⟨g.haltsLess, fun _ => g⟩

theorem Dev.Puts.done {x : Acc} (g : d.HaltsLess e) (hx : x ≠ .wait) : d.Puts (e, x) := ⟨g, fun h => absurd h hx⟩

theorem Dev.Puts.after (g : e.Puts r) (h : d.Apart e) : d.Puts r := ⟨h.haltsLess.trans g.halts, fun hw => h.trans (g.waits hw)⟩

theorem Dev.hbmPutAs_puts (hst : st < 32) (g : Gate) (v : Line) (s : Option Nat) : d.Puts (d.hbmPutAs g st sec v [] s) := by
  unfold Dev.hbmPutAs
  split
  · exact .of_apart (.refl d)
  · exact .of_apart (.refl d)
  · exact .of_apart (Dev.wakeRegion_apart (by omega))
  · exact .of_apart ((Dev.chargeHbm_apart ..).trans (.bump (offHearth_stack (by decide) hst (by decide))))
  · extract_lets n d1 d2
    have h1 : d.Apart d1 := (Dev.wakePch_apart hst sec).trans (Dev.chargeHbm_apart ..)
    have h2 : d1.HaltsLess d2 := by
      unfold d2
      split
      · exact Dev.writeSec_haltsLess hst sec _
      · exact Dev.writeSec_haltsLess hst sec v
    exact .done ((h1.haltsLess.trans h2).trans (Dev.crcMismatch_apart hst sec n).haltsLess) (by decide)

theorem Dev.foldAddAs_puts (hst : st < 32) (g : Gate) (bf16 : Bool) (v : Line) (s : Option Nat) : d.Puts (d.foldAddAs g st sec bf16 v s) := by
  unfold Dev.foldAddAs
  split
  · exact .of_apart (.refl d)
  · exact .of_apart (.refl d)
  · exact .of_apart (Dev.wakeRegion_apart (by omega))
  · exact .of_apart ((Dev.chargeHbm_apart ..).trans (.bump (offHearth_stack (by decide) hst (by decide))))
  · extract_lets n d1
    have h1 : d.Apart (d1.readSec st sec .hob).1 :=
      ((Dev.wakePch_apart hst sec).trans (Dev.chargeHbm_apart ..)).trans (Dev.readSec_apart hst sec .hob)
    generalize d1.readSec st sec .hob = x at h1 ⊢
    obtain ⟨d2, old⟩ := x
    have h2 : d.HaltsLess (d2.modStack st fun x => { x with hobClock := true }) := h1.haltsLess.trans (.modStack _)
    have hcount : ∀ e : Dev, e.HaltsLess (e.bump Obj.FOLD_ADD_SECTORS st) := fun _ =>
      (Dev.Apart.bump (offHearth_stack (by decide) hst (by decide))).haltsLess
    exact .done (((h2.trans (Dev.writeSec_haltsLess hst sec _)).trans (hcount _)).trans (Dev.crcMismatch_apart hst sec n).haltsLess) (by decide)

theorem Dev.aperWriteAs_puts (hst : st < 32) (g : Gate) (w l : Nat) (v : Line) (s : Option Nat) : d.Puts (d.aperWriteAs g st w l v s) := by
  unfold Dev.aperWriteAs
  dsimp only
  generalize d.srcSec st (.aper w l) = sec
  split
  · exact .of_apart (.refl d)
  · exact .of_apart (.refl d)
  · exact .of_apart (Dev.wakeRegion_apart (by omega))
  · exact .of_apart ((Dev.chargeHbm_apart ..).trans (.bump (offHearth_stack (by decide) hst (by decide))))
  · generalize d.crcFails st sec = n
    have hclock : d.Apart (d.modStack st fun x => { x with hobClock := true }) := .modStack _
    generalize d.modStack st (fun x => { x with hobClock := true }) = d1 at hclock ⊢
    generalize (if 5 ≤ n then Line.zerosAsh else v) = v1
    have hput : d1.HaltsLess (d1.aperPut st w l v1).1 := Dev.aperPut_haltsLess hst w l v1
    obtain ⟨⟨d2, x⟩, hx⟩ : ∃ r, d1.aperPut st w l v1 = r := ⟨_, rfl⟩
    rw [hx] at hput ⊢
    split
    next d' heq =>
      obtain ⟨rfl, rfl⟩ := Prod.mk.inj heq
      rw [Dev.aperPut_waits hx]
      exact .of_apart (hclock.trans (Dev.crcMismatch_apart hst sec n))
    next d' r hr heq =>
      obtain ⟨rfl, rfl⟩ := Prod.mk.inj heq
      refine .done (Dev.HaltsLess.trans ?_ (Dev.retryParts_haltsLess hst)) hr
      exact ((hclock.haltsLess.trans hput).trans (Dev.chargeHbm_apart ..).haltsLess).trans (Dev.crcMismatch_apart hst sec n).haltsLess

theorem Dev.slowPut_apart (t line : Nat) (v : Line) (mask : List Bool) (s : Option Nat) : d.Apart (d.slowPut t line v mask s).1 := by
  unfold Dev.slowPut
  split
  · exact .refl d
  · exact .refl d
  · exact .refl d
  · exact .refl d
  · have hset : ∀ x, d.Apart (d.setSlowLine t line x) := fun _ => .of_same rfl rfl
    exact ((hset _).trans (.bump (offHearth_high (by decide) _ _))).trans (Dev.chargeSlow_apart ..)

theorem Dev.remoteWrite_haltsLess (h off : Nat) (bs : List Byte) (ash : Bool) : d.HaltsLess (d.remoteWrite h off bs ash).1 := by
  unfold Dev.remoteWrite
  split
  · exact .refl d
  · split
    · exact .refl d
    · split
      · split
        · dsimp only
          exact .modHearth ..
        · dsimp only
          exact .modHearth ..
      · exact (Dev.HaltsLess.bump (by decide)).trans (Dev.raiseOnce_haltsLess ..)

theorem Dev.scrWrite_puts {h : Nat} (hh : h < 1024) (off : Nat) (v : Line) : d.Puts (d.scrWrite h off v []) := by
  unfold Dev.scrWrite
  split
  · exact .of_apart (Dev.wakeRegion_apart (by omega))
  · have hwrite := d.remoteWrite_haltsLess h off (fit 0 64 v.bytes) v.ash
    rw [List.isEmpty_nil, if_pos rfl]
    generalize d.remoteWrite h off (fit 0 64 v.bytes) v.ash = r at hwrite ⊢
    obtain ⟨d1, x⟩ := r
    exact .done hwrite (by cases x <;> decide)

theorem bellRegion_lt {index sub g : Nat} (h : bellRegion index sub = some g) : g < 16 := by
  unfold bellRegion at h
  split_ifs at h
  · cases h
    omega
  · cases h
    omega

theorem Dev.wakeAll_apart {gs : List Nat} (hgs : ∀ g ∈ gs, g < 16) : d.Apart (gs.foldl Dev.wakeRegion d) :=
  (Dev.Apart.refl d).foldl fun _ g hg => Dev.wakeRegion_apart (hgs g hg)

/-- Doorbell words that are written are not left to wait. -/
theorem Dev.ringWords_puts (off : Nat) (bs : List Byte) (who : Nat) : d.Puts (d.ringWords off bs who) := by
  have hall : d.HaltsLess (d.ringWords off bs who).1 ∧ (d.ringWords off bs who).2 ≠ .wait := by
    refine List.foldlRecOn (motive := fun r : Dev × Acc => d.HaltsLess r.1 ∧ r.2 ≠ .wait) (List.range 8) _ ⟨.refl d, by simp⟩ ?_
    intro r ⟨hr, hx⟩ i _
    dsimp only
    split
    · exact ⟨hr, hx⟩
    next d' x heq =>
      split
      · exact ⟨hr, by simp⟩
      · refine ⟨hr.trans (Dev.ringDoorbell_haltsLess heq), ?_⟩
        split
        · exact hx
        · simp
  exact ⟨hall.1, fun h => absurd h hall.2⟩

theorem Dev.ringLine_puts (off : Nat) (bs : List Byte) (who : Nat) : d.Puts (d.ringLine off bs who) := by
  unfold Dev.ringLine
  extract_lets gs
  split
  · exact .of_apart (.refl d)
  · split
    · exact d.ringWords_puts off bs who
    · refine .of_apart (Dev.wakeAll_apart fun g hg => ?_)
      obtain ⟨i, -, hi⟩ := List.mem_filterMap.mp (List.mem_filter.mp hg).1
      exact bellRegion_lt hi

theorem Dev.hostPut_apart (a : Nat) (bs : List Byte) (mask : List Bool) : d.Apart (d.hostPut a bs mask).1 := by
  unfold Dev.hostPut
  split
  · exact .refl d
  · split
    · exact .refl d
    · exact .of_same rfl rfl

theorem Dev.localWrite_puts (a : Nat) (v : Line) (s : Option Nat) (who : Nat) : d.Puts (d.localWrite a v [] s who) := by
  unfold Dev.localWrite
  simp only [List.isEmpty_nil, if_true]
  split
  next ha => exact (Dev.hbmPutAs_puts (Dev.area_hbm_lt ha) ..).after (Dev.askStack_apart ..)
  next ha => exact (Dev.aperWriteAs_puts (Dev.area_aper_lt ha) ..).after (Dev.askStack_apart ..)
  next t l _ =>
    have hask := d.askSlow_apart t who
    generalize d.askSlow t who = d1 at hask ⊢
    exact (Dev.Puts.of_apart (Dev.slowPut_apart ..)).after hask
  next ha => exact Dev.scrWrite_puts (Dev.area_scr_lt ha) ..
  · exact d.ringLine_puts ..
  · exact .of_apart (Dev.hostPut_apart ..)
  · exact .of_apart (.refl d)

theorem Dev.localAdd_puts (a : Nat) (bf16 : Bool) (v : Line) (s : Option Nat) (who : Nat) : d.Puts (d.localAdd a bf16 v s who) := by
  unfold Dev.localAdd
  split
  next ha => exact (Dev.foldAddAs_puts (Dev.area_hbm_lt ha) ..).after (Dev.askStack_apart ..)
  · exact .of_apart (.refl d)
  · exact .of_apart (.refl d)

theorem Dev.chargeFabric_apart (k n : Nat) : d.Apart (d.chargeFabric k n) := .bump (offHearth_high (by decide) _ _)

theorem Dev.putLine_puts (h : Nat) (t : Transfer) (a : Nat) (v : Line) : d.Puts (d.putLine h t a v) := by
  have hwrite : d.Puts (d.localWrite a v [] (some t.ctx) h) := Dev.localWrite_puts ..
  unfold Dev.putLine
  split
  · exact Dev.localAdd_puts ..
  · split
    · split
      · exact .done (.modHearth ..) (by decide)
      · exact hwrite
    · generalize d.localWrite a v [] (some t.ctx) h = r at hwrite ⊢
      obtain ⟨d1, x⟩ := r
      split
      next heq =>
        obtain ⟨rfl, rfl⟩ := Prod.mk.inj heq
        exact .done (hwrite.halts.trans (Dev.chargeFabric_apart ..).haltsLess) (by decide)
      · exact hwrite
    · exact hwrite

/-! ### A line that goes on along its path (R145, R179, R220) -/

theorem Dev.holdReq_haltsLess (hst : st < 32) (w : HbmWait) : d.HaltsLess (d.holdReq st w) := by
  unfold Dev.holdReq
  split
  · exact .modStack _
  · exact (Dev.HaltsLess.modStack _).trans (Dev.Apart.bump (offHearth_stack (by decide) hst (by decide))).haltsLess

theorem Dev.replyGot_haltsLess (x : Got) : d.HaltsLess (d.replyGot x) := by
  cases x <;> exact .of_od rfl

theorem Dev.serveAs_haltsLess (hst : st < 32) (g : Gate) {w : HbmWait} (hmask : w.mask = []) : d.HaltsLess (d.serveAs g st w) := by
  obtain ⟨d0, hd0⟩ : ∃ d0 : Dev, d0 = { d with crc := [(hbmKey st w.sec, w.crc)] } := ⟨_, rfl⟩
  have h0 : d.HaltsLess d0 := by rw [hd0]; exact .of_od rfl
  have hput : ∀ r : Dev × Acc, d0.Puts r → d.HaltsLess (if r.2 = Acc.wait then r.1.holdReq st { w with crc := 0 } else r.1.replyAcc r.2) := by
    intro r hr
    split
    · exact (h0.trans hr.halts).trans (Dev.holdReq_haltsLess hst _)
    · exact (h0.trans hr.halts).trans (Dev.replyAcc_haltsLess _)
  have hget : ∀ r : Dev × Got, d0.HaltsLess r.1 → d.HaltsLess (if r.2 = Got.wait then r.1.holdReq st { w with crc := 0 } else r.1.replyGot r.2) := by
    intro r hr
    split
    · exact (h0.trans hr).trans (Dev.holdReq_haltsLess hst _)
    · exact (h0.trans hr).trans (Dev.replyGot_haltsLess _)
  unfold Dev.serveAs
  extract_lets keep d1 held put d2
  have h2 : d.HaltsLess d2 := by
    have hd1 : d1 = d0 := hd0.symm
    unfold d2
    rw [hd1]
    split
    · exact hput _ (Dev.foldAddAs_puts hst ..)
    · exact hput _ (hmask ▸ Dev.hbmPutAs_puts hst ..)
    · exact hput _ (Dev.aperWriteAs_puts hst ..)
    · exact hget _ (Dev.stackReadAs_apart hst ..).haltsLess
  exact h2.trans (.of_od rfl)

theorem Dev.offer_haltsLess (hst : st < 32) {w : HbmWait} (hmask : w.mask = []) : d.HaltsLess (d.offer st w) := by
  unfold Dev.offer
  split
  · exact (Dev.wakeRegion_apart (by omega)).haltsLess.trans (.modStack _)
  · exact Dev.holdReq_haltsLess hst w
  · exact Dev.serveAs_haltsLess hst _ hmask

theorem Dev.queueLine_haltsLess (t : Transfer) (a : Nat) (v : Line) : d.HaltsLess (d.queueLine t a v) := by
  unfold Dev.queueLine
  extract_lets req
  split
  next ha => exact Dev.offer_haltsLess (Dev.area_hbm_lt ha) rfl
  next ha => exact Dev.offer_haltsLess (Dev.area_aper_lt ha) rfl
  · exact .of_od rfl
  next ha => exact d.toEdge_haltsLess (Dev.area_scr_lt ha) _
  · exact .refl d

/-! ### Lines that arrive or fault (R65, R144, R153) -/

theorem Dev.ownLine_haltsLess (h l : Nat) (v : Line) : d.HaltsLess (d.ownLine h l v) := by
  unfold Dev.ownLine Dev.countAshLine
  extract_lets d1
  have h1 : d.HaltsLess d1 := .modHearth ..
  split
  · split
    · exact h1
    · exact (h1.trans (.bump (by decide))).trans (Dev.raiseOnce_haltsLess ..)
  · exact h1

theorem Dev.lineIn_haltsLess (h : Nat) (t : Transfer) (n : Nat) (v : Line) : d.HaltsLess (d.lineIn h t n v) :=
  (Dev.ownLine_haltsLess ..).trans (.bump (by decide))

theorem Dev.lineLost_haltsLess (h : Nat) (t : Transfer) (n : Nat) : d.HaltsLess (d.lineLost h t n) := by
  unfold Dev.lineLost
  extract_lets d1
  have h1 : d.HaltsLess d1 := .bump (by decide)
  split
  · exact h1.trans (Dev.lineIn_haltsLess ..)
  · exact h1

theorem Dev.pageEvent_apart (h : Nat) (t : Transfer) (ev : Ev) (page : Nat) : d.Apart (d.pageEvent h t ev page) :=
  (Dev.Apart.bump (offHearth_high (by decide) _ _)).trans (.raise ..)

/-- What a line that moves leaves of its transfer. -/
structure Transfer.Like (t u : Transfer) : Prop where
  halted : u.halted = t.halted
  nativeRest : u.nativeRest = t.nativeRest
  id : u.id = t.id

theorem Transfer.Like.refl (t : Transfer) : t.Like t := ⟨rfl, rfl, rfl⟩

theorem Transfer.Like.trans {t u v : Transfer} (g : t.Like u) (h : u.Like v) : t.Like v :=
  ⟨h.halted.trans g.halted, h.nativeRest.trans g.nativeRest, h.id.trans g.id⟩

theorem Transfer.Like.ite {t u : Transfer} (g : t.Like u) (c : Prop) [Decidable c] : t.Like (if c then t else u) := by
  split
  · exact .refl t
  · exact g

theorem Transfer.noteFirst_like (t : Transfer) (n dv a : Nat) : t.Like (t.noteFirst n dv a) := by
  unfold Transfer.noteFirst
  split
  · exact ⟨rfl, rfl, rfl⟩
  · exact .refl t

theorem Dev.lineFault_spec (h : Nat) (t : Transfer) (n shift : Nat) :
    d.HaltsLess (d.lineFault h t n shift).1 ∧ t.Like (d.lineFault h t n shift).2 := by
  have hlost : d.HaltsLess (d.lineLost h t n) := Dev.lineLost_haltsLess ..
  unfold Dev.lineFault
  dsimp only
  split
  · exact ⟨hlost, .refl t⟩
  · exact ⟨hlost.trans (Dev.pageEvent_apart ..).haltsLess, rfl, rfl, rfl⟩

/-! ### A line that moves (R141, R144, R277, R294) -/

/-- `e` is `d` after a line of transfer `t`, in place `p` of hearth `h`, has moved or waits: no transfer has been halted, and `t` is in its
place. -/
structure Dev.MovesOn (d e : Dev) (h p : Nat) (t : Transfer) : Prop where
  halts : d.HaltsLess e
  place : ∃ u, (e.hearth h).place p = some u ∧ t.Like u

section
variable {h p : Nat} {t u : Transfer}

theorem Dev.MovesOn.passed (g : d.HaltsLess e) (hu : t.Like u) (n : Nat) : d.MovesOn (e.passed h p u n) h p t :=
  ⟨g.trans (.of_od rfl), _, Dev.place_setPlace .., hu.trans ⟨rfl, rfl, rfl⟩⟩

theorem Dev.MovesOn.stays (g : d.Apart e) (ht : (d.hearth h).place p = some t) : d.MovesOn e h p t :=
  ⟨g.haltsLess, t, by rw [g.hearth]; exact ht, .refl t⟩

theorem Dev.MovesOn.after {b : Dev} (g : b.MovesOn e h p t) (hb : d.Apart b) : d.MovesOn e h p t := ⟨hb.haltsLess.trans g.halts, g.place⟩

theorem Dev.MovesOn.faulted (g : d.HaltsLess e) (n shift : Nat) :
    d.MovesOn ((e.lineFault h t n shift).1.passed h p (e.lineFault h t n shift).2 n) h p t := by
  obtain ⟨hfault, hlike⟩ := Dev.lineFault_spec (d := e) h t n shift
  exact .passed (g.trans hfault) hlike n

theorem Dev.MovesOn.lost (g : d.HaltsLess e) (hu : t.Like u) (n : Nat) : d.MovesOn ((e.lineLost h t n).passed h p u n) h p t :=
  .passed (g.trans (Dev.lineLost_haltsLess ..)) hu n

theorem Dev.cacheHit_movesOn (n : Nat) (v : Line) : d.MovesOn (((d.lineIn h t n v).bump Obj.CACHE_BYTES t.ctx 64).passed h p t n) h p t :=
  .passed ((Dev.lineIn_haltsLess ..).trans (Dev.Apart.bump (offHearth_high (by decide) _ _)).haltsLess) (.refl t) n

theorem Dev.cacheKeep_apart (h : Nat) (t : Transfer) (dv a : Nat) (v : Line) : d.Apart (d.cacheKeep h t dv a v) := by
  unfold Dev.cacheKeep
  split
  · exact .of_same rfl rfl
  · exact .refl d

section
variable (ht : (d.hearth h).place p = some t)
include ht

theorem Dev.moveIn_movesOn (n a : Nat) : d.MovesOn (d.moveIn h p t n a []) h p t := by
  have hread := d.localRead_apart a t.d.chain (some t.ctx) h
  unfold Dev.moveIn
  extract_lets key
  split
  · exact Dev.cacheHit_movesOn n _
  · generalize d.localRead a t.d.chain (some t.ctx) [] h = r at hread ⊢
    obtain ⟨d1, x⟩ := r
    cases x with
    | wait => exact .stays hread ht
    | line v =>
      have hcharged : d.Apart (match d1.area a with | .host _ => d1.chargeFabric t.ctx 64 | _ => d1) := by
        split
        · exact hread.trans (Dev.chargeFabric_apart ..)
        · exact hread
      exact .passed ((hcharged.trans (Dev.cacheKeep_apart ..)).haltsLess.trans (Dev.lineIn_haltsLess ..)) (.refl t) n
    | absent => exact .lost hread.haltsLess (.refl t) n
    | invalid => exact .faulted hread.haltsLess n _

theorem Dev.moveOut_movesOn (n a : Nat) : d.MovesOn (d.moveOut h p t n a []) h p t := by
  have hsource : d.sourceLine h t n [] = (d, (d.hearth h).line (t.lineOf n)) := rfl
  have hput := Dev.putLine_puts (d := d) h t a ((d.hearth h).line (t.lineOf n))
  have hcount : ∀ e : Dev, d.HaltsLess e → d.HaltsLess (e.bump Obj.STREAM_BYTES_OUT h 64) := fun e he => he.trans (.bump (by decide))
  unfold Dev.moveOut
  rw [hsource]
  dsimp only
  generalize (d.hearth h).line (t.lineOf n) = v at hput ⊢
  generalize d.putLine h t a v = r at hput ⊢
  obtain ⟨d1, x⟩ := r
  obtain ⟨hhalts, hwaits⟩ := hput
  cases x with
  | wait =>
    dsimp only
    split
    · exact .passed (hcount _ (hhalts.trans (Dev.queueLine_haltsLess ..))) (t.noteFirst_like ..) n
    · exact .stays (hwaits rfl) ht
  | ok =>
    refine .passed (hcount _ hhalts) ?_ n
    exact (t.noteFirst_like ..).ite _
  | refused => exact .lost (hcount _ hhalts) (t.noteFirst_like ..) n
  | absent => exact .lost (hcount _ hhalts) (.refl t) n
  | invalid => exact .faulted (hcount _ hhalts) n _

omit ht in
theorem Dev.freshTag_apart : d.Apart d.freshTag.2 := by
  unfold Dev.freshTag
  generalize (Option.getD _ _) = tag
  exact .of_same rfl rfl

omit ht in
theorem Dev.sendLine_apart {f : Frame} {row : Bool} (hs : d.sendLine f row = some e) : d.Apart e := by
  unfold Dev.sendLine at hs
  split at hs
  · dsimp only at hs
    split at hs
    · cases hs
      exact .of_same rfl rfl
    · exact (Dev.trySend_recorded hs).apart
  · exact (Dev.trySend_recorded hs).apart

omit ht in
/-- A line for another device is queued, or lost where it has no route (R277). -/
theorem Dev.sendLine_movesOn {b : Dev} {f : Frame} {row : Bool} {k : Dev → Dev} (g : d.Apart b)
    (hk : ∀ c, d.Apart c → d.MovesOn (k c) h p t) (n dv : Nat) :
    d.MovesOn (match b.sendLine f row with | none => ((b.countUnroutable dv).lineLost h t n).passed h p t n | some c => k c) h p t := by
  split
  · exact .lost (g.trans (b.countUnroutable_recorded dv).apart).haltsLess (.refl t) n
  next c hsend => exact hk c (g.trans (Dev.sendLine_apart hsend))

omit ht in
theorem Dev.sourceLine_apart {b : Dev} (g : d.Apart b) (c : Prop) [Decidable c] (v : Line) (n : Nat) :
    d.Apart (if c then (b, v) else b.sourceLine h t n []).1 := by
  split
  · exact g
  · exact g

omit ht in
theorem Dev.HaltsLess.lineSent (g : d.HaltsLess e) (t : Transfer) (c : Prop) [Decidable c] :
    d.HaltsLess (if c then e else (e.bump Obj.STREAM_BYTES_OUT h 64).chargeFabric t.ctx 64) := by
  split
  · exact g
  · exact (g.trans (.bump (by decide))).trans (Dev.chargeFabric_apart ..).haltsLess

omit ht in
theorem Dev.HaltsLess.drainsForced (g : d.HaltsLess e) (c : Prop) [Decidable c] :
    d.HaltsLess (if c then (e.bump Obj.REARM_FORCED_DRAINS h).raiseOnce h Once.rearm.num Event.rearmForced else e) := by
  split
  · exact (g.trans (.bump (by decide))).trans (Dev.raiseOnce_haltsLess ..)
  · exact g

omit ht in
theorem Dev.moveFar_movesOn (n dv a : Nat) : d.MovesOn (d.moveFar h p t n dv a []) h p t := by
  have htag : d.Apart (match t.tag with | some g => (g, d) | none => d.freshTag).2 := by
    split
    · exact .refl d
    · exact Dev.freshTag_apart
  unfold Dev.moveFar
  extract_lets ds hit
  clear_value hit
  cases hit with
  | some v => exact Dev.cacheHit_movesOn n v
  | none =>
    dsimp only
    refine Dev.sendLine_movesOn (Dev.sourceLine_apart htag _ _ n) (fun d2 hd2 => ?_) n dv
    have hsent : ∀ tag, d.HaltsLess (d2.await tag (some (.xfer h p))) := fun _ => hd2.haltsLess.trans (.of_od rfl)
    refine .passed (((hsent _).lineSent t _).drainsForced _) ?_ n
    split
    · exact ⟨rfl, rfl, rfl⟩
    · refine Transfer.Like.trans ?_ (Transfer.noteFirst_like ..)
      exact ⟨rfl, rfl, rfl⟩

/-- The next line of a transfer moves or waits, unless it halts the transfer (R141, R154). -/
theorem Dev.moveLine_movesOn (hhalt : t.nativeRest = true ∨
      ((d.farLine h t t.next).2 ≠ .unmapped ∧ ∀ g, (d.farLine h t t.next).2 ≠ .forbidden g)) : d.MovesOn (d.moveLine h p t []) h p t := by
  have hfar := d.farLine_apart h t t.next
  unfold Dev.moveLine
  extract_lets n
  split
  · exact .stays (.refl d) ht
  · split
    · exact .passed (.refl d) (.refl t) n
    · generalize hr : d.farLine h t n = r at hfar hhalt ⊢
      obtain ⟨d1, x⟩ := r
      have ht1 : (d1.hearth h).place p = some t := by rw [hfar.hearth]; exact ht
      have hfault : ∀ shift, t.nativeRest = true →
          d.MovesOn ((d1.lineFault h t n shift).1.passed h p (d1.lineFault h t n shift).2 n) h p t := fun shift _ => .faulted hfar.haltsLess n shift
      cases x with
      | wait => exact .stays (.refl d) ht
      | ok dv a =>
        dsimp only
        split
        · exact (Dev.moveFar_movesOn n dv a).after hfar
        · split
          · exact (Dev.moveIn_movesOn ht1 n a).after hfar
          · exact (Dev.moveOut_movesOn ht1 n a).after hfar
      | absent => exact .lost hfar.haltsLess (.refl t) n
      | unmapped =>
        have hnative := hhalt.resolve_right fun hx => hx.1 rfl
        simp only [Dev.badLine, hnative, Bool.not_true, Bool.and_false, Bool.false_and, Bool.false_eq_true, if_false]
        exact hfault _ hnative
      | forbidden shift =>
        have hnative := hhalt.resolve_right fun hx => hx.2 shift rfl
        simp only [Dev.badLine, hnative, Bool.not_true, Bool.and_false, Bool.false_and, Bool.false_eq_true, if_false]
        exact hfault _ hnative

end

end

end

end Sys2Proof.Machine
end

section
/-! Halted transfers are resumed (R156). -/

namespace Sys2Proof.Machine

/-- A halted transfer as a resume puts it back, its remaining lines handled natively where the resume aborts. -/
def Transfer.resumed (x : Transfer) (abort : Bool) : Transfer := { x with halted := none, nativeRest := x.nativeRest || abort }

theorem Transfer.resumed_false (x : Transfer) : x.resumed false = { x with halted := none } := by rw [Transfer.resumed, Bool.or_false]

/-- The device as a resume finds its transfer's next line. -/
def Dev.unhalted (d : Dev) (h p : Nat) (x : Transfer) : Dev := (d.putBit Obj.HALTED_STREAMS p false h).setPlace h p (some x)

section
variable {d : Dev} {h p : Nat} {x : Transfer}

theorem Dev.unhalted_bit (hp : p < 32) (d : Dev) (h : Nat) (x : Transfer) : ((d.unhalted h p x).get Obj.HALTED_STREAMS h).testBit p = false := by
  have hbit := Dev.bit_get_putBit d Obj.HALTED_STREAMS p p h false hp
  rw [if_pos rfl] at hbit
  exact hbit

theorem Dev.resumeStream_halted (hplace : (d.hearth h).place p = some x) (hhalted : x.halted.isSome = true) (abort : Bool) :
    d.resumeStream h p abort = (d.unhalted h p (x.resumed abort)).moveLine h p (x.resumed abort) [] := by
  have hsome : x.halted.isNone = false := by simpa using hhalted
  simp only [Dev.resumeStream, hplace, hsome, Bool.false_eq_true, if_false]
  rfl

theorem Dev.resumeStream_running (hplace : (d.hearth h).place p = some x) (hhalted : x.halted = none) (abort : Bool) :
    d.resumeStream h p abort = d := by
  simp [Dev.resumeStream, hplace, hhalted]

/-- A transfer whose line does not halt it again is no longer halted. -/
theorem Dev.resumeStream_moves (hh : h < 1024) (hp : p < 32) (hplace : (d.hearth h).place p = some x) (hhalted : x.halted.isSome = true) {abort : Bool}
    (hgoes : (x.resumed abort).nativeRest = true ∨ (((d.unhalted h p (x.resumed abort)).farLine h (x.resumed abort) x.next).2 ≠ .unmapped ∧
      ∀ g, ((d.unhalted h p (x.resumed abort)).farLine h (x.resumed abort) x.next).2 ≠ .forbidden g)) :
    ((d.resumeStream h p abort).get Obj.HALTED_STREAMS h).testBit p = false ∧
    ∃ y, ((d.resumeStream h p abort).hearth h).place p = some y ∧ y.halted = none ∧ y.nativeRest = (x.resumed abort).nativeRest ∧ y.id = x.id := by
  obtain ⟨⟨hhalts⟩, y, hy, hlike⟩ := Dev.moveLine_movesOn (d := d.unhalted h p (x.resumed abort)) (Dev.place_setPlace ..) hgoes
  rw [Dev.resumeStream_halted hplace hhalted]
  refine ⟨Bool.eq_false_iff.mpr fun hbit => ?_, y, hy, hlike.halted, hlike.nativeRest, hlike.id⟩
  have hstill := hhalts h hh p hbit
  rw [Dev.unhalted_bit hp] at hstill
  cases hstill

/-- A transfer whose line is still unmapped is halted again. -/
theorem Dev.resumeStream_halts {d2 : Dev} (hh : h < 1024) (hp : p < 32) (hplace : (d.hearth h).place p = some x) (hhalted : x.halted.isSome = true)
    (hmoved : x.moved = false) (hahead : x.next ∉ x.ahead)
    (hfar : (d.unhalted h p (x.resumed false)).farLine h (x.resumed false) x.next = (d2, .unmapped)) (hfault : x.d.faultHalt = true)
    (hnative : x.nativeRest = false) (hab : d2.abortingAt h = false) :
    ((d.resumeStream h p false).get Obj.HALTED_STREAMS h).testBit p = true ∧
    ((d.resumeStream h p false).hearth h).place p = some { x with halted := some x.next } := by
  have hmove := Dev.moveLine_unmapped (p := p) (words := []) (t := x.resumed false) hmoved hahead hfar
  rw [Dev.badLine_halts (t := x.resumed false) hfault (by simpa [Transfer.resumed] using hnative) hab] at hmove
  obtain ⟨hbit, -, hagain⟩ := Dev.haltAt_spec hh hp d2 (x.resumed false) x.next 21
  rw [Dev.resumeStream_halted hplace hhalted, hmove]
  refine ⟨hbit, hagain.trans ?_⟩
  rw [Transfer.resumed_false]

end

section
variable {s : State} {h : Fin 1024} {p : Fin 32} (hs : s.dev.HearthServes h.val Obj.STREAM_RESUME 0)
include hs

theorem State.streamResume_exec : exec (.streamResume h p) s = .next { s with dev := (s.dev.resumeStream h.val p.val false).answer 0 } :=
  State.onDev_next (f := fun d => d.gatedHearth h.val Obj.STREAM_RESUME 0 p.val fun d => (d.resumeStream h.val p.val false).answer 0)
    (Dev.gatedHearth_of_serves hs ..)

theorem State.streamResumeAbort_exec : exec (.streamResumeAbort h p) s = .next { s with dev := (s.dev.resumeStream h.val p.val true).answer 0 } :=
  State.onDev_next (f := fun d => d.gatedHearth h.val Obj.STREAM_RESUME 0 (2 ^ 63 + p.val) fun d => (d.resumeStream h.val p.val true).answer 0)
    (Dev.gatedHearth_of_serves hs ..)

variable {x : Transfer} (hplace : (s.dev.hearth h.val).place p.val = some x)
include hplace

theorem State.resumeAborts (hhalted : x.halted.isSome = true) :
    ∃ t, exec (.streamResumeAbort h p) s = .next t ∧ (t.dev.get Obj.HALTED_STREAMS h.val).testBit p.val = false ∧
      (∃ y, (t.dev.hearth h.val).place p.val = some y ∧ y.halted = none ∧ y.nativeRest = true ∧ y.id = x.id) ∧ t.dev.reply = ⟨0, 0, []⟩ := by
  have hnative : (x.resumed true).nativeRest = true := Bool.or_true _
  obtain ⟨hbit, y, hy, hyhalted, hynative, hid⟩ := Dev.resumeStream_moves h.isLt p.isLt hplace hhalted (.inl hnative)
  exact ⟨_, State.streamResumeAbort_exec hs, hbit, ⟨y, hy, hyhalted, hynative.trans hnative, hid⟩, rfl⟩

theorem State.resumeGoesOn {d1 : Dev} (hhalted : x.halted.isSome = true)
    (hd1 : d1 = (s.dev.putBit Obj.HALTED_STREAMS p.val false h.val).setPlace h.val p.val (some { x with halted := none }))
    (hmapped : (d1.farLine h.val { x with halted := none } x.next).2 ≠ .unmapped)
    (hallowed : ∀ g, (d1.farLine h.val { x with halted := none } x.next).2 ≠ .forbidden g) :
    ∃ t, exec (.streamResume h p) s = .next t ∧ (t.dev.get Obj.HALTED_STREAMS h.val).testBit p.val = false ∧
      (∃ y, (t.dev.hearth h.val).place p.val = some y ∧ y.halted = none ∧ y.id = x.id) ∧ t.dev.reply = ⟨0, 0, []⟩ := by
  subst hd1
  have hgoes := Dev.resumeStream_moves (abort := false) h.isLt p.isLt hplace hhalted
  rw [Transfer.resumed_false] at hgoes
  obtain ⟨hbit, y, hy, hyhalted, -, hid⟩ := hgoes (.inr ⟨hmapped, hallowed⟩)
  exact ⟨_, State.streamResume_exec hs, hbit, ⟨y, hy, hyhalted, hid⟩, rfl⟩

theorem State.resumeHaltsAgain {d1 d2 : Dev} (hhalted : x.halted.isSome = true) (hmoved : x.moved = false) (hahead : x.next ∉ x.ahead)
    (hd1 : d1 = (s.dev.putBit Obj.HALTED_STREAMS p.val false h.val).setPlace h.val p.val (some { x with halted := none }))
    (hfar : d1.farLine h.val { x with halted := none } x.next = (d2, .unmapped)) (hfault : x.d.faultHalt = true) (hnative : x.nativeRest = false)
    (hab : d2.abortingAt h.val = false) :
    ∃ t, exec (.streamResume h p) s = .next t ∧ (t.dev.get Obj.HALTED_STREAMS h.val).testBit p.val = true ∧
      (t.dev.hearth h.val).place p.val = some { x with halted := some x.next } ∧ t.dev.reply = ⟨0, 0, []⟩ := by
  subst hd1
  rw [← Transfer.resumed_false] at hfar
  obtain ⟨hbit, hagain⟩ := Dev.resumeStream_halts h.isLt p.isLt hplace hhalted hmoved hahead hfar hfault hnative hab
  exact ⟨_, State.streamResume_exec hs, hbit, hagain, rfl⟩

theorem State.resumeLeaves (hhalted : x.halted = none) :
    ∃ t, exec (.streamResume h p) s = .next t ∧ t.dev.reply = ⟨0, 0, []⟩ ∧ s.OnlyObjects t [] := by
  have hexec := State.streamResume_exec hs (p := p)
  rw [Dev.resumeStream_running hplace hhalted] at hexec
  exact ⟨_, hexec, rfl, rfl, fun _ _ => rfl⟩

end

end Sys2Proof.Machine
end

section
/-! Entries whose unit or transfer has ended complete (R111, R112). -/

namespace Sys2Proof.Machine

/-! ### What completion leaves of a hearth -/

/-- What an entry's completion goes by: the window, the part of the step, and the transfers in places. -/
def Hearth.course (x : Hearth) : List WEntry × Option StepRun × Tab (Option Transfer) := (x.window, x.run, x.places)

/-- `d'` has the memories outside the hearths of `d`, and hearth `h` shows the same by `f`. -/
structure Dev.Leaves {α : Type} (f : Hearth → α) (h : Nat) (d d' : Dev) : Prop where
  hbm : d'.hbm = d.hbm
  slow : d'.slow = d.slow
  hearth : f (d'.hearth h) = f (d.hearth h)

section
variable {α : Type} {f : Hearth → α} {h k : Nat} {a b c d : Dev}

theorem Dev.Leaves.refl (f : Hearth → α) (h : Nat) (d : Dev) : d.Leaves f h d := ⟨rfl, rfl, rfl⟩

theorem Dev.Leaves.trans (g : a.Leaves f h b) (l : b.Leaves f h c) : a.Leaves f h c :=
  ⟨l.hbm.trans g.hbm, l.slow.trans g.slow, l.hearth.trans g.hearth⟩

theorem Dev.Leaves.bump (o : ObjDef) (i n e : Nat) : d.Leaves f h (d.bump o i n e) :=
  ⟨(Dev.hbm_bump ..).1, (Dev.hbm_bump ..).2, congrArg f (Dev.hearth_bump ..)⟩

theorem Dev.Leaves.modHearth {u : Hearth → Hearth} (hu : f (u (d.hearth k)) = f (d.hearth k)) : d.Leaves f h (d.modHearth k u) := by
  refine ⟨rfl, rfl, ?_⟩
  by_cases hk : h = k
  · subst hk
    rw [Dev.modHearth, Dev.hearth_setHearth_self, hu]
  · rw [Dev.modHearth, Dev.hearth_setHearth_ne d hk]

theorem Dev.Notifies.leaves (g : a.Notifies b) (h : Nat) : a.Leaves Hearth.course h b := by
  refine ⟨g.hbm, g.slow, ?_⟩
  obtain ⟨cs, hcs⟩ := g.hearths h
  rw [hcs]
  rfl

theorem Dev.Works.leaves (g : a.Works Hearth.control h b) : a.Leaves Hearth.course h b := ⟨g.hbm, g.slow, congrArg (fun z => z.course) g.hearth⟩

theorem Dev.FillGoes.leaves (g : a.FillGoes h) (l : a.Leaves Hearth.course h b) : b.FillGoes h := g.congr (congrArg (·.2.1) l.hearth)

theorem Dev.Leaves.window (l : a.Leaves Hearth.course h b) : (b.hearth h).window = (a.hearth h).window := congrArg (·.1) l.hearth

theorem Dev.Leaves.places (l : a.Leaves Hearth.course h b) : (b.hearth h).places = (a.hearth h).places := congrArg (·.2.2) l.hearth

/-- An arrival notice adds to counters (R135). -/
theorem Dev.arrival_leaves {k : Nat} (hk : k < 1024) (line h : Nat) : d.Leaves Hearth.course h (d.arrival k line) := by
  unfold Dev.arrival
  split
  · exact (d.toEdge_notifies hk _).leaves h
  · unfold Dev.arrivalNow
    split
    · have hcount : d.Leaves Hearth.course h (d.bump Obj.ARRIVAL_NOTICES k) := .bump ..
      dsimp only
      split
      · split
        · exact hcount.trans (.modHearth rfl)
        · exact hcount
      · exact hcount
    · unfold Dev.absorbNotice
      split
      · exact .bump ..
      · exact .refl ..

theorem Dev.transferNotice_leaves (t : Transfer) (h : Nat) : d.Leaves Hearth.course h (d.transferNotice t) := by
  unfold Dev.transferNotice
  split
  · exact .refl ..
  · split
    · exact .refl ..
    · split
      · exact Dev.arrival_leaves (by rw [bits_eq]; omega) ..
      · exact (Dev.sendAnswer_recorded ..).notifies.leaves h

end

/-! ### Completion -/

section
variable {d : Dev} {h id : Nat} {e : WEntry}

/-- An entry that has completed is complete wherever the window shows it, and its signal changes that no more. -/
theorem Hearth.completed_spec {x : Hearth} (he : x.entryOf e.id = some e) :
    (∀ o ∈ (x.completed e).window, o.id = e.id → o.st = .complete) ∧ (x.completed e).places = x.places ∧
    ∃ o, (x.completed e).entryOf e.id = some o := by
  have hset : (x.setEntry e.ended).entryOf e.ended.id = some e.ended := Hearth.entryOf_setEntry he rfl
  have hcomplete : ∀ {y : Hearth} {v : WEntry}, v.st = .complete → ∀ o ∈ (y.setEntry v).window, o.id = v.id → o.st = .complete := by
    intro y v hv o ho hid
    obtain ⟨o', -, rfl⟩ := List.mem_map.mp ho
    by_cases ho' : o'.id = v.id
    · rw [if_pos ho']
      exact hv
    · rw [if_neg ho'] at hid
      exact absurd hid ho'
  unfold Hearth.completed Hearth.signal
  split
  · by_cases hslot : e.slot = none
    · rw [Hearth.increment_committed hset hslot]
      exact ⟨hcomplete rfl, rfl, _, hset⟩
    · have hsome : e.ended.slot.isSome = true := by
        rw [Option.isSome_iff_ne_none]
        exact hslot
      obtain ⟨-, -, inc, hentry⟩ := Hearth.increment_provisional hset hsome e.ended.hdr.sigCtr (e.ended.hdr.sigAmt + 1 : Nat)
      refine ⟨?_, ?_, _, hentry⟩
      · simp only [Hearth.increment, hset, hsome, if_true]
        exact hcomplete rfl
      · simp only [Hearth.increment, hset, hsome, if_true]
        rfl
  · exact ⟨hcomplete rfl, rfl, _, hset⟩

theorem Hearth.places_retired (x : Hearth) (e : WEntry) : (x.retired e).places = x.places := by
  obtain ⟨cs, slots, bad, hgrate⟩ := Hearth.grateLeaves_shape ((x.leave e.id).commit e.inc) e
  obtain ⟨cs', hcommit⟩ := (x.leave e.id).commit_shape e.inc
  rw [Hearth.retired, hgrate, hcommit]
  rfl

/-- A retirement while the fill stage goes on ends the entry, and changes neither memories nor places. -/
theorem Dev.retire_spec (g : d.FillGoes h) (he : (d.hearth h).entryOf id = some e) :
    (∀ o ∈ ((d.retire h id).hearth h).window, o.id = id → o.st = .retired) ∧ d.Leaves Hearth.places h (d.retire h id) := by
  have hid := Hearth.id_of_entryOf he
  subst hid
  obtain ⟨hwindow, hrun⟩ := Hearth.retired_spec (d.hearth h) e
  obtain ⟨b, hb⟩ : ∃ b, b = d.setHearth h ((d.hearth h).retired e) := ⟨_, rfl⟩
  have hx : b.hearth h = (d.hearth h).retired e := by rw [hb, Dev.hearth_setHearth_self]
  have htag : ∃ c, b.Leaves Hearth.course h c ∧ d.retire h e.id = c.illegalSettle h := by
    simp only [Dev.retire, he]
    split
    · refine ⟨_, ?_, rfl⟩
      rw [hb]
      exact (Dev.ownRun_works ..).leaves.trans (.bump ..)
    · refine ⟨_, ?_, rfl⟩
      rw [hb]
      exact .bump ..
  obtain ⟨c, hleaves, hretire⟩ := htag
  have hgoes : c.FillGoes h := (g.congr (d' := b) (by rw [hx, hrun])).leaves hleaves
  rw [hretire, Dev.illegalSettle_of_goes hgoes, hleaves.window, hx]
  refine ⟨fun o ho => (Hearth.mem_retired _ _ ho).1, ?_, ?_, ?_⟩
  · rw [hleaves.hbm, hb]
    rfl
  · rw [hleaves.slow, hb]
    rfl
  · rw [hleaves.places, hx, Hearth.places_retired]

/-- A completion while the fill stage goes on ends the entry, and changes neither memories nor places. -/
theorem Dev.completeEntry_spec (g : d.FillGoes h) (he : (d.hearth h).entryOf id = some e) :
    (∀ o ∈ ((d.completeEntry h id true).hearth h).window, o.id = id → o.st = .complete ∨ o.st = .retired) ∧
    d.Leaves Hearth.places h (d.completeEntry h id true) := by
  have hid := Hearth.id_of_entryOf he
  subst hid
  obtain ⟨hst, hplaces, o, hentry⟩ := Hearth.completed_spec he
  obtain ⟨b, hb⟩ : ∃ b, b = d.setHearth h ((d.hearth h).completed e) := ⟨_, rfl⟩
  have hx : b.hearth h = (d.hearth h).completed e := by rw [hb, Dev.hearth_setHearth_self]
  have hleaves : d.Leaves Hearth.places h b := ⟨by rw [hb]; rfl, by rw [hb]; rfl, by rw [hx, hplaces]⟩
  rw [Dev.completeEntry_eq g he, ← hb]
  split
  · have hgoes : b.FillGoes h := g.congr (by rw [hx, Hearth.completed_run])
    obtain ⟨hretired, hkeeps⟩ := Dev.retire_spec (id := e.id) hgoes (by rw [hx]; exact hentry)
    exact ⟨fun o ho hoid => .inr (hretired o ho hoid), hleaves.trans hkeeps⟩
  · rw [hx]
    exact ⟨fun o ho hoid => .inl (hst o ho hoid), hleaves⟩

/-- The end of a transfer frees its place and completes its entry (R112, R144). -/
theorem Dev.endTransfer_spec {p : Nat} {x : Transfer} (g : d.FillGoes h) (he : (d.hearth h).entryOf x.id = some e) :
    ((d.endTransfer h p x).hearth h).place p = none ∧
    (∀ o ∈ ((d.endTransfer h p x).hearth h).window, o.id = x.id → o.st = .complete ∨ o.st = .retired) ∧
    (d.endTransfer h p x).hbm = d.hbm ∧ (d.endTransfer h p x).slow = d.slow := by
  obtain ⟨b, hleaves, hend⟩ : ∃ b, d.Leaves Hearth.course h b ∧ d.endTransfer h p x = (b.setPlace h p none).completeEntry h x.id true := by
    unfold Dev.endTransfer
    extract_lets d1 d2
    refine ⟨d2, ?_, rfl⟩
    have h1 : d.Leaves Hearth.course h d1 := by
      unfold d1
      split
      · exact .refl ..
      · exact ⟨rfl, rfl, rfl⟩
    unfold d2
    split
    · exact h1
    · exact h1.trans (Dev.transferNotice_leaves ..)
  have hx := Dev.hearth_setPlace b h p none
  have hgoes : (b.setPlace h p none).FillGoes h := (g.leaves hleaves).congr (by rw [hx])
  have hentry : ((b.setPlace h p none).hearth h).entryOf x.id = some e := by
    rw [hx, ← he, Hearth.entryOf, Hearth.entryOf, ← hleaves.window]
  obtain ⟨hwindow, hkeeps⟩ := Dev.completeEntry_spec hgoes hentry
  have hplace : ((b.setPlace h p none).hearth h).place p = none := Dev.place_setPlace ..
  rw [hend]
  refine ⟨?_, hwindow, hkeeps.hbm.trans hleaves.hbm, hkeeps.slow.trans hleaves.slow⟩
  rw [Hearth.place, hkeeps.hearth]
  exact hplace

/-- The transfer in place `p` is that of entry `id` and has completed. -/
def Hearth.endsAt (x : Hearth) (id p : Nat) : Bool := match x.place p with
  | some t => decide (t.id = id) && t.complete
  | none => false

theorem Dev.cmdComplete_of_kind (he : (d.hearth h).entryOf id = some e) (hst : e.st = .firing) (hkind : e.kind = .stream ∨ e.kind = .flue) :
    d.cmdComplete h id = match (List.range 32).find? ((d.hearth h).endsAt id) with
      | some p => match (d.hearth h).place p with
        | some t => d.endTransfer h p t
        | none => d
      | none => d := by
  rcases hkind with hk | hk
  · simp only [Dev.cmdComplete, he, hst, hk, ne_eq, not_true_eq_false, if_false]
    rfl
  · simp only [Dev.cmdComplete, he, hst, hk, ne_eq, not_true_eq_false, if_false]
    rfl

/-- The lowest place with an ended transfer of the entry is the one that its completion frees. -/
theorem Dev.cmdComplete_transfer {p : Nat} {x : Transfer} (he : (d.hearth h).entryOf id = some e) (hst : e.st = .firing)
    (hkind : e.kind = .stream ∨ e.kind = .flue) (hplace : (d.hearth h).place p = some x) (hid : x.id = id) (hdone : x.complete = true) (hp : p < 32)
    (hlow : ∀ q < p, ∀ y, (d.hearth h).place q = some y → y.id ≠ id) : d.cmdComplete h id = d.endTransfer h p x := by
  have hfind : (List.range 32).find? ((d.hearth h).endsAt id) = some p := by
    rw [List.find?_range_eq_some]
    refine ⟨by simp [Hearth.endsAt, hplace, hid, hdone], List.mem_range.mpr hp, fun q hq => ?_⟩
    unfold Hearth.endsAt
    split
    · next y hy => simp [hlow q hq y hy]
    · rfl
  rw [Dev.cmdComplete_of_kind he hst hkind, hfind]
  simp only [hplace]

end

/-! ### ENTRY_COMPLETE -/

section
variable {s : State} {h : Fin 1024} {id : Nat} {e : WEntry} (g : s.dev.FillGoes h.val) (he : (s.dev.hearth h.val).entryOf id = some e) (hst : e.st = .firing)
include g he hst

theorem State.vectorCompletes (hk : e.kind = .vector) (hslot : e.slot = none) (hmask : e.mask = []) (hinc : e.inc = []) (htag : e.tagWord = none) :
    ∃ t, exec (.entryComplete h id) s = .next t ∧
      (∀ k, (t.dev.hearth h.val).counter k = e.hdr.signalled k ((s.dev.hearth h.val).counter k)) ∧
      (∀ o ∈ (t.dev.hearth h.val).window, o.id = id → o.st = .retired) ∧
      t.dev.get Obj.ENTRIES_RETIRED h.val = (s.dev.get Obj.ENTRIES_RETIRED h.val + 1) % 2 ^ 64 ∧
      s.OnlyHearth t h.val [Obj.ENTRIES_RETIRED.key h.val 0] := by
  have hcmd : s.dev.cmdComplete h.val id = s.dev.completeEntry h.val id true := by simp [Dev.cmdComplete, he, hst, hk]
  obtain ⟨hcounter, hwindow, hcount, honly⟩ := Dev.completeEntry_committed g he hslot hmask hinc htag (by simp [hk])
  exact ⟨_, State.onDev_next (f := fun d => d.cmdComplete h.val id) hcmd, hcounter, hwindow, hcount, State.onlyHearth_of_dev honly⟩

theorem State.transferCompletes {p : Nat} {x : Transfer} (hk : e.kind = .stream ∨ e.kind = .flue) (hplace : (s.dev.hearth h.val).place p = some x)
    (hid : x.id = id) (hdone : x.complete = true) (hp : p < 32) (hlow : ∀ q < p, ∀ y, (s.dev.hearth h.val).place q = some y → y.id ≠ id) :
    ∃ t, exec (.entryComplete h id) s = .next t ∧ (t.dev.hearth h.val).place p = none ∧
      (∀ o ∈ (t.dev.hearth h.val).window, o.id = id → o.st = .complete ∨ o.st = .retired) ∧ s.KeepsMemory t := by
  have hcmd := Dev.cmdComplete_transfer he hst hk hplace hid hdone hp hlow
  subst hid
  obtain ⟨hfree, hwindow, hhbm, hslow⟩ := Dev.endTransfer_spec (p := p) g he
  exact ⟨_, State.onDev_next (f := fun d => d.cmdComplete h.val x.id) hcmd, hfree, hwindow, hhbm, hslow, rfl, rfl⟩

end

end Sys2Proof.Machine
end

section
/-! The bellows' fetches (R116, R117), and O13. -/

namespace Sys2Proof.Machine

section
variable {d d1 d2 : Dev} {h : Nat} {w : Walk} {raw : Nat}

/-! ### The line that a fetch brings -/

/-- A line of this device that no cache holds is fetched into the scratchpad. -/
theorem Dev.fetchAhead_line {t : Transfer} {b : Blow} {n a : Nat} {v : Line} (hpages : b.pages = [])
    (hfar : d.farLine h t n = (d1, .ok d1.selfId a)) (hcache : d1.usesCache h t.d = false)
    (hread : d1.localRead a t.d.chain (some t.ctx) [] h = (d2, .line v)) :
    ((d.fetchAhead h t false b n).1.hearth h).line (t.lineOf n) = ⟨fit 0 64 v.bytes, v.ash⟩ := by
  have hkept : b.dropped (t.d.farAddr t.far n) = false := by simp [Blow.dropped, hpages]
  simp only [Dev.fetchAhead, hkept, hfar, hcache, hread, Dev.blowLine, Bool.false_eq_true, if_false, if_true]
  exact (Dev.ownLine_spec ..).1

/-! ### BELLOWS_FETCH -/

/-- The lines of a transfer fetched ahead one after another. -/
def Dev.fetchLines (d : Dev) (h : Nat) (t : Transfer) (only : Bool) : Dev × Blow :=
  (List.range t.d.total).foldl (fun s n => s.1.fetchAhead h t only s.2 n) (d, ⟨[], [], [], none⟩)

/-- The bellows note what they have fetched and what they wait for, and pass the entry. -/
theorem Dev.cmdFetch_passes (b : d.BellowsAt h w raw) (hkind : EKind.ofCode (bits raw 255 252) = some .stream) (hfetch : d.fetches h raw = true)
    (hgo : ((d.hearth h).cacheOnly || (d.hearth h).waitsCommitted (.ofWord raw) w.i w.t) = true) :
    ∃ u : Hearth → Hearth, (∀ x l, (u x).line l = x.line l) ∧ d.cmdFetch h [] =
      ((d.fetchLines h (d.aheadTransfer h (.ofWord raw) w) (d.hearth h).cacheOnly).1.modHearth h u).moveBellows h (w.advance (w.pos + 1)) := by
  obtain ⟨hw, hraw, hblows, hread⟩ := b
  simp only [Dev.cmdFetch, Dev.entrySram_nil, Dev.fetchSram_nil, ite_self, ← hw, ← hraw, hblows, hread, hkind, hfetch, hgo, ne_eq,
    not_true_eq_false, Bool.not_true, Bool.or_self, decide_false, Bool.false_eq_true, if_false]
  refine ⟨_, ?_, rfl⟩
  exact fun _ _ => rfl

theorem Dev.moveBellows_spec (d : Dev) (h : Nat) (w : Walk) :
    ((d.moveBellows h w).hearth h).bellows.walk = w ∧ ∀ l, ((d.moveBellows h w).hearth h).line l = (d.hearth h).line l := by
  rw [Dev.moveBellows, Dev.modHearth, Dev.hearth_setHearth_self]
  exact ⟨rfl, fun _ => rfl⟩

end

/-- The bellows pass the entry they fetch, and a single line of this device is in the scratchpad. -/
theorem State.bellowsFetched {s : State} {h : Fin 1024} {w : Walk} {raw : Nat} (b : s.dev.BellowsAt h.val w raw)
    (hkind : EKind.ofCode (bits raw 255 252) = some .stream) (hfetch : s.dev.fetches h.val raw = true)
    (hgo : (s.dev.hearth h.val).cacheOnly = true ∨ (s.dev.hearth h.val).waitsCommitted (.ofWord raw) w.i w.t = true) :
    ∃ t, exec (.bellowsFetch h [] []) s = .next t ∧ (t.dev.hearth h.val).bellows.walk = w.advance (w.pos + 1) ∧
      (∀ x d1 d2 a v, x = s.dev.aheadTransfer h.val (.ofWord raw) w → x.d.total = 1 →
        (s.dev.hearth h.val).cacheOnly = false → { s.dev with crc := [] }.farLine h.val x 0 = (d1, .ok d1.selfId a) →
        d1.usesCache h.val x.d = false → d1.localRead a x.d.chain (some x.ctx) [] h.val = (d2, .line v) →
        (t.dev.hearth h.val).line (x.lineOf 0) = ⟨fit 0 64 v.bytes, v.ash⟩) ∧
      t.vault = s.vault ∧ t.pending = s.pending := by
  obtain ⟨d0, hd0⟩ : ∃ d0 : Dev, d0 = { s.dev with crc := [] } := ⟨_, rfl⟩
  have hhearth : d0.hearth h.val = s.dev.hearth h.val := by rw [hd0]; rfl
  have hahead : d0.aheadTransfer h.val (.ofWord raw) w = s.dev.aheadTransfer h.val (.ofWord raw) w := by rw [hd0]; rfl
  have hat : d0.BellowsAt h.val w raw := by
    obtain ⟨hw, hraw, hblows, hread⟩ := b
    rw [hd0]
    exact ⟨hw, hraw, hblows, hread⟩
  have hfetch' : d0.fetches h.val raw = true := by rw [hd0]; exact hfetch
  obtain ⟨u, hu, hcmd⟩ := Dev.cmdFetch_passes hat hkind hfetch' (by rw [hhearth]; simpa using hgo)
  rw [hhearth, hahead] at hcmd
  obtain ⟨hwalk, hlines⟩ := Dev.moveBellows_spec
    ((d0.fetchLines h.val (s.dev.aheadTransfer h.val (.ofWord raw) w) (s.dev.hearth h.val).cacheOnly).1.modHearth h.val u) h.val (w.advance (w.pos + 1))
  have hexec := State.onDev_next (s := s) (f := fun d => d.withCrc [] fun d => d.cmdFetch h.val []) (by rw [Dev.withCrc, ← hd0, hcmd])
  refine ⟨_, hexec, hwalk, fun x d1 d2 a v hx htotal honly hfar hcache hread => (hlines _).trans ?_, rfl, rfl⟩
  rw [Dev.modHearth, Dev.hearth_setHearth_self, hu, ← hx, honly, Dev.fetchLines, htotal]
  rw [← hd0] at hfar
  exact Dev.fetchAhead_line (b := ⟨[], [], [], none⟩) rfl hfar hcache hread

/-- Settles O13: a resumed transfer's line moves without a halt or halts it again, an entry whose transfer has ended completes, and the
bellows pass what they fetch. -/
theorem haltedStreamsResumeAndEntriesComplete : Obligations.HaltedStreamsResumeAndEntriesComplete := by
  unfold Obligations.HaltedStreamsResumeAndEntriesComplete
  refine ⟨fun s h p hs => ⟨?_, ?_, ?_, ?_⟩, ?_, ?_, ?_⟩
  · exact fun x hplace hhalted => State.resumeAborts hs hplace hhalted
  · exact fun x d1 hplace hhalted hd1 hmapped hallowed => State.resumeGoesOn hs hplace hhalted hd1 hmapped hallowed
  · exact fun x d1 d2 hplace hhalted hmoved hahead hd1 hfar hfault hnative hab =>
      State.resumeHaltsAgain hs hplace hhalted hmoved hahead hd1 hfar hfault hnative hab
  · exact fun x hplace hhalted => State.resumeLeaves hs hplace hhalted
  · exact fun s h id e g he hst hk hslot hmask hinc htag => State.vectorCompletes g he hst hk hslot hmask hinc htag
  · exact fun s h id p e x g he hst hk hplace hid hdone hp hlow => State.transferCompletes g he hst hk hplace hid hdone hp hlow
  · intro s h b raw hraw hb hblow hnear hread hkind hfetch hgo
    have hat := Dev.bellowsAt_of hblow hnear hread
    rw [← hraw] at hat
    rw [hb]
    exact State.bellowsFetched hat hkind hfetch hgo

end Sys2Proof.Machine
end
